-- ==== Sys2Proof/Word.lean ====
section
/-! DEFINITION. The word types of the part (00_scope.md, 03_general_registers.md R65, 05_vector_registers.md R110). -/

namespace Sys2Proof

/-- A byte of any memory of the module. -/
abbrev Byte := BitVec 8

/-- A g register, a p register, a doubleword of the scratchpad. -/
abbrev Word := BitVec 64

/-- An f register. -/
abbrev FWord := BitVec 32

/-- A vector register. -/
abbrev VWord := BitVec 1024

/-- A core: quadrant in bits [1:0], virtual core in bits [11:2], as the host requests write it (R334, R339). -/
abbrev CoreId := BitVec 12

end Sys2Proof
end

