-- ==== Sys2Proof/Config.lean ====
section
/-! DEFINITION. What the manual leaves open, as constants without a body (log 8, log 14): a proof can use no value of them. Each is applied to a counter of State or to the operands it depends on. -/

namespace Sys2Proof.Config

/-- A byte the manual calls unspecified (00_scope.md R3): of a scratch zone after a trap, a rollback or a reload (R20), of a log zone (R204), of the destination of a failed wave (R300). Applied to the tag of the event that made the range unspecified and the byte's address. -/
opaque freeByte : Nat → Nat → Byte

/-- A full/empty bit the manual calls unspecified (09_local_memory.md R208). Applied to the same tag and the word's number. -/
opaque freeFull : Nat → Nat → Bool

/-- The sectors of a stored page that is not all zero (11_depot_and_residency.md R248), before the bounds of R248 are applied. Applied to the generation and the page number. -/
opaque sectors : Nat → Nat → Nat

/-- Whether the signature of a life-cycle request verifies (08_system_registers.md R193); the manual gives no key. -/
opaque signatureOk : List Byte → Bool

/-- The life-cycle state that a request asks for (R193); the manual gives no layout of a request. -/
opaque lcTarget : List Byte → Nat

/-- How many frames of a stack the management core reserves at boot for its page table (15_protection_and_translation_tables.md R323); the manual gives no number (log 10). -/
opaque tableFrames : Nat

/-- The current, in units of 0.25 A, that a quadrant may draw within a number of watts (R194): the greatest whose power stays within them; the manual gives no voltage. -/
opaque grant : Nat → BitVec 16

/-- Whether the host refuses a transaction of a port (R244, R245): the host is outside the module. Applied to the free-value counter. -/
opaque hostRefuses : Nat → Bool

/-- The close-point of the system collective itinerary (13_collective_queues.md R289, R300): the manual lays out none of its states. -/
opaque groupClosePoint : BitVec 6

/-- The DETAIL of a trap for whose cause the manual names no value (16_scheduling_and_trap_tables.md R353). Applied to the cause and the free-value counter. -/
opaque unnamedDetail : Nat → Nat → BitVec 64

/-- A number that the manual leaves to the device: a fresh actor identifier (R184), the slot of a child (R184), the number of a Depot channel (R252), the sequence of an answer for which no agent stands (R174). Applied to the free-value counter; what must be free or in range is taken from it on. -/
opaque freeNumber : Nat → Nat

end Sys2Proof.Config
end

