-- ==== Sys2Proof/Syntax.lean ====
section
/-! DEFINITION. The instructions and steps of the part: one constructor per row of spec/opcode_table.json. An encoded row carries its operand fields as the encoding has them (02_instruction_formats.md R45-R53); a row without an encoding is one of the part's own steps (95_what_each_step_holds.md) and carries what it acts on: a core number (quadrant in bits [1:0], virtual core in bits [11:2]), a context, an actor slot, an index into a list of State (log 2). -/

namespace Sys2Proof

/-- An instruction or an indivisible step of the part. -/
inductive Instr where
  /-- ADD (R72). g[d] := g[a] + g[b], wrapped to 64 bits. -/
  | add (b : BitVec 5) (a : BitVec 5) (d : BitVec 5)
  /-- SUB (R72). g[d] := g[a] − g[b], wrapped to 64 bits. -/
  | sub (b : BitVec 5) (a : BitVec 5) (d : BitVec 5)
  /-- AND (R72). Bitwise AND of g[a] and g[b]. -/
  | and (b : BitVec 5) (a : BitVec 5) (d : BitVec 5)
  /-- OR (R72). Bitwise OR of g[a] and g[b]. -/
  | or (b : BitVec 5) (a : BitVec 5) (d : BitVec 5)
  /-- XOR (R72). Bitwise XOR of g[a] and g[b]. -/
  | xor (b : BitVec 5) (a : BitVec 5) (d : BitVec 5)
  /-- ANDN (R72). g[a] AND NOT g[b]. -/
  | andn (b : BitVec 5) (a : BitVec 5) (d : BitVec 5)
  /-- ORN (R72). g[a] OR NOT g[b]. -/
  | orn (b : BitVec 5) (a : BitVec 5) (d : BitVec 5)
  /-- SLL (R72). Logical left shift by the low six bits of g[b]. -/
  | sll (b : BitVec 5) (a : BitVec 5) (d : BitVec 5)
  /-- SRL (R72). Logical right shift by the low six bits of g[b]. -/
  | srl (b : BitVec 5) (a : BitVec 5) (d : BitVec 5)
  /-- SRA (R72). Arithmetic right shift by the low six bits of g[b]. -/
  | sra (b : BitVec 5) (a : BitVec 5) (d : BitVec 5)
  /-- ROL (R72). Rotate g[a] left. -/
  | rol (b : BitVec 5) (a : BitVec 5) (d : BitVec 5)
  /-- ROR (R72). Rotate g[a] right. -/
  | ror (b : BitVec 5) (a : BitVec 5) (d : BitVec 5)
  /-- SLT (R72). 1 if g[a] < g[b] as signed, else 0. -/
  | slt (b : BitVec 5) (a : BitVec 5) (d : BitVec 5)
  /-- SLTN (R72). 1 if g[a] < g[b] as natural, else 0. -/
  | sltn (b : BitVec 5) (a : BitVec 5) (d : BitVec 5)
  /-- SEQ (R72). 1 if g[a] = g[b], else 0. -/
  | seq (b : BitVec 5) (a : BitVec 5) (d : BitVec 5)
  /-- SNE (R72). 1 if g[a] ≠ g[b], else 0. -/
  | sne (b : BitVec 5) (a : BitVec 5) (d : BitVec 5)
  /-- MUL (R73). Low 64 bits of the product. -/
  | mul (b : BitVec 5) (a : BitVec 5) (d : BitVec 5)
  /-- MULH (R73). High 64 bits of the signed product. -/
  | mulh (b : BitVec 5) (a : BitVec 5) (d : BitVec 5)
  /-- MULHN (R73). High 64 bits of the natural product. -/
  | mulhn (b : BitVec 5) (a : BitVec 5) (d : BitVec 5)
  /-- DIV (R74). Signed quotient truncated towards zero; traps 0x020 on divisor 0. -/
  | div (b : BitVec 5) (a : BitVec 5) (d : BitVec 5)
  /-- DIVN (R74). Natural quotient; traps 0x021 on divisor 0. -/
  | divn (b : BitVec 5) (a : BitVec 5) (d : BitVec 5)
  /-- REM (R74). Signed remainder; traps 0x022 on divisor 0. -/
  | rem (b : BitVec 5) (a : BitVec 5) (d : BitVec 5)
  /-- REMN (R74). Natural remainder; traps 0x023 on divisor 0. -/
  | remn (b : BitVec 5) (a : BitVec 5) (d : BitVec 5)
  /-- MIN (R73). Signed minimum. -/
  | min (b : BitVec 5) (a : BitVec 5) (d : BitVec 5)
  /-- MAX (R73). Signed maximum. -/
  | max (b : BitVec 5) (a : BitVec 5) (d : BitVec 5)
  /-- MINN (R73). Natural minimum. -/
  | minn (b : BitVec 5) (a : BitVec 5) (d : BitVec 5)
  /-- MAXN (R73). Natural maximum. -/
  | maxn (b : BitVec 5) (a : BitVec 5) (d : BitVec 5)
  /-- SEL (R73). g[a] if g[c] ≠ 0, else g[b]. -/
  | sel (c : BitVec 5) (b : BitVec 5) (a : BitVec 5) (d : BitVec 5)
  /-- CLZ (R73). Count of leading zero bits. -/
  | clz (a : BitVec 5) (d : BitVec 5)
  /-- CTZ (R73). Count of trailing zero bits. -/
  | ctz (a : BitVec 5) (d : BitVec 5)
  /-- POP (R73). Count of one bits. -/
  | pop (a : BitVec 5) (d : BitVec 5)
  /-- REV8 (R73). Byte-reverse g[a]. -/
  | rev8 (a : BitVec 5) (d : BitVec 5)
  /-- BEXT (R75). Extract a bit field, sign-extended. -/
  | bext (b : BitVec 5) (a : BitVec 5) (d : BitVec 5)
  /-- BEXTN (R75). Extract a bit field, zero-extended. -/
  | bextn (b : BitVec 5) (a : BitVec 5) (d : BitVec 5)
  /-- BINS (R75). Insert low bits of g[c] into a field of g[a]. -/
  | bins (c : BitVec 5) (b : BitVec 5) (a : BitVec 5) (d : BitVec 5)
  /-- SXB (R75). Sign-extend the low byte. -/
  | sxb (a : BitVec 5) (d : BitVec 5)
  /-- SXH (R75). Sign-extend the low half. -/
  | sxh (a : BitVec 5) (d : BitVec 5)
  /-- SXW (R75). Sign-extend the low word. -/
  | sxw (a : BitVec 5) (d : BitVec 5)
  /-- ZXB (R75). Zero-extend the low byte. -/
  | zxb (a : BitVec 5) (d : BitVec 5)
  /-- ZXH (R75). Zero-extend the low half. -/
  | zxh (a : BitVec 5) (d : BitVec 5)
  /-- ZXW (R75). Zero-extend the low word. -/
  | zxw (a : BitVec 5) (d : BitVec 5)
  /-- SLLI (R75). Logical left shift by an immediate 0–63. -/
  | slli (s : BitVec 6) (a : BitVec 5) (d : BitVec 5)
  /-- SRLI (R75). Logical right shift by an immediate. -/
  | srli (s : BitVec 6) (a : BitVec 5) (d : BitVec 5)
  /-- SRAI (R75). Arithmetic right shift by an immediate. -/
  | srai (s : BitVec 6) (a : BitVec 5) (d : BitVec 5)
  /-- ADDI (R76). Add a sign-extended 14-bit immediate. -/
  | addi (i : BitVec 14) (a : BitVec 5) (d : BitVec 5)
  /-- ANDI (R76). AND with a sign-extended immediate. -/
  | andi (i : BitVec 14) (a : BitVec 5) (d : BitVec 5)
  /-- ORI (R76). OR with a sign-extended immediate. -/
  | ori (i : BitVec 14) (a : BitVec 5) (d : BitVec 5)
  /-- XORI (R76). XOR with a sign-extended immediate. -/
  | xori (i : BitVec 14) (a : BitVec 5) (d : BitVec 5)
  /-- SLTI (R76). 1 if g[a] < immediate as signed. -/
  | slti (i : BitVec 14) (a : BitVec 5) (d : BitVec 5)
  /-- LUI (R77). g[d] := sext(imm19) × 2^13. -/
  | lui (i : BitVec 19) (d : BitVec 5)
  /-- LPC (R77). g[d] := PC + 2 × sext(imm19). -/
  | lpc (i : BitVec 19) (d : BitVec 5)
  /-- B_EQ (R78). Branch if g[a] = g[b]. -/
  | bEq (o : BitVec 11) (b : BitVec 5) (a : BitVec 5)
  /-- B_NE (R78). Branch if g[a] ≠ g[b]. -/
  | bNe (o : BitVec 11) (b : BitVec 5) (a : BitVec 5)
  /-- B_LT (R78). Branch if g[a] < g[b] as signed. -/
  | bLt (o : BitVec 11) (b : BitVec 5) (a : BitVec 5)
  /-- B_GE (R78). Branch if g[a] ≥ g[b] as signed. -/
  | bGe (o : BitVec 11) (b : BitVec 5) (a : BitVec 5)
  /-- B_LTN (R78). Branch if g[a] < g[b] as natural. -/
  | bLtn (o : BitVec 11) (b : BitVec 5) (a : BitVec 5)
  /-- B_GEN (R78). Branch if g[a] ≥ g[b] as natural. -/
  | bGen (o : BitVec 11) (b : BitVec 5) (a : BitVec 5)
  /-- B_BSET (R78). Branch if the selected bit of g[a] is 1. -/
  | bBset (o : BitVec 11) (b : BitVec 5) (a : BitVec 5)
  /-- B_BCLR (R78). Branch if the selected bit of g[a] is 0. -/
  | bBclr (o : BitVec 11) (b : BitVec 5) (a : BitVec 5)
  /-- J (R79). Jump PC-relative. -/
  | j (o : BitVec 24)
  /-- JAL (R79). Jump PC-relative and write g31 := PC + 4. -/
  | jal (o : BitVec 24)
  /-- JALR (R80). Jump to g[a] + offset after bitmap and image checks, linking in g[d]. -/
  | jalr (i : BitVec 14) (a : BitVec 5) (d : BitVec 5)
  /-- DBNZ (R81). Decrement g[a] into g[d] and branch if the result is nonzero. -/
  | dbnz (o : BitVec 14) (a : BitVec 5) (d : BitVec 5)
  /-- FADD (R84). f32 addition rounded in mode rm. -/
  | fadd (m : BitVec 3) (b : BitVec 5) (a : BitVec 5) (d : BitVec 5)
  /-- FSUB (R84). f32 subtraction. -/
  | fsub (m : BitVec 3) (b : BitVec 5) (a : BitVec 5) (d : BitVec 5)
  /-- FMUL (R84). f32 multiplication. -/
  | fmul (m : BitVec 3) (b : BitVec 5) (a : BitVec 5) (d : BitVec 5)
  /-- FDIV (R84). f32 division. -/
  | fdiv (m : BitVec 3) (b : BitVec 5) (a : BitVec 5) (d : BitVec 5)
  /-- FSQRT (R84). f32 square root. -/
  | fsqrt (m : BitVec 3) (a : BitVec 5) (d : BitVec 5)
  /-- FMIN (R85). f32 minimum with NaN and signed-zero rules. -/
  | fmin (b : BitVec 5) (a : BitVec 5) (d : BitVec 5)
  /-- FMAX (R85). f32 maximum. -/
  | fmax (b : BitVec 5) (a : BitVec 5) (d : BitVec 5)
  /-- FABS (R84). Clear the sign bit. -/
  | fabs (a : BitVec 5) (d : BitVec 5)
  /-- FNEG (R84). Invert the sign bit. -/
  | fneg (a : BitVec 5) (d : BitVec 5)
  /-- FSGNJ (R84). Magnitude of f[a] with the sign of f[b]. -/
  | fsgnj (b : BitVec 5) (a : BitVec 5) (d : BitVec 5)
  /-- FFMA (R84). Fused f[a] × f[b] + f[c], RNE. -/
  | ffma (c : BitVec 5) (b : BitVec 5) (a : BitVec 5) (d : BitVec 5)
  /-- FFMS (R84). Fused f[a] × f[b] − f[c], RNE. -/
  | ffms (c : BitVec 5) (b : BitVec 5) (a : BitVec 5) (d : BitVec 5)
  /-- FNFMA (R84). Fused f[c] − f[a] × f[b], RNE. -/
  | fnfma (c : BitVec 5) (b : BitVec 5) (a : BitVec 5) (d : BitVec 5)
  /-- FCMPEQ (R84). g[d] := 1 if f[a] = f[b]. -/
  | fcmpeq (b : BitVec 5) (a : BitVec 5) (d : BitVec 5)
  /-- FCMPLT (R84). g[d] := 1 if f[a] < f[b]. -/
  | fcmplt (b : BitVec 5) (a : BitVec 5) (d : BitVec 5)
  /-- FCMPLE (R84). g[d] := 1 if f[a] ≤ f[b]. -/
  | fcmple (b : BitVec 5) (a : BitVec 5) (d : BitVec 5)
  /-- FCVT_F_G (R86). Convert an integer of the given type to f32. -/
  | fcvtFG (m : BitVec 3) (t : BitVec 2) (a : BitVec 5) (d : BitVec 5)
  /-- FCVT_G_F (R87). Convert f32 to an integer with saturation. -/
  | fcvtGF (m : BitVec 3) (t : BitVec 2) (a : BitVec 5) (d : BitVec 5)
  /-- FMV_F_G (R86). Move the low 32 bits of g[a] to f[d]. -/
  | fmvFG (a : BitVec 5) (d : BitVec 5)
  /-- FMV_G_F (R86). Move f[a] zero-extended to g[d]. -/
  | fmvGF (a : BitVec 5) (d : BitVec 5)
  /-- FCLS (R88). Write the class code of f[a]. -/
  | fcls (a : BitVec 5) (d : BitVec 5)
  /-- FROUND (R86). Round f[a] to an integral f32. -/
  | fround (m : BitVec 3) (a : BitVec 5) (d : BitVec 5)
  /-- FCVT_F_BF16 (R86). Widen bf16 to f32. -/
  | fcvtFBf16 (a : BitVec 5) (d : BitVec 5)
  /-- FCVT_BF16_F (R86). Round f32 to bf16. -/
  | fcvtBf16F (m : BitVec 3) (a : BitVec 5) (d : BitVec 5)
  /-- FCVT_F_HF (R86). Widen hf to f32. -/
  | fcvtFHf (a : BitVec 5) (d : BitVec 5)
  /-- FCVT_HF_F (R86). Round f32 to hf. -/
  | fcvtHfF (m : BitVec 3) (a : BitVec 5) (d : BitVec 5)
  /-- FSCAL (R86). f[a] × 2^n with n from g[b], rounded once. -/
  | fscal (m : BitVec 3) (b : BitVec 5) (a : BitVec 5) (d : BitVec 5)
  /-- FRECIP (R89). Approximate reciprocal. -/
  | frecip (a : BitVec 5) (d : BitVec 5)
  /-- FRSQ (R89). Approximate reciprocal square root. -/
  | frsq (a : BitVec 5) (d : BitVec 5)
  /-- LDB (R214). Load a byte, sign-extended. -/
  | ldb (i : BitVec 10) (a : BitVec 5) (d : BitVec 5)
  /-- LDBN (R214). Load a byte, zero-extended. -/
  | ldbn (i : BitVec 10) (a : BitVec 5) (d : BitVec 5)
  /-- LDH (R214). Load a half, sign-extended. -/
  | ldh (i : BitVec 10) (a : BitVec 5) (d : BitVec 5)
  /-- LDHN (R214). Load a half, zero-extended. -/
  | ldhn (i : BitVec 10) (a : BitVec 5) (d : BitVec 5)
  /-- LDW (R214). Load a word, sign-extended. -/
  | ldw (i : BitVec 10) (a : BitVec 5) (d : BitVec 5)
  /-- LDWN (R214). Load a word, zero-extended. -/
  | ldwn (i : BitVec 10) (a : BitVec 5) (d : BitVec 5)
  /-- LDD (R214). Load a doubleword. -/
  | ldd (i : BitVec 10) (a : BitVec 5) (d : BitVec 5)
  /-- LDF (R214). Load 32 bits into an f register. -/
  | ldf (i : BitVec 10) (a : BitVec 5) (d : BitVec 5)
  /-- LDSYNC (R215). Wait for the word to be full, load it and mark it empty. -/
  | ldsync (i : BitVec 10) (a : BitVec 5) (d : BitVec 5)
  /-- LDPEEK (R215). Wait for the word to be full and load it, leaving it full. -/
  | ldpeek (i : BitVec 10) (a : BitVec 5) (d : BitVec 5)
  /-- STB (R214). Store a byte. -/
  | stb (i : BitVec 10) (a : BitVec 5) (d : BitVec 5)
  /-- STH (R214). Store a half. -/
  | sth (i : BitVec 10) (a : BitVec 5) (d : BitVec 5)
  /-- STW (R214). Store a word. -/
  | stw (i : BitVec 10) (a : BitVec 5) (d : BitVec 5)
  /-- STD (R214). Store a doubleword. -/
  | std (i : BitVec 10) (a : BitVec 5) (d : BitVec 5)
  /-- STF (R214). Store an f register. -/
  | stf (i : BitVec 10) (a : BitVec 5) (d : BitVec 5)
  /-- STFILL (R214). Store a doubleword and set its full bit. -/
  | stfill (i : BitVec 10) (a : BitVec 5) (d : BitVec 5)
  /-- CLRFULL (R214). Mark a word empty. -/
  | clrfull (i : BitVec 10) (a : BitVec 5)
  /-- AADD (R217). Atomic local add, returning the old value. -/
  | aadd (b : BitVec 5) (a : BitVec 5) (d : BitVec 5)
  /-- ASWAP (R217). Atomic local swap. -/
  | aswap (b : BitVec 5) (a : BitVec 5) (d : BitVec 5)
  /-- ACAS (R217). Atomic local compare-and-swap. -/
  | acas (c : BitVec 5) (b : BitVec 5) (a : BitVec 5) (d : BitVec 5)
  /-- LDBITS (R218). Load a w-bit field at a bit address, optionally sign-extended and post-incremented. -/
  | ldbits (s : BitVec 1) (n : BitVec 1) (w : BitVec 5) (a : BitVec 5) (d : BitVec 5)
  /-- STBITS (R218). Store a w-bit field at a bit address. -/
  | stbits (n : BitVec 1) (w : BitVec 5) (a : BitVec 5) (d : BitVec 5)
  /-- BADD (R90). b[d] := b[d] + g[a] wrapped to 32 bits. -/
  | badd (a : BitVec 5) (d : BitVec 5)
  /-- BSET (R90). b[d] := low 32 bits of g[a]. -/
  | bset (a : BitVec 5) (d : BitVec 5)
  /-- BGET (R90). g[d] := b[a]. -/
  | bget (a : BitVec 5) (d : BitVec 5)
  /-- VADD (R115). Element-wise integer add. -/
  | vadd (p : BitVec 3) (b : BitVec 4) (a : BitVec 4) (d : BitVec 4) (t : BitVec 2)
  /-- VSUB (R115). Element-wise integer subtract. -/
  | vsub (p : BitVec 3) (b : BitVec 4) (a : BitVec 4) (d : BitVec 4) (t : BitVec 2)
  /-- VMUL (R115). Element-wise low product. -/
  | vmul (p : BitVec 3) (b : BitVec 4) (a : BitVec 4) (d : BitVec 4) (t : BitVec 2)
  /-- VMULH (R115). Element-wise signed high product. -/
  | vmulh (p : BitVec 3) (b : BitVec 4) (a : BitVec 4) (d : BitVec 4) (t : BitVec 2)
  /-- VMULHN (R115). Element-wise natural high product. -/
  | vmulhn (p : BitVec 3) (b : BitVec 4) (a : BitVec 4) (d : BitVec 4) (t : BitVec 2)
  /-- VMIN (R115). Element-wise signed minimum. -/
  | vmin (p : BitVec 3) (b : BitVec 4) (a : BitVec 4) (d : BitVec 4) (t : BitVec 2)
  /-- VMAX (R115). Element-wise signed maximum. -/
  | vmax (p : BitVec 3) (b : BitVec 4) (a : BitVec 4) (d : BitVec 4) (t : BitVec 2)
  /-- VMINN (R115). Element-wise natural minimum. -/
  | vminn (p : BitVec 3) (b : BitVec 4) (a : BitVec 4) (d : BitVec 4) (t : BitVec 2)
  /-- VMAXN (R115). Element-wise natural maximum. -/
  | vmaxn (p : BitVec 3) (b : BitVec 4) (a : BitVec 4) (d : BitVec 4) (t : BitVec 2)
  /-- VAND (R115). Element-wise AND. -/
  | vand (p : BitVec 3) (b : BitVec 4) (a : BitVec 4) (d : BitVec 4) (t : BitVec 2)
  /-- VOR (R115). Element-wise OR. -/
  | vor (p : BitVec 3) (b : BitVec 4) (a : BitVec 4) (d : BitVec 4) (t : BitVec 2)
  /-- VXOR (R115). Element-wise XOR. -/
  | vxor (p : BitVec 3) (b : BitVec 4) (a : BitVec 4) (d : BitVec 4) (t : BitVec 2)
  /-- VSLL (R115). Element-wise left shift. -/
  | vsll (p : BitVec 3) (b : BitVec 4) (a : BitVec 4) (d : BitVec 4) (t : BitVec 2)
  /-- VSRL (R115). Element-wise logical right shift. -/
  | vsrl (p : BitVec 3) (b : BitVec 4) (a : BitVec 4) (d : BitVec 4) (t : BitVec 2)
  /-- VSRA (R115). Element-wise arithmetic right shift. -/
  | vsra (p : BitVec 3) (b : BitVec 4) (a : BitVec 4) (d : BitVec 4) (t : BitVec 2)
  /-- VABS (R115). Element-wise absolute value. -/
  | vabs (p : BitVec 3) (a : BitVec 4) (d : BitVec 4) (t : BitVec 2)
  /-- VADDS (R115). Signed saturating add, SA on clamp. -/
  | vadds (p : BitVec 3) (b : BitVec 4) (a : BitVec 4) (d : BitVec 4) (t : BitVec 2)
  /-- VADDSN (R115). Natural saturating add. -/
  | vaddsn (p : BitVec 3) (b : BitVec 4) (a : BitVec 4) (d : BitVec 4) (t : BitVec 2)
  /-- VSUBS (R115). Signed saturating subtract. -/
  | vsubs (p : BitVec 3) (b : BitVec 4) (a : BitVec 4) (d : BitVec 4) (t : BitVec 2)
  /-- VSUBSN (R115). Natural saturating subtract. -/
  | vsubsn (p : BitVec 3) (b : BitVec 4) (a : BitVec 4) (d : BitVec 4) (t : BitVec 2)
  /-- VAVG (R115). Element-wise rounded average. -/
  | vavg (p : BitVec 3) (b : BitVec 4) (a : BitVec 4) (d : BitVec 4) (t : BitVec 2)
  /-- VDOT4 (R116). Four-way i8 dot product accumulated into 32-bit lanes. -/
  | vdot4 (p : BitVec 3) (c : BitVec 4) (b : BitVec 4) (a : BitVec 4) (d : BitVec 4)
  /-- VCMPEQ (R117). Element-wise equality into a mask register. -/
  | vcmpeq (p : BitVec 3) (b : BitVec 4) (a : BitVec 4) (d : BitVec 4) (t : BitVec 2)
  /-- VCMPLT (R117). Element-wise signed less-than into a mask. -/
  | vcmplt (p : BitVec 3) (b : BitVec 4) (a : BitVec 4) (d : BitVec 4) (t : BitVec 2)
  /-- VCMPLTN (R117). Element-wise natural less-than into a mask. -/
  | vcmpltn (p : BitVec 3) (b : BitVec 4) (a : BitVec 4) (d : BitVec 4) (t : BitVec 2)
  /-- VFADD (R118). Floating add rounded by VRND. -/
  | vfadd (p : BitVec 3) (b : BitVec 4) (a : BitVec 4) (d : BitVec 4) (t : BitVec 4)
  /-- VFSUB (R118). Floating subtract. -/
  | vfsub (p : BitVec 3) (b : BitVec 4) (a : BitVec 4) (d : BitVec 4) (t : BitVec 4)
  /-- VFMUL (R118). Floating multiply. -/
  | vfmul (p : BitVec 3) (b : BitVec 4) (a : BitVec 4) (d : BitVec 4) (t : BitVec 4)
  /-- VFFMA (R118). Fused multiply-add. -/
  | vffma (p : BitVec 3) (c : BitVec 4) (b : BitVec 4) (a : BitVec 4) (d : BitVec 4) (t : BitVec 4)
  /-- VFFMS (R118). Fused multiply-subtract. -/
  | vffms (p : BitVec 3) (c : BitVec 4) (b : BitVec 4) (a : BitVec 4) (d : BitVec 4) (t : BitVec 4)
  /-- VFMIN (R118). Floating minimum by R85. -/
  | vfmin (p : BitVec 3) (b : BitVec 4) (a : BitVec 4) (d : BitVec 4) (t : BitVec 4)
  /-- VFMAX (R118). Floating maximum by R85. -/
  | vfmax (p : BitVec 3) (b : BitVec 4) (a : BitVec 4) (d : BitVec 4) (t : BitVec 4)
  /-- VFABS (R118). Clear sign bits. -/
  | vfabs (p : BitVec 3) (a : BitVec 4) (d : BitVec 4) (t : BitVec 4)
  /-- VFNEG (R118). Invert sign bits. -/
  | vfneg (p : BitVec 3) (a : BitVec 4) (d : BitVec 4) (t : BitVec 4)
  /-- VFDIV (R118). f32 element division. -/
  | vfdiv (p : BitVec 3) (b : BitVec 4) (a : BitVec 4) (d : BitVec 4)
  /-- VFSQRT (R118). f32 element square root. -/
  | vfsqrt (p : BitVec 3) (a : BitVec 4) (d : BitVec 4)
  /-- VFRECIP (R120). Approximate reciprocal by table and Newton steps. -/
  | vfrecip (p : BitVec 3) (a : BitVec 4) (d : BitVec 4) (t : BitVec 4)
  /-- VFRSQ (R121). Approximate reciprocal square root. -/
  | vfrsq (p : BitVec 3) (a : BitVec 4) (d : BitVec 4) (t : BitVec 4)
  /-- VFEXP2 (R122). Approximate 2^x. -/
  | vfexp2 (p : BitVec 3) (a : BitVec 4) (d : BitVec 4) (t : BitVec 4)
  /-- VFCMPEQ (R119). Floating equality into a mask. -/
  | vfcmpeq (p : BitVec 3) (b : BitVec 4) (a : BitVec 4) (d : BitVec 4) (t : BitVec 4)
  /-- VFCMPLT (R119). Floating less-than into a mask. -/
  | vfcmplt (p : BitVec 3) (b : BitVec 4) (a : BitVec 4) (d : BitVec 4) (t : BitVec 4)
  /-- VFCMPLE (R119). Floating less-or-equal into a mask. -/
  | vfcmple (p : BitVec 3) (b : BitVec 4) (a : BitVec 4) (d : BitVec 4) (t : BitVec 4)
  /-- VFCLASS (R118). Element class codes. -/
  | vfclass (p : BitVec 3) (a : BitVec 4) (d : BitVec 4) (t : BitVec 4)
  /-- VFSCALE (R119). Scale elements by 2^n from vb. -/
  | vfscale (p : BitVec 3) (b : BitVec 4) (a : BitVec 4) (d : BitVec 4) (t : BitVec 4)
  /-- VCVT (R124). Element-wise type conversion. -/
  | vcvt (p : BitVec 3) (t : BitVec 4) (s : BitVec 4) (a : BitVec 4) (d : BitVec 4)
  /-- VCVTSC (R125). Conversion with e8m0 block scales as KC8. -/
  | vcvtsc (c : BitVec 4) (k : BitVec 4) (a : BitVec 4) (d : BitVec 4)
  /-- VSPLAT (R126). Broadcast low bits of g[a] to active elements. -/
  | vsplat (p : BitVec 3) (w : BitVec 3) (g : BitVec 5) (d : BitVec 4)
  /-- VSPLATF (R126). Broadcast f[a] to active elements. -/
  | vsplatf (p : BitVec 3) (w : BitVec 3) (f : BitVec 5) (d : BitVec 4)
  /-- VEXT (R126). Extract element i to a g register. -/
  | vext (i : BitVec 7) (b : BitVec 4) (x : BitVec 3) (g : BitVec 5)
  /-- VINS (R126). Insert g[a] as element i. -/
  | vins (i : BitVec 7) (w : BitVec 3) (g : BitVec 5) (d : BitVec 4)
  /-- VPERM (R127). Permute elements by an index vector. -/
  | vperm (p : BitVec 3) (w : BitVec 2) (b : BitVec 4) (a : BitVec 4) (d : BitVec 4)
  /-- VSLIDE (R127). Byte window of va‖vb at offset k. -/
  | vslide (k : BitVec 7) (b : BitVec 4) (a : BitVec 4) (d : BitVec 4)
  /-- VCOMPRESS (R127). Pack active elements to the front. -/
  | vcompress (p : BitVec 3) (w : BitVec 2) (a : BitVec 4) (d : BitVec 4)
  /-- VEXPAND (R127). Spread leading elements to active positions. -/
  | vexpand (p : BitVec 3) (w : BitVec 2) (a : BitVec 4) (d : BitVec 4)
  /-- VMERGE (R127). Select va or vb per position by mask. -/
  | vmerge (p : BitVec 3) (w : BitVec 2) (b : BitVec 4) (a : BitVec 4) (d : BitVec 4)
  /-- VREDSUM (R128). Tree sum of all positions. -/
  | vredsum (p : BitVec 3) (t : BitVec 4) (a : BitVec 4) (d : BitVec 4)
  /-- VREDMAX (R128). Tree maximum. -/
  | vredmax (p : BitVec 3) (t : BitVec 4) (a : BitVec 4) (d : BitVec 4)
  /-- VREDMIN (R128). Tree minimum. -/
  | vredmin (p : BitVec 3) (t : BitVec 4) (a : BitVec 4) (d : BitVec 4)
  /-- VTOPK (R129). Select the k largest values with indices. -/
  | vtopk (k : BitVec 5) (y : BitVec 1) (b : BitVec 4) (a : BitVec 4) (d : BitVec 4)
  /-- VTOPK_M (R129). Merge two top-k lists. -/
  | vtopkM (k : BitVec 5) (y : BitVec 1) (b : BitVec 4) (a : BitVec 4) (d : BitVec 4)
  /-- VMAND (R130). Mask AND. -/
  | vmand (b : BitVec 4) (a : BitVec 4) (d : BitVec 4)
  /-- VMOR (R130). Mask OR. -/
  | vmor (b : BitVec 4) (a : BitVec 4) (d : BitVec 4)
  /-- VMNOT (R130). Mask NOT. -/
  | vmnot (a : BitVec 4) (d : BitVec 4)
  /-- VMPOP (R130). Population count of a mask. -/
  | vmpop (b : BitVec 4) (g : BitVec 5)
  /-- VLD (R131). Load 128 bytes from the scratchpad. -/
  | vld (p : BitVec 3) (o : BitVec 4) (w : BitVec 2) (g : BitVec 5) (d : BitVec 4)
  /-- VST (R131). Store 128 bytes to the scratchpad. -/
  | vst (p : BitVec 3) (o : BitVec 4) (w : BitVec 2) (g : BitVec 5) (d : BitVec 4)
  /-- VLDX (R132). Gather elements. -/
  | vldx (p : BitVec 3) (w : BitVec 2) (x : BitVec 4) (g : BitVec 5) (d : BitVec 4)
  /-- VSTX (R132). Scatter elements. -/
  | vstx (p : BitVec 3) (w : BitVec 2) (x : BitVec 4) (g : BitVec 5) (d : BitVec 4)
  /-- VLDBITS (R133). Read 64 w-bit fields into 16-bit elements. -/
  | vldbits (p : BitVec 3) (n : BitVec 1) (m : BitVec 2) (w : BitVec 4) (b : BitVec 2) (d : BitVec 4)
  /-- TCFG (R138). Claim or reconfigure a tile and zero it. -/
  | tcfg (a : BitVec 5) (t : BitVec 3)
  /-- TREL (R147). Zero and release a tile. -/
  | trel (t : BitVec 3)
  /-- TZERO (R147). Zero a tile. -/
  | tzero (t : BitVec 3)
  /-- TLDROW (R149). Load a row slice from a vector register. -/
  | tldrow (b : BitVec 5) (v : BitVec 4) (t : BitVec 3)
  /-- TLDCOL (R149). Load a column slice from a vector register. -/
  | tldcol (b : BitVec 5) (v : BitVec 4) (t : BitVec 3)
  /-- TSTROW (R149). Store a row slice to a vector register. -/
  | tstrow (b : BitVec 5) (v : BitVec 4) (t : BitVec 3)
  /-- TSTCOL (R149). Store a column slice to a vector register. -/
  | tstcol (b : BitVec 5) (v : BitVec 4) (t : BitVec 3)
  /-- TLOAD (R150). Load 16 scratchpad rows into a tile. -/
  | tload (b : BitVec 5) (a : BitVec 5) (t : BitVec 3)
  /-- TSTORE (R150). Store a tile as 16 scratchpad rows, setting full bits. -/
  | tstore (b : BitVec 5) (a : BitVec 5) (t : BitVec 3)
  /-- TWAIT (R151). Stall until the context's earlier matrix commands complete. -/
  | twait
  /-- MMA_BF16 (R153). bf16 matrix multiply-accumulate into f32. -/
  | mmaBf16 (c : BitVec 5) (b : BitVec 5) (a : BitVec 5) (t : BitVec 3)
  /-- MMA_HF (R153). hf matrix multiply-accumulate. -/
  | mmaHf (c : BitVec 5) (b : BitVec 5) (a : BitVec 5) (t : BitVec 3)
  /-- MMA_E4E4 (R153). e4m3 × e4m3 with e8m0 group scales. -/
  | mmaE4e4 (c : BitVec 5) (b : BitVec 5) (a : BitVec 5) (t : BitVec 3)
  /-- MMA_E4E5 (R153). e4m3 × e5m2 multiply-accumulate. -/
  | mmaE4e5 (c : BitVec 5) (b : BitVec 5) (a : BitVec 5) (t : BitVec 3)
  /-- MMA_E5E4 (R153). e5m2 × e4m3 multiply-accumulate. -/
  | mmaE5e4 (c : BitVec 5) (b : BitVec 5) (a : BitVec 5) (t : BitVec 3)
  /-- MMA_E5E5 (R153). e5m2 × e5m2 multiply-accumulate. -/
  | mmaE5e5 (c : BitVec 5) (b : BitVec 5) (a : BitVec 5) (t : BitVec 3)
  /-- MMA_BF16E4 (R153). bf16 × e4m3 with column scales. -/
  | mmaBf16e4 (c : BitVec 5) (b : BitVec 5) (a : BitVec 5) (t : BitVec 3)
  /-- MMA_I8 (R153). i8 matrix multiply-accumulate into i32. -/
  | mmaI8 (b : BitVec 5) (a : BitVec 5) (t : BitVec 3)
  /-- MMA_TI8 (R153). i8 × ternary multiply-accumulate into i32. -/
  | mmaTi8 (b : BitVec 5) (a : BitVec 5) (t : BitVec 3)
  /-- MMA_TBF16 (R153). bf16 × ternary multiply-accumulate into f32. -/
  | mmaTbf16 (c : BitVec 5) (b : BitVec 5) (a : BitVec 5) (t : BitVec 3)
  /-- CONNECT (R173). Ask a peer to open a channel under an itinerary. -/
  | connect (c : BitVec 6) (b : BitVec 5) (a : BitVec 5) (e : BitVec 4)
  /-- ACCEPT (R172). Arm an endpoint to receive one connection. -/
  | accept (c : BitVec 6) (b : BitVec 5) (a : BitVec 5) (e : BitVec 4)
  /-- SEND (R165). Send a scratchpad payload on an endpoint after itinerary checks. -/
  | send (c : BitVec 6) (b : BitVec 5) (a : BitVec 5) (e : BitVec 4)
  /-- SENDV (R165). Send bytes of a vector register. -/
  | sendv (c : BitVec 6) (b : BitVec 5) (v : BitVec 4) (e : BitVec 4)
  /-- SENDT (R165). Send bytes of a held tile. -/
  | sendt (c : BitVec 6) (b : BitVec 5) (t : BitVec 3) (e : BitVec 4)
  /-- SEL_LABEL (R166). Make an internal choice and send a label message. -/
  | selLabel (l : BitVec 2) (e : BitVec 4)
  /-- RECV (R169). Consume a held message at a recv state. -/
  | recv (b : BitVec 5) (a : BitVec 5) (e : BitVec 4)
  /-- OFFER (R169). Consume a label message at an offer state. -/
  | offer (a : BitVec 5) (e : BitVec 4)
  /-- PROBE (R171). Report the oldest message and the count available. -/
  | probe (a : BitVec 5) (e : BitVec 4)
  /-- CLOSE (R175). Close a channel from this side and send a close notice. -/
  | close (k : BitVec 5) (e : BitVec 4)
  /-- SENDEP (R180). Delegate an endpoint to the carrier's peer. -/
  | sendep (c : BitVec 6) (m : BitVec 4) (e : BitVec 4)
  /-- RECVEP (R181). Bind a received delegation into a target endpoint. -/
  | recvep (m : BitVec 4) (e : BitVec 4)
  /-- ESTATE (R185). Read word w of an endpoint record. -/
  | estate (w : BitVec 2) (a : BitVec 5) (e : BitVec 4)
  /-- SPAWN (R184). Create a child actor connected to an endpoint. -/
  | spawn (c : BitVec 6) (b : BitVec 5) (a : BitVec 5) (e : BitVec 4)
  /-- MRD (R228). Read up to 256 global bytes, reply at a class. -/
  | mrd (c : BitVec 6) (b : BitVec 5) (a : BitVec 5)
  /-- MWR (R228). Write up to 256 global bytes from the scratchpad. -/
  | mwr (c : BitVec 6) (b : BitVec 5) (a : BitVec 5)
  /-- MAMO (R229). Global atomic operation performed at the home. -/
  | mamo (c : BitVec 6) (b : BitVec 5) (a : BitVec 5)
  /-- CPGET (R231). Copy global to local. -/
  | cpget (c : BitVec 6) (b : BitVec 5) (a : BitVec 5)
  /-- CPPUT (R231). Copy local to global. -/
  | cpput (c : BitVec 6) (b : BitVec 5) (a : BitVec 5)
  /-- CPGATH (R231). Strided gather from global. -/
  | cpgath (c : BitVec 6) (b : BitVec 5) (a : BitVec 5)
  /-- CPSCAT (R231). Strided scatter to global. -/
  | cpscat (c : BitVec 6) (b : BitVec 5) (a : BitVec 5)
  /-- CPFILL (R231). Fill a global range with a pattern. -/
  | cpfill (c : BitVec 6) (b : BitVec 5) (a : BitVec 5)
  /-- CPCVT (R232). Convert context segments between bf16 and KC8/KC4. -/
  | cpcvt (c : BitVec 6) (b : BitVec 5) (a : BitVec 5)
  /-- CPWAIT (R233). Stall until the context's departed copy commands complete. -/
  | cpwait
  /-- GJOIN (R296). Join a group with a group endpoint. -/
  | gjoin (c : BitVec 6) (a : BitVec 5) (e : BitVec 4)
  /-- GLEAVE (R291). Leave a group as the member's last wave. -/
  | gleave (e : BitVec 4)
  /-- GWAIT (R393). Barrier wave. -/
  | gwait (c : BitVec 6) (e : BitVec 4)
  /-- GRED (R297). Reduction wave on the router adders. -/
  | gred (c : BitVec 6) (b : BitVec 5) (a : BitVec 5) (e : BitVec 4)
  /-- GBCAST (R393). Broadcast wave from a root rank. -/
  | gbcast (c : BitVec 6) (b : BitVec 5) (a : BitVec 5) (e : BitVec 4)
  /-- GRS (R297). Reduce-scatter wave. -/
  | grs (c : BitVec 6) (b : BitVec 5) (a : BitVec 5) (e : BitVec 4)
  /-- GAG (R297). All-gather wave. -/
  | gag (c : BitVec 6) (b : BitVec 5) (a : BitVec 5) (e : BitVec 4)
  /-- VNOW (R376). Read VNOW. -/
  | vnow (d : BitVec 5)
  /-- VSET (R376). Set VOUT so the next send carries the given VRT. -/
  | vset (a : BitVec 5)
  /-- VMILE (R376). Read the Milestone. -/
  | vmile (d : BitVec 5)
  /-- PRIO (R343). Lower the running activation's priority class. -/
  | prio (a : BitVec 5)
  /-- BUDGET (R382). Shorten the remaining cycle budget. -/
  | budget (a : BitVec 5)
  /-- COMMIT (R275). Release staged items and set a new restore point. -/
  | commit
  /-- DONE (R276). End the activation. -/
  | done
  /-- DONE_RETIRE (R38). End the activation and retire the actor, trapping 0x0CD if an endpoint is still live. -/
  | doneRetire
  /-- JARM (R379). Arm a join counter with a count and class. -/
  | jarm (c : BitVec 6) (a : BitVec 5) (d : BitVec 5)
  /-- JDIS (R379). Disarm a join counter. -/
  | jdis (a : BitVec 5)
  /-- CAPGIVE (R332). Hand a page's writer capability to another actor. -/
  | capgive (a : BitVec 5) (d : BitVec 5)
  /-- CAPCHK (R333). Read a page's capability from its home. -/
  | capchk (a : BitVec 5) (d : BitVec 5)
  /-- SYSRD (R190). Read a system register. -/
  | sysrd (s : BitVec 12) (d : BitVec 5)
  /-- SYSWR (R190). Write a system register under its access codes. -/
  | syswr (s : BitVec 12) (a : BitVec 5)
  /-- SYSBS (R190). Set bits of a system register. -/
  | sysbs (s : BitVec 12) (a : BitVec 5)
  /-- SYSBC (R190). Clear bits of a system register. -/
  | sysbc (s : BitVec 12) (a : BitVec 5)
  /-- FENCE_ACQ (R235). Hold later requests until earlier reads are performed at the scope. -/
  | fenceAcq (s : BitVec 4)
  /-- FENCE_REL (R235). Hold later requests and messages until earlier writes are performed at the scope. -/
  | fenceRel (s : BitVec 4)
  /-- FENCE_FULL (R235). Both acquire and release ordering. -/
  | fenceFull (s : BitVec 4)
  /-- FENCE_SC (R235). Full ordering and marking of later writes as sc writes. -/
  | fenceSc (s : BitVec 4)
  /-- TRAP (R350). Raise software cause d, or mark reinjection in a lay-by activation. -/
  | trap (d : BitVec 5)
  /-- HALT (R351). Trigger a Roadblock stop of an armed partition, else trap 0x1A0. -/
  | halt
  /-- C_ADD (R52). Compact add gd, gb. -/
  | cAdd (b : BitVec 5) (d : BitVec 5)
  /-- C_SUB (R52). Compact sub. -/
  | cSub (b : BitVec 5) (d : BitVec 5)
  /-- C_AND (R52). Compact and. -/
  | cAnd (b : BitVec 5) (d : BitVec 5)
  /-- C_OR (R52). Compact or. -/
  | cOr (b : BitVec 5) (d : BitVec 5)
  /-- C_XOR (R52). Compact xor. -/
  | cXor (b : BitVec 5) (d : BitVec 5)
  /-- C_MV (R52). Compact move; c.mv g0, g0 is the no-operation. -/
  | cMv (b : BitVec 5) (d : BitVec 5)
  /-- C_LDD (R52). Compact doubleword load. -/
  | cLdd (b : BitVec 5) (d : BitVec 5)
  /-- C_STD (R52). Compact doubleword store. -/
  | cStd (b : BitVec 5) (a : BitVec 5)
  /-- C_ADDI (R52). Compact add immediate. -/
  | cAddi (i : BitVec 6) (d : BitVec 5)
  /-- C_LI (R52). Compact load immediate. -/
  | cLi (i : BitVec 6) (d : BitVec 5)
  /-- C_SLLI (R52). Compact left shift immediate. -/
  | cSlli (s : BitVec 6) (d : BitVec 5)
  /-- C_SRLI (R52). Compact logical right shift immediate. -/
  | cSrli (s : BitVec 6) (d : BitVec 5)
  /-- C_SRAI (R52). Compact arithmetic right shift immediate. -/
  | cSrai (s : BitVec 6) (d : BitVec 5)
  /-- C_ANDI (R52). Compact and immediate. -/
  | cAndi (i : BitVec 6) (d : BitVec 5)
  /-- C_ORI (R52). Compact or immediate. -/
  | cOri (i : BitVec 6) (d : BitVec 5)
  /-- C_XORI (R52). Compact xor immediate. -/
  | cXori (i : BitVec 6) (d : BitVec 5)
  /-- C_BEQZ (R52). Compact branch if zero. -/
  | cBeqz (o : BitVec 6) (a : BitVec 5)
  /-- C_BNEZ (R52). Compact branch if nonzero. -/
  | cBnez (o : BitVec 6) (a : BitVec 5)
  /-- C_BLTZ (R52). Compact branch if negative. -/
  | cBltz (o : BitVec 6) (a : BitVec 5)
  /-- C_BGEZ (R52). Compact branch if not negative. -/
  | cBgez (o : BitVec 6) (a : BitVec 5)
  /-- C_J (R52). Compact jump. -/
  | cJ (o : BitVec 6)
  /-- C_JR (R52). Compact jump to register. -/
  | cJr (a : BitVec 5)
  /-- C_DBNZ (R52). Compact decrement and branch. -/
  | cDbnz (o : BitVec 6) (a : BitVec 5)
  /-- C_DONE (R52). Compact done without retire. -/
  | cDone
  /-- VECTOR_COMMAND_EXECUTION (R113). The vector engine takes the oldest queued command and executes it. -/
  | vectorCommandExecution (c : BitVec 12)
  /-- MATRIX_COMMAND_EXECUTION (R139). The matrix engine takes the oldest queued command and executes it. -/
  | matrixCommandExecution (c : BitVec 12)
  /-- COPY_COMMAND_EXECUTION (R230). The copy engine executes the oldest queued copy command and sends its completion. -/
  | copyCommandExecution (c : BitVec 12)
  /-- DONE_RELEASE (R276). Once done's waits are met, staged items are released, slots freed and the context freed. -/
  | doneRelease (c : BitVec 12) (x : BitVec 2)
  /-- FENCE_CONDITION_MET (R235). Items held behind a fence leave once its condition holds. -/
  | fenceConditionMet (c : BitVec 12) (k : BitVec 4)
  /-- MESSAGE_ARRIVAL (R32). A message enters its endpoint's receive buffer and the mailbox, or the home base for an evicted actor. -/
  | messageArrival (n : Nat)
  /-- ANTI_MESSAGE (R278). An anti-message arrives and annihilates, rolls back, or waits in the pending store. -/
  | antiMessage (n : Nat)
  /-- ACTIVATION_DISPATCH (R341). A freed context is given to an eligible actor, its endpoint advances and its handler starts. -/
  | activationDispatch (c : BitVec 12)
  /-- COUNTED_MESSAGE (R380). A join or failure notice decrements an armed join counter, starting its handler at zero. -/
  | countedMessage (c : BitVec 12) (k : BitVec 4)
  /-- ROLLBACK (R367). The rollback walk undoes ended activations record by record and sends anti-messages. -/
  | rollback (c : BitVec 12) (k : BitVec 4)
  /-- TRAP_SEQUENCE (R345). A trap stops the context, waits for copies, restores state, drops outputs, closes, diverts and frees. -/
  | trapSequence (c : BitVec 12) (x : BitVec 2)
  /-- BUDGET_EXHAUSTED (R381). BUDGET.LEFT reaches 0 and the activation traps with 0x160. -/
  | budgetExhausted (c : BitVec 12) (x : BitVec 2)
  /-- KILL (R38). The runtime kills an actor, closing its endpoints and freeing its zones and slot. -/
  | kill (t : BitVec 4) (i : BitVec 24)
  /-- CONNECT_REQUEST (R173). The acceptor checks a connect and allocates its buffer or answers with a cause. -/
  | connectRequest (n : Nat)
  /-- CONNECT_ANSWER (R173). The connector makes check 5, opens and confirms, or undoes. -/
  | connectAnswer (n : Nat)
  /-- CONNECT_CONFIRMATION (R173). The confirmation opens the acceptor's endpoint. -/
  | connectConfirmation (n : Nat)
  /-- CONNECT_UNDO (R173). The undo frees the acceptor's run and returns it to armed. -/
  | connectUndo (n : Nat)
  /-- SPAWN_REQUEST (R184). The target core checks and creates the child and reports. -/
  | spawnRequest (n : Nat)
  /-- CLOSE_NOTICE (R176). A close notice takes effect when oldest, closing the endpoint and dispatching class 62. -/
  | closeNotice (c : BitVec 12) (k : BitVec 4) (e : BitVec 4)
  /-- ACKNOWLEDGEMENT (R175). The peer's acknowledgement makes a closing endpoint closed and frees its buffer. -/
  | acknowledgement (n : Nat)
  /-- RELOCATION_NOTICE (R182). The peer sets PEER to the new location and sends a forwarding-end marker. -/
  | relocationNotice (n : Nat)
  /-- FORWARDING_REQUEST (R182). The old location starts forwarding messages for the endpoint. -/
  | forwardingRequest (n : Nat)
  /-- FORWARDING_END_MARKER (R182). The marker ends forwarding and releases held direct messages. -/
  | forwardingEndMarker (n : Nat)
  /-- MEMORY_PEER_REQUEST (R222). A request reaches its home logic base and is translated, checked and performed or parked. -/
  | memoryPeerRequest (n : Nat)
  /-- PAGE_WALK (R326). A page-table walk completes and serves the misses that joined it. -/
  | pageWalk (s : BitVec 3) (n : Nat)
  /-- INVALIDATION (R222). The home invalidates a line in a crossing cache. -/
  | invalidation (n : Nat)
  /-- HOME_ACKNOWLEDGEMENT (R222). The home's acknowledgement of a performed write lets a held line accept invalidations again. -/
  | homeAcknowledgement (n : Nat)
  /-- PARK_DEADLINE (R328). A request parked beyond PARKDL is removed and answered with 0x10A or 0x128. -/
  | parkDeadline (n : Nat)
  /-- CAPABILITY_HAND_OVER (R332). The home moves a page's capability and notifies the new holder. -/
  | capabilityHandOver (n : Nat)
  /-- PAGE_OUT (R254). Page-service OP 0: move pages from DRAM to the Depot. -/
  | pageOut (n : Nat)
  /-- PAGE_IN (R253). Page-service OP 1: bring Depot pages into DRAM. -/
  | pageIn (n : Nat)
  /-- DEPOSIT (R256). Page-service OP 2: write page bytes into a scratch zone with full bits. -/
  | deposit (n : Nat)
  /-- DISCARD (R253). Page-service OP 3: make pages invalid. -/
  | discard (n : Nat)
  /-- PERSIST (R253). Page-service OP 4: write DRAM content to the Depot, keeping it in DRAM. -/
  | persist (n : Nat)
  /-- EVICT_ACTOR (R258). Page-service OP 5: save an actor at its home base and free its slot. -/
  | evictActor (n : Nat)
  /-- RELOAD_ACTOR (R259). Page-service OP 6: restore a saved actor at a location and relocate its endpoints. -/
  | reloadActor (n : Nat)
  /-- DEMAND_PAGE_IN (R255). A parked request on a Depot-resident page brings it into a free frame and performs the parked requests. -/
  | demandPageIn (g : BitVec 40)
  /-- CHECKPOINT_TAKE (R263). Checkpoint OP 0: snapshot the listed pages at cut T. -/
  | checkpointTake (n : Nat)
  /-- CHECKPOINT_RESTORE (R265). Checkpoint OP 1: write the valid slot's pages into DRAM. -/
  | checkpointRestore (n : Nat)
  /-- CHECKPOINT_QUERY (R265). Checkpoint OP 2: return T of the valid slot. -/
  | checkpointQuery (n : Nat)
  /-- CODE_LOAD (R211). Code loader writes an image into a code store and has it scanned. -/
  | codeLoad (n : Nat)
  /-- CODE_UNLOAD (R212). Code loader makes an image not executable. -/
  | codeUnload (n : Nat)
  /-- CODE_SCAN (R54). The target core scans an image and makes it executable or rejects it. -/
  | codeScan (c : BitVec 12)
  /-- GROUP_JOIN_AT_REGISTRY (R290). A join reaches the registry and is refused, recorded, or forms the group. -/
  | groupJoinAtRegistry (n : Nat)
  /-- COLLECTIVE_CHUNK (R294). A router adder combines two chunks of a wave or passes one on. -/
  | collectiveChunk (n : Nat)
  /-- RESULT_CHUNK (R299). A result chunk is written at a member, and the last one delivers the completion. -/
  | resultChunk (n : Nat)
  /-- MEMBER_DEATH (R300). The registry learns of a member's death and settles its waves. -/
  | memberDeath (n : Nat)
  /-- PRIORITY_LOAN (R342). A waiting member's class is lent to members that have not contributed. -/
  | priorityLoan (c : BitVec 12) (k : BitVec 4)
  /-- MILESTONE_ROUND_START (R373). Every PERIOD cycles the root starts a Milestone round. -/
  | milestoneRoundStart
  /-- TAKE_THE_CUT (R371). A station sets its colour, zeroes its counts and resets its way minimum. -/
  | takeTheCut (n : Nat)
  /-- MILESTONE_PASS (R372). Stations report minima and counts, reduced on the router adders. -/
  | milestonePass
  /-- ROUND_COMPLETION (R366). The round's (M, settled) reaches a station, which rolls back, then commits safe activations. -/
  | roundCompletion (n : Nat)
  /-- FABRIC_ROUND (R374). Every FPERIOD cycles modules combine their rounds across the torus. -/
  | fabricRound
  /-- CTL_WRITE (R197). The host's CTL write starts a message from a host endpoint. -/
  | ctlWrite
  /-- HOST_RING_DELIVERY (R198). The device writes a message into a host ring slot and advances RTAIL. -/
  | hostRingDelivery (n : Nat)
  /-- LINK_FLIT_RECEIVE (R286). A link flit arrives and is checked, accepted or discarded with a replay request. -/
  | linkFlitReceive (l : BitVec 4)
  /-- LINK_ACKNOWLEDGEMENT (R286). An acknowledgement frees replay-buffer flits. -/
  | linkAcknowledgement (l : BitVec 4)
  /-- LINK_REPLAY (R286). A replay request resends from the failed sequence, retraining after 16 failures. -/
  | linkReplay (l : BitVec 4)
  /-- ALLOCATE (R335). Table request OP 0: allocate pages and set their capability. -/
  | allocate
  /-- FREE (R335). Table request OP 1: discard and clear pages. -/
  | free
  /-- SET_ORDERING (R335). Table request OP 2: set STRONG on pages. -/
  | setOrdering
  /-- SET_HOLDER (R335). Table request OP 3: set the capability of pages. -/
  | setHolder
  /-- WRITE_PROTECTION_ENTRY (R335). Table request OP 4: write a protection entry on cores. -/
  | writeProtectionEntry
  /-- CLEAR_PROTECTION_ENTRY (R335). Table request OP 5: clear a protection entry. -/
  | clearProtectionEntry
  /-- CORE_CONFIGURATION_REQUEST (R339). GO writes a slot table and optionally partition membership. -/
  | coreConfigurationRequest
  /-- SLOT_POINTER_WRAP (R338). At the wrap to entry 0 a new slot table and throttle level take effect. -/
  | slotPointerWrap (c : BitVec 12)
  /-- ARBITER_PERIOD (R194). Every 1 µs the current arbiter grants quadrant currents and throttle levels. -/
  | arbiterPeriod
  /-- COOLANT_SAMPLE (R194). Every 1 ms the inlet temperature is read and the cap adjusted. -/
  | coolantSample
  /-- LIFE_CYCLE_CHANGE (R193). GO of LCREQ verifies a signed request, wipes and stores the new state. -/
  | lifeCycleChange
  /-- LAYBY_WRITE (R348). A LAYBY write names the lay-by actor and allocates its diversion buffer, or is refused. -/
  | laybyWrite
  /-- SAVEPOOL_WRITE (R400). A SAVEPOOL write reserves frames for save areas and spill spaces. -/
  | savepoolWrite
  /-- ROADBLOCK_STOP (R357). A partition's cores stop at instruction boundaries and write their records. -/
  | roadblockStop (h : BitVec 4)
  /-- ROADBLOCK_RESUME (R360). GO restarts every core of a stopped partition. -/
  | roadblockResume (h : BitVec 4)
  /-- LEAVE_MINIMAL_MODE (R384). A BOOTCTL write clears ATTEMPTS and resets into a full boot. -/
  | leaveMinimalMode
  /-- HOST_REGISTER_WRITE (R4). A host write to a W0 or W2 register with no row of its own, under its access code. -/
  | hostRegisterWrite
  /-- LAUNCH (R64). The runtime loads, creates, connects and injects a launch set. -/
  | launch
  /-- RESET (R213). Reset wipes local memories and starts a boot. -/
  | reset
  /-- SCRUB (R202). The scrubber reads each scratchpad word once every 16,777,216 cycles. -/
  | scrub (c : BitVec 12) (a : BitVec 15)
  /-- LIFETIME_SECOND (R383). Each second the temperature bucket counter is raised and counters updated. -/
  | lifetimeSecond
  /-- HOST_MESSAGE_ENTRY (R197). The device finishes copying a host endpoint's payload and words, raises the VRT, checks it against the itinerary or refuses it, and clears BUSY. -/
  | hostMessageEntry (n : Nat)
  /-- SEND_WINDOW_WRITE (R197). A host write into an endpoint's W1 send window stores payload bytes, or is discarded and counted while BUSY is 1. -/
  | sendWindowWrite
  /-- HOST_READ_COMPLETION (R236). A non-posted read issued by a host port for a host-window request or a host-scope fence completes at the port, answering the request or failing it with 0x10B or 0x129. -/
  | hostReadCompletion (n : Nat)
  /-- CAPCHK_ANSWER (R333). The home's answer to a capchk reaches the stalled context, writes g[d] and lets the context issue again. -/
  | capchkAnswer (n : Nat)
  deriving DecidableEq, Repr

end Sys2Proof
end

