-- ==== Sys2Proof/Machine/State.lean ====
section
/-! DEFINITION. The state of the module as plain data, its reset, the reasons a step stops, and the accessors through which every register and table is reached. Cores, pages, groups and actors are sparse maps; what is not listed is as a wipe leaves it (09_local_memory.md R213). -/

namespace Sys2Proof.Machine

/-! ## Identities and messages -/

/-- A message key (R26). -/
structure Key where
  vrt : Word
  sender : BitVec 24
  seq : BitVec 40
  deriving DecidableEq, Repr

/-- An actor's name: tenant and logical identifier (R16). -/
structure AId where
  tenant : BitVec 4
  id : BitVec 24
  deriving DecidableEq, Repr

/-- Where an actor is resident (R16). -/
structure Loc where
  core : CoreId
  slot : BitVec 4
  deriving DecidableEq, Repr

/-- The move of a channel end (R182): where it goes, module, location, endpoint and actor; where it was; and whether it is the reload of an actor that its home base plays the old location for. -/
structure Move where
  mod : BitVec 12
  loc : Loc
  ep : BitVec 4
  id : BitVec 24
  oldMod : BitVec 12
  old : Loc
  oldEp : BitVec 4
  oldId : BitVec 24
  atHome : Bool
  deriving DecidableEq, Repr

/-- The message header (R279). `dest` is PEER bits [36:17]; `rsv` the reserved bits of word 2 ([10:0]) over those of word 3 ([41:32]); the CRC field is the CRC of the rest (R280) with the bits of `crcErr` inverted, which no sender sets. -/
structure Header where
  key : Key
  dest : BitVec 20
  cls : BitVec 6
  len : BitVec 13
  state : BitVec 6
  join : Bool
  ze : Bool
  anti : Bool
  close : Bool
  label : Bool
  deleg : Bool
  colour : Bool
  irrev : Bool
  tenant : BitVec 4
  prio : BitVec 2
  scope : BitVec 4
  dmod : BitVec 12
  rsv : BitVec 21 := 0
  crcErr : BitVec 32 := 0
  deriving DecidableEq, Repr

/-- The trap record (R346). -/
structure TrapRec where
  pc : BitVec 16
  endpt : BitVec 4
  cls : BitVec 6
  cause : BitVec 9
  key : Key
  detail : Word
  deriving DecidableEq, Repr

/-- What a message is beside its header: under an itinerary, or one of the messages that the device sends outside every itinerary. -/
inductive MsgKind where
  /-- under the itinerary of its channel -/
  | plain
  /-- a delegation (R180), with the identifier of the delegated endpoint's peer and the module of the old location -/
  | delegation (peer : BitVec 24) (mod : BitVec 12)
  /-- report of a handshake or a join (R174, R290) -/
  | report
  /-- reply of a request on e15 with its status (R225) and the address that a trap for it names (R353) -/
  | reply (status : BitVec 9) (addr : Word)
  /-- fault or capability notice on e15 (R327, R332) -/
  | notice
  /-- completion of a wave (R299) -/
  | completion
  /-- a reply that a lay-by activation has reinjected, with what it carried (R349) -/
  | again (status : BitVec 9) (addr : Word)
  /-- diversion to the lay-by actor, with the trap record and the trapped message's header, actor and kind (R348) -/
  | diversion (trec : TrapRec) (orig : Header) (origin : AId) (was : MsgKind)
  deriving DecidableEq, Repr

/-- A message: header, payload, and the actor it is meant for (the model's own bookkeeping of R182's last paragraph). -/
structure Msg where
  hdr : Header
  payload : List Byte
  kind : MsgKind
  rcpt : AId
  deriving DecidableEq, Repr

/-! ## Actors -/

/-- Time disciplines (R29). -/
inductive Disc where
  | untimed | conservative | timed
  deriving DecidableEq, Repr

/-- Zone kinds (R20). -/
inductive ZoneKind where
  | kept | scratch | mailbox | log
  deriving DecidableEq, Repr

/-- A zone descriptor (R203); base and length in units of 64 bytes. -/
structure Zone where
  valid : Bool
  kind : ZoneKind
  base : BitVec 12
  len : BitVec 12
  deriving DecidableEq, Repr

/-- STATUS of an endpoint (R156). -/
inductive EpStatus where
  | free | armed | connecting | opened | closing | closed | delegated
  deriving DecidableEq, Repr

/-- PKIND of an endpoint (R156). -/
inductive PKind where
  | actor | memory | depot | collective | host | remote
  deriving DecidableEq, Repr

/-- The endpoint record, words 0-3 (R156, R157). On a group endpoint the rank stands in LOOP [11:0] (R289). -/
structure EpRec where
  status : EpStatus
  pkind : PKind
  look : BitVec 8
  itin : BitVec 7
  state : BitVec 6
  peer : BitVec 24
  pmod : BitVec 12
  lastvrt : Word
  loop : BitVec 16
  sent : BitVec 24
  rcvd : BitVec 24
  ccause : BitVec 9
  cpoint : BitVec 6
  cbypeer : Bool
  bufbase : BitVec 18
  slot : BitVec 13
  deriving DecidableEq, Repr

/-- A run of mailbox bytes allocated to a buffer (R205). -/
structure Run where
  base : Nat
  size : Nat
  deriving DecidableEq, Repr

/-- What an endpoint holds beside its record: its run, whether a close of it has left the core (R175, R177), the handshake it is in (report class, status before it, filter of an accept), the peer's name, the moves in progress (R182), whether the handshake is a spawn's (R184); on a group endpoint COUNT − 1, whether a completion carried BROKEN (R289, R298), and the waves it has contributed to (R291). `asked` has the cycle in which it took a connect, and that one's key (R172). -/
structure EpAux where
  run : Option Run
  closeLeft : Bool
  cls : BitVec 6
  old : EpStatus
  filter : Word
  peerId : BitVec 24
  forwardTo : Option Move
  holdDirect : Bool
  spawning : Bool
  count : BitVec 12
  broken : Bool
  waves : Nat
  asked : Option (Nat × Key)
  deriving DecidableEq, Repr

/-- A junction entry (R304). -/
structure Junction where
  valid : Bool
  held : Bool
  offset : BitVec 14
  deriving DecidableEq, Repr

/-- Where a held message's payload stands: a slot of its endpoint's run, an e15 slot (R174, R176), a slot of the diversion buffer (R348), the payload units of a history record (R367), or nowhere yet (waiting for an e15 slot). -/
inductive Place where
  | run | e15 | divert | hist | waiting
  deriving DecidableEq, Repr

/-- A message held by an actor, with the address and size of the slot its payload has (R167, R270, R271); `arrived` is the cycle of its arrival (R30), `since` the cycle from which its own VRT no longer holds it back (R341), `armed` whether an armed join counter named it at its arrival (R380). -/
structure Held where
  msg : Msg
  ep : BitVec 4
  addr : BitVec 18
  size : Nat
  place : Place
  arrived : Nat
  since : Nat
  consumed : Bool
  byRecv : Bool
  direct : Bool
  armed : Bool
  deriving DecidableEq, Repr

/-- A join register JREG (R377). -/
structure JReg where
  valid : Bool
  mask : BitVec 16
  word : BitVec 15
  deriving DecidableEq, Repr

/-- Who receives a packet. -/
inductive Dest where
  | ep (l : Loc) (e : BitVec 4)
  | host (n : BitVec 17)
  | depot (ch : BitVec 18)
  | link (dmod : BitVec 12) (l : Loc) (e : BitVec 4)
  | home (a : AId)
  /-- the child that an endpoint's spawn creates (R184) -/
  | child (a : AId) (e : BitVec 4)
  /-- an endpoint of a module, by forwarding from an old location (R182, R287) -/
  | fwd (dmod : BitVec 12) (l : Loc) (e : BitVec 4)
  deriving DecidableEq, Repr

/-- A log record (R364). -/
inductive LogRec where
  /-- with the actor's next sequence at the activation's start (R368) -/
  | marker (key : Key) (ep : BitVec 4) (cls : BitVec 6) (seq : BitVec 40)
  /-- with the words of the line that stood in error -/
  | line (n : BitVec 12) (full : List Bool) (data : List Byte) (bad : List Nat)
  | endpoint (e : BitVec 4) (record : EpRec) (aux : EpAux)
  | join (word : BitVec 15) (full : Bool) (val : Word)
  | jreg (val : JReg)
  | history (h : Held)
  /-- a history record that holds a returned or overflowing message (R367) -/
  | returned (h : Held)
  /-- a message that left, its actor, and where it went -/
  | output (hdr : Header) (rcpt : AId) (d : Dest)
  | spilledAnti (hdr : Header)
  | filler (units : Nat)
  deriving DecidableEq, Repr

/-- A record in the ring of log units, or spilled (R364, R365). -/
structure Placed where
  unit : Nat
  spilled : Bool
  entry : LogRec
  deriving DecidableEq, Repr

/-- An ended, uncommitted activation of a timed actor (R366). -/
structure Ended where
  key : Key
  retire : Bool
  deriving DecidableEq, Repr

/-- DURSTAT (R267). -/
structure DurStat where
  fail : Bool
  cause : BitVec 9
  page : BitVec 40
  deriving DecidableEq, Repr

/-- The triggering message of an activation and how it started (R18, R348, R380): the arriving endpoint's record and, for a start by a join counter, its word, as they stood at the activation's start. -/
structure Trigger where
  held : Held
  byJoin : Bool
  after : EpRec
  word : BitVec 15
  val : Word
  deriving DecidableEq, Repr

/-- The pending trap of a timed actor (R347): the record, the endpoint, close-point and state of a refusal, the trigger, the priority of the activation. It belongs to the last of the ended activations. -/
structure Pending where
  trec : TrapRec
  close : Option (BitVec 4 × BitVec 6 × BitVec 6)
  trigger : Option Trigger
  prio : BitVec 2
  deriving DecidableEq, Repr

/-- A part of an actor's record on its core that a soft error has made uncorrectable (R354). -/
inductive ActorPart where
  | endpoint (e : BitVec 4)
  | zone (z : BitVec 3)
  | junction (c : BitVec 6)
  | log
  deriving DecidableEq, Repr

/-- Per-actor state (R16). -/
structure Actor where
  aid : AId
  image : BitVec 16
  disc : Disc
  prio : BitVec 2
  budget : BitVec 25
  zones : Vector Zone 8
  eps : Vector EpRec 16
  aux : Vector EpAux 16
  junction : Vector Junction 64
  seq : BitVec 40
  durstat : DurStat
  /-- the cycle of the last failed durable fence, with what DURSTAT shows of it (R267) -/
  durFail : Option (Nat × DurStat)
  jreg : JReg
  box : List Held
  e15used : List (BitVec 40)
  e15undone : List (BitVec 40)
  log : List Placed
  logNext : Nat
  ended : List Ended
  pending : Option Pending
  lent : BitVec 2
  divertRun : Option Run
  retired : Bool
  /-- the parts in error (R354) -/
  bad : List ActorPart
  freedAt : Nat
  /-- the cycle in which a message last found no slot (R268) -/
  fullAt : Option Nat
  deriving DecidableEq, Repr

/-! ## Requests, commands and what leaves a core -/

/-- The VRT of a message that leaves later: fixed at issue, or the larger of VMILE + VOUT and LASTVRT at release (R28, R399). -/
inductive VrtRule where
  | fixed
  | atRelease (vout : Word)
  deriving DecidableEq, Repr

/-- What a memory request does at its home (R228, R229). -/
inductive MemOp where
  | read
  | write (data : List Byte)
  | amo (desc x cmp : Word)
  | capgive (giver : BitVec 24) (arg : Word)
  | capchk (d : BitVec 5) (ctx : BitVec 2)
  /-- the global writes of a write-type copy command: runs of bytes, its status so far, the flags of cpcvt, and whether a completion is sent -/
  | put (segs : List (Nat × List Byte)) (status : BitVec 9) (flags : BitVec 7) (msg : Bool)
  /-- a page that a read-type copy command waits for -/
  | fetch
  /-- a copy command whose global writes are performed at home: its status and the flags of cpcvt -/
  | finish (status : BitVec 9) (flags : BitVec 7) (msg : Bool)
  deriving DecidableEq, Repr

/-- A request on e15 (R224 to R229, R332, R333). `key.seq` names the e15 slot it holds. `crossed` says that a write has passed its quadrant's crossing cache, or that the invalidations of an sc write have been sent, and `held` names the lines that the crossing cache held and updated then (R222, R239). A request is performed 8 bytes at a time (R223): `pos` counts the bytes done, on the way through the crossing cache or at the home, and `got` has what a read has read. `detail` is the address that a trap for its failure names, where it is not the request's (R353). -/
structure MemReq where
  actor : AId
  loc : Loc
  key : Key
  op : MemOp
  addr : Word
  len : Nat
  cls : BitVec 6
  ack : Bool
  sc : Bool
  crossed : Bool
  held : List Nat := []
  pos : Nat := 0
  got : List Byte := []
  detail : Option Word := none
  deriving DecidableEq, Repr

/-- The copy commands (R231). -/
inductive CopyOp where
  | get | put | gath | scat | fill | cvt
  deriving DecidableEq, Repr

/-- A copy command (R230, R231); `extra` is g[b + 1]. `pos` and `flags` are how far its execution is: the bytes, or the segments of a cpcvt, that it has read, and their flags; `got` has what a cpcvt has read of its next segment. -/
structure CopyCmd where
  actor : AId
  loc : Loc
  ctx : BitVec 2
  key : Key
  op : CopyOp
  gaddr : Word
  laddr : BitVec 18
  len : Nat
  extra : Word
  msg : Bool
  cls : BitVec 6
  sc : Bool
  pos : Nat
  flags : BitVec 7
  got : List Byte
  deriving DecidableEq, Repr

/-- Fence kinds (R235). -/
inductive FenceKind where
  | acq | rel | full | sc
  deriving DecidableEq, Repr

/-- The operations of a wave (R296). -/
inductive WaveOp where
  | leave | wait | red | bcast | rs | ag
  deriving DecidableEq, Repr

/-- A contribution to a wave (R299). -/
structure Contrib where
  group : Nat
  actor : AId
  loc : Loc
  ep : BitVec 4
  key : Key
  wave : Nat
  op : WaveOp
  desc : Word
  src : Word
  cls : BitVec 6
  prio : BitVec 2
  deriving DecidableEq, Repr

/-- Items that may be staged, held or deferred, and that leave the core in issue order (R163, R224, R273). -/
inductive Item where
  /-- a message of send, sendv, sendt, sel or sendep on an endpoint -/
  | msg (ep : BitVec 4) (m : Msg) (rule : VrtRule)
  /-- a close notice of a close instruction on an endpoint -/
  | close (ep : BitVec 4) (m : Msg) (rule : VrtRule)
  /-- connect: endpoint, g[a], itinerary, report class -/
  | connect (ep : BitVec 4) (peer : Word) (itin : BitVec 7) (cls : BitVec 6) (key : Key) (rule : VrtRule)
  | accept (ep : BitVec 4) (peer : Word) (itin : BitVec 7) (cls : BitVec 6)
  | spawn (ep : BitVec 4) (arg : Word) (itin : BitVec 7) (cls : BitVec 6) (key : Key) (rule : VrtRule)
  /-- the relocation notices of a recvep: target endpoint, the old location with its module and its actor -/
  | relocate (ep : BitVec 4) (oldMod : BitVec 12) (old : Loc) (oldEp : BitVec 4) (oldId : BitVec 24)
  | mem (r : MemReq) (rule : VrtRule)
  | copy (c : CopyCmd) (rule : VrtRule)
  /-- a fence, with the actor's next sequence at its issue: what is earlier has a lower one; for scope durable also the pages that the activation's earlier writes touched (R266) -/
  | fence (kind : FenceKind) (scope : BitVec 4) (before : BitVec 40) (pages : List Nat)
  | gjoin (ep : BitVec 4) (desc : Word) (cls : BitVec 6) (key : Key) (rule : VrtRule)
  | contrib (c : Contrib) (rule : VrtRule)
  /-- the reinjected message of a lay-by activation (R349) -/
  | reinject (m : Msg)
  deriving DecidableEq, Repr

/-! ## Contexts and cores -/

/-- Why the context's next instruction cannot issue now (R69, R340). -/
inductive Wait where
  | none | queueFull | tile (t : BitVec 3) | word | message | engine | memory | operand | deferral
  deriving DecidableEq, Repr

/-- What a context does (R17, R276, R345, R359); a trap sequence that a kill began names the kill's cause. -/
inductive Phase where
  | free
  | running
  | releasing (retire : Bool)
  | trapping (trec : TrapRec) (closeEp : Option (BitVec 4 × BitVec 6 × BitVec 6)) (killed : Option (BitVec 9))
  deriving DecidableEq, Repr

/-- A context (R9, R65, R188). -/
structure Ctx where
  phase : Phase
  wait : Wait
  slot : BitVec 4
  pc : BitVec 16
  g : Vector Word 32
  f : Vector FWord 32
  p : Vector Word 8
  b : Vector FWord 4
  v : Vector VWord 16
  vnow : Word
  vout : Word
  fflags : BitVec 7
  vrnd : BitVec 3
  seed : BitVec 32
  jstat : Word
  trapinfo : Vector Word 4
  budget : BitVec 25
  prioBase : BitVec 2
  prioEff : BitVec 2
  trigger : Option Trigger
  g3 : BitVec 4
  g4 : BitVec 6
  started : Nat
  retired : Word
  staging : List Item
  scFence : Bool
  relFence : Bool
  wpages : List Nat
  committed : Bool
  /-- the waits of done are met and its release has begun (R276) -/
  leaving : Bool
  kept : Nat
  reinject : Bool
  consumed : List Held
  /-- the cycle in which the context was freed (R341) -/
  freedAt : Option Nat
  deriving DecidableEq, Repr

/-- A queued vector or matrix command with what it read at issue (R70, R112, R139, R140): its context and PC, the instruction, up to three register operands, the rounding mode, the vector register of a slice move, the configuration of its tile, and the bytes of its scratchpad operands. -/
structure Cmd where
  ctx : BitVec 2
  pc : BitVec 16
  ins : Instr
  x : Word
  y : Word
  z : Word
  mode : BitVec 3
  vec : VWord
  cfg : BitVec 13
  opA : List Byte
  opB : List Byte
  deriving DecidableEq, Repr

/-- A tile register: content, holder and configuration word [12:0] (R135, R148). -/
structure Tile where
  data : BitVec 16384
  holder : Option (BitVec 2)
  cfg : BitVec 13
  deriving DecidableEq, Repr

/-- Bytes with a canonical list of cells over ranges whose content is unspecified. -/
structure Fog where
  lo : Nat
  hi : Nat
  tag : Nat
  deriving DecidableEq, Repr

/-- A memory: cells with strictly rising addresses, over what an unlisted address reads as: zero, or a free value inside a range of `fog` (log 7, log 8). -/
structure Mem where
  cells : List Host.Cell
  fog : List Fog
  deriving DecidableEq, Repr

/-- An executable image of a code store, or one being scanned (R57, R302 to R304). A data record is its zone, offset, length and source (R303). -/
structure Image where
  num : BitVec 16
  tenant : BitVec 4
  base : Nat
  len : Nat
  disc : Disc
  prio : BitVec 2
  budget : BitVec 25
  junction : Vector Junction 64
  zones : Vector Zone 8
  data : List (Nat × Nat × Nat × Nat)
  itins : List (BitVec 7)
  deriving DecidableEq, Repr

/-- A state record of an itinerary block (R308). -/
structure StateRec where
  kind : BitVec 3
  cls : BitVec 6
  min : Nat
  max : Nat
  nlab : Nat
  next : List (BitVec 6)
  close : BitVec 6
  bound : BitVec 12
  deriving DecidableEq, Repr

/-- An itinerary block of an image (R306), with its state records of 16 bytes (R308). -/
structure Block where
  index : BitVec 7
  dual : Bool
  source : BitVec 7
  count : BitVec 6
  recs : List (List Byte)
  deriving DecidableEq, Repr

/-- An itinerary directory entry (R313). -/
structure DirEntry where
  valid : Bool
  dual : Bool
  tenant : BitVec 4
  base : BitVec 11
  count : BitVec 6
  look : BitVec 8
  slot : BitVec 13
  refs : BitVec 16
  fp : Word
  dfp : Word
  deriving DecidableEq, Repr

/-- An itinerary state entry (R314). -/
structure StateEntry where
  kind : BitVec 3
  cls : BitVec 6
  shape : BitVec 8
  nlab : BitVec 2
  next0 : BitVec 6
  next1 : BitVec 6
  next2 : BitVec 6
  next3 : BitVec 6
  close : BitVec 6
  bound : BitVec 12
  looped : Bool
  deriving DecidableEq, Repr

/-- A shape table entry (R315). -/
structure Shape where
  min : BitVec 13
  max : BitVec 13
  deriving DecidableEq, Repr

/-- A protection entry (R320). -/
structure ProtEntry where
  valid : Bool
  domain : BitVec 5
  base : BitVec 40
  limit : BitVec 40
  r : Bool
  w : Bool
  x : Bool
  d : Bool
  deriving DecidableEq, Repr

/-- A slot-table entry (R337). -/
structure SlotEntry where
  valid : Bool
  donate : Bool
  tenant : BitVec 4
  deriving DecidableEq, Repr

/-- A request taken by the Depot (R252, R253, R262, R211), with the Milestone that the last round had reported when it arrived (R263) and the cycle of its arrival (R255). -/
structure DepotReq where
  chan : Nat
  actor : AId
  loc : Loc
  key : Key
  irrev : Bool
  words : List Word
  milestone : Word
  since : Nat
  deriving DecidableEq, Repr

/-- An image load in progress on a core: where it was written, what the scan is to check, and who is answered (R211, R54). -/
structure Scan where
  image : Image
  blocks : List Block
  reply : DepotReq
  deriving DecidableEq, Repr

/-- An item deferred by a timed activation (R277). -/
structure Deferred where
  slot : BitVec 4
  key : Key
  item : Item
  deriving DecidableEq, Repr

/-- The Roadblock record of one context (R359). -/
structure RbCtx where
  w0 : Word
  w1 : Word
  w2 : Word
  w3 : Word
  deriving DecidableEq, Repr

/-- One core (R9). -/
structure Core where
  ctxs : Vector Ctx 4
  pad : Mem
  full : List Nat
  fullFog : List Fog
  badPad : List Nat
  code : Mem
  badCode : List Nat
  starts : List Nat
  images : List Image
  scan : Option Scan
  parts : List (Nat × Nat × Nat)
  tiles : Vector Tile 8
  badTiles : List Nat
  tileWait : List (BitVec 2 × BitVec 3)
  vq : List Cmd
  mq : List Cmd
  cq : List CopyCmd
  deferral : List Deferred
  antis : List (AId × Header)
  /-- the cycle in which the store of anti-messages last was full for one (R268) -/
  antiFull : Option Nat
  fenced : List Deferred
  actors : List (Nat × Actor)
  dir : List (Nat × DirEntry)
  itab : List (Nat × StateEntry)
  shapes : List (Nat × Shape)
  prot : List (Nat × ProtEntry)
  slots : List (Nat × SlotEntry)
  nextSlots : Option (List (Nat × SlotEntry))
  pointer : BitVec 6
  throttle : BitVec 6
  cycle : Word
  vmile : Word
  rounds : BitVec 32
  settled : Bool
  arm : Option (BitVec 4)
  stopped : Bool
  rb : List RbCtx
  rbCounts : List (BitVec 4 × BitVec 4 × BitVec 24 × BitVec 24)
  called : List (BitVec 4 × Key × Bool)
  badItins : List Nat
  /-- the cycle of the core's last dispatch (R341) -/
  dispatched : Option Nat
  deriving DecidableEq, Repr

/-! ## The rest of the module -/

/-- A connect in flight (R173). `fp`, `dfp` are the connector's fingerprints. -/
structure Conn where
  actor : AId
  loc : Loc
  ep : BitVec 4
  peer : Word
  key : Key
  fp : Word
  dfp : Word
  pmod : BitVec 12
  look : BitVec 8
  deriving DecidableEq, Repr

/-- The acceptor's answer to a connect (R173). -/
structure Answer where
  cause : BitVec 9
  conn : Conn
  acceptor : BitVec 24
  pkind : PKind
  peer : BitVec 24
  pmod : BitVec 12
  seq : BitVec 40
  deriving DecidableEq, Repr

/-- A chunk of a wave on its way (R293): the ranks whose contributions it combines, its number, its blocks (absent or 128 bytes). -/
structure Chunk where
  group : Nat
  wave : Nat
  num : Nat
  ranks : List Nat
  check : Word × WaveOp
  blocks : List (Option (List Byte))
  failed : Bool
  deriving DecidableEq, Repr

/-- A capability entry (R331). -/
structure Cap where
  held : Bool
  holder : BitVec 24
  gen : BitVec 16
  deriving DecidableEq, Repr

/-- What travels between the parts of the module. -/
inductive Packet where
  | msg (d : Dest) (m : Msg)
  | connect (d : Dest) (c : Conn)
  | answer (a : Answer)
  | confirm (d : Dest) (rcpt : AId) (key : Key)
  | undo (d : Dest) (rcpt : AId) (key : Key) (cause : BitVec 9)
  | spawn (c : Conn) (arg : Word) (itin : BitVec 7) (tenant : BitVec 4)
  /-- of a close (R175), or of a relocation notice (R181) -/
  | ack (d : Dest) (rcpt : AId) (move : Bool)
  /-- a relocation notice -/
  | reloc (d : Dest) (rcpt : AId) (v : Move)
  /-- a forwarding request to the old location of a move of the tenant -/
  | forwardReq (tenant : BitVec 4) (v : Move)
  /-- the forwarding-end marker of the peer `from_`, on its way to the old location or from it -/
  | marker (d : Dest) (rcpt : AId) (fromOld : Bool) (from_ : BitVec 24) (v : Move)
  | mem (r : MemReq)
  | inval (quad : BitVec 2) (line : Nat) (by_ : AId) (seq : BitVec 40)
  /-- the home has performed a write: the lines that the writer's quadrant may hold, and whether the request's e15 slot is free -/
  | homeAck (quad : BitVec 2) (lines : List Nat) (actor : AId) (seq : BitVec 40) (free : Bool)
  /-- a capability notice looking for the new holder, with the request and the entry before it (R332) -/
  | capNotice (m : Msg) (r : MemReq) (old : Cap)
  /-- no actor holds that name: the entry is put back -/
  | capBack (r : MemReq) (old : Cap)
  /-- the home's answer to a capchk, or the machine cause that it met (R354) -/
  | capAnswer (loc : Loc) (ctx : BitVec 2) (key : Key) (d : BitVec 5) (val : Word) (cause : BitVec 9)
  | join (actor : AId) (loc : Loc) (ep : BitVec 4) (desc : Word) (cls : BitVec 6) (key : Key)
  | contrib (c : Contrib) (data : List Byte) (bad : Bool)
  | chunk (c : Chunk)
  | result (loc : Loc) (member : Nat) (c : Chunk)
  /-- the death of a member (R300), with the waves that had begun at it -/
  | death (group : Nat) (actor : AId) (begun : List Nat)
  | hostRead (port : Bool) (r : MemReq)
  deriving DecidableEq, Repr

/-- A packet on its way: the colour and the VRT that its station counted it with (R371, R372). -/
structure Flying where
  colour : Bool
  vrt : Word
  pkt : Packet
  deriving DecidableEq, Repr

/-- A leaf of the page table (R324). -/
structure Leaf where
  valid : Bool
  depot : Bool
  dirty : Bool
  cow : Bool
  strong : Bool
  tenant : BitVec 4
  frame : BitVec 20
  deriving DecidableEq, Repr

/-- A request or copy command parked on a page (R327) with the cycle at which it parked. -/
structure Parked where
  page : Nat
  since : Nat
  req : MemReq
  deriving DecidableEq, Repr

/-- A line held in a crossing cache (R222). -/
structure Line where
  line : Nat
  data : List Byte
  unacked : Nat
  deriving DecidableEq, Repr

/-- A save area of an evicted actor (R258, R259). -/
structure Saved where
  actor : Actor
  pad : List Host.Cell
  full : List Nat
  deferral : List Deferred
  antis : List (AId × Header)
  last : Loc
  inDepot : Bool
  frames : Nat
  bad : Bool
  deriving DecidableEq, Repr

/-- A message that waits at an actor's home base for a slot, with its endpoint (R329, R348). -/
structure Waiting where
  who : AId
  ep : BitVec 4
  msg : Msg
  deriving DecidableEq, Repr

/-- A logic base with its stack. `tables` counts the frames that the management core reserves at boot for the page table, `blocks` gives the address of each block of the table that is present, in units of 4,096 bytes, by its level and prefix (R323); `conns` holds the connects that wait for an evicted actor (R173), `waiting` the notices and diversions that wait for a slot (R329, R348). -/
structure Base where
  dram : Mem
  badDram : List Nat
  badLines : List Nat
  badLeaves : List Nat
  frames : Nat
  tables : Nat
  blocks : List (Nat × Nat)
  taken : List Nat
  tcache : List Nat
  walks : List Nat
  walkQueue : List Nat
  walkWait : List (Nat × MemReq)
  parked : List Parked
  noticed : List Nat
  notices : BitVec 40
  cache : List Line
  presence : List (Nat × BitVec 2)
  snaps : List (Nat × Nat × List Host.Cell)
  poolUsed : BitVec 24
  poolFrames : BitVec 24
  spills : List (AId × Nat)
  saved : List Saved
  heldAntis : List (AId × Header)
  conns : List Conn
  waiting : List Waiting
  vmile : Word
  settled : Bool
  deriving DecidableEq, Repr

/-- A member of a group (R288, R289): the core at which the combining tree holds it, fixed when the group forms (R292); the wave of its gleave, whether that wave has completed (R291), whether it has died (R300). -/
structure Member where
  actor : AId
  loc : Loc
  spot : CoreId
  ep : BitVec 4
  cls : BitVec 6
  key : Key
  leftAt : Option Nat
  gone : Bool
  dead : Bool
  deriving DecidableEq, Repr

/-- A wave of a group in progress (R291, R299): the contributions by rank; the leaf chunks, and once every rank is accounted for (`started`) the chunks that wait for their pair; the dead ranks without a contribution; its failure; the result chunks written, and the ranks whose completion has left. -/
structure Wave where
  num : Nat
  contribs : List (Nat × Contrib)
  chunks : List Chunk
  absent : List Nat
  failed : Option (BitVec 9)
  started : Bool
  written : List (Nat × Nat)
  done : List Nat
  deriving DecidableEq, Repr

/-- A registry entry (R288): members in join order before the group forms, by rank after; when the group is broken, the waves that had begun by then (R300). -/
structure Group where
  tenant : BitVec 4
  num : BitVec 16
  chan : BitVec 2
  prio : BitVec 2
  count : Nat
  formed : Bool
  broken : Option (List Nat)
  members : List Member
  waves : List Wave
  deriving DecidableEq, Repr

/-- A page of the Depot map (R248, R249). -/
structure DepotPage where
  gen : BitVec 32
  cells : List Host.Cell
  bad : Bool
  deriving DecidableEq, Repr

/-- The Depot's services (R250). -/
inductive Service where
  | page | loader | checkpoint
  deriving DecidableEq, Repr

/-- A Depot channel (R250 to R252). -/
structure DepotChan where
  service : Service
  actor : AId
  loc : Loc
  ep : BitVec 4
  answers : BitVec 40
  live : Bool
  deriving DecidableEq, Repr

/-- One slot of a checkpoint identifier (R265): its header of 64 bytes, none when it is erased, the page list with the stored contents, and whether a codeword of them is uncorrectable (R247). -/
structure CkSlot where
  header : List Byte
  pages : List (Nat × Bool × List Host.Cell)
  bad : Bool
  deriving DecidableEq, Repr

/-- A checkpoint take in progress (R263). -/
structure Take where
  req : DepotReq
  id : BitVec 16
  t : Word
  pages : List (Nat × Bool)
  deriving DecidableEq, Repr

/-- Bits of the management core's registers (R192, R334, R339, and the per-tenant registers). -/
structure Mgmt where
  step : BitVec 8
  fwMaj : BitVec 8
  fwMin : BitVec 16
  reason : BitVec 8
  attempts : BitVec 2
  minimal : Bool
  ready : Bool
  lcState : BitVec 3
  lcErr : BitVec 8
  lcGo : Bool
  /-- the state that a verified change is to store: the wipe is under way (R193) -/
  wiping : Option (BitVec 3)
  lcRequest : List Byte
  pwrCap : BitVec 11
  pwrNow : BitVec 11
  qgrant : Vector (BitVec 16) 4
  level : Vector (BitVec 6) 4
  inlet : BitVec 8
  layby : Vector (Option (BitVec 24)) 16
  laybyId : Vector (BitVec 24) 16
  pager : Vector (Bool × BitVec 6 × BitVec 24) 16
  horizon : Vector Word 16
  parkdl : Vector (BitVec 24) 16
  fabric : Bool
  period : BitVec 24
  fperiod : BitVec 24
  mnow : Word
  mrounds : BitVec 32
  msettled : Bool
  tblReq : Vector Word 4
  tblGo : Bool
  tblStatus : Word
  cfgReq : Vector Word 2
  cfgEntries : Vector Byte 64
  cfgGo : Bool
  cfgStatus : BitVec 8
  trapMask : Vector (BitVec 16) 16
  haltOk : Vector Bool 16
  stopped : Vector Bool 16
  rbGo : Vector Bool 16
  rbStop : Vector Bool 16
  /-- partitions that a halt or a trap is to stop (R351, R356) -/
  rbTrip : Vector Bool 16
  rbSel : BitVec 12
  counters : List (Nat × Word)
  deriving DecidableEq, Repr

/-- A host endpoint (R196, R197). -/
structure HostEp where
  num : BitVec 17
  tenant : BitVec 4
  seq : BitVec 40
  record : EpRec
  states : List StateRec
  peerId : BitVec 24
  vrt : Word
  ctl : Word
  busy : Bool
  window : Mem
  ring : Byte
  /-- the cycle in which a CTL write last found it busy (R268) -/
  fullAt : Option Nat
  deriving DecidableEq, Repr

/-- A host delivery ring (R198). -/
structure Ring where
  fn : Nat
  num : Nat
  rbase : Word
  rsize : BitVec 4
  rhead : Word
  rtail : Word
  rvec : BitVec 16
  phase : Bool
  deriving DecidableEq, Repr

/-- A host write that a port has received (R4, R192, R196): to W0 of physical function 0, or to W1 or W2 of a function, where `i` numbers its host endpoints. -/
inductive HostWrite where
  | w0 (offset : Nat) (value : Word)
  | window (fn i : Nat) (offset : Nat) (bytes : List Byte)
  | vrt (fn i : Nat) (value : Word)
  | ctl (fn i : Nat) (value : Word)
  | ring (fn ring reg : Nat) (value : Word)
  | ringByte (fn i : Nat) (value : Byte)
  /-- a word of the MSI-X table: 2n and 2n + 1 are the words of vector n -/
  | msix (fn word : Nat) (value : Word)
  deriving DecidableEq, Repr

/-- What a module gives to a fabric round (R374): its minima, its maximum and its count of messages on their way. -/
structure Share where
  here : Word
  way : Word
  top : Word
  count : BitVec 32
  deriving DecidableEq, Repr

/-- What a fabric round sends to a neighbouring module (R374): a share on its way to the root, or the root's word, which is a result or that the modules pass again. -/
inductive FabricWord where
  | up (x : Share)
  | down (result : Option (Word × Bool))
  deriving DecidableEq, Repr

/-- A link flit (R285): its 256 payload bytes, its trailer's sequence, channel and CRC-32C, and what its payload stands for, with the colour that the message has (R371). -/
structure Flit where
  data : List Byte
  seq : BitVec 12
  chan : BitVec 2
  crc : BitVec 32
  colour : Bool
  carries : Option Packet
  round : Option FabricWord
  deriving DecidableEq, Repr

/-- An Umzaow Link port (R285, R286): its sequences, its replay buffer, its failed replays and retrainings; what has come in and not been served; the flits sent, and the acknowledgements (true) and replay requests (false) sent. -/
structure Port where
  up : Bool
  txSeq : BitVec 12
  rxSeq : BitVec 12
  replay : List Flit
  fails : Nat
  retrains : Nat
  rx : List Flit
  acks : List (BitVec 12)
  replays : List (BitVec 12)
  out : List Flit
  asks : List (Bool × BitVec 12)
  dropping : Bool
  deriving DecidableEq, Repr

/-- The Milestone round in progress (R371 to R374): its number, the stations that have taken its cut, its contribution to the fabric and whether the share of its part of the torus has been sent on, its result, the stations that the result has reached. -/
structure Round where
  num : Nat
  cut : List Nat
  given : Option Share
  sentUp : Bool
  result : Option (Word × Bool)
  reached : List Nat
  deriving DecidableEq, Repr

/-- A station of the Milestone (R371, R372). Stations: core c is c; logic base b is 4,096 + b; the Depot engine 4,104; host port h 4,105 + h; link port l 4,107 + l. -/
structure Station where
  colour : Bool
  sent0 : BitVec 32
  sent1 : BitVec 32
  rcvd0 : BitVec 32
  rcvd1 : BitVec 32
  way : Word
  deriving DecidableEq, Repr

/-- An actor of a launch set (R63, R64), with its zones and its `.data`: zone, offset, bytes. -/
structure LaunchActor where
  aid : AId
  image : BitVec 16
  disc : Disc
  prio : BitVec 2
  budget : BitVec 25
  loc : Loc
  zones : Vector Zone 8
  data : List (Nat × Nat × List Byte)
  deriving DecidableEq, Repr

/-- An image of a launch set: its code bytes, descriptor fields and itinerary blocks (R63, R302, R306). -/
structure LaunchImage where
  image : Image
  code : List Byte
  blocks : List Block
  core : CoreId
  deriving DecidableEq, Repr

/-- A message that a launch's phase 4 has yet to write into its host endpoint (R385). -/
structure Inject where
  num : BitVec 17
  cls : BitVec 6
  vrt : Word
  data : List Byte
  deriving DecidableEq, Repr

/-- A launch set (R63, R64, R385). -/
structure LaunchSet where
  images : List LaunchImage
  actors : List LaunchActor
  connects : List (Nat × BitVec 4 × BitVec 7 × Nat × BitVec 4 × BitVec 7)
  injects : List (Nat × BitVec 4 × BitVec 6 × Word × List Byte)
  deriving DecidableEq, Repr

/-- A soft error that an environment may cause (R202, R142, R316). -/
inductive Upset where
  | pad (c : CoreId) (word : Nat)
  | code (c : CoreId) (word : Nat)
  /-- word w of tile t, numbered 256 t + w (R135) -/
  | tile (c : CoreId) (w : Nat)
  | dram (s : BitVec 3) (word : Nat)
  | flash (page : Nat)
  /-- a checkpoint slot: even or odd (R247, R265) -/
  | slot (id : BitVec 16) (odd : Bool)
  /-- bits of the CRC field of a head flit on its way, by its place (R280) -/
  | head (n : Nat) (bits : BitVec 32)
  /-- the directory, itinerary or shape table, as the accesses through a directory index meet it (R316) -/
  | itinerary (c : CoreId) (i : BitVec 7)
  /-- an endpoint record, zone descriptor, junction entry or backtrack log of a resident actor (R354) -/
  | record (c : CoreId) (k : BitVec 4) (part : ActorPart)
  /-- a line of a crossing cache (R354) -/
  | line (b : BitVec 3) (n : Nat)
  /-- a page-table, capability-table or walk entry, by page (R354) -/
  | leaf (page : Nat)
  /-- the save area of an evicted actor (R354) -/
  | saved (a : AId)
  /-- an error of one bit, corrected and counted at offset 0x3090 + 8k (R383) -/
  | corrected (k : Nat)
  deriving DecidableEq, Repr

/-- What moves next (log 1): an issue cycle, a step of the part, the core whose issue cycles follow, cycles that pass, a soft error, a new inlet temperature, what the host or another module sends. -/
inductive Turn where
  /-- an issue cycle of the core in focus -/
  | cycle
  | event (i : Instr)
  | focus (c : CoreId)
  | elapse (n : Nat)
  | upset (u : Upset)
  | sensor (celsius : BitVec 8)
  /-- a new temperature of the hottest die (R383) -/
  | die (celsius : Int)
  /-- a crossing cache gives up a line (R222) -/
  | replace (b : BitVec 3) (n : Nat)
  /-- a write of the host that a port receives -/
  | hostWrite (w : HostWrite)
  /-- what a link port receives: a flit, an acknowledgement, a request for replay -/
  | flitIn (l : Nat) (f : Flit)
  | ackIn (l : Nat) (seq : BitVec 12)
  | replayIn (l : Nat) (seq : BitVec 12)
  /-- a launch set handed to the runtime -/
  | request (x : LaunchSet)
  /-- the management core gives a tenant units of a code store, a host endpoint, and the module its place in the torus (R15, R210, R287) -/
  | partition (c : CoreId) (t : BitVec 4) (first count : Nat)
  | hostEnd (n : BitVec 17) (t : BitVec 4)
  /-- the management core connects a host endpoint to an actor's endpoint that is armed for it (R172, R385) -/
  | hostConnect (n : BitVec 17) (l : Loc) (e : BitVec 4)
  /-- the MSI-X vectors that a function has, of the 2,048 of its port (R195) -/
  | vectors (fn count : Nat)
  /-- a firmware update (R192) -/
  | firmware (major : BitVec 8) (minor : BitVec 16)
  | torus (coords size : BitVec 12)
  /-- a boot that fails with a reason (R384) -/
  | bootFails (reason : BitVec 8)
  deriving DecidableEq, Repr

/-- The state of the module. `agenda` is what moves next, `here` the core in focus and `cx` its context that issues; `time` counts cycles of the module and `tick` the free values drawn (log 1, log 8). -/
structure State where
  agenda : List Turn
  here : CoreId
  cx : BitVec 2
  time : Nat
  tick : Nat
  cores : List (Nat × Core)
  bases : List (Nat × Base)
  flight : List Flying
  leaves : List (Nat × Leaf)
  caps : List (Nat × Cap)
  groups : List (Nat × Group)
  depot : List (Nat × DepotPage)
  chans : List (Nat × DepotChan)
  depotQ : List DepotReq
  depotAntis : List Header
  ckpts : List (Nat × CkSlot × CkSlot)
  takes : List Take
  mgmt : Mgmt
  hosts : List HostEp
  rings : List Ring
  /-- the MSI-X tables: two words for each vector, by function × 2,048 + vector; every vector is masked after reset (log 11) -/
  msix : List (Nat × Word × Word)
  /-- the vectors that each function has (R195) -/
  vectors : List (Nat × Nat)
  msixPending : List (Nat × Nat)
  interrupts : List (Nat × Nat)
  hostMem : Mem
  hostIn : List HostWrite
  launches : List LaunchSet
  launchCause : BitVec 9
  /-- what the launch in its phase 4 has yet to write (R385) -/
  injects : List Inject
  ports : List (Nat × Port)
  coords : BitVec 12
  torus : BitVec 12
  round : Option Round
  roundNum : Nat
  /-- the stations that have taken the cut of the next round before its start here (R371) -/
  early : List Nat
  lastM : Word
  lastSettled : Bool
  roundDue : Nat
  fabricOn : Bool
  fabricIn : List Share
  /-- the root's words that have come in and not been taken -/
  fabricDown : List (Option (Word × Bool))
  sensor : BitVec 8
  /-- the hottest die's temperature in °C (R383) -/
  die : Int
  /-- the failed cores of each quadrant that the fuses mark, by row and column (R317) -/
  fuses : Vector (List (Nat × Nat)) 4
  stations : List (Nat × Station)
  deriving DecidableEq, Repr

/-! ## Why a step stops -/

/-- Faults of the machine. The manual has no outcome called undefined (R3): every condition it names is a trap, a report or a count, so no instruction faults. -/
inductive Fault where
  /-- Raised by a step that names an agent the module does not have: a page outside the global window, or a tile or port number out of range. Safe: the machine stops where the hardware has nothing. -/
  | noSuchPart
  /-- Raised by an issue cycle when the bytes at the PC of the context that is to issue are no instruction of an executable image. The scan and the run-time checks keep every run from it (R54 to R58); the manual gives it no effect. Safe: the machine stops. -/
  | noInstruction
  deriving DecidableEq, Repr

/-- Refusals. -/
inductive Refusal where
  /-- Raised by Dispatch for an instruction that has no meaning yet. Safe. -/
  | notModelled (mnemonic : String)
  /-- Raised by a step without an encoding when what it needs is not there (no message at that place, an empty queue, a wait not met): the step cannot happen in this state, so the turn is not one the hardware could take. Safe (log 3). -/
  | notEnabled (step : String)
  deriving DecidableEq, Repr

/-! ## Sparse maps -/

/-- The value at a key, or the default. -/
def look (d : α) (k : Nat) : List (Nat × α) → α
  | [] => d
  | (j, x) :: m => if j = k then x else look d k m

/-- A map with the value at a key replaced, keys strictly rising. -/
def put (k : Nat) (x : α) : List (Nat × α) → List (Nat × α)
  | [] => [(k, x)]
  | (j, y) :: m => if k < j then (k, x) :: (j, y) :: m else if j = k then (k, x) :: m else (j, y) :: put k x m

/-- A map without a key. -/
def drop (k : Nat) (m : List (Nat × α)) : List (Nat × α) := m.filter fun x => x.1 != k

/-! ## Values after reset -/

def Key.zero : Key := ⟨0, 0, 0⟩

def Zone.none : Zone := ⟨false, .kept, 0, 0⟩

def Mem.empty : Mem := ⟨[], []⟩

/-- A free endpoint (R156, R157). -/
def EpRec.zero : EpRec :=
  { status := .free, pkind := .actor, look := 0, itin := 0, state := 0, peer := 0, pmod := 0, lastvrt := 0, loop := 0,
    sent := 0, rcvd := 0, ccause := 0, cpoint := 0, cbypeer := false, bufbase := 0, slot := 0 }

/-- e15 at actor creation (R158, R225). -/
def EpRec.memory (base : BitVec 18) : EpRec :=
  { EpRec.zero with status := .opened, pkind := .memory, look := 32, bufbase := base, slot := 256 }

def EpAux.zero : EpAux :=
  { run := none, closeLeft := false, cls := 0, old := .free, filter := 0, peerId := 0, forwardTo := none, holdDirect := false,
    spawning := false, count := 0, broken := false, waves := 0, asked := none }

def Junction.zero : Junction := ⟨false, false, 0⟩

def JReg.zero : JReg := ⟨false, 0, 0⟩

/-- An actor with nothing in it. -/
def Actor.zero : Actor :=
  { aid := ⟨0, 0⟩, image := 0, disc := .untimed, prio := 0, budget := 16384, zones := Vector.replicate 8 Zone.none,
    eps := Vector.replicate 16 EpRec.zero, aux := Vector.replicate 16 EpAux.zero, junction := Vector.replicate 64 Junction.zero,
    seq := 0, durstat := ⟨false, 0, 0⟩, durFail := none, jreg := JReg.zero, box := [], e15used := [], e15undone := [], log := [], logNext := 0, ended := [],
    pending := none, lent := 0, divertRun := none, retired := false, bad := [], freedAt := 0, fullAt := none }

/-- A context after reset (R65, R189; log 6 for what has no reset value). -/
def Ctx.reset : Ctx :=
  { phase := .free, wait := .none, slot := 0, pc := 0, g := Vector.replicate 32 0, f := Vector.replicate 32 0,
    p := Vector.replicate 8 0, b := Vector.replicate 4 0, v := Vector.replicate 16 0, vnow := 0, vout := 1, fflags := 0,
    vrnd := 0, seed := 1, jstat := 0, trapinfo := Vector.replicate 4 0, budget := 0, prioBase := 0, prioEff := 0,
    trigger := none, g3 := 0, g4 := 0, started := 0, retired := 0, staging := [], scFence := false, relFence := false, wpages := [],
    committed := false, leaving := false, kept := 0, reinject := false, consumed := [], freedAt := none }

def Tile.reset : Tile := ⟨0, none, 0⟩

/-- A core after a wipe (R213) and reset. -/
def Core.reset : Core :=
  { ctxs := Vector.replicate 4 Ctx.reset, pad := Mem.empty, full := [], fullFog := [], badPad := [], code := Mem.empty,
    badCode := [], starts := [], images := [], scan := none, parts := [], tiles := Vector.replicate 8 Tile.reset,
    badTiles := [], tileWait := [], vq := [], mq := [], cq := [], deferral := [], antis := [], antiFull := none, fenced := [], actors := [],
    dir := [], itab := [], shapes := [], prot := [], slots := [], nextSlots := none, pointer := 0, throttle := 0,
    cycle := 0, vmile := 0, rounds := 0, settled := false, arm := none, stopped := false, rb := [],
    rbCounts := [], called := [], badItins := [], dispatched := none }

/-- A logic base after reset. The frames of a stack: 64 GiB in 64 KiB frames (R11), 4,096 of them in the save pool (R400); log 10. -/
def Base.reset : Base :=
  { dram := Mem.empty, badDram := [], badLines := [], badLeaves := [], frames := 1048576, tables := Config.tableFrames, blocks := [], taken := [], tcache := [], walks := [], walkQueue := [],
    walkWait := [], parked := [], noticed := [], notices := 0, cache := [], presence := [], snaps := [],
    poolUsed := 0, poolFrames := 4096, spills := [], saved := [], heldAntis := [], conns := [], waiting := [], vmile := 0,
    settled := false }

def StateEntry.zero : StateEntry := ⟨0, 0, 0, 0, 0, 0, 0, 0, 0, 0, false⟩

def Shape.zero : Shape := ⟨0, 0⟩

def DirEntry.zero : DirEntry := ⟨false, false, 0, 0, 0, 0, 0, 0, 0, 0⟩

def Leaf.zero : Leaf := ⟨false, false, false, false, false, 0, 0⟩

def Cap.zero : Cap := ⟨false, 0, 0⟩

/-- A page of the Depot map that holds no sectors: all zero (R248). -/
def DepotPage.zero : DepotPage := ⟨0, [], false⟩

def CkSlot.zero : CkSlot := ⟨[], [], false⟩

def Port.reset : Port := ⟨true, 0, 0, [], 0, 0, [], [], [], [], [], false⟩

/-- A station after reset: way minimum 2^64 - 1 (R371). -/
def Station.reset : Station := ⟨false, 0, 0, 0, 0, BitVec.allOnes 64⟩

/-- The management registers after reset (R192, R328, R348, R356, R362, R373, R396; log 11 for those without a reset value). -/
def Mgmt.reset : Mgmt :=
  { step := 0xB0, fwMaj := 3, fwMin := 0, reason := 0, attempts := 0, minimal := false, ready := false, lcState := 2,
    lcErr := 0, lcGo := false, wiping := none, lcRequest := [], pwrCap := 1800, pwrNow := 0, qgrant := Vector.replicate 4 0, level := Vector.replicate 4 0, inlet := 25,
    layby := Vector.replicate 16 none, laybyId := Vector.replicate 16 0, pager := Vector.replicate 16 (false, 0, 0),
    horizon := Vector.replicate 16 0x100000, parkdl := Vector.replicate 16 1709, fabric := false, period := 2048,
    fperiod := 65536, mnow := 0, mrounds := 0, msettled := false, tblReq := Vector.replicate 4 0, tblGo := false,
    tblStatus := 0, cfgReq := Vector.replicate 2 0, cfgEntries := Vector.replicate 64 0, cfgGo := false, cfgStatus := 0,
    trapMask := Vector.replicate 16 0, haltOk := Vector.replicate 16 false, stopped := Vector.replicate 16 false,
    rbGo := Vector.replicate 16 false, rbStop := Vector.replicate 16 false, rbTrip := Vector.replicate 16 false, rbSel := 0, counters := [] }

/-- The module right after reset. -/
def State.reset : State :=
  { agenda := [], here := 0, cx := 0, time := 0, tick := 0, cores := [], bases := [], flight := [], leaves := [], caps := [],
    groups := [], depot := [], chans := [], depotQ := [], depotAntis := [], ckpts := [], takes := [], mgmt := Mgmt.reset,
    hosts := [], rings := [], msix := [], vectors := [], msixPending := [], interrupts := [], hostMem := ⟨[], [⟨0, 2 ^ 66, 0⟩]⟩, hostIn := [],
    launches := [], launchCause := 0, injects := [], ports := [], coords := 0, torus := 0, round := none, roundNum := 0, early := [], lastM := 0,
    lastSettled := false, roundDue := 0, fabricOn := false, fabricIn := [], fabricDown := [], sensor := 25, die := 25, fuses := Vector.replicate 4 [], stations := [] }

/-! ## Homes of the registers -/

def State.core (s : State) (c : CoreId) : Core := look Core.reset c.toNat s.cores
def State.setCore (s : State) (c : CoreId) (k : Core) : State := { s with cores := put c.toNat k s.cores }
def State.base (s : State) (b : Nat) : Base := look Base.reset b s.bases
def State.setBase (s : State) (b : Nat) (k : Base) : State := { s with bases := put b k s.bases }

/-- The context that issues. -/
def State.ctx (s : State) : Ctx := (s.core s.here).ctxs[s.cx.toNat]
def State.setCtx (s : State) (x : Ctx) : State :=
  let k := s.core s.here
  s.setCore s.here { k with ctxs := k.ctxs.set s.cx.toNat x }

end Sys2Proof.Machine
end

