-- ==== Sys2Proof/Machine/Flags.lean ====
section
/-! DEFINITION. The sticky flags (04_number_formats.md R104) and the exact arithmetic that raises them: floating encodings, `round_to`, the stochastic generator, conversions and the approximate functions (R91-R103, R120-R122). A finite value is a sign with mantissa times a power of two; nothing is rounded before `roundTo`. -/

namespace Sys2Proof.Machine

/-! ## The sticky flags of FFLAGS (R104) -/

/-- FFLAGS [6:0]: SA, PK, NV, DZ, OF, UF, NX. -/
abbrev Flags := BitVec 7

def flNX : Flags := 1
def flUF : Flags := 2
def flOF : Flags := 4
def flDZ : Flags := 8
def flNV : Flags := 16
def flPK : Flags := 32
def flSA : Flags := 64

/-- A flag raised on a condition. -/
def flagIf (c : Bool) (f : Flags) : Flags := if c then f else 0

/-! ## Encodings (R92) -/

/-- A floating encoding: exponent and fraction widths, bias, code of the largest finite magnitude, and what stands above it. -/
structure FloatFmt where
  ew : Nat
  fw : Nat
  bias : Int
  maxMag : Nat
  inf : Option Nat
  nan : Nat
  saturating : Bool
  deriving DecidableEq, Repr

def f32 : FloatFmt := ⟨8, 23, 127, 0x7F7FFFFF, some 0x7F800000, 0x7FC00000, false⟩
def bf16 : FloatFmt := ⟨8, 7, 127, 0x7F7F, some 0x7F80, 0x7FC0, false⟩
def hf : FloatFmt := ⟨5, 10, 15, 0x7BFF, some 0x7C00, 0x7E00, false⟩
def e5m2 : FloatFmt := ⟨5, 2, 15, 0x7B, some 0x7C, 0x7E, true⟩
def e4m3 : FloatFmt := ⟨4, 3, 7, 0x7E, none, 0x7F, true⟩
def e3m2 : FloatFmt := ⟨3, 2, 3, 0x1F, none, 0, true⟩
def e2m1 : FloatFmt := ⟨2, 1, 1, 0x7, none, 0, true⟩

/-- The width of an encoding. -/
def FloatFmt.width (F : FloatFmt) : Nat := 1 + F.ew + F.fw

/-- A value: NaN (signalling or quiet), infinity, or ± mant × 2^exp exactly. A zero keeps its sign. -/
inductive FVal where
  | nan (signalling : Bool)
  | inf (s : Bool)
  | fin (s : Bool) (mant : Nat) (exp : Int)
  deriving DecidableEq, Repr

/-- The value of an encoding (R92, R93). -/
def decodeF (F : FloatFmt) (bits : Nat) : FVal :=
  let s := bits.testBit (F.ew + F.fw)
  let mag := bits % 2 ^ (F.ew + F.fw)
  let e := mag / 2 ^ F.fw
  let fr := mag % 2 ^ F.fw
  match F.inf with
  | some i =>
    if mag = i then .inf s
    else if mag > i then .nan (! fr.testBit (F.fw - 1))
    else if e = 0 then .fin s fr (1 - F.bias - F.fw) else .fin s (2 ^ F.fw + fr) (e - F.bias - F.fw)
  | none =>
    if F.nan ≠ 0 ∧ mag = F.nan then .nan false
    else if e = 0 then .fin s fr (1 - F.bias - F.fw) else .fin s (2 ^ F.fw + fr) (e - F.bias - F.fw)

/-- An encoding with a sign. -/
def signed (F : FloatFmt) (s : Bool) (mag : Nat) : Nat := if s then 2 ^ (F.ew + F.fw) + mag else mag

/-! ## Rounding (R94, R95) -/

/-- A result pattern with the flags it raises. -/
abbrev Rounded := Nat × Flags

/-- m × 2^k for an integer k, rounded down, and whether that is inexact. -/
def shiftInt (m : Nat) (k : Int) : Nat × Bool :=
  if 0 ≤ k then (m * 2 ^ k.toNat, false) else (m / 2 ^ (-k).toNat, m % 2 ^ (-k).toNat ≠ 0)

/-- The neighbour that a mode chooses for an inexact magnitude (R94): quotient `q` and remainder `r` over 2^`k`, k ≥ 1. `draw` is the draw of mode RS. -/
def choose (mode : BitVec 3) (s : Bool) (draw q r k : Nat) : Nat :=
  let up : Bool := match mode with
    | 0 => decide (2 * r > 2 ^ k) || (decide (2 * r = 2 ^ k) && decide (q % 2 = 1))
    | 1 => decide (2 * r ≥ 2 ^ k)
    | 2 => !s
    | 3 => s
    | 5 => decide (r * 2 ^ 32 / 2 ^ k > draw)
    | _ => false
  if up then q + 1 else q

/-- A magnitude rounded to a multiple of 2^u: its count of those units, and whether it was inexact. -/
def roundUnits (mode : BitVec 3) (s : Bool) (draw m : Nat) (e u : Int) : Nat × Bool :=
  if u ≤ e then (m * 2 ^ (e - u).toNat, false)
  else
    let k := (u - e).toNat
    if m % 2 ^ k = 0 then (m / 2 ^ k, false) else (choose mode s draw (m / 2 ^ k) (m % 2 ^ k) k, true)

/-- `round_to` (R95) of the exact value ± m × 2^e. `draw` is the generator's draw when the mode is RS. -/
def roundTo (F : FloatFmt) (mode : BitVec 3) (draw : Nat) (s : Bool) (m : Nat) (e : Int) : Rounded :=
  if m = 0 then (signed F s 0, 0)
  else
    let top := e + Nat.log2 m
    let lowest : Int := 1 - F.bias - F.fw
    let highest : Int := (F.maxMag / 2 ^ F.fw : Nat) - F.bias - F.fw
    let u := min (max (top - F.fw) lowest) highest
    let (q, nx) := roundUnits mode s draw m e u
    let code := (u + F.fw + F.bias - 1).toNat * 2 ^ F.fw + q
    let (t, _) := roundUnits mode s draw m e (top - F.fw)
    let below := top - F.fw + Nat.log2 t < lowest + F.fw
    let fl := flagIf nx flNX ||| flagIf (nx && decide below) flUF
    if code > F.maxMag then
      let toInf := mode = 0 ∨ mode = 1 ∨ mode = 5 ∨ (mode = 2 ∧ s = false) ∨ (mode = 3 ∧ s = true)
      match F.inf with
      | some i => if F.saturating = false ∧ toInf then (signed F s i, fl ||| flOF ||| flNX) else (signed F s F.maxMag, fl ||| flOF ||| flNX)
      | none => (signed F s F.maxMag, fl ||| flOF ||| flNX)
    else (signed F s code, fl)

/-- The canonical NaN, with NV when invalid or when an operand is signalling (R83, R84). -/
def nanOf (F : FloatFmt) (nv : Bool) : Rounded := (F.nan, flagIf nv flNV)

def isNan : FVal → Bool
  | .nan _ => true
  | _ => false

def isSig : FVal → Bool
  | .nan s => s
  | _ => false

/-! ## The stochastic generator (R96) -/

/-- `lfsr_next`: the new state, which is the draw. -/
def lfsrNext (seed : BitVec 32) : BitVec 32 :=
  if seed.getLsbD 31 then (seed <<< 1) ^^^ 0x00400007#32 else seed <<< 1

/-- The state after n draws. -/
def lfsrSkip : Nat → BitVec 32 → BitVec 32
  | 0, x => x
  | n + 1, x => lfsrSkip n (lfsrNext x)

/-- The generator after an instruction of n draws in a mode: only RS draws (R98). -/
def drawn (mode : BitVec 3) (n : Nat) (seed : BitVec 32) : BitVec 32 := if mode = 5 then lfsrSkip n seed else seed

/-- `seed_of` (R97). -/
def seedOf (k : Key) : BitVec 32 :=
  let mix (h w : BitVec 32) : BitVec 32 :=
    let h1 := (h ^^^ w) * 0x2C1B3C6D#32
    h1 ^^^ (h1 >>> 16)
  let h := mix (mix (mix (mix (mix 0x5D588B65#32 (k.vrt.setWidth 32)) ((k.vrt >>> 32).setWidth 32)) (k.sender.setWidth 32))
    (k.seq.setWidth 32)) ((k.seq >>> 32).setWidth 32)
  if h = 0 then 1 else h

/-! ## Arithmetic (R84, R85, R95) -/

/-- ± m × 2^e as an integer count of 2^u, u ≤ e. -/
def toUnits (s : Bool) (m : Nat) (e u : Int) : Int :=
  let n : Int := (m * 2 ^ (e - u).toNat : Nat)
  if s then -n else n

/-- The exact sum of two finite values, with the zero sign of R95. -/
def addExact (mode : BitVec 3) (s1 : Bool) (m1 : Nat) (e1 : Int) (s2 : Bool) (m2 : Nat) (e2 : Int) : Bool × Nat × Int :=
  let u := min e1 e2
  let n := toUnits s1 m1 e1 u + toUnits s2 m2 e2 u
  if n = 0 then
    (if m1 = 0 ∧ m2 = 0 ∧ s1 = s2 then s1 else mode = 3, 0, u)
  else (n < 0, n.natAbs, u)

/-- The sum of two values rounded once. -/
def addF (F : FloatFmt) (mode : BitVec 3) (draw : Nat) (x y : FVal) : Rounded :=
  match x, y with
  | .nan a, y => nanOf F (a || isSig y)
  | _, .nan b => nanOf F b
  | .inf a, .inf b => if a = b then (signed F a (F.inf.getD F.maxMag), 0) else nanOf F true
  | .inf a, .fin .. => (signed F a (F.inf.getD F.maxMag), 0)
  | .fin .., .inf b => (signed F b (F.inf.getD F.maxMag), 0)
  | .fin s1 m1 e1, .fin s2 m2 e2 =>
    let (s, m, e) := addExact mode s1 m1 e1 s2 m2 e2
    roundTo F mode draw s m e

/-- A value with its sign inverted. A NaN stays. -/
def negF : FVal → FVal
  | .nan s => .nan s
  | .inf s => .inf (!s)
  | .fin s m e => .fin (!s) m e

def subF (F : FloatFmt) (mode : BitVec 3) (draw : Nat) (x y : FVal) : Rounded := addF F mode draw x (negF y)

def mulF (F : FloatFmt) (mode : BitVec 3) (draw : Nat) (x y : FVal) : Rounded :=
  match x, y with
  | .nan a, y => nanOf F (a || isSig y)
  | _, .nan b => nanOf F b
  | .inf a, .inf b => (signed F (a ^^ b) (F.inf.getD F.maxMag), 0)
  | .inf a, .fin b m _ => if m = 0 then nanOf F true else (signed F (a ^^ b) (F.inf.getD F.maxMag), 0)
  | .fin a m _, .inf b => if m = 0 then nanOf F true else (signed F (a ^^ b) (F.inf.getD F.maxMag), 0)
  | .fin a m e, .fin b n f => roundTo F mode draw (a ^^ b) (m * n) (e + f)

/-- x × y + z with one rounding (R84): 0 × inf is invalid even when z is a NaN. -/
def fmaF (F : FloatFmt) (mode : BitVec 3) (draw : Nat) (x y z : FVal) : Rounded :=
  let invalid : Bool := match x, y with
    | .inf _, .fin _ m _ => decide (m = 0)
    | .fin _ m _, .inf _ => decide (m = 0)
    | _, _ => false
  if invalid then nanOf F true
  else if isNan x || isNan y || isNan z then nanOf F (isSig x || isSig y || isSig z)
  else match x, y with
    | .fin a m e, .fin b n f => addF F mode draw (.fin (a ^^ b) (m * n) (e + f)) z
    | .inf a, .inf b => addF F mode draw (.inf (a ^^ b)) z
    | .inf a, .fin b _ _ => addF F mode draw (.inf (a ^^ b)) z
    | .fin a _ _, .inf b => addF F mode draw (.inf (a ^^ b)) z
    | _, _ => nanOf F false

/-- A quotient to 96 bits below the leading ones, with a last bit that records an inexact remainder: enough for every format and draw. -/
def divMant (m n : Nat) : Nat :=
  let q := m * 2 ^ 96 / n
  2 * q + (if m * 2 ^ 96 % n = 0 then 0 else 1)

def divF (F : FloatFmt) (mode : BitVec 3) (draw : Nat) (x y : FVal) : Rounded :=
  match x, y with
  | .nan a, y => nanOf F (a || isSig y)
  | _, .nan b => nanOf F b
  | .inf _, .inf _ => nanOf F true
  | .inf a, .fin b _ _ => (signed F (a ^^ b) (F.inf.getD F.maxMag), 0)
  | .fin a _ _, .inf b => (signed F (a ^^ b) 0, 0)
  | .fin a m e, .fin b n f =>
    if n = 0 then
      if m = 0 then nanOf F true else (signed F (a ^^ b) (F.inf.getD F.maxMag), flDZ)
    else roundTo F mode draw (a ^^ b) (divMant m n) (e - f - 97)

/-- The integer square root by bits from 2^k down, k steps of structural recursion. -/
def isqrtFrom : Nat → Nat → Nat → Nat
  | 0, _, r => r
  | k + 1, n, r => if (r + 2 ^ k) * (r + 2 ^ k) ≤ n then isqrtFrom k n (r + 2 ^ k) else isqrtFrom k n r

/-- The integer square root of n. -/
def isqrt (n : Nat) : Nat := isqrtFrom (Nat.log2 n / 2 + 1) n 0

def sqrtF (F : FloatFmt) (mode : BitVec 3) (draw : Nat) : FVal → Rounded
  | .nan s => nanOf F s
  | .inf s => if s then nanOf F true else (F.inf.getD F.maxMag, 0)
  | .fin s m e =>
    if m = 0 then (signed F s 0, 0)
    else if s then nanOf F true
    else
      let odd := e % 2 ≠ 0
      let n := (if odd then 2 * m else m) * 2 ^ 192
      let r := isqrt n
      roundTo F mode draw false (2 * r + (if r * r = n then 0 else 1)) ((if odd then e - 1 else e) / 2 - 97)

/-- Whether x < y, for values that are not NaN; −0 equals +0. -/
def ltF : FVal → FVal → Bool
  | .inf a, .inf b => a && !b
  | .inf a, .fin .. => a
  | .fin .., .inf b => !b
  | .fin s m e, .fin t n f => toUnits s m e (min e f) < toUnits t n f (min e f)
  | _, _ => false

def eqF : FVal → FVal → Bool
  | .inf a, .inf b => a = b
  | .fin s m e, .fin t n f => toUnits s m e (min e f) = toUnits t n f (min e f)
  | _, _ => false

/-- fmin (`mx` false) and fmax (R85) on encodings: −0 is less than +0. -/
def minmaxF (F : FloatFmt) (mx : Bool) (a b : Nat) : Rounded :=
  let x := decodeF F a
  let y := decodeF F b
  let fl := flagIf (isSig x || isSig y) flNV
  if isNan x && isNan y then (F.nan, fl)
  else if isNan x then (b, fl)
  else if isNan y then (a, fl)
  else
    let neg := a.testBit (F.ew + F.fw)
    let aLess := ltF x y || (eqF x y && neg && ! b.testBit (F.ew + F.fw))
    if mx then (if aLess then b else a, fl) else (if aLess then a else b, fl)

/-- Comparison kinds of fcmpeq, fcmplt, fcmple. -/
inductive FCmp where
  | eq | lt | le
  deriving DecidableEq, Repr

/-- A comparison (R84): false on any NaN; NV on a signalling NaN for equality, on any NaN otherwise. -/
def cmpF (k : FCmp) (x y : FVal) : Bool × Flags :=
  if isNan x || isNan y then
    (false, flagIf (match k with | .eq => isSig x || isSig y | _ => true) flNV)
  else match k with
    | .eq => (eqF x y, 0)
    | .lt => (ltF x y, 0)
    | .le => (ltF x y || eqF x y, 0)

/-- The class code (R88): SIGN in bit 7, KIND in bits [3:0]. -/
def classF (F : FloatFmt) (bits : Nat) : Nat :=
  let s := if bits.testBit (F.ew + F.fw) then 0x80 else 0
  s + match decodeF F bits with
    | .nan true => 5
    | .nan false => 4
    | .inf _ => 3
    | .fin _ m _ => if m = 0 then 0 else if m < 2 ^ F.fw then 1 else 2

/-! ## Conversions (R86, R87, R99) -/

/-- A float to another format: exact or by `round_to`, with the specials of R99. -/
def convF (F : FloatFmt) (mode : BitVec 3) (draw : Nat) : FVal → Rounded
  | .nan s => if F.nan = 0 then (0, flNV) else (F.nan, flagIf s flNV)
  | .inf s => match F.inf with
    | some i => (signed F s i, 0)
    | none => (signed F s F.maxMag, flNV)
  | .fin s m e => roundTo F mode draw s m e

/-- The integer type of a conversion: width and signedness. -/
structure IntTy where
  w : Nat
  sg : Bool
  deriving DecidableEq, Repr

def IntTy.lo (t : IntTy) : Int := if t.sg then -(2 ^ (t.w - 1) : Nat) else 0
def IntTy.hi (t : IntTy) : Int := if t.sg then (2 ^ (t.w - 1) : Nat) - 1 else (2 ^ t.w : Nat) - 1

/-- A pattern of w bits taken as the type says (R91). -/
def IntTy.read (t : IntTy) (bits : Nat) : Int :=
  let n : Nat := bits % 2 ^ t.w
  if t.sg ∧ n ≥ 2 ^ (t.w - 1) then (n : Int) - (2 ^ t.w : Nat) else n

/-- An integer wrapped to w bits. -/
def wrapInt (w : Nat) (x : Int) : Nat := (x % (2 ^ w : Nat)).toNat

/-- `sat` (00_scope.md). -/
def satInt (x lo hi : Int) : Int := if x < lo then lo else if x > hi then hi else x

/-- A float to an integer type (R87): rounded, then clamped with NV and without NX. -/
def toIntF (t : IntTy) (mode : BitVec 3) (draw : Nat) : FVal → Int × Flags
  | .nan _ => (0, flNV)
  | .inf s => (if s then t.lo else t.hi, flNV)
  | .fin s m e =>
    let (q, nx) := roundUnits mode s draw m e 0
    let v : Int := if s then -(q : Int) else q
    if v < t.lo ∨ v > t.hi then (satInt v t.lo t.hi, flNV) else (v, flagIf nx flNX)

/-- An integer to a float by `round_to`. -/
def ofIntF (F : FloatFmt) (mode : BitVec 3) (draw : Nat) (x : Int) : Rounded := roundTo F mode draw (x < 0) x.natAbs 0

/-- An integer of one type to another, clamped with SA (R99, R124). -/
def convI (t : IntTy) (x : Int) : Nat × Flags :=
  (wrapInt t.w (satInt x t.lo t.hi), flagIf (x < t.lo || x > t.hi) flSA)

/-- fround (R86): to an integral value, keeping the sign of a zero; never NX. -/
def roundIntegral (F : FloatFmt) (mode : BitVec 3) (draw : Nat) : FVal → Rounded
  | .nan s => nanOf F s
  | .inf s => (signed F s (F.inf.getD F.maxMag), 0)
  | .fin s m e =>
    let (q, _) := roundUnits mode s draw m e 0
    ((roundTo F 0 0 s q 0).1, 0)

/-- a × 2^n rounded once (R86, R119). -/
def scaleF (F : FloatFmt) (mode : BitVec 3) (draw : Nat) (n : Int) : FVal → Rounded
  | .nan s => nanOf F s
  | .inf s => (signed F s (F.inf.getD F.maxMag), 0)
  | .fin s m e => roundTo F mode draw s m (e + n)

/-! ## Approximate functions (R120 to R122), in units of 2^-24 -/

/-- rnd24 of p ÷ q, in units of 2^-24. -/
def rnd24 (p q : Nat) : Nat := (p * 2 ^ 25 + q) / (2 * q)

/-- rnd24 of p × 2^-k, in units of 2^-24. -/
def rndDown (p k : Nat) : Nat := if k ≤ 24 then p * 2 ^ (24 - k) else (p + 2 ^ (k - 25)) / 2 ^ (k - 24)

/-- m × 2^e as (E, M) with value 2^E × M ÷ 2^log, M's leading one at `log`. -/
def normE (m : Nat) (e : Int) : Int := e + Nat.log2 m

/-- vfrecip's Newton result in units of 2^-24 for a mantissa m of L + 1 bits (R120). -/
def recipUnits (m : Nat) : Nat :=
  let l := Nat.log2 m
  let k := (m - 2 ^ l) * 128 / 2 ^ l
  let y0 := (2 * 2 ^ 32 + (257 + 2 * k)) / (2 * (257 + 2 * k))
  let step (y : Nat) : Nat := rndDown (y * (2 * 2 ^ (24 + l) - m * y)) (48 + l)
  step (step y0)

def recipF (F : FloatFmt) : FVal → Rounded
  | .nan s => nanOf F s
  | .inf s => (signed F s 0, 0)
  | .fin s m e => if m = 0 then (signed F s (F.inf.getD F.maxMag), flDZ) else roundTo F 0 0 s (recipUnits m) (-24 - normE m e)

/-- rnd24 of 1 ÷ √(p ÷ q), in units of 2^-24: the largest n with (2n − 1)² × p ≤ 2^50 × q. -/
def rsqrtTable (p q : Nat) : Nat := (isqrt (2 ^ 50 * q / p) + 1) / 2

/-- vfrsq's Newton result in units of 2^-24 for a mantissa in [1, 4), m ÷ 2^l (R121). -/
def rsqrtUnits (m l : Nat) : Nat :=
  let k := (m - 2 ^ l) * 64 / 2 ^ l
  let y0 := rsqrtTable (129 + 2 * k) 128
  let step (y : Nat) : Nat := rndDown (y * (3 * 2 ^ (48 + l) - m * y * y)) (73 + l)
  step (step y0)

def rsqrtF (F : FloatFmt) : FVal → Rounded
  | .nan s => nanOf F s
  | .inf s => if s then nanOf F true else (0, 0)
  | .fin s m e =>
    if m = 0 then (signed F s (F.inf.getD F.maxMag), flDZ)
    else if s then nanOf F true
    else
      let ex := normE m e
      let l := Nat.log2 m
      let (ex, m) := if ex % 2 ≠ 0 then (ex - 1, 2 * m) else (ex, m)
      roundTo F 0 0 false (rsqrtUnits m l) (-24 - ex / 2)

/-- The largest t with (2t − 1)^64 ≤ 2^(j + 25 × 64), so that t ÷ 2^24 is rnd24 of 2^(j ÷ 64): bits from 2^k down. -/
def exp2TableFrom : Nat → Nat → Nat → Nat
  | 0, _, t => t
  | k + 1, j, t =>
    if (2 * (t + 2 ^ k) - 1) ^ 64 ≤ 2 ^ (j + 1600) then exp2TableFrom k j (t + 2 ^ k) else exp2TableFrom k j t

def exp2Table (j : Nat) : Nat := exp2TableFrom 25 j 0

/-- y of vfexp2 in units of 2^-24 for a fraction f ÷ 2^b in [0, 1), b ≥ 6 (R122). The constants are the f32 patterns L1 to L3 with their leading ones, in units of 2^-24, 2^-26 and 2^-28. -/
def exp2Units (f b : Nat) : Nat :=
  let j := f * 64 / 2 ^ b
  let r := f - j * 2 ^ (b - 6)
  let t := exp2Table j
  let l3 := 0x635847 + 0x800000
  let l2 := 0x75FDF0 + 0x800000
  let l1 := 0x317218 + 0x800000
  let q := rndDown (l3 * r) (28 + b)
  let q := rndDown ((l2 + q * 4) * r) (26 + b)
  let q := rndDown ((l1 + q) * r) (24 + b)
  t + rndDown (t * q) 48

def exp2F (F : FloatFmt) : FVal → Rounded
  | .nan s => nanOf F s
  | .inf s => if s then (0, 0) else (F.inf.getD F.maxMag, 0)
  | .fin s m e =>
    let (q, _) := shiftInt m e
    if s = false ∧ q ≥ 256 then roundTo F 0 0 false 1 256
    else if s = true ∧ (q > 256 ∨ (q = 256 ∧ (shiftInt m e).2)) then roundTo F 0 0 false 1 (-256)
    else
      let b := max 6 (-e).toNat
      let x := toUnits s m e (-(b : Int))
      let n := x / (2 ^ b : Nat)
      let f := (x - n * (2 ^ b : Nat)).toNat
      roundTo F 0 0 false (exp2Units f b) (n - 24)

end Sys2Proof.Machine
end

