-- ==== Sys2Proof/Machine/Operands.lean ====
section
/-! DEFINITION. Operand forms (02_instruction_formats.md R44, R46, R47) and the one home of every register read and write of a context (03_general_registers.md R65 to R68). -/

namespace Sys2Proof.Machine

/-- The outcome of a step. -/
abbrev Out := Host.Outcome State Fault Refusal

/-! ## Immediates (R44, R47) -/

/-- `sext` of an immediate as a doubleword. -/
def immWord (i : BitVec n) : Word := i.signExtend 64

/-- The target of an offset in parcels, relative to a PC (R44). -/
def target (pc : BitVec 16) (off : BitVec n) : BitVec 16 := pc + (off.signExtend 16 <<< 1)

/-- zext(imm10) × access size, for the access size 2^k (R47). -/
def scaled (i : BitVec 10) (k : Nat) : Word := i.setWidth 64 <<< k

/-! ## General registers (R65) -/

/-- g[r]; g0 reads zero. -/
def State.g (s : State) (r : BitVec 5) : Word := if r = 0 then 0 else s.ctx.g[r.toNat]

/-- The state with g[d] written; a write to g0 is discarded. -/
def State.setG (s : State) (d : BitVec 5) (v : Word) : State :=
  if d = 0 then s else s.setCtx { s.ctx with g := s.ctx.g.set d.toNat v }

def State.f (s : State) (r : BitVec 5) : FWord := s.ctx.f[r.toNat]

def State.setF (s : State) (d : BitVec 5) (v : FWord) : State := s.setCtx { s.ctx with f := s.ctx.f.set d.toNat v }

def State.p (s : State) (r : BitVec 3) : Word := s.ctx.p[r.toNat]

def State.setP (s : State) (d : BitVec 3) (v : Word) : State := s.setCtx { s.ctx with p := s.ctx.p.set d.toNat v }

/-- A bit-address register; the fields that name one hold 0 to 3 (R90). -/
def State.b (s : State) (r : BitVec 2) : FWord := s.ctx.b[r.toNat]

def State.setB (s : State) (d : BitVec 2) (v : FWord) : State := s.setCtx { s.ctx with b := s.ctx.b.set d.toNat v }

def State.v (s : State) (r : BitVec 4) : VWord := s.ctx.v[r.toNat]

def State.setV (s : State) (d : BitVec 4) (v : VWord) : State := s.setCtx { s.ctx with v := s.ctx.v.set d.toNat v }

/-- The state with flags merged into FFLAGS (R104). -/
def State.setFlags (s : State) (fl : Flags) : State := s.setCtx { s.ctx with fflags := s.ctx.fflags ||| fl }

/-- Whether a mask's position is active for elements of w bits (R67, R110); p0 is all-true. -/
def activeAt (p : BitVec 3) (m : Word) (w i : Nat) : Bool :=
  if p = 0 then true else if w = 8 then m.getLsbD (i / 2) else m.getLsbD i

/-! ## Moving on (R44) -/

/-- The state with the instruction counted and the PC at a target. -/
def State.goto (s : State) (pc : BitVec 16) : State := s.setCtx { s.ctx with pc := pc, retired := s.ctx.retired + 1 }

/-- The state after an instruction of n bytes that does not transfer control. -/
def State.advance (s : State) (n : Nat) : State := s.goto (s.ctx.pc + BitVec.ofNat 16 n)

/-- The state with the context's next instruction unable to issue, for a reason (R69, R340). The PC stays. -/
def State.stall (s : State) (w : Wait) : State := s.setCtx { s.ctx with wait := w }

/-- g[d] := v, then the next instruction. -/
def writeG (n : Nat) (d : BitVec 5) (v : Word) (s : State) : Out := .next ((s.setG d v).advance n)

/-- f[d] := v with flags, then the next instruction. -/
def writeF (d : BitVec 5) (v : Rounded) (s : State) : Out :=
  .next (((s.setF d (BitVec.ofNat 32 v.1)).setFlags v.2).advance 4)

/-- The generator advanced once when the mode is RS (R83, R98). -/
def State.draw (s : State) (mode : BitVec 3) : State := s.setCtx { s.ctx with seed := drawn mode 1 s.ctx.seed }

end Sys2Proof.Machine
end

