-- ==== Sys2Proof/Machine/Ops.lean ====
section
/-! DEFINITION. The named operations over a core's memories, an actor's zones and logs, and the taking of a trap (09_local_memory.md R200 to R208, 17_virtual_time.md R364, R365, 16_scheduling_and_trap_tables.md R345 to R347). -/

namespace Sys2Proof.Machine

/-! ## Sparse memories -/

/-- What an unlisted address reads as: zero (R213, log 7), or a free value in a range whose content is unspecified (log 8). -/
def fogByte (a : Nat) : List Fog → Byte
  | [] => 0
  | x :: m => if x.lo ≤ a ∧ a < x.hi then Config.freeByte x.tag a else fogByte a m

/-- Whether an address lies in an unspecified range. -/
def inFog (a : Nat) (m : List Fog) : Bool := m.any fun x => decide (x.lo ≤ a) && decide (a < x.hi)

/-- The listed cell at an address. -/
def cellAt (a : Nat) : List Host.Cell → Option Byte
  | [] => none
  | (k, v) :: m => if k = a then some v else cellAt a m

/-- A cell put at its place in rising order. -/
def cellPut (a : Nat) (v : Byte) : List Host.Cell → List Host.Cell
  | [] => [(a, v)]
  | (k, w) :: m => if a < k then (a, v) :: (k, w) :: m else if k = a then (a, v) :: m else (k, w) :: cellPut a v m

/-- The cells without an address. -/
def cellDrop (a : Nat) (m : List Host.Cell) : List Host.Cell := m.filter fun c => c.1 != a

/-- One byte of a memory. -/
def Mem.byte (m : Mem) (a : Nat) : Byte := (cellAt a m.cells).getD (fogByte a m.fog)

/-- One byte written, in canonical form: outside the unspecified ranges a zero is not listed. -/
def Mem.set (m : Mem) (a : Nat) (v : Byte) : Mem :=
  if v = 0 ∧ inFog a m.fog = false then { m with cells := cellDrop a m.cells } else { m with cells := cellPut a v m.cells }

/-- Bytes written from an address up. -/
def Mem.setBytes (m : Mem) (a : Nat) : List Byte → Mem
  | [] => m
  | v :: l => (m.set a v).setBytes (a + 1) l

/-- n bytes from an address up. -/
def Mem.bytes (m : Mem) (a : Nat) : Nat → List Byte
  | 0 => []
  | n + 1 => m.byte a :: m.bytes (a + 1) n

/-- A range made unspecified. -/
def Mem.forget (m : Mem) (lo hi tag : Nat) : Mem :=
  { cells := m.cells.filter fun c => ! (decide (lo ≤ c.1) && decide (c.1 < hi)),
    fog := ⟨lo, hi, tag⟩ :: m.fog.filter fun x => ! (decide (lo ≤ x.lo) && decide (x.hi ≤ hi)) }

/-- A range cleared to zero: no cell and no fog stays in it. -/
def Mem.clear (m : Mem) (lo hi : Nat) : Mem :=
  { cells := m.cells.filter fun c => ! (decide (lo ≤ c.1) && decide (c.1 < hi)),
    fog := m.fog.flatMap fun x =>
      (if x.lo < min x.hi lo then [⟨x.lo, min x.hi lo, x.tag⟩] else []) ++ (if max x.lo hi < x.hi then [⟨max x.lo hi, x.hi, x.tag⟩] else []) }

/-- The canonical form: addresses strictly rising, and no cell outside the unspecified ranges that equals what an unlisted address reads as. -/
def Mem.wf (m : Mem) : Bool :=
  (m.cells.map Prod.fst).Pairwise (· < ·) && m.cells.all fun c => inFog c.1 m.fog || c.2 != 0

/-- Bytes as a number, least significant first (R200). -/
def leNat : List Byte → Nat
  | [] => 0
  | b :: l => b.toNat + 256 * leNat l

/-- A number's n bytes, least significant first. -/
def leBytes : Nat → Nat → List Byte
  | _, 0 => []
  | x, n + 1 => BitVec.ofNat 8 x :: leBytes (x / 256) n

/-! ## Cores, actors and contexts by number -/

/-- A context of the core in focus. -/
def State.ctxAt (s : State) (x : BitVec 2) : Ctx := (s.core s.here).ctxs[x.toNat]

/-- The state with the core in focus and a context of it exchanged. -/
def State.setCtxAt (s : State) (x : BitVec 2) (k : Ctx) : State :=
  let c := s.core s.here
  s.setCore s.here { c with ctxs := c.ctxs.set x.toNat k }

/-- The core in focus. -/
def State.hereCore (s : State) : Core := s.core s.here

def State.setHere (s : State) (k : Core) : State := s.setCore s.here k

/-- The actor in a slot of the core in focus. -/
def State.actorAt (s : State) (k : BitVec 4) : Actor := look Actor.zero k.toNat s.hereCore.actors

/-- Whether an actor is resident in a slot of the core in focus. -/
def State.hasActor (s : State) (k : BitVec 4) : Bool := s.hereCore.actors.any fun x => x.1 = k.toNat

def State.setActorAt (s : State) (k : BitVec 4) (a : Actor) : State :=
  s.setHere { s.hereCore with actors := put k.toNat a s.hereCore.actors }

/-- The actor of the context that issues. -/
def State.actor (s : State) : Actor := s.actorAt s.ctx.slot

def State.setActor (s : State) (a : Actor) : State := s.setActorAt s.ctx.slot a

/-- An operation on another core and context, with the focus left where it was. -/
def State.at (s : State) (c : CoreId) (x : BitVec 2) (f : State → State) : State :=
  { f { s with here := c, cx := x } with here := s.here, cx := s.cx }

/-- As `State.at`, for a step that answers. -/
def State.atOut (s : State) (c : CoreId) (x : BitVec 2) (f : State → Out) : Out :=
  match f { s with here := c, cx := x } with
  | .next t => .next { t with here := s.here, cx := s.cx }
  | .fault r => .fault r
  | .refused r => .refused r

/-- A step that cannot happen in this state (log 3). -/
def notEnabled (name : String) : Out := .refused (.notEnabled name)

/-- Every context of the core in focus may try its next instruction again (log 5), but for one that waits for the answer of a capchk (R333). -/
def State.wakeHere (s : State) : State :=
  s.setHere { s.hereCore with ctxs := s.hereCore.ctxs.map fun x => if x.wait = .memory then x else { x with wait := .none } }

/-- A lifetime counter raised (R383); it saturates. The number is its offset in W0. -/
def State.count (s : State) (off : Nat) : State :=
  let v := look 0 off s.mgmt.counters
  { s with mgmt := { s.mgmt with counters := put off (if v = BitVec.allOnes 64 then v else v + 1) s.mgmt.counters } }

/-! ## Safe virtual times (R361) -/

/-- A VRT is safe on a core that reports (M, settled). -/
def safe (m : Word) (settled : Bool) (v : Word) : Bool := decide (v < m) || (decide (v = m) && settled)

def State.safeHere (s : State) (v : Word) : Bool := safe s.hereCore.vmile s.hereCore.settled v

/-! ## Zones (R203, R204) -/

def Zone.has (z : Zone) (line : Nat) : Bool := z.valid && decide (z.base.toNat ≤ line) && decide (line < z.base.toNat + z.len.toNat)

/-- The zone that holds a line of 64 bytes. -/
def Actor.zoneOf (a : Actor) (line : Nat) : Option Zone := a.zones.toList.find? fun z => z.has line

/-- Messages whose slots the running activation may write: its trigger and those it took (R204). -/
def Ctx.taken (x : Ctx) : List Held :=
  (match x.trigger with | some t => [t.held] | none => []) ++ x.consumed

def Held.hasLine (h : Held) (line : Nat) : Bool :=
  decide (h.addr.toNat ≤ line * 64) && decide (line * 64 < h.addr.toNat + h.size)

def lineReadable (a : Actor) (line : Nat) : Bool := (a.zoneOf line).isSome

def lineWritable (a : Actor) (x : Ctx) (line : Nat) : Bool :=
  match a.zoneOf line with
  | none => false
  | some z => match z.kind with
    | .kept => true
    | .scratch => true
    | .mailbox => x.taken.any fun h => h.place ≠ .hist && h.hasLine line
    | .log => x.taken.any fun h => h.place = .hist && h.hasLine line

/-- Whether all lines of the n bytes at an address satisfy a test. -/
def linesAll (t : Nat → Bool) (addr n : Nat) : Bool :=
  n = 0 || (List.range' (addr / 64) ((addr + n - 1) / 64 + 1 - addr / 64)).all t

/-- What may be wrong with a local access, in the order of R201; `upset` is a zone descriptor in error, which the zone check meets (R354). -/
inductive Bad where
  | misaligned | window | upset | zone
  deriving DecidableEq, Repr

/-- The cause of a condition, from the first cause of its group (R219, R220, R134); a zone descriptor in error has the machine cause 0x1C7 (R354). -/
def Bad.cause (base : BitVec 9) : Bad → BitVec 9
  | .misaligned => base
  | .window => base + 1
  | .zone => base + 2
  | .upset => 0x1C7

/-- The detail of a condition at an address: the address, or zero for a descriptor, which has none (R353). -/
def Bad.detail (addr : Word) : Bad → Word
  | .upset => 0
  | _ => addr

def ActorPart.isZone : ActorPart → Bool
  | .zone _ => true
  | _ => false

/-- Whether a zone descriptor of an actor is in error: the zone check reads all of them (R354, log 100). -/
def Actor.zonesBad (a : Actor) : Bool := a.bad.any ActorPart.isZone

/-- The checks of R201 on n bytes at an address aligned to `align`, for a read or a write by a context of an actor. -/
def checkLocal (a : Actor) (x : Ctx) (write : Bool) (addr : Word) (n align : Nat) : Option Bad :=
  if addr.toNat % align ≠ 0 then some .misaligned
  else if addr.toNat + n > 0x30000 then some .window
  else if a.zonesBad then some .upset
  else if linesAll (if write then lineWritable a x else lineReadable a) addr.toNat n then none else some .zone

/-! ## Full bits (R208) -/

def fogFull (w : Nat) : List Fog → Bool
  | [] => false
  | x :: m => if x.lo ≤ w ∧ w < x.hi then Config.freeFull x.tag w else fogFull w m

/-- The full bit of a word of the core in focus. -/
def Core.isFull (k : Core) (w : Nat) : Bool := k.full.contains w || fogFull w k.fullFog

/-- A range of words taken out of the unspecified ones. -/
def cutFog (lo hi : Nat) (m : List Fog) : List Fog :=
  m.flatMap fun x =>
    (if x.lo < min x.hi lo then [⟨x.lo, min x.hi lo, x.tag⟩] else []) ++ (if max x.lo hi < x.hi then [⟨max x.lo hi, x.hi, x.tag⟩] else [])

/-- A number put into a strictly rising list. -/
def insertNat (w : Nat) : List Nat → List Nat
  | [] => [w]
  | x :: m => if w < x then w :: x :: m else if w = x then x :: m else x :: insertNat w m

/-- The core with a word's full bit set. -/
def Core.setFull (k : Core) (w : Nat) (v : Bool) : Core :=
  { k with full := if v then insertNat w k.full else k.full.filter (· != w), fullFog := cutFog w (w + 1) k.fullFog }

/-- The words that a run of bytes touches. -/
def wordsOf (addr n : Nat) : List Nat := if n = 0 then [] else List.range' (addr / 8) ((addr + n - 1) / 8 + 1 - addr / 8)

/-- The core with the full bits of the words of a run of bytes set. -/
def Core.fillWords (k : Core) (v : Bool) : List Nat → Core
  | [] => k
  | w :: l => (k.setFull w v).fillWords v l

/-! ## Reading (R202, R204) -/

/-- A byte that an instruction or an engine of the running actor reads: unspecified in a log zone outside a consumed message's units (R204, log 8). -/
def State.readByte (s : State) (a : Nat) : Byte :=
  match s.actor.zoneOf (a / 64) with
  | some z => if z.kind = .log ∧ lineWritable s.actor s.ctx (a / 64) = false then Config.freeByte s.tick a else s.hereCore.pad.byte a
  | none => s.hereCore.pad.byte a

/-- n bytes as an instruction reads them. -/
def State.readBytes (s : State) (a : Nat) : Nat → List Byte
  | 0 => []
  | n + 1 => s.readByte a :: s.readBytes (a + 1) n

/-- A byte of an actor's zones as an engine reads it for a command that outlives its instruction: unspecified in a log zone outside the payload units of a history record whose message is consumed (R204, R367). -/
def Actor.engineByte (a : Actor) (pad : Mem) (tag x : Nat) : Byte :=
  match a.zoneOf (x / 64) with
  | some z =>
    if z.kind = .log ∧ (a.box.any fun h => h.consumed && h.place = .hist && h.hasLine (x / 64)) = false then Config.freeByte tag x else pad.byte x
  | none => pad.byte x

/-- n bytes as an engine reads them. -/
def Actor.engineBytes (a : Actor) (pad : Mem) (tag x : Nat) : Nat → List Byte
  | 0 => []
  | n + 1 => a.engineByte pad tag x :: a.engineBytes pad tag (x + 1) n

/-- The first word with an uncorrectable error among those of a run of bytes (R202). -/
def Core.badIn (k : Core) (addr n : Nat) : Option Nat := (wordsOf addr n).find? fun w => k.badPad.contains w

/-- The first word with an uncorrectable error that a store of a run of bytes must read: one that it does not wholly overwrite (R202). -/
def Core.badPartial (k : Core) (addr n : Nat) : Option Nat :=
  (wordsOf addr n).find? fun w => k.badPad.contains w && ! (decide (addr ≤ 8 * w) && decide (8 * w + 8 ≤ addr + n))

/-! ## The logs (R364, R365) -/

/-- The units of a record (R364). -/
def LogRec.units : LogRec → Nat
  | .line .. => 2
  | .history h => 1 + (h.msg.payload.length + 63) / 64
  | .returned h => 1 + (h.msg.payload.length + 63) / 64
  | .filler n => n
  | _ => 1

def LogRec.isMarker : LogRec → Bool
  | .marker .. => true
  | _ => false

/-- The units of an actor's ring: its log zones in zone order, with the byte address of each (R364). -/
def Actor.ring (a : Actor) : List Zone := a.zones.toList.filter fun z => z.valid && z.kind = .log

def Actor.ringUnits (a : Actor) : Nat := (a.ring.map fun z => z.len.toNat).sum

/-- The byte address of a unit of the ring, and the units left in its zone from it. -/
def unitPlace : List Zone → Nat → Nat × Nat
  | [], _ => (0, 0)
  | z :: m, u => if u < z.len.toNat then (64 * (z.base.toNat + u), z.len.toNat - u) else unitPlace m (u - z.len.toNat)

/-- The units of records that have spilled. -/
def inSpill (l : List Placed) : Nat := ((l.filter fun p => p.spilled).map fun p => p.entry.units).sum

def LogRec.isReturned : LogRec → Bool
  | .returned _ => true
  | _ => false

/-- Whether a record stands in the ring of `total` units on one of the `n` units from `u` on. -/
def Placed.meets (p : Placed) (total u n : Nat) : Bool :=
  ! p.spilled && (decide ((p.unit + total - u) % total < n) || decide ((u + total - p.unit) % total < p.entry.units))

/-- fold3 (R221): the XOR of the octal digits of a number of 40 bits. -/
def fold3 (x : Nat) : Nat := (List.range 14).foldl (fun m k => m ^^^ (x / 2 ^ (3 * k) % 8)) 0

/-- The home logic base of an actor (R258). -/
def homeOf (a : AId) : Nat := fold3 a.id.toNat

/-- The home stack of a page number (R221). -/
def homePage (p : Nat) : Nat := fold3 p

/-- The logic base of a group's registry entry (R288). -/
def homeGroup (g : BitVec 16) : Nat := fold3 g.toNat

/-- Units of a spill space: 4 MiB (R365). -/
def spillLimit : Nat := 65536

/-- The units of a log's ring that hold returned messages, which the log zone keeps (R367): first unit and number. -/
def keptUnits (l : List Placed) : List (Nat × Nat) := (l.filter fun p => p.entry.isReturned && ! p.spilled).map fun p => (p.unit, p.entry.units)

/-- Where a record of n units can stand in a ring, from the unit `start` on (R367): how many units it passes over, and the runs of them that are filled, newest first. A `whole` record stands in one zone, and none stands on the units of `kept`. -/
def placeFrom (ring : List Zone) (total n : Nat) (whole : Bool) (kept : List (Nat × Nat)) (start : Nat) : Nat → Nat → Option (Nat × List (Nat × Nat))
  | 0, _ => none
  | k + 1, d =>
    let u := (start + d) % total
    let left := (unitPlace ring u).2
    if total < d + n then none
    else if whole && decide (left < n) then
      (placeFrom ring total n whole kept start k (d + left)).map fun x => (x.1, x.2 ++ [(u, left)])
    else match kept.find? fun p => decide ((p.1 + total - u) % total < n) || decide ((u + total - p.1) % total < p.2) with
      | none => some (d, [])
      | some p =>
        let gap := (p.1 + total - u) % total
        if gap < n then
          (placeFrom ring total n whole kept start k (d + gap + p.2)).map fun x => (x.1, if gap = 0 then x.2 else x.2 ++ [(u, gap)])
        else placeFrom ring total n whole kept start k (d + p.2 - (u + total - p.1) % total)

/-- Whether a record's payload must stand in one log zone (R367). -/
def LogRec.whole : LogRec → Bool
  | .history _ => true
  | .returned _ => true
  | _ => false

/-- The place of a record at the head of an actor's log: how many units it passes over, and the fillers; none when the log zones have none for it. -/
def Actor.roomFor (a : Actor) (r : LogRec) : Option (Nat × List (Nat × Nat)) :=
  let kept := keptUnits a.log
  placeFrom a.ring a.ringUnits r.units r.whole kept (a.logNext % a.ringUnits) (a.ring.length + kept.length + 1) 0

/-- An actor with a record written at the head of its log, and the byte address of the record's first unit; none when the spill space can take no more (R365). What stands on its units spills, but for a returned message, which the log zone keeps (R367): a record passes over it, and spills itself where the log zones have no place for it (log 76). `room` is what the save pool has for spilled units. -/
def Actor.record (a : Actor) (r : LogRec) (room : Nat) : Option (Actor × Nat) :=
  let total := a.ringUnits
  let start := a.logNext % total
  match a.roomFor r with
  | some (d, fill) =>
    let u := (start + d) % total
    let log := ⟨u, false, r⟩ :: fill.map (fun x => ⟨x.1, false, .filler x.2⟩) ++
      a.log.map fun p => if p.meets total start (d + r.units) && ! p.entry.isReturned then { p with spilled := true } else p
    if inSpill log > min spillLimit room then none
    else some ({ a with log := log, logNext := (u + r.units) % total }, (unitPlace a.ring u).1)
  | none =>
    let log := ⟨start, true, r⟩ :: a.log
    if inSpill log > min spillLimit room then none else some ({ a with log := log }, (unitPlace a.ring start).1)

/-- Whether the running part of a log, down to the newest marker, holds a record that satisfies a test. -/
def savedSince (t : LogRec → Bool) : List Placed → Bool
  | [] => false
  | p :: l => if p.entry.isMarker then false else t p.entry || savedSince t l

/-- What the save pool of an actor's home base still has for its spill space, in units; spill spaces take whole frames (R365, R400). -/
def State.spillRoom (s : State) (a : AId) : Nat :=
  let b := s.base (homeOf a)
  let other := ((b.spills.filter fun x => x.1 ≠ a).map fun x => (x.2 + 1023) / 1024).sum
  (b.poolFrames.toNat - b.poolUsed.toNat - other) * 1024

/-- A base with the units that an actor has spilled to it (R365, R400). -/
def Base.spilledBy (b : Base) (a : Actor) : Base :=
  let rest := b.spills.filter fun x => x.1 ≠ a.aid
  let n := inSpill a.log
  { b with spills := if n = 0 then rest else (a.aid, n) :: rest }

/-- The state with an actor's log and the units it has spilled recorded at its home base. -/
def State.setLogged (s : State) (k : BitVec 4) (a : Actor) : State :=
  (s.setActorAt k a).setBase (homeOf a.aid) ((s.base (homeOf a.aid)).spilledBy a)

/-- A record written for the actor in a slot; none when there is no room (cause 0x142). -/
def State.log (s : State) (k : BitVec 4) (r : LogRec) : Option State :=
  match (s.actorAt k).record r (s.spillRoom (s.actorAt k).aid) with
  | some (a, _) => some (s.setLogged k a)
  | none => none

/-- The eight full bits of a line. -/
def Core.lineFull (k : Core) (line : Nat) : List Bool := (List.range 8).map fun i => k.isFull (8 * line + i)

/-- A kept line saved before its first change by the running activation (R206): its code words as they stand, one in error with its error (log 65). -/
def State.saveLine (s : State) (k : BitVec 4) (line : Nat) : Option State :=
  match (s.actorAt k).zoneOf line with
  | some z =>
    if z.kind = .kept then
      if savedSince (fun r => match r with | .line n _ _ _ => n.toNat = line | _ => false) (s.actorAt k).log then some s
      else s.log k (.line (BitVec.ofNat 12 line) (s.hereCore.lineFull line) (s.hereCore.pad.bytes (64 * line) 64)
        (s.hereCore.badPad.filter fun w => w / 8 = line))
    else some s
  | none => some s

/-- All kept lines of a run of bytes saved. -/
def State.saveLines (s : State) (k : BitVec 4) : List Nat → Option State
  | [] => some s
  | l :: m => match s.saveLine k l with
    | some t => t.saveLines k m
    | none => none

/-- The lines of a run of bytes. -/
def linesOf (addr n : Nat) : List Nat := if n = 0 then [] else List.range' (addr / 64) ((addr + n - 1) / 64 + 1 - addr / 64)

/-- An endpoint record saved before its first change by the running activation (R159). -/
def State.saveEp (s : State) (k : BitVec 4) (e : BitVec 4) : Option State :=
  let a := s.actorAt k
  if savedSince (fun r => match r with | .endpoint n _ _ => n = e | _ => false) a.log then some s
  else s.log k (.endpoint e a.eps[e.toNat] a.aux[e.toNat])

/-! ## Writing (R200, R202, R206) -/

/-- Bytes put into the scratchpad; a word that they wholly overwrite has fresh check bits (R202). -/
def Core.writePad (k : Core) (addr : Nat) (bytes : List Byte) : Core :=
  { k with
    pad := k.pad.setBytes addr bytes,
    badPad := k.badPad.filter fun w => ! (decide (addr ≤ 8 * w) && decide (8 * w + 8 ≤ addr + bytes.length)) }

/-- Bytes that the activation in a slot stores, its kept lines saved first; none when they cannot be saved (cause 0x142). -/
def State.store (s : State) (k : BitVec 4) (addr : Nat) (bytes : List Byte) : Option State :=
  match s.saveLines k (linesOf addr bytes.length) with
  | some t => some (t.setHere (t.hereCore.writePad addr bytes))
  | none => none

/-- A full bit that the activation in a slot changes, its kept line saved first (R206). -/
def State.storeFull (s : State) (k : BitVec 4) (w : Nat) (v : Bool) : Option State :=
  match s.saveLine k (w / 8) with
  | some t => some (t.setHere (t.hereCore.setFull w v))
  | none => none

/-! ## Taking a trap (R345 step 1, R346, R347) -/

/-- The tiles that a context holds, released and zeroed; their configuration words stay until the next tcfg (R142). -/
def dropTiles (x : BitVec 2) (t : Tile) : Tile := if t.holder = some x then { t with data := 0, holder := none } else t

/-- The core with a context's engine commands that have not executed discarded and its tiles released (R345 step 1). -/
def Core.stopEngines (k : Core) (x : BitVec 2) : Core :=
  { k with
    vq := k.vq.filter fun c => c.ctx ≠ x,
    mq := k.mq.filter fun c => c.ctx ≠ x,
    tiles := k.tiles.map (dropTiles x),
    badTiles := k.badTiles.filter fun w => (k.tiles.toList[w / 256]?.map fun t => t.holder) ≠ some (some x),
    tileWait := k.tileWait.filter fun w => w.1 ≠ x }

/-! ## The Detour map (R317, R318) -/

/-- The row and column of a quadrant's virtual core: its rank among the enabled cores. The cores that the test fuses off beyond the failed ones are the last of the others, so the enabled ones are the first 1,024 that did not fail. -/
def physical (failed : List (Nat × Nat)) (v : Nat) : Nat × Nat :=
  ((((List.range 1088).map fun i => (i / 32, i % 32)).filter fun p => ! failed.contains p).take 1024).getD v (0, 0)

/-- An entry of the Detour map: column in [10:6], row in [5:0]. -/
def detour (failed : List (Nat × Nat)) (v : Nat) : BitVec 16 :=
  let p := physical failed v
  BitVec.ofNat 16 (64 * p.2 + p.1)

/-- The trap record (R346): PC, g3 and g4 at the activation's start, cause, the triggering key, detail. -/
def trapRecord (x : Ctx) (cause : BitVec 9) (detail : Word) : TrapRec :=
  { pc := x.pc, endpt := x.g3, cls := x.g4, cause := cause,
    key := (match x.trigger with | some t => t.held.msg.hdr.key | none => Key.zero), detail := detail }

/-- A trap of the context that issues: it stops (R345 step 1), the contexts that wait for what it held may try again (R113, R142), and the trap sequence follows as a step of its own. `close` is the endpoint, close-point and state of a refusal (R178), `killed` names the cause of a kill that ends the activation (R344). -/
def trapWith (close : Option (BitVec 4 × BitVec 6 × BitVec 6)) (killed : Option (BitVec 9)) (cause : BitVec 9) (detail : Word) (s : State) : State :=
  let x := s.ctx
  let t := (s.setHere (s.hereCore.stopEngines s.cx)).wakeHere
  t.setCtx { x with phase := .trapping (trapRecord x cause detail) close killed, wait := .none }

/-- `raise`: the activation traps with a cause and a detail. -/
def raise (cause : BitVec 9) (detail : Word) (s : State) : Out := .next (trapWith none none cause detail s)

/-- A read of an endpoint's record: the machine cause 0x1C7 where the record is in error (R354). -/
def soundEp (e : BitVec 4) (s : State) (k : Out) : Out := if s.actor.bad.contains (.endpoint e) then raise 0x1C7 0 s else k

/-- The trap of a local access that fails a check, from the first cause of its group. -/
def badAccess (base : BitVec 9) (b : Bad) (addr : Word) (s : State) : Out := raise (b.cause base) (b.detail addr) s

/-- A trap for whose cause R353 names no value of DETAIL: it is free. -/
def raiseOpen (cause : BitVec 9) (s : State) : Out :=
  raise cause (Config.unnamedDetail cause.toNat s.tick) { s with tick := s.tick + 1 }

/-- A result, or the trap 0x142 of a log that cannot spill (R365); its detail is the VRT (R353). -/
def orNoRoom (r : Option State) (s : State) (k : State → Out) : Out :=
  match r with
  | some t => k t
  | none => raise 0x142 s.ctx.vnow s

end Sys2Proof.Machine
end

