-- ==== Sys2Proof/Machine/Integer.lean ====
section
/-! DEFINITION. The integer instructions: majors 0x00 to 0x09 (03_general_registers.md R72 to R77), their compact forms (02_instruction_formats.md R52, R53), and badd, bset, bget (R90). -/

namespace Sys2Proof.Machine

/-! ## Operations on values -/

/-- The shift amount in bits [5:0] (R72). -/
def amount (x : Word) : Nat := (x.setWidth 6).toNat

/-- 1 if true, else 0. -/
def flagWord (c : Bool) : Word := if c then 1 else 0

/-- Bits [127:64] of the signed product (R73). -/
def mulHigh (x y : Word) : Word := ((x.signExtend 128 * y.signExtend 128) >>> 64).setWidth 64

/-- Bits [127:64] of the natural product (R73). -/
def mulHighN (x y : Word) : Word := ((x.setWidth 128 * y.setWidth 128) >>> 64).setWidth 64

/-- The number of leading zeros among bits [n-1:0]. -/
def leadingZeros (x : Word) : Nat → Nat
  | 0 => 0
  | n + 1 => if x.getLsbD n then 0 else leadingZeros x n + 1

/-- The number of trailing zeros among bits [63:64-n]. -/
def trailingZeros (x : Word) : Nat → Nat
  | 0 => 0
  | n + 1 => if x.getLsbD (63 - n) then 0 else trailingZeros x n + 1

/-- The number of ones among bits [n-1:0]. -/
def onesBelow (x : Word) : Nat → Nat
  | 0 => 0
  | n + 1 => onesBelow x n + (if x.getLsbD n then 1 else 0)

/-- The eight bytes in reverse order. -/
def reverseBytes (x : Word) : Word :=
  x.extractLsb' 0 8 ++ x.extractLsb' 8 8 ++ x.extractLsb' 16 8 ++ x.extractLsb' 24 8 ++
    x.extractLsb' 32 8 ++ x.extractLsb' 40 8 ++ x.extractLsb' 48 8 ++ x.extractLsb' 56 8

/-- The field position of a descriptor (R75). -/
def fieldPos (x : Word) : Nat := (x.setWidth 6).toNat

/-- The field width of a descriptor, 1 to 64 (R75). -/
def fieldWidth (x : Word) : Nat := ((x >>> 8).setWidth 6).toNat + 1

/-- The low w bits of x. -/
def lowBits (x : Word) (w : Nat) : Word := x &&& (BitVec.allOnes 64 >>> (64 - w))

/-- The field of x at pos, of width w, zero-extended (R75). -/
def fieldN (x : Word) (pos w : Nat) : Word := lowBits (x >>> pos) w

/-- The low w bits, sign-extended from bit w − 1. -/
def signFrom (x : Word) (w : Nat) : Word := (x <<< (64 - w)).sshiftRight (64 - w)

/-- x with bits [min(pos + w − 1, 63) : pos] replaced by the low bits of y (R75). -/
def insertField (x y : Word) (pos w : Nat) : Word :=
  let m : Word := (BitVec.allOnes 64 >>> (64 - w)) <<< pos
  (x &&& ~~~m) ||| ((y <<< pos) &&& m)

/-- What a division computes (R74). -/
inductive DivKind where
  | div | divn | rem | remn
  deriving DecidableEq, Repr

/-- The cause of a zero divisor (R74): 0x020 + code. -/
def DivKind.cause : DivKind → BitVec 9
  | .div => 0x020
  | .divn => 0x021
  | .rem => 0x022
  | .remn => 0x023

/-- `divide` for a nonzero divisor (R74). -/
def DivKind.result : DivKind → Word → Word → Word
  | .div, x, y => x.sdiv y
  | .divn, x, y => x / y
  | .rem, x, y => x.srem y
  | .remn, x, y => x % y

/-- A division: a trap whose detail is the dividend when the divisor is zero (R74, R353). -/
def divide (k : DivKind) (b a d : BitVec 5) (s : State) : Out :=
  if s.g b = 0 then raise k.cause (s.g a) s else writeG 4 d (k.result (s.g a) (s.g b)) s

def minS (x y : Word) : Word := if x.sle y then x else y
def maxS (x y : Word) : Word := if x.sle y then y else x
def minN (x y : Word) : Word := if x ≤ y then x else y
def maxN (x y : Word) : Word := if x ≤ y then y else x

/-! ## Major 0x00 (R72) -/

/-- ADD (R72). -/
def execAdd (b a d : BitVec 5) (s : State) : Out := writeG 4 d (s.g a + s.g b) s
/-- SUB (R72). -/
def execSub (b a d : BitVec 5) (s : State) : Out := writeG 4 d (s.g a - s.g b) s
/-- AND (R72). -/
def execAnd (b a d : BitVec 5) (s : State) : Out := writeG 4 d (s.g a &&& s.g b) s
/-- OR (R72). -/
def execOr (b a d : BitVec 5) (s : State) : Out := writeG 4 d (s.g a ||| s.g b) s
/-- XOR (R72). -/
def execXor (b a d : BitVec 5) (s : State) : Out := writeG 4 d (s.g a ^^^ s.g b) s
/-- ANDN (R72). -/
def execAndn (b a d : BitVec 5) (s : State) : Out := writeG 4 d (s.g a &&& ~~~ s.g b) s
/-- ORN (R72). -/
def execOrn (b a d : BitVec 5) (s : State) : Out := writeG 4 d (s.g a ||| ~~~ s.g b) s
/-- SLL (R72). -/
def execSll (b a d : BitVec 5) (s : State) : Out := writeG 4 d (s.g a <<< amount (s.g b)) s
/-- SRL (R72). -/
def execSrl (b a d : BitVec 5) (s : State) : Out := writeG 4 d (s.g a >>> amount (s.g b)) s
/-- SRA (R72). -/
def execSra (b a d : BitVec 5) (s : State) : Out := writeG 4 d ((s.g a).sshiftRight (amount (s.g b))) s
/-- ROL (R72). -/
def execRol (b a d : BitVec 5) (s : State) : Out := writeG 4 d ((s.g a).rotateLeft (amount (s.g b))) s
/-- ROR (R72). -/
def execRor (b a d : BitVec 5) (s : State) : Out := writeG 4 d ((s.g a).rotateRight (amount (s.g b))) s
/-- SLT (R72). -/
def execSlt (b a d : BitVec 5) (s : State) : Out := writeG 4 d (flagWord ((s.g a).slt (s.g b))) s
/-- SLTN (R72). -/
def execSltn (b a d : BitVec 5) (s : State) : Out := writeG 4 d (flagWord ((s.g a).ult (s.g b))) s
/-- SEQ (R72). -/
def execSeq (b a d : BitVec 5) (s : State) : Out := writeG 4 d (flagWord (s.g a == s.g b)) s
/-- SNE (R72). -/
def execSne (b a d : BitVec 5) (s : State) : Out := writeG 4 d (flagWord (s.g a != s.g b)) s

/-! ## Major 0x01 (R73, R74) -/

/-- MUL (R73). -/
def execMul (b a d : BitVec 5) (s : State) : Out := writeG 4 d (s.g a * s.g b) s
/-- MULH (R73). -/
def execMulh (b a d : BitVec 5) (s : State) : Out := writeG 4 d (mulHigh (s.g a) (s.g b)) s
/-- MULHN (R73). -/
def execMulhn (b a d : BitVec 5) (s : State) : Out := writeG 4 d (mulHighN (s.g a) (s.g b)) s
/-- DIV (R74). -/
def execDiv (b a d : BitVec 5) (s : State) : Out := divide .div b a d s
/-- DIVN (R74). -/
def execDivn (b a d : BitVec 5) (s : State) : Out := divide .divn b a d s
/-- REM (R74). -/
def execRem (b a d : BitVec 5) (s : State) : Out := divide .rem b a d s
/-- REMN (R74). -/
def execRemn (b a d : BitVec 5) (s : State) : Out := divide .remn b a d s
/-- MIN (R73). -/
def execMin (b a d : BitVec 5) (s : State) : Out := writeG 4 d (minS (s.g a) (s.g b)) s
/-- MAX (R73). -/
def execMax (b a d : BitVec 5) (s : State) : Out := writeG 4 d (maxS (s.g a) (s.g b)) s
/-- MINN (R73). -/
def execMinn (b a d : BitVec 5) (s : State) : Out := writeG 4 d (minN (s.g a) (s.g b)) s
/-- MAXN (R73). -/
def execMaxn (b a d : BitVec 5) (s : State) : Out := writeG 4 d (maxN (s.g a) (s.g b)) s
/-- SEL (R73). -/
def execSel (c b a d : BitVec 5) (s : State) : Out := writeG 4 d (if s.g c = 0 then s.g b else s.g a) s
/-- CLZ (R73). -/
def execClz (a d : BitVec 5) (s : State) : Out := writeG 4 d (BitVec.ofNat 64 (leadingZeros (s.g a) 64)) s
/-- CTZ (R73). -/
def execCtz (a d : BitVec 5) (s : State) : Out := writeG 4 d (BitVec.ofNat 64 (trailingZeros (s.g a) 64)) s
/-- POP (R73). -/
def execPop (a d : BitVec 5) (s : State) : Out := writeG 4 d (BitVec.ofNat 64 (onesBelow (s.g a) 64)) s
/-- REV8 (R73). -/
def execRev8 (a d : BitVec 5) (s : State) : Out := writeG 4 d (reverseBytes (s.g a)) s

/-! ## Major 0x02 (R75) -/

/-- BEXT (R75). -/
def execBext (b a d : BitVec 5) (s : State) : Out :=
  writeG 4 d (signFrom (s.g a >>> fieldPos (s.g b)) (fieldWidth (s.g b))) s
/-- BEXTN (R75). -/
def execBextn (b a d : BitVec 5) (s : State) : Out :=
  writeG 4 d (fieldN (s.g a) (fieldPos (s.g b)) (fieldWidth (s.g b))) s
/-- BINS (R75). -/
def execBins (c b a d : BitVec 5) (s : State) : Out :=
  writeG 4 d (insertField (s.g a) (s.g c) (fieldPos (s.g b)) (fieldWidth (s.g b))) s
/-- SXB (R75). -/
def execSxb (a d : BitVec 5) (s : State) : Out := writeG 4 d (((s.g a).setWidth 8).signExtend 64) s
/-- SXH (R75). -/
def execSxh (a d : BitVec 5) (s : State) : Out := writeG 4 d (((s.g a).setWidth 16).signExtend 64) s
/-- SXW (R75). -/
def execSxw (a d : BitVec 5) (s : State) : Out := writeG 4 d (((s.g a).setWidth 32).signExtend 64) s
/-- ZXB (R75). -/
def execZxb (a d : BitVec 5) (s : State) : Out := writeG 4 d (((s.g a).setWidth 8).setWidth 64) s
/-- ZXH (R75). -/
def execZxh (a d : BitVec 5) (s : State) : Out := writeG 4 d (((s.g a).setWidth 16).setWidth 64) s
/-- ZXW (R75). -/
def execZxw (a d : BitVec 5) (s : State) : Out := writeG 4 d (((s.g a).setWidth 32).setWidth 64) s
/-- SLLI (R75). -/
def execSlli (i : BitVec 6) (a d : BitVec 5) (s : State) : Out := writeG 4 d (s.g a <<< i.toNat) s
/-- SRLI (R75). -/
def execSrli (i : BitVec 6) (a d : BitVec 5) (s : State) : Out := writeG 4 d (s.g a >>> i.toNat) s
/-- SRAI (R75). -/
def execSrai (i : BitVec 6) (a d : BitVec 5) (s : State) : Out := writeG 4 d ((s.g a).sshiftRight i.toNat) s

/-! ## Majors 0x03 to 0x09 (R76, R77) -/

/-- ADDI (R76). -/
def execAddi (i : BitVec 14) (a d : BitVec 5) (s : State) : Out := writeG 4 d (s.g a + immWord i) s
/-- ANDI (R76). -/
def execAndi (i : BitVec 14) (a d : BitVec 5) (s : State) : Out := writeG 4 d (s.g a &&& immWord i) s
/-- ORI (R76). -/
def execOri (i : BitVec 14) (a d : BitVec 5) (s : State) : Out := writeG 4 d (s.g a ||| immWord i) s
/-- XORI (R76). -/
def execXori (i : BitVec 14) (a d : BitVec 5) (s : State) : Out := writeG 4 d (s.g a ^^^ immWord i) s
/-- SLTI (R76). -/
def execSlti (i : BitVec 14) (a d : BitVec 5) (s : State) : Out := writeG 4 d (flagWord ((s.g a).slt (immWord i))) s
/-- LUI (R77). -/
def execLui (i : BitVec 19) (d : BitVec 5) (s : State) : Out := writeG 4 d (immWord i <<< 13) s
/-- LPC (R77): PC + 2 × sext(imm19). -/
def execLpc (i : BitVec 19) (d : BitVec 5) (s : State) : Out :=
  writeG 4 d (s.ctx.pc.setWidth 64 + (immWord i <<< 1)) s

/-! ## badd, bset, bget (R90) -/

/-- BADD (R90). -/
def execBadd (a d : BitVec 5) (s : State) : Out :=
  .next ((s.setB (d.setWidth 2) (s.b (d.setWidth 2) + (s.g a).setWidth 32)).advance 4)
/-- BSET (R90). -/
def execBset (a d : BitVec 5) (s : State) : Out := .next ((s.setB (d.setWidth 2) ((s.g a).setWidth 32)).advance 4)
/-- BGET (R90). -/
def execBget (a d : BitVec 5) (s : State) : Out := writeG 4 d ((s.b (a.setWidth 2)).setWidth 64) s

/-! ## Compact forms (R52, R53): the effect of the expansion, with the next instruction at PC + 2 -/

/-- C_ADD. -/
def execCAdd (b d : BitVec 5) (s : State) : Out := writeG 2 d (s.g d + s.g b) s
/-- C_SUB. -/
def execCSub (b d : BitVec 5) (s : State) : Out := writeG 2 d (s.g d - s.g b) s
/-- C_AND. -/
def execCAnd (b d : BitVec 5) (s : State) : Out := writeG 2 d (s.g d &&& s.g b) s
/-- C_OR. -/
def execCOr (b d : BitVec 5) (s : State) : Out := writeG 2 d (s.g d ||| s.g b) s
/-- C_XOR. -/
def execCXor (b d : BitVec 5) (s : State) : Out := writeG 2 d (s.g d ^^^ s.g b) s
/-- C_MV: or gd, g0, gb. -/
def execCMv (b d : BitVec 5) (s : State) : Out := writeG 2 d (s.g 0 ||| s.g b) s
/-- C_ADDI. -/
def execCAddi (i : BitVec 6) (d : BitVec 5) (s : State) : Out := writeG 2 d (s.g d + immWord i) s
/-- C_LI: addi gd, g0, #imm. -/
def execCLi (i : BitVec 6) (d : BitVec 5) (s : State) : Out := writeG 2 d (s.g 0 + immWord i) s
/-- C_SLLI. -/
def execCSlli (i : BitVec 6) (d : BitVec 5) (s : State) : Out := writeG 2 d (s.g d <<< i.toNat) s
/-- C_SRLI. -/
def execCSrli (i : BitVec 6) (d : BitVec 5) (s : State) : Out := writeG 2 d (s.g d >>> i.toNat) s
/-- C_SRAI. -/
def execCSrai (i : BitVec 6) (d : BitVec 5) (s : State) : Out := writeG 2 d ((s.g d).sshiftRight i.toNat) s
/-- C_ANDI. -/
def execCAndi (i : BitVec 6) (d : BitVec 5) (s : State) : Out := writeG 2 d (s.g d &&& immWord i) s
/-- C_ORI. -/
def execCOri (i : BitVec 6) (d : BitVec 5) (s : State) : Out := writeG 2 d (s.g d ||| immWord i) s
/-- C_XORI. -/
def execCXori (i : BitVec 6) (d : BitVec 5) (s : State) : Out := writeG 2 d (s.g d ^^^ immWord i) s

end Sys2Proof.Machine
end

