-- ==== Sys2Proof/Machine/Lanes.lean ====
section
/-! DEFINITION. Vector registers as lists of elements (05_vector_registers.md R110, R111), the element operations of majors 0x18 to 0x1E, the reduction tree (04_number_formats.md R107), and quantisation of the context formats (R100 to R103). -/

namespace Sys2Proof.Machine

/-! ## Elements (R110) -/

/-- Element i of width w. -/
def elem (w i : Nat) (v : BitVec n) : Nat := v.toNat / 2 ^ (w * i) % 2 ^ w

/-- The first n elements of width w. -/
def elems (w n : Nat) (v : BitVec m) : List Nat := (List.range n).map fun i => elem w i v

/-- Elements of width w packed from bit 0 up. -/
def pack (w : Nat) : List Nat → Nat
  | [] => 0
  | x :: l => x % 2 ^ w + 2 ^ w * pack w l

/-- A vector register of elements of width w. -/
def packV (w : Nat) (l : List Nat) : VWord := BitVec.ofNat 1024 (pack w l)

/-- The element count N(w) (R110). -/
def lanes (w : Nat) : Nat := 1024 / w

/-- A masked instruction's destination and flags (R111): position i takes `f i` where active and keeps its element elsewhere. -/
def mapLanes (w : Nat) (p : BitVec 3) (m : Word) (old : VWord) (f : Nat → Rounded) : VWord × Flags :=
  let rs := (List.range (lanes w)).map fun i => if activeAt p m w i then f i else (elem w i old, 0)
  (packV w (rs.map Prod.fst), rs.foldl (fun fl r => fl ||| r.2) 0)

/-- The 64 bits of a predicate. -/
def bitsOf (f : Nat → Bool) : Nat → Nat
  | 0 => 0
  | n + 1 => bitsOf f n + (if f n then 2 ^ n else 0)

/-- A compare's mask register (R117): inactive bits, and bits beyond the elements, keep their value. -/
def compareMask (w : Nat) (p : BitVec 3) (m old : Word) (res : Nat → Bool) : Word :=
  BitVec.ofNat 64 (bitsOf (fun i =>
    if w = 32 ∧ i ≥ 32 then old.getLsbD i
    else if w = 8 then (if activeAt p m 8 (2 * i) then res (2 * i) && res (2 * i + 1) else old.getLsbD i)
    else if activeAt p m w i then res i else old.getLsbD i) 64)

/-- The draws of n positions in a mode (R98). -/
def drawList (mode : BitVec 3) : Nat → BitVec 32 → List Nat
  | 0, _ => []
  | n + 1, x => if mode = 5 then (lfsrNext x).toNat :: drawList mode n (lfsrNext x) else []

/-! ## Integer elements (R115, R116) -/

/-- The width of an integer vector major: 8, 16 or 32. -/
def intWidth (t : BitVec 2) : Nat := 8 * 2 ^ t.toNat

def sx (w x : Nat) : Int := (IntTy.mk w true).read x

/-- The integer operations of R115. -/
inductive IOp where
  | add | sub | mul | mulh | mulhn | min | max | minn | maxn | and | or | xor | sll | srl | sra | abs
  | adds | addsn | subs | subsn | avg
  deriving DecidableEq, Repr

/-- A saturated sum or difference with SA on a clamp. -/
def satTo (t : IntTy) (x : Int) : Rounded := convI t x

/-- Element i of R115, with its flag. -/
def IOp.run (k : IOp) (w a b : Nat) : Rounded :=
  match k with
  | .add => ((a + b) % 2 ^ w, 0)
  | .sub => ((a + 2 ^ w - b) % 2 ^ w, 0)
  | .mul => (a * b % 2 ^ w, 0)
  | .mulh => (wrapInt w (sx w a * sx w b / (2 ^ w : Nat)), 0)
  | .mulhn => (a * b / 2 ^ w % 2 ^ w, 0)
  | .min => (if sx w a ≤ sx w b then a else b, 0)
  | .max => (if sx w a ≤ sx w b then b else a, 0)
  | .minn => (if a ≤ b then a else b, 0)
  | .maxn => (if a ≤ b then b else a, 0)
  | .and => (a &&& b, 0)
  | .or => (a ||| b, 0)
  | .xor => (a ^^^ b, 0)
  | .sll => (a * 2 ^ (b % w) % 2 ^ w, 0)
  | .srl => (a / 2 ^ (b % w), 0)
  | .sra => (wrapInt w (sx w a / (2 ^ (b % w) : Nat)), 0)
  | .abs => (wrapInt w (sx w a).natAbs, 0)
  | .adds => satTo ⟨w, true⟩ (sx w a + sx w b)
  | .addsn => satTo ⟨w, false⟩ ((a : Int) + b)
  | .subs => satTo ⟨w, true⟩ (sx w a - sx w b)
  | .subsn => satTo ⟨w, false⟩ ((a : Int) - b)
  | .avg => (wrapInt w ((sx w a + sx w b + 1) / 2), 0)

/-- One 32-bit lane of vdot4 (R116). -/
def dot4 (va vb vc : VWord) (j : Nat) : Nat :=
  wrapInt 32 (sx 32 (elem 32 j vc) + ((List.range 4).map fun k => sx 8 (elem 8 (4 * j + k) va) * sx 8 (elem 8 (4 * j + k) vb)).sum)

/-- Integer comparisons of R117. -/
inductive ICmp where
  | eq | lt | ltn
  deriving DecidableEq, Repr

def ICmp.run (k : ICmp) (w a b : Nat) : Bool :=
  match k with
  | .eq => a = b
  | .lt => sx w a < sx w b
  | .ltn => a < b

/-! ## Floating elements (R118, R119) -/

/-- The format of a floating vector major: 0x1B bf16, 0x1C hf, 0x1D f32. The field holds bits [5:2] of the word. -/
def floatTy (t : BitVec 4) : FloatFmt := if t = 11 then bf16 else if t = 12 then hf else f32

/-- The floating operations of R118. -/
inductive FOp where
  | add | sub | mul | fma | fms | min | max | abs | neg | div | sqrt | recip | rsq | exp2 | cls | scale
  deriving DecidableEq, Repr

/-- Whether the operation rounds by VRND (R112). -/
def FOp.byMode : FOp → Bool
  | .add | .sub | .mul | .fma | .fms | .div | .sqrt | .scale => true
  | _ => false

/-- Element i of R118 and R119. -/
def FOp.run (k : FOp) (F : FloatFmt) (mode : BitVec 3) (draw a b c : Nat) : Rounded :=
  let x := decodeF F a
  let y := decodeF F b
  let z := decodeF F c
  match k with
  | .add => addF F mode draw x y
  | .sub => subF F mode draw x y
  | .mul => mulF F mode draw x y
  | .fma => fmaF F mode draw x y z
  | .fms => fmaF F mode draw x y (negF z)
  | .min => minmaxF F false a b
  | .max => minmaxF F true a b
  | .abs => (a % 2 ^ (F.ew + F.fw), 0)
  | .neg => (a ^^^ 2 ^ (F.ew + F.fw), 0)
  | .div => divF F mode draw x y
  | .sqrt => sqrtF F mode draw x
  | .recip => recipF F x
  | .rsq => rsqrtF F x
  | .exp2 => exp2F F x
  | .cls => (classF F a, 0)
  | .scale => scaleF F mode draw (satInt (sx F.width b) (-512) 512) x

/-! ## Conversions (R123, R124) -/

/-- A type code of R123. -/
inductive ElemTy where
  | int (t : IntTy)
  | float (f : FloatFmt)
  deriving DecidableEq, Repr

def ElemTy.width : ElemTy → Nat
  | .int t => t.w
  | .float f => f.width

def elemTy (c : BitVec 4) : ElemTy :=
  match c.toNat with
  | 0 => .int ⟨8, true⟩
  | 1 => .int ⟨8, false⟩
  | 2 => .int ⟨16, true⟩
  | 3 => .int ⟨16, false⟩
  | 4 => .int ⟨32, true⟩
  | 5 => .int ⟨32, false⟩
  | 6 => .float bf16
  | 7 => .float hf
  | 8 => .float f32
  | 9 => .float e4m3
  | _ => .float e5m2

/-- The conversion of one element (R124). -/
def convElem (src tgt : ElemTy) (mode : BitVec 3) (draw x : Nat) : Rounded :=
  match src, tgt with
  | .float f, .float t => convF t mode draw (decodeF f x)
  | .float f, .int t => let (v, fl) := toIntF t mode draw (decodeF f x); (wrapInt t.w v, fl)
  | .int f, .float t => ofIntF t mode draw (f.read x)
  | .int f, .int t => convI t (f.read x)

/-! ## Reductions (R107, R128) -/

/-- One level of the adjacent-pair tree. -/
def pairUp (op : Nat → Nat → Rounded) : List Nat → List Nat × Flags
  | x :: y :: l =>
    let (r, fl) := op x y
    let (rest, fl') := pairUp op l
    (r :: rest, fl ||| fl')
  | [x] => ([x], 0)
  | [] => ([], 0)

/-- The tree over 2^k positions, k levels (R107). -/
def treeReduce (op : Nat → Nat → Rounded) : Nat → List Nat → Rounded
  | 0, l => (l.headD 0, 0)
  | k + 1, l =>
    let (l', fl) := pairUp op l
    let (r, fl') := treeReduce op k l'
    (r, fl ||| fl')

/-- The reductions of R128. -/
inductive RedOp where
  | sum | max | min
  deriving DecidableEq, Repr

/-- The operator of a reduction (R107). -/
def RedOp.op (k : RedOp) (t : ElemTy) (a b : Nat) : Rounded :=
  match k, t with
  | .sum, .int t => ((a + b) % 2 ^ t.w, 0)
  | .sum, .float f => addF f 0 0 (decodeF f a) (decodeF f b)
  | .max, .int t => (if t.read a ≤ t.read b then b else a, 0)
  | .max, .float f => minmaxF f true a b
  | .min, .int t => (if t.read a ≤ t.read b then a else b, 0)
  | .min, .float f => minmaxF f false a b

/-- The identity of a masked-off position (R107). -/
def RedOp.identity (k : RedOp) (t : ElemTy) : Nat :=
  match k, t with
  | .sum, .int _ => 0
  | .sum, .float f => signed f true 0
  | .max, .int t => wrapInt t.w t.lo
  | .min, .int t => wrapInt t.w t.hi
  | _, .float f => f.nan

/-! ## Top-k (R129) -/

/-- Whether the first entry (value, index) ranks before the second. -/
def ranksBefore (F : FloatFmt) (x y : Nat × Nat) : Bool :=
  let a := decodeF F x.1
  let b := decodeF F y.1
  if isNan a && isNan b then x.2 < y.2
  else if isNan a then false
  else if isNan b then true
  else if eqF a b then x.2 < y.2
  else ltF b a

/-- An entry put at its rank, behind its equals: of two candidates that R129 ranks alike the one met first stays in front, in a merge va's (log 72). -/
def rankIn (F : FloatFmt) (x : Nat × Nat) : List (Nat × Nat) → List (Nat × Nat)
  | [] => [x]
  | y :: l => if ranksBefore F x y then x :: y :: l else y :: rankIn F x l

/-- Candidates in rank order. -/
def ranked (F : FloatFmt) (l : List (Nat × Nat)) : List (Nat × Nat) := l.foldl (fun acc x => rankIn F x acc) []

/-! ## Packing and context formats (R100 to R103) -/

/-- The five trits of a T5 byte, and whether the byte is invalid (R100). -/
def tritsT5 (x : Nat) : List Int × Bool :=
  if x < 243 then ((List.range 5).map fun i => (x / 3 ^ i % 3 : Nat) - (1 : Int), false) else ([0, 0, 0, 0, 0], true)

/-- The trit of a T2 pair, and whether the pair is invalid (R100). -/
def tritT2 (x : Nat) : Int × Bool :=
  match x % 4 with
  | 0 => (0, false)
  | 1 => (1, false)
  | 3 => (-1, false)
  | _ => (0, true)

/-- The larger magnitude of two finite values; a value that is not finite does not count. -/
def maxMag : FVal → Nat × Int → Nat × Int
  | .fin _ m e, (n, f) => if toUnits false m e (min e f) > toUnits false n f (min e f) then (m, e) else (n, f)
  | _, x => x

/-- The largest magnitude among the finite values of a sub-block (R102). -/
def amax (l : List FVal) : Nat × Int := l.foldl (fun acc v => maxMag v acc) (0, 0)

/-- The e8m0 scale of a KC8 sub-block (R102): the smallest k with amax ≤ 448 × 2^k, biased and clamped. -/
def kc8Scale (l : List FVal) : Nat :=
  let (m, e) := amax l
  if m = 0 then 127
  else
    let top := e + Nat.log2 m
    let k := if 4 * m ≤ 7 * 2 ^ Nat.log2 m then top - 8 else top - 7
    (satInt (k + 127) 0 254).toNat

/-- A value divided by 2^k, narrowed RNE with the specials of R99. -/
def quantPow (F : FloatFmt) (k : Int) : FVal → Rounded
  | .fin s m e => roundTo F 0 0 s m (e - k)
  | v => convF F 0 0 v

/-- A KC8 value decoded to a target format (R102, R93, R125). -/
def kc8Decode (F : FloatFmt) (scale q : Nat) : Rounded :=
  if scale = 255 then (F.nan, flNV)
  else match decodeF e4m3 q with
    | .fin s m e => roundTo F 0 0 s m (e + (scale : Int) - 127)
    | _ => (F.nan, 0)

/-- The e4m3 scale of a KC4 sub-block (R103): amax ÷ 6 rounded up. -/
def kc4Scale (l : List FVal) : Nat :=
  let (m, e) := amax l
  if m = 0 then 0x38 else (roundTo e4m3 2 0 false (divMant m 6) (e - 97)).1

/-- A value divided by a KC4 scale, narrowed to e2m1 (R103). -/
def kc4Quant (scale : Nat) : FVal → Rounded
  | .fin s m e => divF e2m1 0 0 (.fin s m e) (decodeF e4m3 scale)
  | v => convF e2m1 0 0 v

/-- A KC4 value decoded (R103); the scales with a sign or 0x7F decode to NaN, with NV once a sub-block. -/
def kc4Decode (F : FloatFmt) (scale q : Nat) : Rounded :=
  if scale ≥ 0x80 ∨ scale = 0x7F then (F.nan, flNV)
  else match decodeF e4m3 scale, decodeF e2m1 q with
    | .fin _ m e, .fin s n f => roundTo F 0 0 s (m * n) (e + f)
    | _, _ => (F.nan, 0)

end Sys2Proof.Machine
end

