-- ==== Sys2Proof/Machine/Local.lean ====
section
/-! DEFINITION. The scratchpad instructions: majors 0x12, 0x13, 0x14 and ldbits, stbits of 0x15 (09_local_memory.md R201 to R220), with c.ldd and c.std. -/

namespace Sys2Proof.Machine

/-! ## Loads and stores (R214) -/

/-- The address of a load or store (R201). -/
def localAddr (s : State) (i : BitVec 10) (a : BitVec 5) (k : Nat) : Word := s.g a + scaled i k

/-- A read of n = 2^k bytes by a load (R201, R202): the bytes as a number, or the trap. -/
def loadWith (k : Nat) (i : BitVec 10) (a : BitVec 5) (s : State) (f : Nat → Out) : Out :=
  let addr := localAddr s i a k
  match checkLocal s.actor s.ctx false addr (2 ^ k) (2 ^ k) with
  | some b => badAccess 0x040 b addr s
  | none =>
    match s.hereCore.badIn addr.toNat (2 ^ k) with
    | some _ => raise 0x1C0 addr s
    | none => f (leNat (s.readBytes addr.toNat (2 ^ k)))

/-- The result of a load: n bits, sign- or zero-extended (R214). -/
def extend (sg : Bool) (n x : Nat) : Word :=
  if sg then (BitVec.ofNat n x).signExtend 64 else BitVec.ofNat 64 x

/-- A load into a g register. -/
def loadG (n : Nat) (sg : Bool) (k : Nat) (i : BitVec 10) (a d : BitVec 5) (s : State) : Out :=
  loadWith k i a s fun x => writeG n d (extend sg (8 * 2 ^ k) x) s

/-- ldsync (`take` true) and ldpeek (R215): the address passes its checks, then the context waits while the word is empty, and only then is the word read. -/
def loadFull (take : Bool) (i : BitVec 10) (a d : BitVec 5) (s : State) : Out :=
  let addr := localAddr s i a 3
  if checkLocal s.actor s.ctx false addr 8 8 = none ∧ s.hereCore.isFull (addr.toNat / 8) = false then .next (s.stall .word)
  else
    loadWith 3 i a s fun x =>
      if take then orNoRoom (s.storeFull s.ctx.slot (addr.toNat / 8) false) s fun t => writeG 4 d (BitVec.ofNat 64 x) t
      else writeG 4 d (BitVec.ofNat 64 x) s

/-- A store of the low 2^k bytes of a value (R201, R202, R206). -/
def storeAt (n : Nat) (k : Nat) (addr : Word) (v : Nat) (fill : Bool) (s : State) : Out :=
  match checkLocal s.actor s.ctx true addr (2 ^ k) (2 ^ k) with
  | some b => badAccess 0x048 b addr s
  | none =>
    match s.hereCore.badPartial addr.toNat (2 ^ k) with
    | some _ => raise 0x1C0 addr s
    | none =>
      orNoRoom (s.store s.ctx.slot addr.toNat (leBytes v (2 ^ k))) s fun t =>
        if fill then .next ((t.setHere (t.hereCore.setFull (addr.toNat / 8) true)).advance n) else .next (t.advance n)

/-- LDB (R214). -/
def execLdb (i : BitVec 10) (a d : BitVec 5) (s : State) : Out := loadG 4 true 0 i a d s
/-- LDBN (R214). -/
def execLdbn (i : BitVec 10) (a d : BitVec 5) (s : State) : Out := loadG 4 false 0 i a d s
/-- LDH (R214). -/
def execLdh (i : BitVec 10) (a d : BitVec 5) (s : State) : Out := loadG 4 true 1 i a d s
/-- LDHN (R214). -/
def execLdhn (i : BitVec 10) (a d : BitVec 5) (s : State) : Out := loadG 4 false 1 i a d s
/-- LDW (R214). -/
def execLdw (i : BitVec 10) (a d : BitVec 5) (s : State) : Out := loadG 4 true 2 i a d s
/-- LDWN (R214). -/
def execLdwn (i : BitVec 10) (a d : BitVec 5) (s : State) : Out := loadG 4 false 2 i a d s
/-- LDD (R214). -/
def execLdd (i : BitVec 10) (a d : BitVec 5) (s : State) : Out := loadG 4 false 3 i a d s
/-- LDF (R214): the 32 bits unchanged. -/
def execLdf (i : BitVec 10) (a d : BitVec 5) (s : State) : Out :=
  loadWith 2 i a s fun x => .next ((s.setF d (BitVec.ofNat 32 x)).advance 4)
/-- LDSYNC (R215). -/
def execLdsync (i : BitVec 10) (a d : BitVec 5) (s : State) : Out := loadFull true i a d s
/-- LDPEEK (R215). -/
def execLdpeek (i : BitVec 10) (a d : BitVec 5) (s : State) : Out := loadFull false i a d s
/-- STB (R214). -/
def execStb (i : BitVec 10) (a d : BitVec 5) (s : State) : Out := storeAt 4 0 (localAddr s i a 0) (s.g d).toNat false s
/-- STH (R214). -/
def execSth (i : BitVec 10) (a d : BitVec 5) (s : State) : Out := storeAt 4 1 (localAddr s i a 1) (s.g d).toNat false s
/-- STW (R214). -/
def execStw (i : BitVec 10) (a d : BitVec 5) (s : State) : Out := storeAt 4 2 (localAddr s i a 2) (s.g d).toNat false s
/-- STD (R214). -/
def execStd (i : BitVec 10) (a d : BitVec 5) (s : State) : Out := storeAt 4 3 (localAddr s i a 3) (s.g d).toNat false s
/-- STF (R214). -/
def execStf (i : BitVec 10) (a d : BitVec 5) (s : State) : Out := storeAt 4 2 (localAddr s i a 2) (s.f d).toNat false s
/-- STFILL (R214): the full bit becomes full. -/
def execStfill (i : BitVec 10) (a d : BitVec 5) (s : State) : Out := storeAt 4 3 (localAddr s i a 3) (s.g d).toNat true s
/-- CLRFULL (R214): the full bit becomes empty, data unchanged. -/
def execClrfull (i : BitVec 10) (a : BitVec 5) (s : State) : Out :=
  let addr := localAddr s i a 3
  match checkLocal s.actor s.ctx true addr 8 8 with
  | some b => badAccess 0x048 b addr s
  | none => orNoRoom (s.storeFull s.ctx.slot (addr.toNat / 8) false) s fun t => .next (t.advance 4)

/-! ## Local atomics (R217) -/

/-- An atomic on the doubleword at g[a]: `f` gives the new value, none when nothing is written. -/
def atomic (a d : BitVec 5) (f : Word → Option Word) (s : State) : Out :=
  let addr := s.g a
  match checkLocal s.actor s.ctx true addr 8 8 with
  | some b => badAccess 0x050 b addr s
  | none =>
    match s.hereCore.badIn addr.toNat 8 with
    | some _ => raise 0x1C0 addr s
    | none =>
      let old : Word := BitVec.ofNat 64 (leNat (s.readBytes addr.toNat 8))
      match f old with
      | some v => orNoRoom (s.store s.ctx.slot addr.toNat (leBytes v.toNat 8)) s fun t => writeG 4 d old t
      | none => writeG 4 d old s

/-- AADD (R217). -/
def execAadd (b a d : BitVec 5) (s : State) : Out := atomic a d (fun old => some (old + s.g b)) s
/-- ASWAP (R217). -/
def execAswap (b a d : BitVec 5) (s : State) : Out := atomic a d (fun _ => some (s.g b)) s
/-- ACAS (R217). -/
def execAcas (c b a d : BitVec 5) (s : State) : Out := atomic a d (fun old => if old = s.g c then some (s.g b) else none) s

/-! ## Bit-granular access (R218) -/

/-- The checks of a field of n bits at a bit address: its last bit address lies in the window, and its bytes in the zones. -/
def checkBits (a : Actor) (x : Ctx) (write : Bool) (b n : Nat) : Option Bad :=
  if b + n - 1 > 0x17FFFF then some .window
  else if a.zonesBad then some .upset
  else if linesAll (if write then lineWritable a x else lineReadable a) (b / 8) ((b + n - 1) / 8 + 1 - b / 8) then none
  else some .zone

/-- The bytes of a field of n bits at a bit address. -/
def bitSpan (b n : Nat) : Nat := (b + n - 1) / 8 + 1 - b / 8

/-- The field of n bits at a bit address, bit b as bit 0. -/
def State.readField (s : State) (b n : Nat) : Nat := leNat (s.readBytes (b / 8) (bitSpan b n)) / 2 ^ (b % 8) % 2 ^ n

/-- Post-increment of a bit-address register (R218). -/
def State.bumpB (s : State) (inc : BitVec 1) (r : BitVec 2) (b : FWord) (n : Nat) : State :=
  if inc = 1 then s.setB r (b + BitVec.ofNat 32 n) else s

/-- LDBITS (R218); w − 1 is the field. -/
def execLdbits (sx n : BitVec 1) (w a d : BitVec 5) (s : State) : Out :=
  let b := s.b (a.setWidth 2)
  let k := w.toNat + 1
  match checkBits s.actor s.ctx false b.toNat k with
  | some e => badAccess 0x058 e (b.setWidth 64) s
  | none =>
    match s.hereCore.badIn (b.toNat / 8) (bitSpan b.toNat k) with
    | some _ => raise 0x1C0 (b.setWidth 64) s
    | none =>
      let x := s.readField b.toNat k
      let v : Word := if sx = 1 then signFrom (BitVec.ofNat 64 x) k else BitVec.ofNat 64 x
      .next (((s.bumpB n (a.setWidth 2) b k).setG d v).advance 4)

/-- STBITS (R218): every other bit unchanged. -/
def execStbits (n : BitVec 1) (w a d : BitVec 5) (s : State) : Out :=
  let b := s.b (a.setWidth 2)
  let k := w.toNat + 1
  match checkBits s.actor s.ctx true b.toNat k with
  | some e => badAccess 0x058 e (b.setWidth 64) s
  | none =>
    match s.hereCore.badIn (b.toNat / 8) (bitSpan b.toNat k) with
    | some _ => raise 0x1C0 (b.setWidth 64) s
    | none =>
      let span := bitSpan b.toNat k
      let old := leNat (s.readBytes (b.toNat / 8) span)
      let lo := b.toNat % 8
      let new := old % 2 ^ lo + (s.g d).toNat % 2 ^ k * 2 ^ lo + old / 2 ^ (lo + k) * 2 ^ (lo + k)
      orNoRoom (s.store s.ctx.slot (b.toNat / 8) (leBytes new span)) s fun t =>
        .next ((t.bumpB n (a.setWidth 2) b k).advance 4)

/-! ## Compact forms (R52, R53) -/

/-- C_LDD: ldd gd, [gb+0]. -/
def execCLdd (b d : BitVec 5) (s : State) : Out := loadG 2 false 3 0 b d s
/-- C_STD: std gb, [ga+0]. -/
def execCStd (b a : BitVec 5) (s : State) : Out := storeAt 2 3 (localAddr s 0 a 3) (s.g b).toNat false s

end Sys2Proof.Machine
end

