-- ==== Sys2Proof/Machine/Vector.lean ====
section
/-! DEFINITION. Vector instructions (05_vector_registers.md R110 to R134). Each enters the core's two-entry command queue at issue with the g, f and b operands it read (R70, R113); its effect is made when the engine takes it (VECTOR_COMMAND_EXECUTION). The checks of the scratchpad accesses are made at issue. -/

namespace Sys2Proof.Machine

/-! ## Issue (R112, R113, R272) -/

/-- A command of the context that issues, with nothing read but its PC and VRND. -/
def State.cmd (s : State) (i : Instr) : Cmd :=
  { ctx := s.cx, pc := s.ctx.pc, ins := i, x := 0, y := 0, z := 0, mode := s.ctx.vrnd, vec := 0, cfg := 0, opA := [], opB := [] }

/-- A vector command issued: it stalls while the queue is full. -/
def issueV (c : Cmd) (s : State) : Out :=
  if s.hereCore.vq.length ≥ 2 then .next (s.stall .queueFull)
  else .next ((s.setHere { s.hereCore with vq := s.hereCore.vq ++ [c] }).advance 4)

/-- Element sizes of a width code (R123). -/
def widthOf (w : BitVec n) : Nat := 8 * 2 ^ w.toNat

/-- The address of vld and vst (R131). -/
def vecAddr (s : State) (g : BitVec 5) (o : BitVec 4) : Word := s.g g + (o.setWidth 64 <<< 7)

/-- The address of element i of vldx and vstx (R132). -/
def gatherAddr (base : Word) (w : Nat) (idx : VWord) (i : Nat) : Word := base + BitVec.ofNat 64 (elem w i idx * (w / 8))

/-- The first position that fails a check. -/
def firstBad (f : Nat → Option Bad) : List Nat → Option (Bad × Nat)
  | [] => none
  | i :: l => match f i with
    | some b => some (b, i)
    | none => firstBad f l

/-- The checks of vldx and vstx (R132): every active element, in increasing order, for window and zone. -/
def checkGather (a : Actor) (x : Ctx) (write : Bool) (base : Word) (w : Nat) (p : BitVec 3) (m : Word) (idx : VWord) : Option (Bad × Word) :=
  if base.toNat % (w / 8) ≠ 0 then some (.misaligned, base)
  else
    let act := (List.range (lanes w)).filter fun i => activeAt p m w i
    match firstBad (fun i => checkLocal a x write (gatherAddr base w idx i) (w / 8) 1) act with
    | some (b, i) => some (b, gatherAddr base w idx i)
    | none => none

/-! ## Majors 0x18 to 0x1A -/

/-- VADD (R115). -/
def execVadd (p : BitVec 3) (b a d : BitVec 4) (t : BitVec 2) (s : State) : Out := issueV (s.cmd (.vadd p b a d t)) s
/-- VSUB (R115). -/
def execVsub (p : BitVec 3) (b a d : BitVec 4) (t : BitVec 2) (s : State) : Out := issueV (s.cmd (.vsub p b a d t)) s
/-- VMUL (R115). -/
def execVmul (p : BitVec 3) (b a d : BitVec 4) (t : BitVec 2) (s : State) : Out := issueV (s.cmd (.vmul p b a d t)) s
/-- VMULH (R115). -/
def execVmulh (p : BitVec 3) (b a d : BitVec 4) (t : BitVec 2) (s : State) : Out := issueV (s.cmd (.vmulh p b a d t)) s
/-- VMULHN (R115). -/
def execVmulhn (p : BitVec 3) (b a d : BitVec 4) (t : BitVec 2) (s : State) : Out := issueV (s.cmd (.vmulhn p b a d t)) s
/-- VMIN (R115). -/
def execVmin (p : BitVec 3) (b a d : BitVec 4) (t : BitVec 2) (s : State) : Out := issueV (s.cmd (.vmin p b a d t)) s
/-- VMAX (R115). -/
def execVmax (p : BitVec 3) (b a d : BitVec 4) (t : BitVec 2) (s : State) : Out := issueV (s.cmd (.vmax p b a d t)) s
/-- VMINN (R115). -/
def execVminn (p : BitVec 3) (b a d : BitVec 4) (t : BitVec 2) (s : State) : Out := issueV (s.cmd (.vminn p b a d t)) s
/-- VMAXN (R115). -/
def execVmaxn (p : BitVec 3) (b a d : BitVec 4) (t : BitVec 2) (s : State) : Out := issueV (s.cmd (.vmaxn p b a d t)) s
/-- VAND (R115). -/
def execVand (p : BitVec 3) (b a d : BitVec 4) (t : BitVec 2) (s : State) : Out := issueV (s.cmd (.vand p b a d t)) s
/-- VOR (R115). -/
def execVor (p : BitVec 3) (b a d : BitVec 4) (t : BitVec 2) (s : State) : Out := issueV (s.cmd (.vor p b a d t)) s
/-- VXOR (R115). -/
def execVxor (p : BitVec 3) (b a d : BitVec 4) (t : BitVec 2) (s : State) : Out := issueV (s.cmd (.vxor p b a d t)) s
/-- VSLL (R115). -/
def execVsll (p : BitVec 3) (b a d : BitVec 4) (t : BitVec 2) (s : State) : Out := issueV (s.cmd (.vsll p b a d t)) s
/-- VSRL (R115). -/
def execVsrl (p : BitVec 3) (b a d : BitVec 4) (t : BitVec 2) (s : State) : Out := issueV (s.cmd (.vsrl p b a d t)) s
/-- VSRA (R115). -/
def execVsra (p : BitVec 3) (b a d : BitVec 4) (t : BitVec 2) (s : State) : Out := issueV (s.cmd (.vsra p b a d t)) s
/-- VADDS (R115). -/
def execVadds (p : BitVec 3) (b a d : BitVec 4) (t : BitVec 2) (s : State) : Out := issueV (s.cmd (.vadds p b a d t)) s
/-- VADDSN (R115). -/
def execVaddsn (p : BitVec 3) (b a d : BitVec 4) (t : BitVec 2) (s : State) : Out := issueV (s.cmd (.vaddsn p b a d t)) s
/-- VSUBS (R115). -/
def execVsubs (p : BitVec 3) (b a d : BitVec 4) (t : BitVec 2) (s : State) : Out := issueV (s.cmd (.vsubs p b a d t)) s
/-- VSUBSN (R115). -/
def execVsubsn (p : BitVec 3) (b a d : BitVec 4) (t : BitVec 2) (s : State) : Out := issueV (s.cmd (.vsubsn p b a d t)) s
/-- VAVG (R115). -/
def execVavg (p : BitVec 3) (b a d : BitVec 4) (t : BitVec 2) (s : State) : Out := issueV (s.cmd (.vavg p b a d t)) s
/-- VABS (R115). -/
def execVabs (p : BitVec 3) (a d : BitVec 4) (t : BitVec 2) (s : State) : Out := issueV (s.cmd (.vabs p a d t)) s
/-- VDOT4 (R116). -/
def execVdot4 (p : BitVec 3) (c b a d : BitVec 4) (s : State) : Out := issueV (s.cmd (.vdot4 p c b a d)) s
/-- VCMPEQ (R117). -/
def execVcmpeq (p : BitVec 3) (b a d : BitVec 4) (t : BitVec 2) (s : State) : Out := issueV (s.cmd (.vcmpeq p b a d t)) s
/-- VCMPLT (R117). -/
def execVcmplt (p : BitVec 3) (b a d : BitVec 4) (t : BitVec 2) (s : State) : Out := issueV (s.cmd (.vcmplt p b a d t)) s
/-- VCMPLTN (R117). -/
def execVcmpltn (p : BitVec 3) (b a d : BitVec 4) (t : BitVec 2) (s : State) : Out := issueV (s.cmd (.vcmpltn p b a d t)) s

/-! ## Majors 0x1B to 0x1D -/

/-- VFADD (R118, R119). -/
def execVfadd (p : BitVec 3) (b a d : BitVec 4) (t : BitVec 4) (s : State) : Out := issueV (s.cmd (.vfadd p b a d t)) s
/-- VFSUB (R118, R119). -/
def execVfsub (p : BitVec 3) (b a d : BitVec 4) (t : BitVec 4) (s : State) : Out := issueV (s.cmd (.vfsub p b a d t)) s
/-- VFMUL (R118, R119). -/
def execVfmul (p : BitVec 3) (b a d : BitVec 4) (t : BitVec 4) (s : State) : Out := issueV (s.cmd (.vfmul p b a d t)) s
/-- VFMIN (R118, R119). -/
def execVfmin (p : BitVec 3) (b a d : BitVec 4) (t : BitVec 4) (s : State) : Out := issueV (s.cmd (.vfmin p b a d t)) s
/-- VFMAX (R118, R119). -/
def execVfmax (p : BitVec 3) (b a d : BitVec 4) (t : BitVec 4) (s : State) : Out := issueV (s.cmd (.vfmax p b a d t)) s
/-- VFSCALE (R118, R119). -/
def execVfscale (p : BitVec 3) (b a d : BitVec 4) (t : BitVec 4) (s : State) : Out := issueV (s.cmd (.vfscale p b a d t)) s
/-- VFFMA (R118). -/
def execVffma (p : BitVec 3) (c b a d : BitVec 4) (t : BitVec 4) (s : State) : Out := issueV (s.cmd (.vffma p c b a d t)) s
/-- VFFMS (R118). -/
def execVffms (p : BitVec 3) (c b a d : BitVec 4) (t : BitVec 4) (s : State) : Out := issueV (s.cmd (.vffms p c b a d t)) s
/-- VFABS (R118, R120 to R122). -/
def execVfabs (p : BitVec 3) (a d : BitVec 4) (t : BitVec 4) (s : State) : Out := issueV (s.cmd (.vfabs p a d t)) s
/-- VFNEG (R118, R120 to R122). -/
def execVfneg (p : BitVec 3) (a d : BitVec 4) (t : BitVec 4) (s : State) : Out := issueV (s.cmd (.vfneg p a d t)) s
/-- VFRECIP (R118, R120 to R122). -/
def execVfrecip (p : BitVec 3) (a d : BitVec 4) (t : BitVec 4) (s : State) : Out := issueV (s.cmd (.vfrecip p a d t)) s
/-- VFRSQ (R118, R120 to R122). -/
def execVfrsq (p : BitVec 3) (a d : BitVec 4) (t : BitVec 4) (s : State) : Out := issueV (s.cmd (.vfrsq p a d t)) s
/-- VFEXP2 (R118, R120 to R122). -/
def execVfexp2 (p : BitVec 3) (a d : BitVec 4) (t : BitVec 4) (s : State) : Out := issueV (s.cmd (.vfexp2 p a d t)) s
/-- VFCLASS (R118, R120 to R122). -/
def execVfclass (p : BitVec 3) (a d : BitVec 4) (t : BitVec 4) (s : State) : Out := issueV (s.cmd (.vfclass p a d t)) s
/-- VFDIV (R118). -/
def execVfdiv (p : BitVec 3) (b a d : BitVec 4) (s : State) : Out := issueV (s.cmd (.vfdiv p b a d)) s
/-- VFSQRT (R118). -/
def execVfsqrt (p : BitVec 3) (a d : BitVec 4) (s : State) : Out := issueV (s.cmd (.vfsqrt p a d)) s
/-- VFCMPEQ (R119). -/
def execVfcmpeq (p : BitVec 3) (b a d : BitVec 4) (t : BitVec 4) (s : State) : Out := issueV (s.cmd (.vfcmpeq p b a d t)) s
/-- VFCMPLT (R119). -/
def execVfcmplt (p : BitVec 3) (b a d : BitVec 4) (t : BitVec 4) (s : State) : Out := issueV (s.cmd (.vfcmplt p b a d t)) s
/-- VFCMPLE (R119). -/
def execVfcmple (p : BitVec 3) (b a d : BitVec 4) (t : BitVec 4) (s : State) : Out := issueV (s.cmd (.vfcmple p b a d t)) s

/-! ## Major 0x1E -/

/-- VCVT (R124). -/
def execVcvt (p : BitVec 3) (t st a d : BitVec 4) (s : State) : Out := issueV (s.cmd (.vcvt p t st a d)) s
/-- VCVTSC (R125). -/
def execVcvtsc (c k a d : BitVec 4) (s : State) : Out := issueV (s.cmd (.vcvtsc c k a d)) s
/-- VSPLAT (R126): g[a] is read at issue. -/
def execVsplat (p w : BitVec 3) (g : BitVec 5) (d : BitVec 4) (s : State) : Out :=
  issueV { s.cmd (.vsplat p w g d) with x := s.g g } s
/-- VSPLATF (R126): f[a] is read at issue. -/
def execVsplatf (p w : BitVec 3) (f : BitVec 5) (d : BitVec 4) (s : State) : Out :=
  issueV { s.cmd (.vsplatf p w f d) with x := (s.f f).setWidth 64 } s
/-- VEXT (R126). -/
def execVext (i : BitVec 7) (b : BitVec 4) (x : BitVec 3) (g : BitVec 5) (s : State) : Out := issueV (s.cmd (.vext i b x g)) s
/-- VINS (R126). -/
def execVins (i : BitVec 7) (w : BitVec 3) (g : BitVec 5) (d : BitVec 4) (s : State) : Out :=
  issueV { s.cmd (.vins i w g d) with x := s.g g } s
/-- VPERM (R127). -/
def execVperm (p : BitVec 3) (w : BitVec 2) (b a d : BitVec 4) (s : State) : Out := issueV (s.cmd (.vperm p w b a d)) s
/-- VSLIDE (R127). -/
def execVslide (k : BitVec 7) (b a d : BitVec 4) (s : State) : Out := issueV (s.cmd (.vslide k b a d)) s
/-- VCOMPRESS (R127). -/
def execVcompress (p : BitVec 3) (w : BitVec 2) (a d : BitVec 4) (s : State) : Out := issueV (s.cmd (.vcompress p w a d)) s
/-- VEXPAND (R127). -/
def execVexpand (p : BitVec 3) (w : BitVec 2) (a d : BitVec 4) (s : State) : Out := issueV (s.cmd (.vexpand p w a d)) s
/-- VMERGE (R127). -/
def execVmerge (p : BitVec 3) (w : BitVec 2) (b a d : BitVec 4) (s : State) : Out := issueV (s.cmd (.vmerge p w b a d)) s
/-- VREDSUM (R128). -/
def execVredsum (p : BitVec 3) (t a d : BitVec 4) (s : State) : Out := issueV (s.cmd (.vredsum p t a d)) s
/-- VREDMAX (R128). -/
def execVredmax (p : BitVec 3) (t a d : BitVec 4) (s : State) : Out := issueV (s.cmd (.vredmax p t a d)) s
/-- VREDMIN (R128). -/
def execVredmin (p : BitVec 3) (t a d : BitVec 4) (s : State) : Out := issueV (s.cmd (.vredmin p t a d)) s
/-- VTOPK (R129), select form. -/
def execVtopk (k : BitVec 5) (y : BitVec 1) (b a d : BitVec 4) (s : State) : Out := issueV (s.cmd (.vtopk k y b a d)) s
/-- VTOPK_M (R129), merge form. -/
def execVtopkM (k : BitVec 5) (y : BitVec 1) (b a d : BitVec 4) (s : State) : Out := issueV (s.cmd (.vtopkM k y b a d)) s
/-- VMAND (R130). -/
def execVmand (b a d : BitVec 4) (s : State) : Out := issueV (s.cmd (.vmand b a d)) s
/-- VMOR (R130). -/
def execVmor (b a d : BitVec 4) (s : State) : Out := issueV (s.cmd (.vmor b a d)) s
/-- VMNOT (R130). -/
def execVmnot (a d : BitVec 4) (s : State) : Out := issueV (s.cmd (.vmnot a d)) s
/-- VMPOP (R130). -/
def execVmpop (b : BitVec 4) (g : BitVec 5) (s : State) : Out := issueV (s.cmd (.vmpop b g)) s

/-- The first byte of an access that fails a condition (R131, R353): the access itself when it is not aligned, else the first byte beyond the window or in a line that it may not use. -/
def failingByte (write : Bool) (b : Bad) (addr n : Nat) (s : State) : Nat :=
  match b with
  | .misaligned => addr
  | .upset => addr
  | .window => max addr 0x30000
  | .zone =>
    let ok : Nat → Bool := if write then lineWritable s.actor s.ctx else lineReadable s.actor
    ((List.range n).find? fun i => ! ok ((addr + i) / 64)).elim addr (addr + ·)

/-- A vector access of 128 bytes: all are checked, whatever the mask (R131, R134). -/
def issueSpan (write : Bool) (cause : BitVec 9) (addr : Word) (i : Instr) (s : State) : Out :=
  match checkLocal s.actor s.ctx write addr 128 8 with
  | some b => badAccess cause b (BitVec.ofNat 64 (failingByte write b addr.toNat 128 s)) s
  | none => issueV { s.cmd i with x := addr } s

/-- VLD (R131). -/
def execVld (p : BitVec 3) (o : BitVec 4) (w : BitVec 2) (g : BitVec 5) (d : BitVec 4) (s : State) : Out :=
  issueSpan false 0x080 (vecAddr s g o) (.vld p o w g d) s
/-- VST (R131). -/
def execVst (p : BitVec 3) (o : BitVec 4) (w : BitVec 2) (g : BitVec 5) (d : BitVec 4) (s : State) : Out :=
  issueSpan true 0x088 (vecAddr s g o) (.vst p o w g d) s

/-- A gather or scatter: all checks before any element (R132, R134). -/
def issueGather (write : Bool) (cause : BitVec 9) (p : BitVec 3) (w : BitVec 2) (x : BitVec 4) (g : BitVec 5) (i : Instr) (s : State) : Out :=
  match checkGather s.actor s.ctx write (s.g g) (widthOf w) p (s.p p) (s.v x) with
  | some (b, addr) => badAccess cause b addr s
  | none => issueV { s.cmd i with x := s.g g } s

/-- VLDX (R132). -/
def execVldx (p : BitVec 3) (w : BitVec 2) (x : BitVec 4) (g : BitVec 5) (d : BitVec 4) (s : State) : Out :=
  issueGather false 0x090 p w x g (.vldx p w x g d) s
/-- VSTX (R132). -/
def execVstx (p : BitVec 3) (w : BitVec 2) (x : BitVec 4) (g : BitVec 5) (d : BitVec 4) (s : State) : Out :=
  issueGather true 0x098 p w x g (.vstx p w x g d) s
/-- VLDBITS (R133): B[a] is read, and advanced, at issue. -/
def execVldbits (p : BitVec 3) (n : BitVec 1) (m : BitVec 2) (w : BitVec 4) (b : BitVec 2) (d : BitVec 4) (s : State) : Out :=
  let start := s.b b
  match checkBits s.actor s.ctx false start.toNat (64 * (w.toNat + 1)) with
  | some e => badAccess 0x058 e (start.setWidth 64) s
  | none =>
    if s.hereCore.vq.length ≥ 2 then .next (s.stall .queueFull)
    else issueV { s.cmd (.vldbits p n m w b d) with x := start.setWidth 64 } (s.bumpB n b start (64 * (w.toNat + 1)))

/-! ## Execution (R111, R113) -/

/-- A trap raised by a command of the context in focus at the PC of its instruction. -/
def trapAt (pc : BitVec 16) (cause : BitVec 9) (detail : Word) (s : State) : State :=
  trapWith none none cause detail (s.setCtx { s.ctx with pc := pc })

/-- A masked write of the lanes of v[d], with flags. -/
def State.lanesTo (s : State) (w : Nat) (p : BitVec 3) (d : BitVec 4) (f : Nat → Rounded) : State :=
  let (v, fl) := mapLanes w p (s.p p) (s.v d) f
  (s.setV d v).setFlags fl

def runInt (k : IOp) (p : BitVec 3) (b a d : BitVec 4) (t : BitVec 2) (s : State) : State :=
  let w := intWidth t
  s.lanesTo w p d fun i => k.run w (elem w i (s.v a)) (elem w i (s.v b))

def runICmp (k : ICmp) (p : BitVec 3) (b a d : BitVec 4) (t : BitVec 2) (s : State) : State :=
  let w := intWidth t
  s.setP (d.setWidth 3) (compareMask w p (s.p p) (s.p (d.setWidth 3)) fun i => k.run w (elem w i (s.v a)) (elem w i (s.v b)))

/-- A floating element operation; by VRND it draws once a position when the mode is RS (R98). -/
def runFloat (k : FOp) (F : FloatFmt) (mode : BitVec 3) (p : BitVec 3) (c b a d : BitVec 4) (s : State) : State :=
  let w := F.width
  let mode := if k.byMode then mode else 0
  let ds := drawList mode (lanes w) s.ctx.seed
  let t := s.lanesTo w p d fun i => k.run F mode (ds.getD i 0) (elem w i (s.v a)) (elem w i (s.v b)) (elem w i (s.v c))
  t.setCtx { t.ctx with seed := drawn mode (lanes w) t.ctx.seed }

def runFCmp (k : FCmp) (p : BitVec 3) (b a d : BitVec 4) (t : BitVec 4) (s : State) : State :=
  let F := floatTy t
  let w := F.width
  let res (i : Nat) : Bool × Flags := cmpF k (decodeF F (elem w i (s.v a))) (decodeF F (elem w i (s.v b)))
  let m := s.p p
  let fl := (List.range (lanes w)).foldl (fun fl i => if activeAt p m w i then fl ||| (res i).2 else fl) 0
  (s.setP (d.setWidth 3) (compareMask w p m (s.p (d.setWidth 3)) fun i => (res i).1)).setFlags fl

/-- vcvt (R124): the mask is read at the wider width, and positions beyond the source are zero. -/
def runVcvt (mode : BitVec 3) (p : BitVec 3) (t st a d : BitVec 4) (s : State) : State :=
  let T := elemTy t
  let S := elemTy st
  let wide := max S.width T.width
  let n := lanes wide
  let m := s.p p
  let ds := drawList mode (lanes T.width) s.ctx.seed
  let rs : List Rounded := (List.range (lanes T.width)).map fun i =>
    if i ≥ n then (0, 0)
    else if activeAt p m wide i then convElem S T mode (ds.getD i 0) (elem S.width i (s.v a))
    else (elem T.width i (s.v d), 0)
  let u := (s.setV d (packV T.width (rs.map Prod.fst))).setFlags (rs.foldl (fun fl r => fl ||| r.2) 0)
  u.setCtx { u.ctx with seed := drawn mode (lanes T.width) u.ctx.seed }

/-- Quantising by vcvtsc (R125, R102): blocks of 32 of n values. -/
def runQuant (F : FloatFmt) (c a d : BitVec 4) (s : State) : State :=
  let n := lanes F.width
  let vals := (elems F.width n (s.v a)).map (decodeF F)
  let scales := (List.range (n / 32)).map fun b => kc8Scale ((vals.drop (32 * b)).take 32)
  let rs := (List.range n).map fun i => quantPow e4m3 ((scales.getD (i / 32) 0 : Int) - 127) (vals.getD i (.fin false 0 0))
  let keep := (s.v c).toNat / 2 ^ (8 * (n / 32)) * 2 ^ (8 * (n / 32))
  ((s.setV d (packV 8 (rs.map Prod.fst))).setV c (BitVec.ofNat 1024 (keep + pack 8 scales))).setFlags
    (rs.foldl (fun fl r => fl ||| r.2) 0)

/-- Decoding by vcvtsc (R125). -/
def runDequant (F : FloatFmt) (c a d : BitVec 4) (s : State) : State :=
  let n := lanes F.width
  let rs := (List.range n).map fun i => kc8Decode F (elem 8 (i / 32) (s.v c)) (elem 8 i (s.v a))
  (s.setV d (packV F.width (rs.map Prod.fst))).setFlags (rs.foldl (fun fl r => fl ||| r.2) 0)

/-- vcompress: the active elements, then zeros (R127). -/
def compressed (w : Nat) (p : BitVec 3) (m : Word) (v : VWord) : List Nat :=
  ((List.range (lanes w)).filter fun i => activeAt p m w i).map fun i => elem w i v

/-- vexpand over positions, j elements taken so far (R127). -/
def expanded (w : Nat) (p : BitVec 3) (m : Word) (v : VWord) : List Nat → Nat → List Nat
  | [], _ => []
  | i :: l, j => if activeAt p m w i then elem w j v :: expanded w p m v l (j + 1) else 0 :: expanded w p m v l j

/-- A reduction (R128): element 0 takes the tree's result, the others zero. -/
def runReduce (k : RedOp) (p : BitVec 3) (t a d : BitVec 4) (s : State) : State :=
  let T := elemTy t
  let w := T.width
  let m := s.p p
  let xs := (List.range (lanes w)).map fun i => if activeAt p m w i then elem w i (s.v a) else k.identity T
  let (r, fl) := treeReduce (k.op T) (Nat.log2 (lanes w)) xs
  (s.setV d (BitVec.ofNat 1024 (r % 2 ^ w))).setFlags fl

/-- The destination pair of vtopk (R129). -/
def topkInto (F : FloatFmt) (k : Nat) (d : BitVec 4) (cands : List (Nat × Nat)) (s : State) : State :=
  let best := (ranked F cands).take k
  let vals := best.map Prod.fst ++ List.replicate (lanes F.width - k) (signed F true (F.inf.getD 0))
  let idxs := best.map Prod.snd ++ List.replicate (32 - k) 0xFFFFFFFF
  (s.setV d (packV F.width vals)).setV (d + 1) (packV 32 idxs)

def topkTy (y : BitVec 1) : FloatFmt := if y = 0 then bf16 else f32

/-- The words touched by bytes at addresses. -/
def wordsAt (ws : List (Nat × Byte)) : List Nat := (ws.map fun x => x.1 / 8).eraseDups

/-- Bytes at addresses put into the scratchpad one after another. -/
def Core.pokeAll (k : Core) : List (Nat × Byte) → Core
  | [] => k
  | (a, v) :: l => ({ k with pad := k.pad.set a v }).pokeAll l

/-- Bytes that a vector store writes: a word that is not wholly overwritten is read first (R202), kept lines are saved (R206). -/
def State.storeAll (s : State) (pc : BitVec 16) (ws : List (Nat × Byte)) : State :=
  let whole (w : Nat) : Bool := (List.range 8).all fun i => ws.any fun x => x.1 = 8 * w + i
  match (wordsAt ws).find? fun w => s.hereCore.badPad.contains w && !whole w with
  | some w => trapAt pc 0x1C1 (BitVec.ofNat 64 (8 * w)) s
  | none =>
    match s.saveLines s.ctx.slot ((ws.map fun x => x.1 / 64).eraseDups) with
    | none => trapAt pc 0x142 s.ctx.vnow s
    | some t =>
      let k := t.hereCore.pokeAll ws
      t.setHere { k with badPad := k.badPad.filter fun w => ! ((wordsAt ws).contains w && whole w) }

/-- A vector load's read of words: a machine trap when one is uncorrectable (R131). A vld reads all its 128 bytes and a vldbits all its 64w bits, whatever the mask: the model's choice (log 73). -/
def State.readsOk (s : State) (pc : BitVec 16) (addrs : List (Nat × Nat)) (f : State → State) : State :=
  match addrs.findSome? fun x => s.hereCore.badIn x.1 x.2 with
  | some w => trapAt pc 0x1C1 (BitVec.ofNat 64 (8 * w)) s
  | none => f s

/-- The element of w bits at a local address. -/
def State.readElem (s : State) (a w : Nat) : Nat := leNat (s.readBytes a (w / 8))

/-- The bytes of element i of a store at an address. -/
def elemBytes (v : VWord) (w i a : Nat) : List (Nat × Byte) :=
  (List.range (w / 8)).map fun j => (a + j, BitVec.ofNat 8 (elem w i v / 2 ^ (8 * j)))

/-- One command executed, the context in focus being its own. What a masked vld or vldbits reads beside its active positions is the model's choice (log 73). -/
def runVector (c : Cmd) (s : State) : State :=
  match c.ins with
  | .vadd p b a d t => runInt .add p b a d t s
  | .vsub p b a d t => runInt .sub p b a d t s
  | .vmul p b a d t => runInt .mul p b a d t s
  | .vmulh p b a d t => runInt .mulh p b a d t s
  | .vmulhn p b a d t => runInt .mulhn p b a d t s
  | .vmin p b a d t => runInt .min p b a d t s
  | .vmax p b a d t => runInt .max p b a d t s
  | .vminn p b a d t => runInt .minn p b a d t s
  | .vmaxn p b a d t => runInt .maxn p b a d t s
  | .vand p b a d t => runInt .and p b a d t s
  | .vor p b a d t => runInt .or p b a d t s
  | .vxor p b a d t => runInt .xor p b a d t s
  | .vsll p b a d t => runInt .sll p b a d t s
  | .vsrl p b a d t => runInt .srl p b a d t s
  | .vsra p b a d t => runInt .sra p b a d t s
  | .vadds p b a d t => runInt .adds p b a d t s
  | .vaddsn p b a d t => runInt .addsn p b a d t s
  | .vsubs p b a d t => runInt .subs p b a d t s
  | .vsubsn p b a d t => runInt .subsn p b a d t s
  | .vavg p b a d t => runInt .avg p b a d t s
  | .vabs p a d t => runInt .abs p a a d t s
  | .vdot4 p k b a d => s.lanesTo 32 p d fun i => (dot4 (s.v a) (s.v b) (s.v k) i, 0)
  | .vcmpeq p b a d t => runICmp .eq p b a d t s
  | .vcmplt p b a d t => runICmp .lt p b a d t s
  | .vcmpltn p b a d t => runICmp .ltn p b a d t s
  | .vfadd p b a d t => runFloat .add (floatTy t) c.mode p a b a d s
  | .vfsub p b a d t => runFloat .sub (floatTy t) c.mode p a b a d s
  | .vfmul p b a d t => runFloat .mul (floatTy t) c.mode p a b a d s
  | .vfmin p b a d t => runFloat .min (floatTy t) c.mode p a b a d s
  | .vfmax p b a d t => runFloat .max (floatTy t) c.mode p a b a d s
  | .vfscale p b a d t => runFloat .scale (floatTy t) c.mode p a b a d s
  | .vffma p k b a d t => runFloat .fma (floatTy t) c.mode p k b a d s
  | .vffms p k b a d t => runFloat .fms (floatTy t) c.mode p k b a d s
  | .vfabs p a d t => runFloat .abs (floatTy t) c.mode p a a a d s
  | .vfneg p a d t => runFloat .neg (floatTy t) c.mode p a a a d s
  | .vfrecip p a d t => runFloat .recip (floatTy t) c.mode p a a a d s
  | .vfrsq p a d t => runFloat .rsq (floatTy t) c.mode p a a a d s
  | .vfexp2 p a d t => runFloat .exp2 (floatTy t) c.mode p a a a d s
  | .vfclass p a d t => runFloat .cls (floatTy t) c.mode p a a a d s
  | .vfdiv p b a d => runFloat .div f32 c.mode p a b a d s
  | .vfsqrt p a d => runFloat .sqrt f32 c.mode p a a a d s
  | .vfcmpeq p b a d t => runFCmp .eq p b a d t s
  | .vfcmplt p b a d t => runFCmp .lt p b a d t s
  | .vfcmple p b a d t => runFCmp .le p b a d t s
  | .vcvt p t st a d => runVcvt c.mode p t st a d s
  | .vcvtsc k code a d =>
    if code = 0 then runQuant bf16 k a d s
    else if code = 1 then runDequant bf16 k a d s
    else if code = 2 then runQuant f32 k a d s
    else runDequant f32 k a d s
  | .vsplat p w _ d => s.lanesTo (widthOf w) p d fun _ => (c.x.toNat % 2 ^ widthOf w, 0)
  | .vsplatf p w _ d => s.lanesTo (widthOf w) p d fun _ => (c.x.toNat % 2 ^ widthOf w, 0)
  | .vext i b x g =>
    match elemTy (x.setWidth 4) with
    | .int t => s.setG g (BitVec.ofInt 64 (t.read (elem t.w i.toNat (s.v b))))
    | .float _ => s
  | .vins i w _ d =>
    let n := widthOf w
    s.setV d (packV n ((elems n (lanes n) (s.v d)).set i.toNat (c.x.toNat % 2 ^ n)))
  | .vperm p w b a d =>
    let n := widthOf w
    s.lanesTo n p d fun i => (elem n (elem n i (s.v b) % lanes n) (s.v a), 0)
  | .vslide k b a d => s.setV d (packV 8 (((elems 8 128 (s.v a) ++ elems 8 128 (s.v b)).drop k.toNat).take 128))
  | .vcompress p w a d => s.setV d (packV (widthOf w) (compressed (widthOf w) p (s.p p) (s.v a)))
  | .vexpand p w a d =>
    let n := widthOf w
    s.setV d (packV n (expanded n p (s.p p) (s.v a) (List.range (lanes n)) 0))
  | .vmerge p w b a d =>
    let n := widthOf w
    s.setV d (packV n ((List.range (lanes n)).map fun i => if activeAt p (s.p p) n i then elem n i (s.v a) else elem n i (s.v b)))
  | .vredsum p t a d => runReduce .sum p t a d s
  | .vredmax p t a d => runReduce .max p t a d s
  | .vredmin p t a d => runReduce .min p t a d s
  | .vtopk k y b a d =>
    let F := topkTy y
    let base := (s.v b).toNat % 2 ^ 32
    topkInto F (k.toNat + 1) d ((List.range (lanes F.width)).map fun i => (elem F.width i (s.v a), (base + i) % 2 ^ 32)) s
  | .vtopkM k y b a d =>
    let F := topkTy y
    let half (r : BitVec 4) : List (Nat × Nat) := (List.range 32).map fun i => (elem F.width i (s.v r), elem 32 i (s.v (r + 1)))
    topkInto F (k.toNat + 1) d (half a ++ half b) s
  | .vmand b a d => s.setP (d.setWidth 3) (s.p (a.setWidth 3) &&& s.p (b.setWidth 3))
  | .vmor b a d => s.setP (d.setWidth 3) (s.p (a.setWidth 3) ||| s.p (b.setWidth 3))
  | .vmnot a d => s.setP (d.setWidth 3) (~~~ s.p (a.setWidth 3))
  | .vmpop b g => s.setG g (BitVec.ofNat 64 (onesBelow (s.p (b.setWidth 3)) 64))
  | .vld p _ w _ d =>
    let n := widthOf w
    s.readsOk c.pc [(c.x.toNat, 128)] fun t => t.lanesTo n p d fun i => (t.readElem (c.x.toNat + i * (n / 8)) n, 0)
  | .vst p _ w _ d =>
    let n := widthOf w
    let act := (List.range (lanes n)).filter fun i => activeAt p (s.p p) n i
    s.storeAll c.pc (act.flatMap fun i => elemBytes (s.v d) n i (c.x.toNat + i * (n / 8)))
  | .vldx p w x _ d =>
    let n := widthOf w
    let act := (List.range (lanes n)).filter fun i => activeAt p (s.p p) n i
    s.readsOk c.pc (act.map fun i => ((gatherAddr c.x n (s.v x) i).toNat, n / 8)) fun t =>
      t.lanesTo n p d fun i => (t.readElem (gatherAddr c.x n (t.v x) i).toNat n, 0)
  | .vstx p w x _ d =>
    let n := widthOf w
    let act := (List.range (lanes n)).filter fun i => activeAt p (s.p p) n i
    s.storeAll c.pc (act.flatMap fun i => elemBytes (s.v d) n i (gatherAddr c.x n (s.v x) i).toNat)
  | .vldbits p _ m w _ d =>
    let k := w.toNat + 1
    s.readsOk c.pc [(c.x.toNat / 8, bitSpan c.x.toNat (64 * k))] fun t =>
      t.lanesTo 16 p d fun i =>
        let x := t.readField (c.x.toNat + i * k) k
        if m = 0 then (x, 0)
        else if m = 1 then (wrapInt 16 (sx k x), 0)
        else if m = 2 then convF bf16 0 0 (decodeF e3m2 x)
        else convF hf 0 0 (decodeF e3m2 x)
  | _ => s

/-- VECTOR_COMMAND_EXECUTION (R113): the engine takes the oldest queued command; a core of a stopped partition starts none (R357). -/
def execVectorCommandExecution (c : BitVec 12) (s : State) : Out :=
  match (s.core c).vq with
  | [] => notEnabled "VECTOR_COMMAND_EXECUTION"
  | k :: rest =>
    if (s.core c).stopped then notEnabled "VECTOR_COMMAND_EXECUTION"
    else .next (s.at c k.ctx fun t => (runVector k (t.setHere { t.hereCore with vq := rest })).wakeHere)

end Sys2Proof.Machine
end

