-- ==== Sys2Proof/Machine/Matrix.lean ====
section
/-! DEFINITION. Tile registers and the matrix engine (06_tile_registers.md R135 to R155). Every check is made at issue, where g and f operands, a slice move's vector register and the bytes of scratchpad operands are read (R139, R140); the tile's content changes when the engine takes the command (MATRIX_COMMAND_EXECUTION). -/

namespace Sys2Proof.Machine

/-! ## Configuration (R148) and holding (R138) -/

/-- ROWS, ROLE and TYPE of a configuration word. -/
def cfgRows (c : BitVec 13) : Nat := c.toNat / 256 % 32
def cfgRole (c : BitVec 13) : Nat := c.toNat / 16 % 4
def cfgType (c : BitVec 13) : Nat := c.toNat % 16

/-- Whether a configuration word is valid (R148): roles are 0 C, 1 A, 2 B, 3 raw. -/
def cfgOk (x : Word) : Bool :=
  let c := x.setWidth 13
  decide (x.toNat < 2 ^ 13) && decide (x.toNat / 64 % 4 = 0) && decide (cfgType c < 8) &&
    (match cfgRole c with
      | 0 => decide (1 ≤ cfgRows c ∧ cfgRows c ≤ 16 ∧ cfgType c < 2)
      | 1 => decide (1 ≤ cfgRows c ∧ cfgRows c ≤ 16 ∧ 2 ≤ cfgType c ∧ cfgType c ≤ 6)
      | 2 => decide (cfgRows c = 0)
      | _ => decide (cfgRows c = 0 ∧ cfgType c ≠ 7))

/-- The element width of a tile's type (R149). -/
def tileWidth (ty : Nat) : Nat := if ty < 2 then 32 else if ty < 4 then 16 else 8

def Core.tile (k : Core) (t : BitVec 3) : Tile := k.tiles[t.toNat]

def Core.setTile (k : Core) (t : BitVec 3) (x : Tile) : Core := { k with tiles := k.tiles.set t.toNat x }

/-- Whether the context that issues holds a tile. -/
def State.holds (s : State) (t : BitVec 3) : Bool := (s.hereCore.tile t).holder = some s.cx

/-- MXHOLD: the tiles a context holds (R137). -/
def State.mxhold (s : State) : Word :=
  BitVec.ofNat 64 (bitsOf (fun i => if h : i < 8 then s.hereCore.tiles[i].holder = some s.cx else false) 8)

/-- A trap whose detail is a tile number (R353). -/
def tileTrap (cause : BitVec 9) (t : BitVec 3) (s : State) : Out := raise cause (t.setWidth 64) s

/-- A matrix command issued: it stalls while the queue is full (R139, R272). -/
def issueM (c : Cmd) (s : State) : Out :=
  if s.hereCore.mq.length ≥ 2 then .next (s.stall .queueFull)
  else .next ((s.setHere { s.hereCore with mq := s.hereCore.mq ++ [c] }).advance 4)

/-- A command on a held tile, with its configuration (R147, R139). -/
def onTile (t : BitVec 3) (s : State) (f : BitVec 13 → Out) : Out :=
  if s.holds t then f (s.hereCore.tile t).cfg else tileTrap 0x060 t s

/-- TCFG (R138, R148): the checks come before any wait; a tile that another holds, or that an earlier waiter claims, is waited for. -/
def execTcfg (a : BitVec 5) (t : BitVec 3) (s : State) : Out :=
  let k := s.hereCore
  let x := s.g a
  let mine := s.holds t
  if mine = false ∧ ((List.range 8).any fun i => decide (t.toNat < i) && s.holds (BitVec.ofNat 3 i)) then tileTrap 0x061 t s
  else if cfgOk x = false then tileTrap 0x062 t s
  else
    let first := (k.tileWait.find? fun w => w.2 = t).map Prod.fst
    if mine = true ∨ ((k.tile t).holder = none ∧ (first = none ∨ first = some s.cx)) then
      if k.mq.length ≥ 2 then .next (s.stall .queueFull)
      else
        let k' := k.setTile t { k.tile t with holder := some s.cx, cfg := x.setWidth 13 }
        issueM { s.cmd (.tcfg a t) with cfg := x.setWidth 13 } (s.setHere { k' with tileWait := k.tileWait.filter fun w => w.1 ≠ s.cx })
    else if k.tileWait.contains (s.cx, t) then .next (s.stall (.tile t))
    else .next ((s.setHere { k with tileWait := k.tileWait ++ [(s.cx, t)] }).stall (.tile t))

/-- TREL (R147). -/
def execTrel (t : BitVec 3) (s : State) : Out := onTile t s fun c => issueM { s.cmd (.trel t) with cfg := c } s
/-- TZERO (R147). -/
def execTzero (t : BitVec 3) (s : State) : Out := onTile t s fun c => issueM { s.cmd (.tzero t) with cfg := c } s

/-- A row move's index check (R149). -/
def rowIndex (b : BitVec 5) (t : BitVec 3) (s : State) (f : BitVec 13 → Out) : Out :=
  onTile t s fun c => if (s.g b).toNat < 16 then f c else tileTrap 0x066 t s

/-- A column move's checks (R149, R155): the index first, then the ternary tile. A T2 tile's elements are taken as two bits wide for the index (log 63). -/
def colIndex (b : BitVec 5) (t : BitVec 3) (s : State) (f : BitVec 13 → Out) : Out :=
  onTile t s fun c =>
    if 1024 / (if cfgType c = 7 then 2 else tileWidth (cfgType c)) ≤ (s.g b).toNat then tileTrap 0x066 t s
    else if cfgType c = 7 then tileTrap 0x067 t s else f c

/-- TLDROW (R149): the vector register is read at issue. -/
def execTldrow (b : BitVec 5) (v : BitVec 4) (t : BitVec 3) (s : State) : Out :=
  rowIndex b t s fun c => issueM { s.cmd (.tldrow b v t) with x := s.g b, vec := s.v v, cfg := c } s
/-- TLDCOL (R149). -/
def execTldcol (b : BitVec 5) (v : BitVec 4) (t : BitVec 3) (s : State) : Out :=
  colIndex b t s fun c => issueM { s.cmd (.tldcol b v t) with x := s.g b, vec := s.v v, cfg := c } s
/-- TSTROW (R149). -/
def execTstrow (b : BitVec 5) (v : BitVec 4) (t : BitVec 3) (s : State) : Out :=
  rowIndex b t s fun c => issueM { s.cmd (.tstrow b v t) with x := s.g b, cfg := c } s
/-- TSTCOL (R149). -/
def execTstcol (b : BitVec 5) (v : BitVec 4) (t : BitVec 3) (s : State) : Out :=
  colIndex b t s fun c => issueM { s.cmd (.tstcol b v t) with x := s.g b, cfg := c } s

/-! ## Footprints (R145, R150) -/

/-- The lowest byte of a run at or beyond the end of the local window. -/
def outWindow (r : Nat × Nat) : Option Nat := if r.1 + r.2 > 0x30000 then some (max r.1 0x30000) else none

/-- The lowest byte of a run outside the zones. -/
def outZone (a : Actor) (x : Ctx) (write : Bool) (r : Nat × Nat) : Option Nat :=
  ((linesOf r.1 r.2).find? fun l => ! (if write then lineWritable a x l else lineReadable a l)).map fun l => max r.1 (64 * l)

def lowest (l : List Nat) : Option Nat := l.foldl (fun m x => match m with | none => some x | some y => some (min x y)) none

/-- The cause and first failing byte of a footprint, window before zone; a zone descriptor in error has no address (R354). -/
def footprintFail (a : Actor) (x : Ctx) (write : Bool) (runs : List (Nat × Nat)) : Option (BitVec 9 × Nat) :=
  match lowest (runs.filterMap outWindow) with
  | some b => some (0x069, b)
  | none => if a.zonesBad then some (0x1C7, 0) else (lowest (runs.filterMap (outZone a x write))).map fun b => (0x06A, b)

/-- The pitch of tload and tstore (R150): 128 for g0; none when the register is invalid. -/
def pitchOf (b : BitVec 5) (s : State) : Option Nat :=
  if b = 0 then some 128
  else if (s.g b).toNat < 65536 ∧ (s.g b).toNat % 8 = 0 then some (s.g b).toNat else none

def tileRows (base pitch : Nat) : List (Nat × Nat) := (List.range 16).map fun r => (base + r * pitch, 128)

/-- A move of a whole tile: checks in the order of R155. DETAIL of 0x068 is the base (log 26). -/
def tileMove (write : Bool) (b a : BitVec 5) (t : BitVec 3) (s : State) (f : BitVec 13 → Nat → Out) : Out :=
  onTile t s fun c =>
    match pitchOf b s with
    | none => tileTrap 0x06C t s
    | some p =>
      let base := s.g a
      if base.toNat % 8 ≠ 0 then raise 0x068 base s
      else match footprintFail s.actor s.ctx write (tileRows base.toNat p) with
        | some (cause, x) => raise cause (BitVec.ofNat 64 x) s
        | none => f c p

/-- The bytes of runs, one after another. -/
def State.readRuns (s : State) (runs : List (Nat × Nat)) : List Byte := runs.flatMap fun r => s.readBytes r.1 r.2

/-- The first word with an uncorrectable error in runs. -/
def Core.badRuns (k : Core) (runs : List (Nat × Nat)) : Option Nat := runs.findSome? fun r => k.badIn r.1 r.2

/-- TLOAD (R150): an operand read as the rows stand at issue (R140). -/
def execTload (b a : BitVec 5) (t : BitVec 3) (s : State) : Out :=
  tileMove false b a t s fun c p =>
    let runs := tileRows (s.g a).toNat p
    match s.hereCore.badRuns runs with
    | some w => raise 0x1C1 (BitVec.ofNat 64 (8 * w)) s
    | none => issueM { s.cmd (.tload b a t) with x := s.g a, cfg := c, opA := s.readRuns runs } s
/-- TSTORE (R150, R141): the kept lines of its rows are saved at issue. -/
def execTstore (b a : BitVec 5) (t : BitVec 3) (s : State) : Out :=
  tileMove true b a t s fun c p =>
    if s.hereCore.mq.length ≥ 2 then .next (s.stall .queueFull)
    else orNoRoom (s.saveLines s.ctx.slot ((tileRows (s.g a).toNat p).flatMap fun r => linesOf r.1 r.2)) s fun u =>
      issueM { s.cmd (.tstore b a t) with x := s.g a, y := BitVec.ofNat 64 p, cfg := c } u
/-- TWAIT (R151): until every earlier matrix command of the context has completed. -/
def execTwait (s : State) : Out :=
  if s.hereCore.mq.any fun c => c.ctx = s.cx then .next (s.stall .engine) else .next (s.advance 4)

/-! ## mma (R143 to R145, R152 to R154) -/

/-- An opcode of major 0x21 (R152): tile types of A and B, K, G, and whether the path is integer. -/
structure MmaOp where
  aTy : Nat
  bTy : Nat
  k : Nat
  grp : Nat
  int : Bool
  /-- the byte scales of the 8-bit floating opcodes -/
  byteScale : Bool
  /-- the column scales of mma.bf16e4 -/
  colScale : Bool
  deriving DecidableEq, Repr

/-- Whether an operand field names a scratchpad operand (R143). -/
def isPair (a : BitVec 5) : Bool := a.getLsbD 4

/-- Base and descriptor of a scratchpad operand: g(2k) and g(2k + 1) (R143). -/
def pairOf (a : BitVec 5) (s : State) : Word × Word := (s.g ((a.setWidth 4).setWidth 5 <<< 1), s.g (((a.setWidth 4).setWidth 5 <<< 1) + 1))

def descScoff (d : Word) : Nat := d.toNat / 2 ^ 40 % 2 ^ 16
def descTrans (d : Word) : Bool := d.getLsbD 39
def descPack (d : Word) : Nat := d.toNat / 2 ^ 36 % 8
def descRot (d : Word) : Nat := d.toNat / 2 ^ 33 % 8
def descTile (d : Word) : Nat := d.toNat / 2 ^ 16 % 2 ^ 16
def descRow (d : Word) : Nat := d.toNat % 2 ^ 16

/-- The descriptor limits of cause 0x06B (R144). -/
def descBad (d : Word) (ternary scales : Bool) : Bool :=
  decide (d.toNat / 2 ^ 56 ≠ 0) || d.getLsbD 32 || (decide (descScoff d ≠ 0) && !scales) || (ternary && descTrans d) ||
    decide (descPack d ≥ 2) || (decide (descPack d ≠ 0) && !ternary)

/-- Rows read and bytes per stored row of an operand (R145). -/
def storedRows (op : MmaOp) (isB : Bool) (m : Nat) (d : Word) : Nat × Nat :=
  let ty := if isB then op.bTy else op.aTy
  let e := tileWidth ty / 8
  if ty = 7 then (128, if descPack d = 1 then 7 else 8)
  else if isB then (if descTrans d then (32, op.k * e) else (op.k, 32 * e))
  else if descTrans d then (op.k, 16 * e) else (m, op.k * e)

/-- The address of a stored row (R145). -/
def rowAddr (base d : Word) (r : Nat) : Nat :=
  base.toNat + r / 8 * (if descTile d ≠ 0 then descTile d else 8 * descRow d) + r % 8 * descRow d

/-- The runs of an operand's footprint: the rotation permutes the words of a row, so each row is one run (R145). -/
def operandRuns (op : MmaOp) (isB : Bool) (m : Nat) (base d : Word) : List (Nat × Nat) :=
  let (rows, l) := storedRows op isB m d
  ((List.range rows).map fun r => (rowAddr base d r, l)) ++
    (if isB && op.colScale then [(base.toNat + descScoff d, 32)] else [])

/-- The address of byte o of a stored row of L bytes (R145). -/
def byteAddr (base d : Word) (l r o : Nat) : Nat :=
  let w := (l + 7) / 8
  rowAddr base d r + 8 * ((o / 8 + descRot d * r) % w) + o % 8

/-- The bytes of a scratchpad operand, stored row by stored row, then the column scales. -/
def operandBytes (op : MmaOp) (isB : Bool) (m : Nat) (base d : Word) (s : State) : List Byte :=
  let (rows, l) := storedRows op isB m d
  ((List.range rows).flatMap fun r => (List.range l).map fun o => s.readByte (byteAddr base d l r o)) ++
    (if isB && op.colScale then s.readBytes (base.toNat + descScoff d) 32 else [])

/-- A scratchpad operand's first failing check: precedence (R155), cause and detail. DETAIL of 0x068 is the base register's value, whichever of base, ROWPITCH, TILEPITCH and SCOFF is misaligned: the model's choice (log 26). -/
def operandFail (op : MmaOp) (isB : Bool) (m : Nat) (t : BitVec 3) (a : BitVec 5) (s : State) : Option (Nat × BitVec 9 × Word) :=
  if isPair a = false then none
  else
    let (base, d) := pairOf a s
    let ternary := isB && decide (op.bTy = 7)
    if descBad d ternary (isB && op.colScale) then some (9, 0x06B, t.setWidth 64)
    else if base.toNat % 8 ≠ 0 ∨ descRow d % 8 ≠ 0 ∨ descTile d % 8 ≠ 0 ∨ descScoff d % 8 ≠ 0 then some (11, 0x068, base)
    else match footprintFail s.actor s.ctx false (operandRuns op isB m base d) with
      | some (cause, x) => some (if cause = 0x069 then 12 else 13, cause, BitVec.ofNat 64 x)
      | none => none

/-- The earlier of two failures in the precedence of R155, A's on a tie (R154). -/
def worseOf (a b : Option (Nat × BitVec 9 × Word)) : Option (BitVec 9 × Word) :=
  match a, b with
  | none, none => none
  | some x, none => some x.2
  | none, some y => some y.2
  | some x, some y => if y.1 < x.1 then some y.2 else some x.2

/-- The tile numbers an mma names, C first. -/
def tilesNamed (t : BitVec 3) (a b : BitVec 5) : List (BitVec 3) :=
  t :: (if isPair a then [] else [a.setWidth 3]) ++ (if isPair b then [] else [b.setWidth 3])

/-- The tile checks of R154, in order. -/
def tileChecks (op : MmaOp) (t : BitVec 3) (a b : BitVec 5) (s : State) : Option (BitVec 9 × BitVec 3) :=
  let cfg (x : BitVec 3) := (s.hereCore.tile x).cfg
  let want : List (BitVec 3 × Nat × Nat) :=
    (t, 0, if op.int then 1 else 0) :: (if isPair a then [] else [(a.setWidth 3, 1, op.aTy)]) ++
      (if isPair b then [] else [(b.setWidth 3, 2, op.bTy)])
  match (tilesNamed t a b).find? fun x => !s.holds x with
  | some x => some (0x060, x)
  | none =>
    match want.find? fun w => cfgRole (cfg w.1) ≠ w.2.1 with
    | some w => some (0x063, w.1)
    | none =>
      match want.find? fun w => cfgType (cfg w.1) ≠ w.2.2 with
      | some w => some (0x064, w.1)
      | none =>
        if isPair a = false ∧ cfgRows (cfg (a.setWidth 3)) < cfgRows (cfg t) then some (0x065, a.setWidth 3) else none

/-- An mma at issue (R154): tiles, then scratchpad operands, then the bytes and scales it reads. -/
def issueMma (op : MmaOp) (i : Instr) (c b a : BitVec 5) (t : BitVec 3) (s : State) : Out :=
  match tileChecks op t a b s with
  | some (cause, x) => tileTrap cause x s
  | none =>
    let cfg := (s.hereCore.tile t).cfg
    let m := cfgRows cfg
    match worseOf (operandFail op false m t a s) (operandFail op true m t b s) with
    | some (cause, d) => raise cause d s
    | none =>
      let runs := (if isPair a then operandRuns op false m (pairOf a s).1 (pairOf a s).2 else []) ++
        (if isPair b then operandRuns op true m (pairOf b s).1 (pairOf b s).2 else [])
      match s.hereCore.badRuns runs with
      | some w => raise 0x1C1 (BitVec.ofNat 64 (8 * w)) s
      | none =>
        issueM { s.cmd i with
          x := if isPair a then (pairOf a s).2 else 0
          y := if isPair b then (pairOf b s).2 else 0
          z := (s.f (c + 1) ++ s.f c).setWidth 64
          cfg := cfg
          opA := if isPair a then operandBytes op false m (pairOf a s).1 (pairOf a s).2 s else []
          opB := if isPair b then operandBytes op true m (pairOf b s).1 (pairOf b s).2 s else [] } s

def mmaBf16Op : MmaOp := ⟨2, 2, 32, 8, false, false, false⟩
def mmaHfOp : MmaOp := ⟨3, 3, 32, 8, false, false, false⟩
def mmaE4e4Op : MmaOp := ⟨4, 4, 64, 16, false, true, false⟩
def mmaE4e5Op : MmaOp := ⟨4, 5, 64, 16, false, true, false⟩
def mmaE5e4Op : MmaOp := ⟨5, 4, 64, 16, false, true, false⟩
def mmaE5e5Op : MmaOp := ⟨5, 5, 64, 16, false, true, false⟩
def mmaBf16e4Op : MmaOp := ⟨2, 4, 32, 8, false, false, true⟩
def mmaI8Op : MmaOp := ⟨6, 6, 64, 16, true, false, false⟩
def mmaTi8Op : MmaOp := ⟨6, 7, 128, 32, true, false, false⟩
def mmaTbf16Op : MmaOp := ⟨2, 7, 128, 32, false, false, false⟩

/-- MMA_BF16 (R152, R153). -/
def execMmaBf16 (c b a : BitVec 5) (t : BitVec 3) (s : State) : Out := issueMma mmaBf16Op (.mmaBf16 c b a t) c b a t s
/-- MMA_HF (R152, R153). -/
def execMmaHf (c b a : BitVec 5) (t : BitVec 3) (s : State) : Out := issueMma mmaHfOp (.mmaHf c b a t) c b a t s
/-- MMA_E4E4 (R152, R153). -/
def execMmaE4e4 (c b a : BitVec 5) (t : BitVec 3) (s : State) : Out := issueMma mmaE4e4Op (.mmaE4e4 c b a t) c b a t s
/-- MMA_E4E5 (R152, R153). -/
def execMmaE4e5 (c b a : BitVec 5) (t : BitVec 3) (s : State) : Out := issueMma mmaE4e5Op (.mmaE4e5 c b a t) c b a t s
/-- MMA_E5E4 (R152, R153). -/
def execMmaE5e4 (c b a : BitVec 5) (t : BitVec 3) (s : State) : Out := issueMma mmaE5e4Op (.mmaE5e4 c b a t) c b a t s
/-- MMA_E5E5 (R152, R153). -/
def execMmaE5e5 (c b a : BitVec 5) (t : BitVec 3) (s : State) : Out := issueMma mmaE5e5Op (.mmaE5e5 c b a t) c b a t s
/-- MMA_BF16E4 (R152, R153). -/
def execMmaBf16e4 (c b a : BitVec 5) (t : BitVec 3) (s : State) : Out := issueMma mmaBf16e4Op (.mmaBf16e4 c b a t) c b a t s
/-- MMA_I8 (R152, R153). -/
def execMmaI8 (b a : BitVec 5) (t : BitVec 3) (s : State) : Out := issueMma mmaI8Op (.mmaI8 b a t) 0 b a t s
/-- MMA_TI8 (R152, R153). -/
def execMmaTi8 (b a : BitVec 5) (t : BitVec 3) (s : State) : Out := issueMma mmaTi8Op (.mmaTi8 b a t) 0 b a t s
/-- MMA_TBF16 (R152, R153). -/
def execMmaTbf16 (c b a : BitVec 5) (t : BitVec 3) (s : State) : Out := issueMma mmaTbf16Op (.mmaTbf16 c b a t) c b a t s

/-! ## The product (R106, R153) -/

/-- The product of two values: NaN of an operand, or of an infinity times zero (the flag says invalid or signalling). -/
def mulV (x y : FVal) : FVal × Bool :=
  match x, y with
  | .nan a, y => (.nan false, a || isSig y)
  | _, .nan b => (.nan false, b)
  | .inf a, .inf b => (.inf (a ^^ b), false)
  | .inf a, .fin b m _ => if m = 0 then (.nan false, true) else (.inf (a ^^ b), false)
  | .fin a m _, .inf b => if m = 0 then (.nan false, true) else (.inf (a ^^ b), false)
  | .fin a m e, .fin b n f => (.fin (a ^^ b) (m * n) (e + f), false)

/-- An exact sum of two values in mode RNE. -/
def addV (x y : FVal) : FVal × Bool :=
  match x, y with
  | .nan _, _ => (.nan false, false)
  | _, .nan _ => (.nan false, false)
  | .inf a, .inf b => if a = b then (.inf a, false) else (.nan false, true)
  | .inf a, .fin .. => (.inf a, false)
  | .fin .., .inf b => (.inf b, false)
  | .fin s1 m1 e1, .fin s2 m2 e2 => let (s, m, e) := addExact 0 s1 m1 e1 s2 m2 e2; (.fin s m e, false)

def isInfOf (s : Bool) : FVal → Bool
  | .inf t => s = t
  | _ => false

/-- The exact group sum of products, and whether NV is raised (R106). -/
def groupSum (ps : List (FVal × Bool)) : FVal × Bool :=
  let vs := ps.map Prod.fst
  let nv := (ps.any Prod.snd) || ((vs.any (isInfOf true)) && (vs.any (isInfOf false)))
  match vs with
  | [] => (.fin false 0 0, nv)
  | v :: l => (l.foldl (fun acc x => (addV acc x).1) v, nv)

/-- The value of an e8m0 scale (R92, R93). -/
def e8m0Val (x : Nat) : FVal := if x = 255 then .nan false else .fin false 1 ((x : Int) - 127)

/-- The bytes of a tile. -/
def Tile.bytes (t : Tile) : Array Nat := ((List.range 2048).map fun i => elem 8 i t.data).toArray

/-- The element at an offset of a byte array, of an element type of R148, as a value; the flag says an invalid ternary code. -/
def cellVal (ty : Nat) (b : Array Nat) (off : Nat) : FVal :=
  let b0 := b.getD off 0
  let h := b0 + 256 * b.getD (off + 1) 0
  match ty with
  | 2 => decodeF bf16 h
  | 3 => decodeF hf h
  | 4 => decodeF e4m3 b0
  | 5 => decodeF e5m2 b0
  | _ => let v := sx 8 b0; .fin (v < 0) v.natAbs 0

/-- A trit as a value. -/
def tritVal (x : Int) : FVal := .fin (x < 0) x.natAbs 0

/-- Where the elements of A lie: in a tile (R136) or in stored rows (R145). -/
def aVal (op : MmaOp) (pair : Bool) (d : Word) (b : Array Nat) (i k : Nat) : FVal :=
  let e := tileWidth op.aTy / 8
  let off :=
    if pair = false then 128 * i + e * k
    else if descTrans d then 16 * e * k + e * i else op.k * e * i + e * k
  cellVal op.aTy b off

/-- An element of B, and whether its ternary code is invalid (R136, R145, R100). -/
def bVal (op : MmaOp) (pair : Bool) (d : Word) (b : Array Nat) (k j : Nat) : FVal × Bool :=
  if op.bTy = 7 then
    if pair && decide (descPack d = 1) then
      let (ts, bad) := tritsT5 (b.getD (7 * k + j / 5) 0)
      (tritVal (ts.getD (j % 5) 0), bad)
    else
      let (t, bad) := tritT2 (b.getD (8 * k + j / 4) 0 / 4 ^ (j % 4))
      (tritVal t, bad)
  else
    let e := tileWidth op.bTy / 8
    let off :=
      if pair = false then 32 * e * k + e * j
      else if descTrans d then op.k * e * j + e * k else 32 * e * k + e * j
    (cellVal op.bTy b off, false)

/-- The scales of group g for column j, from f[c] and f[c + 1] (R152). -/
def scalesOf (op : MmaOp) (z : Word) (col : Nat) (g : Nat) : FVal × FVal :=
  let fa := z.toNat % 2 ^ 32
  let fb := z.toNat / 2 ^ 32
  if op.byteScale then (e8m0Val (fa / 256 ^ g % 256), e8m0Val (fb / 256 ^ g % 256))
  else if op.colScale then (decodeF f32 fa, if isNan (decodeF f32 fb) then decodeF f32 fb else (mulV (decodeF f32 fb) (e8m0Val col)).1)
  else (decodeF f32 fa, decodeF f32 fb)

/-- One accumulation into an f32 element (R106): the exact group sum, scaled, added with one rounding. -/
def accF (sA sB : FVal) (ps : List (FVal × Bool)) (acc : Nat) : Rounded :=
  let (s, nv) := groupSum ps
  let (x, nv1) := mulV s sA
  let (y, nv2) := mulV x sB
  let (r, fl) := addF f32 0 0 (decodeF f32 acc) y
  (r, fl ||| flagIf (nv || nv1 || nv2 || isSig sA || isSig sB) flNV)

/-- The integer of a value that is an exact integer. -/
def intOf : FVal → Int
  | .fin s m e => toUnits s m e 0
  | _ => 0

/-- Element C[i, j] after all groups (R153). -/
def mmaElem (op : MmaOp) (z : Word) (col : Nat) (av : Nat → FVal) (bv : Nat → FVal) (c : Nat) : Rounded :=
  (List.range (op.k / op.grp)).foldl (fun acc g =>
    let ks := List.range' (g * op.grp) op.grp
    if op.int then (wrapInt 32 ((acc.1 : Int) + (ks.map fun k => intOf (av k) * intOf (bv k)).sum), acc.2)
    else
      let (sA, sB) := scalesOf op z col g
      let (r, fl) := accF sA sB (ks.map fun k => mulV (av k) (bv k)) acc.1
      (r, acc.2 ||| fl)) (c, 0)

/-- The accumulator after an mma, with its flags (R153): rows M to 15 are unchanged. -/
def mmaTile (op : MmaOp) (c : Cmd) (pairA pairB : Bool) (ta tb tc : Tile) : BitVec 16384 × Flags :=
  let a := if pairA then (c.opA.map BitVec.toNat).toArray else ta.bytes
  let b := if pairB then (c.opB.map BitVec.toNat).toArray else tb.bytes
  let m := cfgRows c.cfg
  let av : Array FVal := ((List.range (m * op.k)).map fun n => aVal op pairA c.x a (n / op.k) (n % op.k)).toArray
  let bv : Array (FVal × Bool) := ((List.range (op.k * 32)).map fun n => bVal op pairB c.y b (n / 32) (n % 32)).toArray
  let cols := if pairB then op.k * 32 else 1024
  let old := (elems 32 512 tc.data).toArray
  let rs := (List.range 512).map fun n =>
    let i := n / 32
    let j := n % 32
    if i < m then
      mmaElem op c.z (b.getD (cols + j) 0) (fun k => av.getD (i * op.k + k) (.fin false 0 0))
        (fun k => (bv.getD (k * 32 + j) (.fin false 0 0, false)).1) (old.getD n 0)
    else (old.getD n 0, 0)
  let pk := flagIf (decide (op.bTy = 7) && bv.any Prod.snd) flPK
  (BitVec.ofNat 16384 (pack 32 (rs.map Prod.fst)), rs.foldl (fun fl r => fl ||| r.2) pk)

/-! ## Execution (R139, R141) -/

def State.setTile (s : State) (t : BitVec 3) (v : BitVec 16384) : State :=
  let k := s.hereCore
  s.setHere (k.setTile t { k.tile t with data := v })

/-- Elements of a tile's data replaced. -/
def setElems (w n : Nat) (v : BitVec 16384) (f : Nat → Option Nat) : BitVec 16384 :=
  BitVec.ofNat 16384 (pack w ((List.range n).map fun i => (f i).getD (elem w i v)))

/-- Whether a word of a run of a tile's bytes has an uncorrectable error (R135): word w of tile t is numbered 256 t + w. -/
def Core.tileBad (k : Core) (t : BitVec 3) (r : Nat × Nat) : Bool :=
  k.badTiles.any fun w => decide (256 * t.toNat + r.1 / 8 ≤ w) && decide (w < 256 * t.toNat + (r.1 + r.2 + 7) / 8)

/-- The words of a run wholly written have fresh check bits. -/
def Core.freshTile (k : Core) (t : BitVec 3) (r : Nat × Nat) : Core :=
  { k with badTiles := k.badTiles.filter fun w => ! (decide (2048 * t.toNat + r.1 ≤ 8 * w) && decide (8 * w + 8 ≤ 2048 * t.toNat + r.1 + r.2)) }

/-- A tile wholly rewritten, with fresh check bits. -/
def State.renewTile (s : State) (t : BitVec 3) (v : BitVec 16384) : State :=
  let u := s.setTile t v
  u.setHere (u.hereCore.freshTile t (0, 2048))

/-- The runs of tile bytes that an mma of m rows reads: the rows of the accumulator and of A, the elements of B with its column scales (R136). -/
def mmaReads (op : MmaOp) (m : Nat) (t : BitVec 3) (a b : BitVec 5) : List (BitVec 3 × Nat × Nat) :=
  let e (ty : Nat) : Nat := tileWidth ty / 8
  (t, 0, 128 * m) ::
    (if isPair a then [] else (List.range m).map fun i => (a.setWidth 3, 128 * i, op.k * e op.aTy)) ++
    (if isPair b then [] else [(b.setWidth 3, 0, if op.bTy = 7 then 8 * op.k else op.k * 32 * e op.bTy + (if op.colScale then 32 else 0))])

/-- An mma executed: an uncorrectable error in a word it reads traps (R142). -/
def runMma (op : MmaOp) (c : Cmd) (b a : BitVec 5) (t : BitVec 3) (s : State) : State :=
  let k := s.hereCore
  if (mmaReads op (cfgRows c.cfg) t a b).any fun r => k.tileBad r.1 r.2 then trapAt c.pc 0x1C3 0 s
  else
    let (v, fl) := mmaTile op c (isPair a) (isPair b) (k.tile (a.setWidth 3)) (k.tile (b.setWidth 3)) (k.tile t)
    (s.setTile t v).setFlags fl

/-- A read of runs of a tile's bytes by the engine (R142); a write of part of a word reads the word (log 64). -/
def readTile (c : Cmd) (t : BitVec 3) (rs : List (Nat × Nat)) (s : State) (f : Tile → State) : State :=
  if rs.any (s.hereCore.tileBad t) then trapAt c.pc 0x1C3 0 s else f (s.hereCore.tile t)

/-- The rows of a tile put into the scratchpad with their words full, a higher row's bytes last (R141, R150). -/
def storeRows (v : BitVec 16384) (base pitch : Nat) : List Nat → Core → Core
  | [], k => k
  | r :: l, k =>
    let bytes := (List.range 128).map fun i => BitVec.ofNat 8 (elem 8 (128 * r + i) v)
    storeRows v base pitch l ((k.writePad (base + r * pitch) bytes).fillWords true (wordsOf (base + r * pitch) 128))

/-- One matrix command executed, the context in focus being its own. -/
def runMatrix (c : Cmd) (s : State) : State :=
  match c.ins with
  | .tcfg _ t => s.renewTile t 0
  | .tzero t => s.renewTile t 0
  | .trel t =>
    let k := (s.renewTile t 0).hereCore
    s.setHere (k.setTile t { k.tile t with holder := none })
  | .tldrow _ _ t =>
    let r := c.x.toNat
    let s := s.setHere (s.hereCore.freshTile t (128 * r, 128))
    s.setTile t (setElems 1024 16 (s.hereCore.tile t).data fun i => if i = r then some c.vec.toNat else none)
  | .tldcol _ _ t =>
    let w := tileWidth (cfgType c.cfg)
    let n := 1024 / w
    readTile c t ((List.range 16).map fun r => (128 * r + c.x.toNat * w / 8, w / 8)) s fun x => s.setTile t (setElems w (16 * n) x.data fun i =>
      if i % n = c.x.toNat then some (elem w (i / n) c.vec) else none)
  | .tstrow _ v t => readTile c t [(128 * c.x.toNat, 128)] s fun x => s.setV v (BitVec.ofNat 1024 (elem 1024 c.x.toNat x.data))
  | .tstcol _ v t =>
    let w := tileWidth (cfgType c.cfg)
    readTile c t ((List.range 16).map fun r => (128 * r + c.x.toNat * w / 8, w / 8)) s fun x =>
      let n := 1024 / w
      s.setV v (packV w ((List.range 16).map fun r => elem w (r * n + c.x.toNat) x.data))
  | .tload _ _ t => s.renewTile t (BitVec.ofNat 16384 (leNat c.opA))
  | .tstore _ _ t =>
    readTile c t [(0, 2048)] s fun x => s.setHere (storeRows x.data c.x.toNat c.y.toNat (List.range 16) s.hereCore)
  | .mmaBf16 _ b a t => runMma mmaBf16Op c b a t s
  | .mmaHf _ b a t => runMma mmaHfOp c b a t s
  | .mmaE4e4 _ b a t => runMma mmaE4e4Op c b a t s
  | .mmaE4e5 _ b a t => runMma mmaE4e5Op c b a t s
  | .mmaE5e4 _ b a t => runMma mmaE5e4Op c b a t s
  | .mmaE5e5 _ b a t => runMma mmaE5e5Op c b a t s
  | .mmaBf16e4 _ b a t => runMma mmaBf16e4Op c b a t s
  | .mmaI8 b a t => runMma mmaI8Op c b a t s
  | .mmaTi8 b a t => runMma mmaTi8Op c b a t s
  | .mmaTbf16 _ b a t => runMma mmaTbf16Op c b a t s
  | _ => s

/-- MATRIX_COMMAND_EXECUTION (R139): the engine takes the oldest queued command. -/
def execMatrixCommandExecution (c : BitVec 12) (s : State) : Out :=
  match (s.core c).mq with
  | [] => notEnabled "MATRIX_COMMAND_EXECUTION"
  | k :: rest =>
    if (s.core c).stopped then notEnabled "MATRIX_COMMAND_EXECUTION"
    else .next (s.at c k.ctx fun t => (runMatrix k (t.setHere { t.hereCore with mq := rest })).wakeHere)

end Sys2Proof.Machine
end

