-- ==== Sys2Proof/Machine/Digest.lean ====
section
/-! DEFINITION. The message header as bytes with its CRC-32C (12_queues.md R279, R280), what a router checks of it (00_scope.md R2), the flits of a link (R285), and SHA-256, which a checkpoint's header carries (11_depot_and_residency.md R265). -/

namespace Sys2Proof.Machine

/-! ## CRC-32C (R280) -/

/-- Steps of the reflected register. -/
def crcBits : Nat → BitVec 32 → BitVec 32
  | 0, c => c
  | n + 1, c => crcBits n (if c.getLsbD 0 then (c >>> 1) ^^^ 0x82F63B78 else c >>> 1)

def crc32c (l : List Byte) : BitVec 32 := ~~~(l.foldl (fun c b => crcBits 8 (c ^^^ b.setWidth 32)) (BitVec.allOnes 32))

/-! ## The header (R279) -/

def bit (b : Bool) : BitVec 1 := if b then 1 else 0

def Header.word1 (h : Header) : Word := h.key.sender ++ h.key.seq

def Header.word2 (h : Header) : Word :=
  h.dest ++ h.cls ++ h.len ++ h.state ++ bit h.join ++ bit h.ze ++ bit h.anti ++ bit h.close ++ bit h.label ++ bit h.deleg ++ bit h.colour ++
    bit h.irrev ++ h.rsv.extractLsb' 10 11

/-- Bits [63:32] of word 3. -/
def Header.top3 (h : Header) : BitVec 32 := h.tenant ++ h.prio ++ h.scope ++ h.dmod ++ h.rsv.extractLsb' 0 10

/-- The 28 bytes that the CRC covers. -/
def Header.covered (h : Header) : List Byte :=
  leBytes h.key.vrt.toNat 8 ++ leBytes h.word1.toNat 8 ++ leBytes h.word2.toNat 8 ++ leBytes h.top3.toNat 4

/-- The CRC field of a header on its way. -/
def Header.crc (h : Header) : BitVec 32 := crc32c h.covered ^^^ h.crcErr

/-- The 32 bytes of a header with its CRC. -/
def Header.bytes (h : Header) : List Byte := h.covered.take 24 ++ leBytes h.crc.toNat 4 ++ h.covered.drop 24

/-- Whether a router discards a message for its head flit (R2, R280): its CRC does not check, a reserved field is not zero, or its SCOPE code is reserved. -/
def Header.fails (h : Header) : Bool := h.crcErr ≠ 0 || h.rsv ≠ 0 || ! (h.scope = 6 || h.scope = 9)

/-! ## Link flits (R279, R285) -/

/-- The flits of 256 bytes of a message: its head holds the header and 224 bytes. -/
def flitCount (n : Nat) : Nat := 1 + (n - 224 + 255) / 256

/-- The trailer of a link flit without its CRC: 12 of its 16 bytes, the sequence in bits [11:0], the channel in [13:12] (log 66). -/
def trailer (seq : BitVec 12) (ch : BitVec 2) : List Byte := leBytes (seq.toNat + ch.toNat * 4096) 12

/-- A link flit with its CRC. -/
def Flit.of (data : List Byte) (seq : BitVec 12) (ch : BitVec 2) (colour : Bool) (carries : Option Packet) (round : Option FabricWord) : Flit :=
  ⟨data, seq, ch, crc32c (data ++ trailer seq ch), colour, carries, round⟩

/-- Whether a flit's CRC checks. -/
def Flit.crcOk (f : Flit) : Bool := f.crc = crc32c (f.data ++ trailer f.seq f.chan)

/-- 256 bytes of which the manual says nothing: the payload of a flit that carries no message (log 66). -/
def freeData (tag : Nat) : List Byte := (List.range 256).map (Config.freeByte tag)

/-- The payloads of a packet's flits: a message's header and payload in order, the last flit filled up with bytes of no meaning. -/
def Packet.pieces (p : Packet) (tag : Nat) : List (List Byte) :=
  match p with
  | .msg _ m =>
    (List.range (flitCount m.payload.length)).map fun i =>
      let l := ((m.hdr.bytes ++ m.payload).drop (256 * i)).take 256
      l ++ (freeData tag).drop l.length
  | _ => [freeData tag]

/-- The flits of a packet from a sequence on; the last one completes it. -/
def Packet.flits (p : Packet) (seq : BitVec 12) (ch : BitVec 2) (colour : Bool) (tag : Nat) : List Flit :=
  let l := p.pieces tag
  l.zipIdx.map fun x => Flit.of x.1 (seq + BitVec.ofNat 12 x.2) ch colour (if x.2 + 1 = l.length then some p else none) none

/-! ## SHA-256 (R55, R265) -/

/-- The largest r below 2^n (from a start) whose k-th power does not exceed x: a root's bits from the highest on. -/
def rootFrom (k x : Nat) : Nat → Nat → Nat
  | 0, r => r
  | n + 1, r => rootFrom k x n (if (r + 2 ^ n) ^ k ≤ x then r + 2 ^ n else r)

/-- The first 32 bits of the fractional part of the k-th root of p. -/
def rootBits (k p : Nat) : BitVec 32 := BitVec.ofNat 32 (rootFrom k (p * 2 ^ (32 * k)) 40 0)

/-- The primes below 312, of which there are 64. -/
def smallPrimes : List Nat := (List.range' 2 310).filter fun p => (List.range' 2 16).all fun d => decide (p ≤ d) || p % d ≠ 0

/-- The round constants come from the cube roots of the primes, the first working words from the square roots of the first eight. -/
def shaK : List (BitVec 32) := smallPrimes.map (rootBits 3)

def shaInit : List (BitVec 32) := (smallPrimes.take 8).map (rootBits 2)

/-- The parity of a word turned right by some amounts. -/
def turned (l : List Nat) (x : BitVec 32) : BitVec 32 := l.foldl (fun m n => m ^^^ x.rotateRight n) 0

/-- The schedule of a block, from the word that is 16 behind on: each further word from those 2, 7, 15 and 16 behind it. -/
def shaNext (w : List (BitVec 32)) : BitVec 32 :=
  let back (n : Nat) : BitVec 32 := w.getD (n - 1) 0
  back 16 + back 7 + (turned [7, 18] (back 15) ^^^ back 15 >>> 3) + (turned [17, 19] (back 2) ^^^ back 2 >>> 10)

/-- The words of a block, newest first, with n more. -/
def shaWords : Nat → List (BitVec 32) → List (BitVec 32)
  | 0, w => w
  | n + 1, w => shaWords n (shaNext w :: w)

/-- One round on the working words, by their places: what comes in first pushes the others on, the fifth takes the first sum too. -/
def shaRound (h : List (BitVec 32)) (kw : BitVec 32) : List (BitVec 32) :=
  let at_ (n : Nat) : BitVec 32 := h.getD n 0
  let choice := at_ 6 ^^^ (at_ 4 &&& (at_ 5 ^^^ at_ 6))
  let most := (at_ 0 &&& at_ 1) ||| (at_ 2 &&& (at_ 0 ||| at_ 1))
  let sum := at_ 7 + kw + choice + turned [6, 11, 25] (at_ 4)
  (sum + most + turned [2, 13, 22] (at_ 0)) :: h.take 3 ++ (at_ 3 + sum) :: (h.drop 4).take 3

/-- The number that bytes are, most significant first. -/
def beNat (l : List Byte) : Nat := l.foldl (fun n b => 256 * n + b.toNat) 0

/-- A block of 64 bytes taken in. -/
def shaBlock (ks h : List (BitVec 32)) (l : List Byte) : List (BitVec 32) :=
  let first := (List.range 16).map fun i => BitVec.ofNat 32 (beNat ((l.drop (4 * i)).take 4))
  let all := (shaWords 48 first.reverse).reverse
  (h.zip ((ks.zip all).foldl (fun h x => shaRound h (x.1 + x.2)) h)).map fun x => x.1 + x.2

/-- n blocks taken in. -/
def shaBlocks (ks : List (BitVec 32)) : Nat → List (BitVec 32) → List Byte → List (BitVec 32)
  | 0, h, _ => h
  | n + 1, h, l => shaBlocks ks n (shaBlock ks h (l.take 64)) (l.drop 64)

/-- SHA-256 of a run of bytes. -/
def sha256 (l : List Byte) : List Byte :=
  let zeros := (119 - l.length % 64) % 64
  let m := l ++ [0x80] ++ List.replicate zeros 0 ++ (leBytes (8 * l.length) 8).reverse
  (shaBlocks shaK (m.length / 64) shaInit m).flatMap fun w => (leBytes w.toNat 4).reverse

/-! ## A slot of a checkpoint identifier (R262, R264, R265) -/

/-- An entry of the page list. -/
def listEntry (p : Nat × Bool × List Host.Cell) : List Byte := leBytes (p.1 * 65536 + (if p.2.1 then 1 else 0)) 8

/-- A page's content as a slot stores it: a NARROW page's bf16 values are the upper halves of its f32 values. -/
def storedBytes (p : Nat × Bool × List Host.Cell) : List Byte :=
  let m : Mem := ⟨p.2.2, []⟩
  if p.2.1 then (List.range 16384).flatMap fun i => m.bytes (4 * i + 2) 2 else m.bytes 0 65536

/-- The header of a slot: its first four words, then the digest of them, the page list and the stored contents. -/
def slotHeader (seq t : Word) (pages : List (Nat × Bool × List Host.Cell)) : List Byte :=
  let w := leBytes 0x534B000000000001 8 ++ leBytes seq.toNat 8 ++ leBytes t.toNat 8 ++ leBytes pages.length 8
  w ++ sha256 (w ++ pages.flatMap listEntry ++ pages.flatMap storedBytes)

def CkSlot.seq (x : CkSlot) : Word := BitVec.ofNat 64 (leNat ((x.header.drop 8).take 8))
def CkSlot.t (x : CkSlot) : Word := BitVec.ofNat 64 (leNat ((x.header.drop 16).take 8))

/-- Whether a slot's header is present and its digest checks. -/
def CkSlot.valid (x : CkSlot) : Bool := x.header = slotHeader x.seq x.t x.pages

def State.ckSlots (s : State) (id : Nat) : CkSlot × CkSlot := look (CkSlot.zero, CkSlot.zero) id s.ckpts

/-- The valid slot of an identifier: of two, the one with the higher sequence number. -/
def State.validSlot (s : State) (id : Nat) : Option CkSlot :=
  let x := s.ckSlots id
  if x.1.valid ∧ (! x.2.valid ∨ x.2.seq.toNat < x.1.seq.toNat) then some x.1 else if x.2.valid then some x.2 else none

end Sys2Proof.Machine
end

