-- ==== Sys2Proof/Machine/Wire.lean ====
section
/-! DEFINITION. What channel, memory and group instructions share with the steps that deliver: the itinerary tables as an endpoint reads them (14_code_and_protocol_tables.md R310 to R315), locations (R16, R156), stations (R371), the VRT of what is sent (R28), staging and deferral (R273, R277), and the leaving of an item (R163, R224). -/

namespace Sys2Proof.Machine

/-! ## The protocol tables (R310, R312 to R315) -/

/-- Kinds exchanged on the dual side (R312): send and recv, select and offer, delegate-out and delegate-in. -/
def dualKind (k : BitVec 3) : BitVec 3 := if k.toNat < 6 then k ^^^ 1 else k

/-- A state as one side reads it. -/
structure View where
  kind : BitVec 3
  cls : BitVec 6
  min : Nat
  max : Nat
  next : List (BitVec 6)
  close : BitVec 6
  bound : BitVec 12
  looped : Bool
  deriving DecidableEq, Repr

def Core.dirAt (k : Core) (i : BitVec 7) : DirEntry := look DirEntry.zero i.toNat k.dir

/-- The state of an itinerary on a core (R313, R314); a DUAL entry reads kinds exchanged. -/
def Core.view (k : Core) (i : BitVec 7) (st : BitVec 6) : View :=
  let d := k.dirAt i
  let x := look StateEntry.zero (d.base.toNat + st.toNat) k.itab
  let sh := look Shape.zero x.shape.toNat k.shapes
  let n := if x.kind.toNat < 6 then x.nlab.toNat + 1 else 0
  { kind := if d.dual then dualKind x.kind else x.kind, cls := x.cls, min := sh.min.toNat, max := sh.max.toNat,
    next := [x.next0, x.next1, x.next2, x.next3].take n, close := x.close, bound := x.bound, looped := x.looped }

/-- Whether an advance into a state is refused by its count bound (R310). -/
def Core.bounded (k : Core) (i : BitVec 7) (t : BitVec 6) (loop : BitVec 16) : Bool :=
  let b := (k.view i t).bound
  b ≠ 0 && loop = b.setWidth 16

/-- LOOP after an advance (R310). -/
def Core.nextLoop (k : Core) (i : BitVec 7) (st t : BitVec 6) (loop : BitVec 16) : BitVec 16 :=
  let l := if (k.view i st).bound ≠ 0 then loop + 1 else loop
  if (k.view i t).looped then l else 0

/-- An endpoint advanced to a state (R162). -/
def Core.advanced (k : Core) (r : EpRec) (t : BitVec 6) : EpRec :=
  { r with state := t, loop := k.nextLoop r.itin r.state t r.loop }

/-! ## Locations (R156) -/

/-- PEER bits [36:13] of an actor's endpoint. -/
def Loc.peer (l : Loc) (e : BitVec 4) : BitVec 24 := l.core.extractLsb' 0 2 ++ l.core.extractLsb' 2 10 ++ l.slot ++ e ++ 0#4

def peerLoc (p : BitVec 24) : Loc := ⟨p.extractLsb' 12 10 ++ p.extractLsb' 22 2, p.extractLsb' 8 4⟩
def peerEp (p : BitVec 24) : BitVec 4 := p.extractLsb' 4 4

/-- Where an actor is resident. -/
def State.locOf (s : State) (a : AId) : Option Loc :=
  s.cores.findSome? fun c => c.2.actors.findSome? fun x => if x.2.aid = a then some ⟨BitVec.ofNat 12 c.1, BitVec.ofNat 4 x.1⟩ else none

/-- The save area of an evicted actor at its home base. -/
def State.savedOf (s : State) (a : AId) : Option Saved := (s.base (homeOf a)).saved.find? fun x => x.actor.aid = a

/-- A field of an endpoint record that the device changes is changed in what a backtrack log holds of it as well: no restore reverses it (R159). -/
def carried [DecidableEq α] (old now saved : α) : α := if old = now then saved else now

def EpRec.carried (old now saved : EpRec) : EpRec :=
  let c {α : Type} [DecidableEq α] (f : EpRec → α) : α := Machine.carried (f old) (f now) (f saved)
  { status := c EpRec.status, pkind := c EpRec.pkind, look := c EpRec.look, itin := c EpRec.itin, state := c EpRec.state, peer := c EpRec.peer,
    pmod := c EpRec.pmod, lastvrt := c EpRec.lastvrt, loop := c EpRec.loop, sent := c EpRec.sent, rcvd := c EpRec.rcvd, ccause := c EpRec.ccause,
    cpoint := c EpRec.cpoint, cbypeer := c EpRec.cbypeer, bufbase := c EpRec.bufbase, slot := c EpRec.slot }

def EpAux.carried (old now saved : EpAux) : EpAux :=
  let c {α : Type} [DecidableEq α] (f : EpAux → α) : α := Machine.carried (f old) (f now) (f saved)
  { run := c EpAux.run, closeLeft := c EpAux.closeLeft, cls := c EpAux.cls, old := c EpAux.old, filter := c EpAux.filter, peerId := c EpAux.peerId,
    forwardTo := c EpAux.forwardTo, holdDirect := c EpAux.holdDirect, spawning := c EpAux.spawning, count := c EpAux.count,
    broken := c EpAux.broken, waves := c EpAux.waves, asked := c EpAux.asked }

/-- An actor that the device has changed: what its log holds of its endpoints follows (R159). -/
def Actor.carry (old now : Actor) : Actor :=
  { now with log := now.log.map fun p => match p.entry with
      | .endpoint e r x => { p with entry := .endpoint e ((old.eps[e.toNat]).carried now.eps[e.toNat] r) ((old.aux[e.toNat]).carried now.aux[e.toNat] x) }
      | _ => p }

/-- The actor in a slot of the core in focus as the device has changed it. -/
def State.setDevice (s : State) (k : BitVec 4) (a : Actor) : State := s.setActorAt k ((s.actorAt k).carry a)

/-- A save area with its actor as the device has changed it, and what its log has spilled (R365, R400). -/
def State.setSaved (s : State) (x : Saved) : State :=
  let a := match s.savedOf x.actor.aid with
    | some y => y.actor.carry x.actor
    | none => x.actor
  let b := (s.base (homeOf a.aid)).spilledBy a
  s.setBase (homeOf a.aid) { b with saved := b.saved.map fun y => if y.actor.aid = a.aid then { x with actor := a } else y }

/-- The slot of an actor on the core in focus. -/
def State.slotOf (s : State) (a : AId) : Option (BitVec 4) :=
  s.hereCore.actors.findSome? fun x => if x.2.aid = a then some (BitVec.ofNat 4 x.1) else none

/-- The context that runs an actor of the core in focus (R17). -/
def State.ctxOf (s : State) (k : BitVec 4) : Option (BitVec 2) :=
  ([0, 1, 2, 3] : List (BitVec 2)).find? fun x => (s.ctxAt x).phase ≠ .free && (s.ctxAt x).slot = k

/-- The endpoint e of an actor. -/
def Actor.ep (a : Actor) (e : BitVec 4) : EpRec := a.eps[e.toNat]
def Actor.setEp (a : Actor) (e : BitVec 4) (r : EpRec) : Actor := { a with eps := a.eps.set e.toNat r }
def Actor.auxOf (a : Actor) (e : BitVec 4) : EpAux := a.aux[e.toNat]
def Actor.setAux (a : Actor) (e : BitVec 4) (x : EpAux) : Actor := { a with aux := a.aux.set e.toNat x }

/-- Where a message on an endpoint goes. -/
def Actor.dest (a : Actor) (e : BitVec 4) : Dest :=
  let r := a.ep e
  match r.pkind with
  | .actor => if r.status = .connecting ∧ (a.auxOf e).spawning then .child a.aid e else .ep (peerLoc r.peer) (peerEp r.peer)
  | .host => .host (r.peer.extractLsb' 4 17)
  | .depot => .depot (r.peer.setWidth 18)
  | .remote => .link r.pmod (peerLoc r.peer) (peerEp r.peer)
  | .memory => .home a.aid
  | .collective => .home a.aid

/-! ## Stations (R371, R372) -/

def baseStation (b : Nat) : Nat := 4096 + b
def depotStation : Nat := 4104
def hostStation (port : Nat) : Nat := 4105 + port
def linkStation (l : Nat) : Nat := 4107 + l

def State.station (s : State) (n : Nat) : Station := look Station.reset n s.stations
def State.setStation (s : State) (n : Nat) (x : Station) : State := { s with stations := put n x s.stations }

/-- A station that takes the cut of a colour (R371). -/
def Station.cut (x : Station) (c : Bool) : Station :=
  if c then { x with colour := true, sent1 := 0, rcvd1 := 0, way := BitVec.allOnes 64 }
  else { x with colour := false, sent0 := 0, rcvd0 := 0, way := BitVec.allOnes 64 }

def Station.sent (x : Station) (v : Word) : Station :=
  let w := if v.ult x.way then v else x.way
  if x.colour then { x with sent1 := x.sent1 + 1, way := w } else { x with sent0 := x.sent0 + 1, way := w }

def Station.received (x : Station) (c : Bool) : Station :=
  if c then { x with rcvd1 := x.rcvd1 + 1 } else { x with rcvd0 := x.rcvd0 + 1 }

/-- A station that takes the cut of a colour, and the round that knows it: the one in progress, or the next one, which another module of the domain has begun (R371, R374). -/
def State.cutAt (s : State) (st : Nat) (c : Bool) : State :=
  let t := s.setStation st ((s.station st).cut c)
  match s.round with
  | some r => if (r.num % 2 = 1) = c then { t with round := some { r with cut := insertNat st r.cut } } else { t with early := insertNat st s.early }
  | none => { t with early := insertNat st s.early }

/-- A message of a colour counted as received by a station. The colour of a message that is ahead of the station's cut makes it take the cut first (R371): between two rounds, and once a round has its result, every colour but the station's own is the next round's (log 83). -/
def State.countIn (s : State) (st : Nat) (c : Bool) : State :=
  let early : Bool := c ≠ (s.station st).colour && ! s.early.contains st && match s.round with
    | some r => if r.cut.contains st then r.result.isSome else (r.num % 2 = 1) = c
    | none => true
  let t := if early then s.cutAt st c else s
  t.setStation st ((t.station st).received c)

/-- A packet that leaves a station at a VRT, counted in the station's colour. -/
def State.post (s : State) (st : Nat) (v : Word) (p : Packet) : State :=
  let x := (s.station st).sent v
  { s.setStation st x with flight := s.flight ++ [⟨x.colour, v, p⟩] }

/-- A message that leaves a station (R279 COLOUR). -/
def State.postMsg (s : State) (st : Nat) (d : Dest) (m : Msg) : State :=
  s.post st m.hdr.key.vrt (.msg d { m with hdr := { m.hdr with colour := (s.station st).colour } })

/-- The packet at a place of `flight`. -/
def State.packet (s : State) (n : Nat) : Option Packet := (s.flight[n]?).map fun f => f.pkt

/-- The packet at a place taken by a station, which counts it. -/
def State.take (s : State) (n st : Nat) : State :=
  match s.flight[n]? with
  | some f => { s.countIn st f.colour with flight := s.flight.eraseIdx n }
  | none => s

/-! ## The VRT of what is sent (R28, R164, R399) -/

/-- A sum that stops at 2^64 − 1. -/
def satAdd (x y : Word) : Word := if x.toNat + y.toNat < 2 ^ 64 then x + y else BitVec.allOnes 64

def maxWord (x y : Word) : Word := if x.ult y then y else x

/-- The VRT of a send on an endpoint with that LASTVRT: how it is fixed and its value at issue, or the trap with its detail (R28, R164). -/
def State.sendVrt (s : State) (last : Word) : Except (BitVec 9 × Word) (VrtRule × Word) :=
  let base := if s.actor.disc = .untimed then s.hereCore.vmile else s.ctx.vnow
  let v := base + s.ctx.vout
  if s.ctx.vout = 0 then .error (0x140, v)
  else if base.toNat + s.ctx.vout.toNat ≥ 2 ^ 64 then .error (0x141, v)
  else if s.actor.disc = .untimed then .ok (.atRelease s.ctx.vout, 0)
  else if v.ult last then .error (0x143, v)
  else .ok (.fixed, v)

/-- The VRT of the close notice of a close instruction (R399). -/
def State.closeVrt (s : State) (last : Word) : VrtRule × Word :=
  let v := if s.ctx.vout = 0 then 1 else s.ctx.vout
  if s.actor.disc = .untimed then (.atRelease v, 0) else (.fixed, maxWord (satAdd s.ctx.vnow v) last)

/-- The VRT with which an item leaves a place whose Milestone is m, from an endpoint with that LASTVRT (R28). -/
def VrtRule.value (r : VrtRule) (fixedV m last : Word) : Word :=
  match r with
  | .fixed => fixedV
  | .atRelease v => maxWord (satAdd m v) last

/-- The triggering key of the running activation (R18). -/
def Ctx.key (x : Ctx) : Key := match x.trigger with | some t => t.held.msg.hdr.key | none => Key.zero

/-- Keys in order (R26): VRT, sender, then sequence in serial order. -/
def seqBefore (a b : BitVec 40) : Bool := (b - a) ≠ 0 && (b - a).toNat < 2 ^ 39

def Key.before (a b : Key) : Bool :=
  a.vrt.ult b.vrt || (a.vrt = b.vrt && (a.sender.ult b.sender || (a.sender = b.sender && seqBefore a.seq b.seq)))

/-- An actor with its next sequence taken (R26). -/
def Actor.bump (a : Actor) : Actor := { a with seq := a.seq + 1 }

/-! ## Staging and deferral (R273, R277) -/

def MemOp.bytes : MemOp → Nat
  | .write d => d.length
  | _ => 0

/-- The units of 64 bytes that an item's payload takes. -/
def Item.units : Item → Nat
  | .msg _ m _ => (m.payload.length + 63) / 64
  | .close _ m _ => (m.payload.length + 63) / 64
  | .mem r _ => (r.op.bytes + 63) / 64
  | .reinject m => (m.payload.length + 63) / 64
  | _ => 0

def itemUnits (l : List Item) : Nat := (l.map Item.units).sum

/-- What an untimed or conservative activation has staged: its staging queue, and what a commit has left behind a fence, which holds its place (R235, R275). -/
def State.staged (s : State) : List Item :=
  ((s.hereCore.fenced.filter fun x => x.slot = s.ctx.slot).map fun x => x.item) ++ s.ctx.staging

/-- An item put behind the others that the running activation has queued: in the staging queue of an untimed or conservative one, in the deferral queue of a timed one. -/
def State.enqueue (s : State) (it : Item) : State :=
  if s.actor.disc = .timed then s.setHere { s.hereCore with deferral := s.hereCore.deferral ++ [⟨s.ctx.slot, s.ctx.key, it⟩] }
  else s.setCtx { s.ctx with staging := s.ctx.staging ++ [it] }

/-- An item queued, within the limits of the staging queue or of the deferral queue (R273, R277). -/
def State.queue (s : State) (it : Item) (k : State → Out) : Out :=
  if s.actor.disc = .timed then
    let d := s.hereCore.deferral
    if d.length + 1 > 256 ∨ itemUnits (d.map fun x => x.item) + it.units > 512 then
      if d.all fun x => x.slot = s.ctx.slot && x.key = s.ctx.key then raiseOpen 0x1B1 s else .next (s.stall .deferral)
    else k (s.enqueue it)
  else if s.staged.length + 1 > 64 ∨ itemUnits s.staged + it.units > 256 then raiseOpen 0x1B0 s
  else k (s.enqueue it)

/-! ## Receive-buffer runs (R205) -/

/-- The runs an actor has allocated, and the slots of messages that its activation still reads, whose runs may be free already (R170, R176). -/
def Actor.runs (a : Actor) : List Run :=
  (a.aux.toList.filterMap fun x => x.run) ++ a.divertRun.toList ++
    (a.box.filter fun h => h.consumed && h.place = .run).map fun h => ⟨h.addr.toNat, h.size⟩

def Actor.isMailbox (a : Actor) (line : Nat) : Bool :=
  match a.zoneOf line with
  | some z => z.kind = .mailbox
  | none => false

/-- The lowest address of a free run of n bytes in the mailbox zones. -/
def Actor.alloc (a : Actor) (n : Nat) : Option Nat :=
  if n = 0 then some 0
  else
    let starts := (a.zones.toList.filterMap fun z => if z.valid && z.kind = .mailbox then some (64 * z.base.toNat) else none)
      ++ (a.runs.map fun r => r.base + r.size)
    let fits := starts.filter fun b =>
      linesAll a.isMailbox b n && a.runs.all fun r => decide (b + n ≤ r.base) || decide (r.base + r.size ≤ b)
    fits.foldl (fun m b => match m with | none => some b | some x => some (min x b)) none

/-- The run of an endpoint freed. -/
def Actor.freeRun (a : Actor) (e : BitVec 4) : Actor := a.setAux e { a.auxOf e with run := none }

/-- A new binding's buffer: LOOK, SLOT and the run (R173). -/
def Actor.bind (a : Actor) (e : BitVec 4) (look : BitVec 8) (slot : BitVec 13) : Option Actor :=
  match a.alloc (look.toNat * slot.toNat) with
  | none => none
  | some b =>
    let r := a.ep e
    let x := a.auxOf e
    some ((a.setEp e { r with look := look, slot := slot, bufbase := BitVec.ofNat 18 b, state := 0, loop := 0, sent := 0, rcvd := 0 }).setAux e
      { x with run := if look.toNat * slot.toNat = 0 then none else some ⟨b, look.toNat * slot.toNat⟩, closeLeft := false })

/-! ## e15 slots (R225, R329) -/

def MsgKind.isReply : MsgKind → Bool
  | .reply _ _ => true
  | _ => false

/-- Whether a message stands under its channel's itinerary. -/
def MsgKind.isOwn : MsgKind → Bool
  | .plain => true
  | .delegation _ _ => true
  | _ => false

/-- The e15 slots in use: requests until their replies are consumed, and what else stands in the e15 buffer. -/
def Actor.e15Count (a : Actor) : Nat := a.e15used.length + (a.box.filter fun h => h.place = .e15 && ! h.msg.kind.isReply).length

/-- The lowest free slot of a run, by the addresses of the messages that stand in it (R270). -/
def freeSlot (box : List Held) (base size n : Nat) : Option Nat :=
  (List.range n).find? fun q => box.all fun h => h.place = .waiting || h.place = .hist || h.addr.toNat ≠ base + q * size

/-- A free slot for a message outside the actor's own itineraries (R174, R176, R329, R348): of the diversion buffer for a diversion, of the e15 buffer for the rest. Its address, its size and its place. -/
def Actor.outerSlot (a : Actor) (m : Msg) : Option (BitVec 18 × Nat × Place) :=
  if m.hdr.cls = 63 then
    a.divertRun.bind fun r => (freeSlot a.box r.base 4096 8).map fun q => (BitVec.ofNat 18 (r.base + q * 4096), 4096, .divert)
  else if a.e15Count < 32 then
    (freeSlot a.box (a.ep 15).bufbase.toNat 256 32).map fun q => (BitVec.ofNat 18 ((a.ep 15).bufbase.toNat + q * 256), 256, .e15)
  else none

/-- The messages that wait for such a slot placed, in arrival order, while one is free. -/
def Actor.placeWaiting (a : Actor) : List Held → List Held → List Held
  | done, [] => done
  | done, h :: rest =>
    match (if h.place = .waiting then { a with box := done ++ h :: rest }.outerSlot h.msg else none) with
    | some (addr, size, place) => a.placeWaiting (done ++ [{ h with place := place, addr := addr, size := size }]) rest
    | none => a.placeWaiting (done ++ [h]) rest

/-- Whether a message waits at its actor's home base while it finds no slot: notices and diversions (R329, R348). -/
def MsgKind.waitsHome : MsgKind → Bool
  | .notice => true
  | .diversion _ _ _ _ => true
  | _ => false

/-- A message outside the actor's own itineraries as it is held in a slot. -/
def heldAt (e : BitVec 4) (m : Msg) (x : BitVec 18 × Nat × Place) (now : Nat) : Held :=
  ⟨m, e, x.1, x.2.1, x.2.2, now, now, false, false, false, false⟩

/-- The messages that wait at a home base for an actor put into the slots that are free (R329, R348): the actor, and what still waits. -/
def Actor.fetchHome (now : Nat) : List Waiting → Actor → Actor × List Waiting
  | [], a => (a, [])
  | w :: l, a =>
    match (if w.who = a.aid then a.outerSlot w.msg else none) with
    | some x => Actor.fetchHome now l { a with box := a.box ++ [heldAt w.ep w.msg x now] }
    | none => let p := Actor.fetchHome now l a; (p.1, w :: p.2)

/-- A run of words of a core's scratchpad empty. -/
def Core.emptyWords (k : Core) (lo hi : Nat) : Core :=
  { k with full := k.full.filter fun w => decide (w < lo) || decide (hi ≤ w), fullFog := cutFog lo hi k.fullFog }

/-- The bytes of a message written at its slot, whose full bits are clear (R205). -/
def Core.landed (k : Core) (h : Held) : Core :=
  (k.writePad h.addr.toNat h.msg.payload).emptyWords (h.addr.toNat / 8) ((h.addr.toNat + h.size) / 8)

/-- A key below what a timed actor has run (R367): the latest ended activation, or the one in progress (R34). -/
def State.straggles (s : State) (k : BitVec 4) (key : Key) : Bool :=
  let a := s.actorAt k
  a.disc = .timed && ((match a.ended.getLast? with | some x => key.before x.key | none => false) ||
    (match s.ctxOf k with | some x => key.before (s.ctxAt x).key | none => false))

/-- A rollback called for a straggler. -/
def State.call (s : State) (k : BitVec 4) (key : Key) (orEqual : Bool) : State :=
  s.setHere { s.hereCore with called := s.hereCore.called ++ [(k, key, orEqual)] }

/-- A history record written for a consumed message of a timed actor, with its payload in the record's units (R365, R367). -/
def State.logHeld (s : State) (k : BitVec 4) (r : LogRec) (payload : List Byte) : Option (State × Nat) :=
  match (s.actorAt k).record r (s.spillRoom (s.actorAt k).aid) with
  | some (a, base) =>
    let t := s.setLogged k a
    let inLog := match a.log with
      | p :: _ => ! p.spilled
      | [] => false
    some (if inLog then t.setHere (t.hereCore.writePad (base + 64) payload) else t, base + 64)
  | none => none

/-- Whether two held messages are the same message of the same buffer. -/
def Held.same (x y : Held) : Bool := x.msg.hdr.key = y.msg.hdr.key && x.ep = y.ep && x.msg.kind = y.msg.kind && x.addr = y.addr

/-- Whether the actor can read a message's payload (R367): that of a message in a spilled history record is fetched back first, but for one that its log zones have no place for (log 76). -/
def Actor.fetched (a : Actor) (h : Held) : Bool :=
  h.place ≠ .hist || a.log.all fun p => match p.entry with
    | .returned y => ! h.same y || ! p.spilled || (a.roomFor p.entry).isNone
    | _ => true

/-- Messages whose history records have spilled fetched back into the log zone (R367), as far as there is room. -/
def State.fetchBack (s : State) (k : BitVec 4) : State :=
  let far := (s.actorAt k).log.filterMap fun p => match p.entry with
    | .returned h => if p.spilled then some (p, h) else none
    | _ => none
  far.foldl (fun t x =>
    match t.logHeld k (.returned x.2) x.2.msg.payload with
    | none => t
    | some (u, addr) =>
      let a := u.actorAt k
      match a.log with
      | p :: l =>
        if p.spilled then t
        else
          let h' := { x.2 with addr := BitVec.ofNat 18 addr }
          u.setLogged k { a with log := { p with entry := .returned h' } :: l.filter (· ≠ x.1),
                                 box := a.box.map fun y => if y.same x.2 then { y with addr := h'.addr } else y }
      | [] => t) s

/-- What an actor takes in when slots of it are free: its messages that wait for one, then those that wait at its home base `b`; the actor, those messages, and what still waits at the base (R329, R348). -/
def Actor.takeIn (a : Actor) (b : Base) (now : Nat) : Actor × List Held × List Waiting :=
  let box := a.placeWaiting [] a.box
  let p := Actor.fetchHome now b.waiting { a with box := box }
  (p.1, ((a.box.zip box).filterMap fun x => if x.1.place = .waiting ∧ x.2.place ≠ .waiting then some x.2 else none) ++ p.1.box.drop box.length, p.2)

/-- Records of returned messages that had spilled fetched back (R367), and waiting messages of the actor in a slot of the core in focus placed and written; until then they are held elsewhere for it (R329, R348), and none is a straggler (log 75). -/
def State.settle (s : State) (k : BitVec 4) : State :=
  let s := s.fetchBack k
  let a := s.actorAt k
  let b := s.base (homeOf a.aid)
  let p := a.takeIn b s.time
  let t := (s.setActorAt k p.1).setBase (homeOf a.aid) { b with waiting := p.2.2 }
  p.2.1.foldl (fun t h => if t.straggles k h.msg.hdr.key then t.call k h.msg.hdr.key false else t) (t.setHere (p.2.1.foldl Core.landed t.hereCore))

/-- A message outside every buffer of the actor's own itineraries put into its box: it waits for an e15 slot or a diversion slot. -/
def Actor.await (a : Actor) (e : BitVec 4) (m : Msg) (now : Nat) : Actor :=
  { a with box := a.box ++ [⟨m, e, 0, 0, .waiting, now, now, false, false, false, false⟩] }

/-- A message written at its slot of a save area (R205, R259). -/
def Saved.landed (x : Saved) (h : Held) : Saved :=
  { x with pad := (Mem.setBytes ⟨x.pad, []⟩ h.addr.toNat h.msg.payload).cells,
           full := x.full.filter fun w => decide (w < h.addr.toNat / 8) || decide ((h.addr.toNat + h.size) / 8 ≤ w) }

/-- The state with a save area whose actor is `a`, waiting messages placed and written (R259, R329, R348). -/
def State.settleSaved (s : State) (x : Saved) (a : Actor) : State :=
  let b := s.base (homeOf a.aid)
  let p := a.takeIn b s.time
  (s.setBase (homeOf a.aid) { b with waiting := p.2.2 }).setSaved (p.2.1.foldl Saved.landed { x with actor := p.1 })

/-- An actor changed wherever it is, with the core whose tables it uses, its station and that station's Milestone. -/
def State.onActor (s : State) (who : AId) (f : CoreId → Nat → Word → State → Actor → State × Actor) : State :=
  match s.locOf who with
  | some l => s.at l.core s.cx fun t =>
      let p := f l.core l.core.toNat t.hereCore.vmile t (t.actorAt l.slot)
      ((p.1.setDevice l.slot p.2).settle l.slot).wakeHere
  | none =>
    match s.savedOf who with
    | some x =>
      let p := f x.last.core (baseStation (homeOf who)) (s.base (homeOf who)).vmile s x.actor
      p.1.settleSaved x p.2
    | none => s

/-! ## Messages of an actor -/

/-- A header of a message that an actor sends on an endpoint (R165, R279). -/
def Actor.header (a : Actor) (e : BitVec 4) (v : Word) (cls : BitVec 6) (len : Nat) (prio : BitVec 2) : Header :=
  let r := a.ep e
  { key := ⟨v, a.aid.id, a.seq⟩, dest := r.peer.extractLsb' 4 20, cls := cls, len := BitVec.ofNat 13 len, state := r.state,
    join := false, ze := false, anti := false, close := false, label := false, deleg := false, colour := false, irrev := true,
    tenant := a.aid.tenant, prio := prio, scope := if r.pkind = .remote then 9 else 6,
    dmod := if r.pkind = .remote then r.pmod else 0 }

/-- The actor that an endpoint's messages are meant for. -/
def Actor.peerOf (a : Actor) (e : BitVec 4) : AId := ⟨a.aid.tenant, (a.auxOf e).peerId⟩

/-- The payload of a close notice (R176). -/
def noticeBytes (st cp : BitVec 6) (cause : BitVec 9) (sent : BitVec 24) : List Byte :=
  leBytes (st.toNat * 2 ^ 21 + cp.toNat * 2 ^ 15 + cause.toNat) 8 ++ leBytes sent.toNat 8

/-- The unconsumed messages of an endpoint's buffer taken away; reports stay (R174, R175). -/
def Actor.dropBuffer (a : Actor) (e : BitVec 4) : Actor :=
  { a with box := a.box.filter fun h => h.ep ≠ e || h.consumed || ! h.msg.kind.isOwn }

/-- An endpoint whose close notice leaves (R175, R177): its buffer is discarded; a notice of the peer that waits in it completes the close. -/
def Actor.leftClose (a : Actor) (e : BitVec 4) : Actor :=
  let met := a.box.any fun y => y.ep = e && ! y.consumed && y.msg.hdr.close
  let r := a.ep e
  ((a.setEp e { r with status := if met then .closed else r.status }).setAux e
    { a.auxOf e with closeLeft := true, run := if met then none else (a.auxOf e).run }).dropBuffer e

/-- The record of an endpoint that closes from this side (R175): closing at a close-point, with its cause. -/
def EpRec.closed (r : EpRec) (cause : BitVec 9) (cp : BitVec 6) : EpRec :=
  { r with status := .closing, state := cp, cpoint := cp, ccause := cause, cbypeer := false }

/-- The kind of a peer by its code (R156). -/
def PKind.ofCode : Nat → PKind
  | 1 => .memory | 2 => .depot | 3 => .collective | 4 => .host | 5 => .remote | _ => .actor

/-- The kind of a peer that an endpoint keeps when it is used again: that of a group is gone (R291). -/
def PKind.again (k : PKind) : PKind := if k = .collective then .actor else k

/-- A word of a payload. -/
def payloadWord (l : List Byte) (i : Nat) : Word := BitVec.ofNat 64 (leNat ((l.drop (8 * i)).take 8))

/-- The kind of a peer, and its module, as the module at `here` has it when the module at `frm` records it so (R156, R181, R287): an actor of another module is remote. -/
def PKind.seen (kind : PKind) (pmod frm here : BitVec 12) : PKind × BitVec 12 :=
  match kind with
  | .actor => if frm = here then (.actor, 0) else (.remote, frm)
  | .remote => if pmod = here then (.actor, 0) else (.remote, pmod)
  | k => (k, pmod)

/-- A channel end of a module, as a packet of this one is sent to it. -/
def State.endOf (s : State) (mod : BitVec 12) (l : Loc) (e : BitVec 4) : Dest := if mod = s.coords then .ep l e else .link mod l e

/-- Where an old location forwards to (R182). -/
def Move.dest (v : Move) : Dest := .fwd v.mod v.loc v.ep

/-- A message as an old location forwards it in the module at `here`: for the actor at the new location (R182). -/
def Move.forwarded (v : Move) (here : BitVec 12) (m : Msg) : Msg :=
  let far := v.mod ≠ here
  { m with rcpt := ⟨m.rcpt.tenant, v.id⟩,
           hdr := { m.hdr with dest := (v.loc.peer v.ep).extractLsb' 4 20, scope := if far then 9 else m.hdr.scope, dmod := if far then v.mod else m.hdr.dmod } }

/-- The close-point of a delegated channel's state (R183): by the tables of the delegating core, or, for one of another module, of a core of this module that has the itinerary; a free value where none has it (log 96). -/
def State.strandPoint (s : State) (tenant : BitVec 4) (mod : BitVec 12) (old : Loc) (fp : Word) (itin : BitVec 7) (state : BitVec 6) : BitVec 6 :=
  if mod = s.coords then ((s.core old.core).view itin state).close
  else match s.cores.findSome? fun c => (c.2.dir.find? fun x => x.2.valid && x.2.tenant = tenant && x.2.fp = fp).map fun x => (c.2, BitVec.ofNat 7 x.1) with
    | some (k, i) => (k.view i state).close
    | none => BitVec.ofNat 6 (Config.freeNumber s.tick)

/-- A delegation that is discarded (R183): the delegated channel closes with 0x0E6 at the carried state's close-point, its notice goes to the carried peer, and the old location's forwarding ends. The discarding actor sends it, at station `st` whose Milestone is `mile`. -/
def strand (st : Nat) (mile : Word) (x : Msg) (sa : State × Actor) : State × Actor :=
  match x.kind with
  | .delegation pid mod =>
    let w := payloadWord x.payload
    let old : Loc := peerLoc ((w 4).extractLsb' 13 24)
    let oldEp := peerEp ((w 4).extractLsb' 13 24)
    let state : BitVec 6 := (w 1).extractLsb' 37 6
    let kind := (PKind.ofCode ((w 1).extractLsb' 58 3).toNat).seen ((w 1).extractLsb' 1 12) mod sa.1.coords
    let cp := sa.1.strandPoint sa.2.aid.tenant mod old (w 0) ((w 1).extractLsb' 43 7) state
    let v := maxWord (satAdd mile 1) (w 2)
    let r : EpRec := { EpRec.zero with status := .closing, pkind := kind.1, state := state, peer := (w 1).extractLsb' 13 24, pmod := kind.2 }
    let b := (sa.2.setEp 0 r).setAux 0 { EpAux.zero with peerId := pid }
    let h := { b.header 0 v 62 16 0 with close := true }
    let m : Msg := ⟨h, noticeBytes state cp 0x0E6 ((w 3).extractLsb' 24 24), .plain, b.peerOf 0⟩
    let s := ({ sa.1 with tick := sa.1.tick + 1 }).postMsg st (b.dest 0) m
    let from_ := x.hdr.key.sender
    (s.post st (BitVec.allOnes 64) (.marker (s.endOf mod old oldEp) ⟨sa.2.aid.tenant, from_⟩ false sa.2.aid.id
      ⟨mod, old, oldEp, from_, mod, old, oldEp, from_, false⟩), sa.2.bump)
  | _ => sa

/-- The delegations that stand unconsumed in an endpoint's buffer discarded (R183). -/
def strandAll (st : Nat) (mile : Word) (e : BitVec 4) (s : State) (a : Actor) : State × Actor :=
  (a.box.filter fun h => h.ep = e && ! h.consumed).foldl (fun p h => strand st mile h.msg p) (s, a)

/-- The host window of an address, if it lies in one (R195). -/
def hostPort (va : Word) : Option Bool :=
  if 0x00F0000000000000 ≤ va.toNat ∧ va.toNat < 0x00F8000000000000 then some false
  else if 0x00F8000000000000 ≤ va.toNat ∧ va.toNat < 0x0100000000000000 then some true else none

/-! ## Loans of priority (R342) -/

/-- A group as the registry names it (R288). -/
def groupKey (t : BitVec 4) (peer : BitVec 24) : Nat := t.toNat * 65536 + (peer.extractLsb' 8 16).toNat

/-- The contributions to waves whose completions are not delivered to their members: at the registry, or on their way to it. -/
def State.waiting (s : State) : List (Nat × Contrib) :=
  (s.flight.filterMap fun f => match f.pkt with
    | .contrib c _ _ => some (c.group, c)
    | _ => none) ++
  s.groups.flatMap fun g => g.2.waves.flatMap fun w => (w.contribs.filter fun c => ! w.done.contains c.1).map fun c => (g.1, c.2)

/-- The waves of a group to which a contribution has left a core and which have not completed (R300). -/
def State.begun (s : State) (g : Nat) : List Nat := ((s.waiting.filter fun x => x.1 = g && x.2.op ≠ .leave).map fun x => x.2.wave).eraseDups

/-- The class lent to an actor: the highest of the contributions that wait in a wave of its groups to which it has made none. -/
def State.loanOf (s : State) (who : AId) : BitVec 2 :=
  let all := s.waiting
  let mine (g : Nat) : Bool := match s.groups.find? fun x => x.1 = g with
    | some x => x.2.members.any fun m => m.actor = who && ! m.dead && m.leftAt.isNone
    | none => false
  let done (g w : Nat) : Bool :=
    (all.any fun x => x.1 = g && x.2.wave = w && x.2.actor = who) ||
      (match s.groups.find? fun x => x.1 = g with
       | some x => x.2.waves.any fun v => v.num = w && v.contribs.any fun c => c.2.actor = who
       | none => false)
  (all.filter fun x => mine x.1 && ! done x.1 x.2.wave).foldl (fun p x => if p.ult x.2.prio then x.2.prio else p) 0

/-- The loans in force reach a borrower and its running activation (R342). -/
def State.lend (s : State) (k : BitVec 4) : State :=
  let a := { s.actorAt k with lent := s.loanOf (s.actorAt k).aid }
  let t := s.setActorAt k a
  match t.ctxOf k with
  | some x =>
    let y := t.ctxAt x
    t.setCtxAt x { y with prioEff := if y.prioBase.ult a.lent then a.lent else y.prioBase }
  | none => t

def programEps : List (BitVec 4) := [0, 1, 2, 3, 4, 5, 6, 7, 8, 9, 10, 11, 12, 13, 14]

/-! ## The directory's counts (R313) -/

/-- The itineraries that an actor's endpoints are bound to. -/
def Actor.bound (a : Actor) : List (BitVec 7) :=
  programEps.filterMap fun e => if (a.ep e).status = .free ∨ (a.ep e).pkind = .collective then none else some (a.ep e).itin

/-- The references to an entry of a core: accepted images, and endpoints of its resident actors and of those evicted from it. -/
def State.refs (s : State) (c : CoreId) (i : Nat) : Nat :=
  let k := s.core c
  ((k.images.flatMap fun x => x.itins).filter fun x => x.toNat = i).length
    + ((k.actors.flatMap fun x => x.2.bound).filter fun x => x.toNat = i).length
    + ((s.bases.flatMap fun b => b.2.saved.flatMap fun x => if x.last.core = c then x.actor.bound else []).filter fun x => x.toNat = i).length

/-- A core's directory with every count as the references stand; an entry without any is freed. A freed run reads as free because no entry covers it (R314), a shape because no state refers to it (R315). -/
def State.syncDir (s : State) (c : CoreId) : State :=
  let k := s.core c
  let dir := k.dir.filterMap fun x =>
    let n := s.refs c x.1
    if x.2.valid && n = 0 then none else some (x.1, { x.2 with refs := BitVec.ofNat 16 n })
  let used (i : Nat) : Bool := dir.any fun x => x.2.valid && decide (x.2.base.toNat ≤ i) && decide (i ≤ x.2.base.toNat + x.2.count.toNat)
  let itab := k.itab.filter fun x => used x.1
  s.setCore c { k with dir := dir, itab := itab, shapes := k.shapes.filter fun x => itab.any fun y => y.2.shape.toNat = x.1 }

/-! ## Leaving (R163, R224) -/

/-- How many bytes a contribution of an actor reads from its source (R296): a gag's share of LEN, all of LEN elsewhere; of a gbcast only the root reads. -/
def Contrib.sourceLen (c : Contrib) (a : Actor) : Nat :=
  let len := (c.desc.setWidth 17).toNat
  match c.op with
  | .leave => 0
  | .wait => 0
  | .ag => len / ((a.auxOf c.ep).count.toNat + 1)
  | .bcast => if c.desc.extractLsb' 52 12 = (a.ep c.ep).loop.setWidth 12 then len else 0
  | .red => len
  | .rs => len

/-- Whether a message of an endpoint still has its channel: it leaves after a close of the endpoint in issue order, and with its spawn (R163, R184). -/
def Actor.sendable (a : Actor) (e : BitVec 4) : Bool :=
  let r := a.ep e
  r.status = .opened || r.status = .closing || r.status = .delegated || (r.status = .connecting && (a.auxOf e).spawning)

/-- An item that leaves: the actor stands at `l`, what it sends is counted at station `st`, whose Milestone is `m`; `pad` holds its zones, with the words `badPad` in error. The state and the actor after it. Fences are for the caller. An accept whose endpoint is no longer free or closed by then does nothing (log 67), nor does a close of one that the device has closed meanwhile (log 68). A message whose endpoint has no channel any more, as after a spawn that failed, is discarded and counted (R184). A connect or spawn that meets its directory entry in error fails with 0x1C4 (R316), its report made here (log 97). -/
def leaveItem (l : Loc) (st : Nat) (m : Word) (pad : Mem) (badPad : List Nat) (it : Item) (a : Actor) (s : State) : State × Actor :=
  let failed (e : BitVec 4) (v : Word) (cause : BitVec 9) (sender : BitVec 24) (seq : BitVec 40) (b : Actor) : State × Actor :=
    let rep : Msg := { hdr := { a.header e (satAdd v 1) (a.auxOf e).cls 8 0 with key := ⟨satAdd v 1, sender, seq⟩ },
                       payload := leBytes cause.toNat 8, kind := .report, rcpt := a.aid }
    (s, (b.setEp e { b.ep e with status := (a.auxOf e).old }).await e rep s.time)
  let torn (itin : BitVec 7) : Bool := (s.core l.core).badItins.contains itin.toNat
  match it with
  | .msg e x rule =>
    let v := rule.value x.hdr.key.vrt m (a.ep e).lastvrt
    let r := a.ep e
    if ! a.sendable e then strand st m x (s.count 0x30B8, a)
    else
    let h := { x.hdr with key := { x.hdr.key with vrt := v }, dest := r.peer.extractLsb' 4 20 }
    (s.postMsg st (a.dest e) { x with hdr := h, rcpt := a.peerOf e }, a.setEp e { r with lastvrt := maxWord v r.lastvrt })
  | .close e x rule =>
    let r := a.ep e
    if (a.auxOf e).closeLeft then (s, a)
    else
    let v := rule.value x.hdr.key.vrt m r.lastvrt
    let h := { x.hdr with key := { x.hdr.key with vrt := v }, dest := r.peer.extractLsb' 4 20 }
    let p := strandAll st m e (s.postMsg st (a.dest e) { x with hdr := h, rcpt := a.peerOf e }) a
    (p.1, (p.2.setEp e { r with lastvrt := maxWord v r.lastvrt }).leftClose e)
  | .connect e peer itin _ key rule =>
    let r := a.ep e
    let v := rule.value key.vrt m r.lastvrt
    let d := (s.core l.core).dirAt itin
    let c : Conn := { actor := a.aid, loc := l, ep := e, peer := peer, key := { key with vrt := v }, fp := d.fp, dfp := d.dfp,
                      pmod := s.coords, look := d.look }
    let dst : Dest := match peer.extractLsb' 61 3 with
      | 2 => .depot 0
      | 4 => .host (peer.setWidth 17)
      | 5 => .link (peer.extractLsb' 28 12) l (peer.extractLsb' 24 4)
      | _ => .home ⟨a.aid.tenant, peer.setWidth 24⟩
    let b := a.setEp e { r with lastvrt := maxWord v r.lastvrt }
    if torn itin then failed e v 0x1C4 a.aid.id a.seq b.bump else (s.post st v (.connect dst c), b)
  | .accept e peer itin cls =>
    let r := a.ep e
    if r.status = .free ∨ r.status = .closed then
      (s, (a.setEp e { r with status := .armed, itin := itin, pkind := r.pkind.again }).setAux e { a.auxOf e with filter := peer, cls := cls, old := r.status })
    else (s, a)
  | .spawn e arg itin _ key rule =>
    let r := a.ep e
    let v := rule.value key.vrt m r.lastvrt
    let d := (s.core l.core).dirAt itin
    let c : Conn := { actor := a.aid, loc := l, ep := e, peer := arg, key := { key with vrt := v }, fp := d.fp, dfp := d.dfp,
                      pmod := s.coords, look := d.look }
    let b := a.setEp e { r with lastvrt := maxWord v r.lastvrt }
    if torn itin then failed e v 0x1C4 a.aid.id a.seq b.bump else (s.post st v (.spawn c arg itin a.aid.tenant), b)
  | .relocate e oldMod old oldEp oldId =>
    let v : Move := ⟨s.coords, l, e, a.aid.id, oldMod, old, oldEp, oldId, false⟩
    let s := s.post st (BitVec.allOnes 64) (.reloc (a.dest e) (a.peerOf e) v)
    (s.post st (BitVec.allOnes 64) (.forwardReq a.aid.tenant v), a)
  | .mem r rule =>
    let e15 := a.ep 15
    let v := rule.value r.key.vrt m e15.lastvrt
    let q := { r with key := { r.key with vrt := v }, loc := l }
    let s' := match hostPort r.addr with
      | some p => s.post st v (.hostRead p q)
      | none => s.post st v (.mem q)
    (s', a.setEp 15 { e15 with lastvrt := maxWord v e15.lastvrt })
  | .copy c rule =>
    let e15 := a.ep 15
    let v := rule.value c.key.vrt m e15.lastvrt
    let k := s.core l.core
    (s.setCore l.core { k with cq := k.cq ++ [{ c with key := { c.key with vrt := v }, loc := l }] },
      a.setEp 15 { e15 with lastvrt := maxWord v e15.lastvrt })
  | .fence _ _ _ _ => (s, a)
  | .gjoin e desc cls key rule =>
    let r := a.ep e
    let v := rule.value key.vrt m r.lastvrt
    let a := a.setEp e { r with lastvrt := maxWord v r.lastvrt }
    match a.bind e 4 576 with
    | some b => (s.post st v (.join a.aid l e desc cls { key with vrt := v }), b)
    | none => failed e v 0x0C1 (0xFE0000 + (desc.setWidth 16).setWidth 24) 0 a
  | .contrib c rule =>
    let r := a.ep c.ep
    let v := rule.value c.key.vrt m r.lastvrt
    let n := c.sourceLen a
    let data := a.engineBytes pad s.tick c.src.toNat n
    let s := { s with tick := s.tick + 1 }
    let bad := (wordsOf c.src.toNat n).any fun w => badPad.contains w
    let t := s.post st v (.contrib { c with key := { c.key with vrt := v }, loc := l } data bad)
    (t, { a.setEp c.ep { r with lastvrt := maxWord v r.lastvrt } with lent := t.loanOf a.aid })
  | .reinject x =>
    let v := if m.ult x.hdr.key.vrt then x.hdr.key.vrt else satAdd m 1
    (s.postMsg st (.ep (peerLoc (x.hdr.dest ++ 0#4)) (peerEp (x.hdr.dest ++ 0#4))) { x with hdr := { x.hdr with key := { x.hdr.key with vrt := v } } }, a)

/-- An item of the actor in a slot of the core in focus leaves; with its contribution a loan ends (R342). -/
def State.release (s : State) (k : BitVec 4) (it : Item) : State :=
  let r := leaveItem ⟨s.here, k⟩ s.here.toNat s.hereCore.vmile s.hereCore.pad s.hereCore.badPad it (s.actorAt k) s
  let t := ((r.1.setDevice k r.2).settle k).syncDir s.here
  match it with
  | .contrib _ _ => t.lend k
  | _ => t

/-- Whether a memory request is a read, and whether it is a write (R224, R235): mamo is both. -/
def MemOp.isRead : MemOp → Bool
  | .read => true
  | .amo .. => true
  | .fetch => true
  | _ => false

def MemOp.isWrite : MemOp → Bool
  | .write _ => true
  | .amo .. => true
  | .capgive .. => true
  | .put .. => true
  | .finish .. => true
  | _ => false

def CopyCmd.isRead (c : CopyCmd) : Bool :=
  match c.op with
  | .get => true
  | .gath => true
  | .cvt => c.extra.setWidth 3 = 0 || c.extra.setWidth 3 = 1 || c.extra.setWidth 3 = 4
  | _ => false

/-- The lines of 128 bytes of a range. -/
def linesIn (va n : Nat) : List Nat := if n = 0 then [] else List.range' (va / 128) ((va + n - 1) / 128 + 1 - va / 128)

/-- The lines that a request touches. -/
def MemReq.lines (r : MemReq) : List Nat :=
  match r.op with
  | .put segs _ _ _ => segs.flatMap fun x => linesIn x.1 x.2.length
  | .fetch => []
  | .finish .. => []
  | .capchk .. => []
  | .capgive .. => []
  | _ => linesIn r.addr.toNat r.len

/-- Whether a write has been taken in its requester's quadrant before its home has it (R234): the crossing cache held every line of it. The home makes an sc write visible everywhere at once (R239). -/
def MemReq.inQuadrant (r : MemReq) : Bool := r.crossed && ! r.sc && r.lines.all r.held.contains

/-- The requests of an actor that have left and are not answered: on their way, walking or parked. -/
def State.requests (s : State) (who : AId) : List MemReq :=
  (s.flight.filterMap fun f => match f.pkt with
    | .mem r => if r.actor = who then some r else none
    | .hostRead _ r => if r.actor = who then some r else none
    | _ => none) ++
  s.bases.flatMap fun b => ((b.2.parked.map fun p => p.req) ++ b.2.walkWait.map fun p => p.2).filter fun r => r.actor = who

/-- The copy commands of an actor that have left and stand in a copy command queue. -/
def State.copies (s : State) (who : AId) : List CopyCmd := s.cores.flatMap fun c => c.2.cq.filter fun x => x.actor = who

/-- Whether an invalidation of a write of an actor, earlier than a sequence, is on its way. -/
def State.invalidating (s : State) (who : AId) (before : BitVec 40) : Bool :=
  s.flight.any fun f => match f.pkt with
    | .inval _ _ w q => w = who && seqBefore q before
    | _ => false

/-- Whether a deferred item is a read of an actor earlier than a sequence: a mamo, or what has been deferred behind a fence. -/
def Item.readBefore (who : AId) (before : BitVec 40) : Item → Bool
  | .mem r _ => r.actor = who && r.op.isRead && seqBefore r.key.seq before
  | .copy c _ => c.actor = who && c.isRead && seqBefore c.key.seq before
  | _ => false

/-- Whether what a fence waits for is performed at its scope (R235, R236); an acquire waits for the deferred reads of a timed activation too; scope durable adds the pages of R266, scope fabric what the ports have not taken. -/
def State.fenceMet (s : State) (who : AId) (kind : FenceKind) (scope : BitVec 4) (before : BitVec 40) : Bool :=
  if scope.toNat ≤ 1 then true
  else
    let rd := kind ≠ .rel
    let wr := kind ≠ .acq
    let pending := (s.requests who).any fun r => seqBefore r.key.seq before &&
      ((rd && r.op.isRead) || (wr && r.op.isWrite && (decide (scope.toNat > 4) || ! r.inQuadrant || r.op.isRead)))
    let copying := (s.copies who).any fun c => seqBefore c.key.seq before && (if c.isRead then rd else wr)
    let deferred := kind = .acq && s.cores.any fun c => c.2.deferral.any fun x => x.item.readBefore who before
    let far := decide (scope.toNat ≥ 6) && wr && s.invalidating who before
    let mine (m : Msg) : Bool := m.hdr.key.sender = who.id && m.hdr.tenant = who.tenant && seqBefore m.hdr.key.seq before
    let link := scope = 9 && ((s.flight.any fun f => match f.pkt with
        | .msg (.link ..) m => mine m
        | _ => false) ||
      s.ports.any fun p => p.2.replay.any fun f => match f.carries with
        | some (.msg _ m) => mine m
        | _ => false)
    ! (pending || copying || deferred || far || link)

/-- Whether a staged or held item is a read, and whether it is a write (R224). -/
def Item.isRead : Item → Bool
  | .mem r _ => r.op.isRead
  | .copy c _ => c.isRead
  | _ => false

def Item.isWrite : Item → Bool
  | .mem r _ => r.op.isWrite
  | .copy c _ => ! c.isRead
  | _ => false

/-- Whether a staged fence holds a message, or a request, that would leave at once (R235): oldest first, `before` are the items that stand in front. The fence orders it, and its condition is not met: something that it waits for stands in front of it or is not performed, its pages are still to become durable, or something else waits behind it already. -/
def State.heldBy (s : State) (msg : Bool) : List Item → List Item → Bool
  | _, [] => false
  | before, .fence kind scope q pages :: rest =>
    ((kind ≠ .acq || ! msg) &&
      ((kind ≠ .rel && before.any Item.isRead) || (kind ≠ .acq && before.any Item.isWrite) || ! s.fenceMet s.actor.aid kind scope q ||
        (scope = 10 && ! pages.isEmpty) ||
        rest.any fun i => match i with
          | .msg .. => true
          | i => i.isRead)) ||
      s.heldBy msg (before ++ [.fence kind scope q pages]) rest
  | before, it :: rest => s.heldBy msg (before ++ [it]) rest

def State.fencedOff (s : State) (msg : Bool) : Bool := s.heldBy msg [] s.staged

/-! ## The span of live sequences (R27) -/

/-- The sequence that an item's message or request carries. -/
def Item.seq : Item → Option (BitVec 40)
  | .msg _ m _ => some m.hdr.key.seq
  | .close _ m _ => some m.hdr.key.seq
  | .connect _ _ _ _ key _ => some key.seq
  | .spawn _ _ _ _ key _ => some key.seq
  | .mem r _ => some r.key.seq
  | .copy c _ => some c.key.seq
  | .gjoin _ _ _ key _ => some key.seq
  | .contrib c _ => some c.key.seq
  | _ => none

/-- The sequence of a packet that a sender has sent. -/
def Packet.seqOf (who : AId) (p : Packet) : Option (BitVec 40) :=
  match p with
  | .msg _ m => if m.hdr.key.sender = who.id ∧ m.hdr.tenant = who.tenant then some m.hdr.key.seq else none
  | .connect _ c => if c.actor = who then some c.key.seq else none
  | .spawn c _ _ _ => if c.actor = who then some c.key.seq else none
  | .join a _ _ _ _ k => if a = who then some k.seq else none
  | .contrib c _ _ => if c.actor = who then some c.key.seq else none
  | _ => none

/-- The messages that an actor has and that are live: not consumed, or consumed by an activation that has not committed. -/
def Actor.liveHeaders (a : Actor) : List Header :=
  (a.box.map fun h => h.msg.hdr) ++ a.log.filterMap fun p => match p.entry with
    | .history h => some h.msg.hdr
    | .returned h => some h.msg.hdr
    | _ => none

/-- The sequences of the live messages of a sender (R27): on their way, at their receivers, at the Depot, at their homes. -/
def State.liveSeqs (s : State) (who : AId) : List (BitVec 40) :=
  let sent (h : Header) : Option (BitVec 40) := if h.key.sender = who.id ∧ h.tenant = who.tenant then some h.key.seq else none
  (s.flight.filterMap fun f => f.pkt.seqOf who) ++ (s.requests who).map (fun r => r.key.seq) ++ (s.copies who).map (fun c => c.key.seq) ++
    (s.cores.flatMap fun c => c.2.actors.flatMap fun x => x.2.liveHeaders.filterMap sent) ++
    (s.bases.flatMap fun b => (b.2.saved.flatMap fun x => x.actor.liveHeaders.filterMap sent) ++
      (b.2.conns.filterMap fun c => if c.actor = who then some c.key.seq else none) ++ b.2.waiting.filterMap fun w => sent w.msg.hdr) ++
    (s.ports.flatMap fun p => p.2.replay.filterMap fun f => f.carries.bind (Packet.seqOf who)) ++
    s.depotQ.filterMap fun r => if r.actor = who then some r.key.seq else none

/-- Whether a message would have a sequence 2^39 or more above that of a live message of its sender, whose next sequence is `next` (R27): it is held until that one ceases to be live. -/
def State.tooFar (s : State) (who : AId) (next q : BitVec 40) : Bool :=
  (s.liveSeqs who).any fun x => decide ((next - q).toNat + 2 ^ 39 ≤ (next - x).toNat)

/-- The next sequence of an actor. -/
def State.nextSeq (s : State) (who : AId) : BitVec 40 :=
  match s.slotOf who with
  | some k => (s.actorAt k).seq
  | none => ((s.savedOf who).map fun x => x.actor.seq).getD 0

/-- Whether an item is held for its sequence. -/
def State.seqHeld (s : State) (who : AId) (it : Item) : Bool :=
  match it.seq with
  | some q => s.tooFar who (s.nextSeq who) q
  | none => false

/-- Whether the item at the head of a waiting list may leave: its sequence is near enough (R27), a copy command needs an entry of the queue (R230), a fence its condition; a durable fence is for its own step. -/
def State.mayLeave (s : State) (who : AId) (it : Item) : Bool :=
  ! s.seqHeld who it && match it with
  | .copy _ _ => decide (s.hereCore.cq.length < 2)
  | .fence kind scope before _ => scope ≠ 10 && s.fenceMet who kind scope before
  | _ => true

/-- Items of the actor in a slot that leave in order as far as they may; the rest waits (R235, R276). -/
def State.releaseFrom (s : State) (k : BitVec 4) : List Item → State × List Item
  | [] => (s, [])
  | it :: rest => if s.mayLeave (s.actorAt k).aid it then (s.release k it).releaseFrom k rest else (s, it :: rest)

/-- The sequence from which an item stands in issue order: its own, or the actor's next one at the issue of a fence. -/
def Item.rank : Item → Option (BitVec 40)
  | .fence _ _ before _ => some before
  | it => it.seq

/-- An item put among those that wait at a core, before the first of its actor that was issued after it. -/
def insertItem (x : Deferred) : List Deferred → List Deferred
  | [] => [x]
  | y :: l =>
    match (if y.slot = x.slot then x.item.seq else none), y.item.rank with
    | some q, some r => if seqBefore q r then x :: y :: l else y :: insertItem x l
    | _, _ => y :: insertItem x l

/-- The first n items of the actor in a slot taken from those that wait. -/
def dropOf (k : BitVec 4) : Nat → List Deferred → List Deferred
  | n + 1, x :: l => if x.slot = k then dropOf k n l else x :: dropOf k (n + 1) l
  | _, l => l

/-- Items that leave in issue order with whatever of the actor waits already: a deferred one that commits may be older than a fence that waits for it (R235). What cannot leave yet waits at the core. -/
def State.releaseAll (s : State) (k : BitVec 4) (key : Key) (items : List Item) : State :=
  let first (l : List Deferred) : Option Deferred := l.find? fun x => x.slot = k
  let all := items.foldl (fun l i => insertItem ⟨k, key, i⟩ l) s.hereCore.fenced
  if (first s.hereCore.fenced).isSome ∧ first all = first s.hereCore.fenced then s.setHere { s.hereCore with fenced := all }
  else
    let mine := (all.filter fun x => x.slot = k).map fun x => x.item
    let r := s.releaseFrom k mine
    r.1.setHere { r.1.hereCore with fenced := dropOf k (mine.length - r.2.length) all }

/-- The e15 slots that dropped items held are free again (R225). -/
def Actor.freeItems (a : Actor) (l : List Item) : Actor :=
  let gone := l.filterMap fun i => match i with
    | .mem r _ => some r.key.seq
    | .copy c _ => some c.key.seq
    | _ => none
  { a with e15used := a.e15used.filter fun q => ! gone.contains q }

end Sys2Proof.Machine
end

