-- ==== Sys2Proof/Machine/Pages.lean ====
section
/-! DEFINITION. The pages of global memory (10_global_memory.md R221; 15_protection_and_translation_tables.md R320, R324, R331): their leaves, capabilities, homes and frames, the protection entries' rights, and the bytes of a page as its home or the Depot has them. -/

namespace Sys2Proof.Machine

def State.leaf (s : State) (p : Nat) : Leaf := look Leaf.zero p s.leaves
def State.setLeaf (s : State) (p : Nat) (l : Leaf) : State := { s with leaves := put p l s.leaves }
def State.cap (s : State) (p : Nat) : Cap := look Cap.zero p s.caps
def State.setCap (s : State) (p : Nat) (c : Cap) : State := { s with caps := put p c s.caps }
def State.depotPage (s : State) (p : Nat) : DepotPage := look DepotPage.zero p s.depot

/-- The frames of a stack that pages may take: all but the save pool's (R400) and the page table's (R323). -/
def Base.pageFrames (b : Base) : Nat := b.frames - b.poolFrames.toNat - b.tables

/-- How many of them are free. -/
def Base.freeFrames (b : Base) : Nat := b.pageFrames - b.taken.length

/-- The lowest frame that no page has, while one can be spared (R11, R400). -/
def Base.freeFrame (b : Base) : Option Nat :=
  if b.taken.length < b.pageFrames then (List.range (b.taken.length + 1)).find? fun f => ! b.taken.contains f else none

/-! ## The page table of a stack (R323, R324, R331) -/

/-- The block that the walk of a page reads at a level below the root: its level, and the bits of VA[55:16] above the level's index. -/
def tableBlock (level p : Nat) : Nat := level * 2 ^ 40 + p / (match level with | 2 => 2 ^ 30 | 3 => 2 ^ 21 | _ => 2 ^ 12)

/-- The non-leaf entry that a page's walk reads at a level: PRESENT in [63] and the address of the next level's block in [35:12]. -/
def Base.tableEntry (b : Base) (level p : Nat) : Word :=
  match b.blocks.find? fun x => x.1 = tableBlock (level + 1) p with
  | some x => 1#1 ++ 0#27 ++ BitVec.ofNat 24 x.2 ++ 0#12
  | none => 0

/-- Whether the walk of a page reaches a leaf: PRESENT at levels 1 to 3. -/
def Base.present (b : Base) (p : Nat) : Bool := ([1, 2, 3] : List Nat).all fun l => (b.tableEntry l p).getLsbD 63

/-- The DRAM addresses of a page's leaf entry and of its capability entry, once its leaf block is there. -/
def Base.leafPlace (b : Base) (p : Nat) : Nat × Nat :=
  let block := ((b.tableEntry 3 p).extractLsb' 12 24).toNat * 4096
  (block + 8 * (p / 8 % 512), block + 4096 + 8 * (p / 8 % 512))

/-- A leaf entry (R324). -/
def Leaf.word (l : Leaf) : Word :=
  BitVec.ofBool l.valid ++ BitVec.ofBool l.depot ++ BitVec.ofBool l.dirty ++ BitVec.ofBool l.cow ++ BitVec.ofBool l.strong ++ l.tenant ++ 0#35 ++ l.frame

/-- A capability entry (R331). -/
def Cap.word (c : Cap) : Word := BitVec.ofBool c.held ++ 0#5 ++ c.holder ++ 0#18 ++ c.gen

/-- The bytes of a stack's page table (R323): its root, and its blocks of levels 2, 3 and 4. -/
def tableBytes (blocks : List Nat) : Nat := 8192 + (blocks.map fun k => if k / 2 ^ 40 = 4 then 8192 else 4096).sum

/-- The blocks that a page's walk still lacks. -/
def Base.missing (b : Base) (p : Nat) : List Nat :=
  (([2, 3, 4] : List Nat).map fun l => tableBlock l p).filter fun k => b.blocks.all fun x => x.1 ≠ k

/-- Whether the frames reserved at boot hold the table of a stack once a page is in it (R323, R335). -/
def State.tableHolds (s : State) (p : Nat) : Bool :=
  let b := s.base (homePage p)
  decide (tableBytes (b.missing p ++ b.blocks.map fun x => x.1) ≤ b.tables * 65536)

/-- The blocks of a page's walk put into the table of its stack, at addresses in the reserved frames that the manual leaves open (log 10); no rule takes one out again. -/
def State.mapPage (s : State) (p : Nat) : State :=
  let h := homePage p
  let b := s.base h
  { s.setBase h { b with blocks := b.blocks ++ (b.missing p).map fun k => (k, Config.freeNumber (s.tick + k) % 2 ^ 24) } with tick := s.tick + 1 }

/-- The leaf that a walk finds: an entry with PRESENT clear ends it, and the page is unallocated (R323). -/
def State.walkLeaf (s : State) (p : Nat) : Leaf := if (s.base (homePage p)).present p then s.leaf p else Leaf.zero

/-- The DRAM address of a global address in its stack, by its leaf's frame. -/
def State.dramAddr (s : State) (va : Nat) : Nat := (s.leaf (va / 65536)).frame.toNat * 65536 + va % 65536

/-- n bytes of one page as its home has them. -/
def State.homeBytes (s : State) (va n : Nat) : List Byte := (s.base (homePage (va / 65536))).dram.bytes (s.dramAddr va) n

/-- A byte of global memory as the Depot engine reads it: from DRAM, or from the Depot's copy of a page that is not in DRAM. -/
def State.engineByte (s : State) (va : Nat) : Byte :=
  if (s.leaf (va / 65536)).valid then (s.base (homePage (va / 65536))).dram.byte (s.dramAddr va)
  else (cellAt (va % 65536) (s.depotPage (va / 65536)).cells).getD 0

def State.engineBytes (s : State) (va n : Nat) : List Byte := (List.range n).map fun i => s.engineByte (va + i)

/-- The protection entries' rights of a page for a tenant on a core (R321): R, W, X, D. -/
def Core.rights (k : Core) (t : BitVec 4) (page : Nat) : Bool × Bool × Bool × Bool :=
  let m := (k.prot.map fun x => x.2).filter fun x =>
    x.valid && decide (x.base.toNat ≤ page) && decide (page ≤ x.limit.toNat) && (x.domain = t.setWidth 5 || x.domain = 16)
  (m.any fun x => x.r, m.any fun x => x.w, m.any fun x => x.x, m.any fun x => x.d)

/-- The pages of a checkpoint's list of n entries, with NARROW; none when an entry is outside its limits (R262). -/
def State.pageList (s : State) (va n : Nat) : Option (List (Nat × Bool)) :=
  let l := (List.range n).map fun i => leNat (s.engineBytes (va + 8 * i) 8)
  if l.all fun x => x / 2 % 2 ^ 15 = 0 then some (l.map fun x => (x / 65536, x % 2 = 1)) else none

end Sys2Proof.Machine
end

