-- ==== Sys2Proof/Machine/Channels.lean ====
section
/-! DEFINITION. The channel instructions, major 0x28 (07_endpoint_registers.md R160 to R187). -/

namespace Sys2Proof.Machine

/-! ## Checks (R161) -/

/-- DETAIL of classes 5 to 7 (R353): the endpoint index, and the instruction word at the PC. -/
def State.epDetail (s : State) (e : BitVec 4) : Word :=
  e.setWidth 64 ||| (BitVec.ofNat 64 (leNat (s.hereCore.code.bytes s.ctx.pc.toNat 4)) <<< 32)

/-- A trap of classes 5 to 7 that closes nothing by itself. -/
def epTrap (cause : BitVec 9) (e : BitVec 4) (s : State) : Out := raise cause (s.epDetail e) s

/-- The state an endpoint of the running actor is in. -/
def State.epView (s : State) (e : BitVec 4) : View :=
  s.hereCore.view (s.actor.ep e).itin (s.actor.ep e).state

/-- A refusal (R178): reasons 0 to 2 close the endpoint at the close-point of the state, reason 3 closes nothing. -/
def refuse (reason : BitVec 9) (e : BitVec 4) (s : State) : Out :=
  let v := s.epView e
  .next (trapWith (if reason = 3 then none else some (e, v.close, (s.actor.ep e).state)) none (0x0A0 + v.kind.setWidth 9 * 4 + reason) (s.epDetail e) s)

def isOpen (r : EpRec) : Bool := r.status = .opened

def isIdle (r : EpRec) : Bool := r.status = .free || r.status = .closed

/-- Check 1 of R161: the status, and never a group endpoint, which may be used again once it is closed (R291); then the protocol tables are read (R316). -/
def withStatus (ok : EpRec → Bool) (e : BitVec 4) (s : State) (k : EpRec → Out) : Out :=
  let r := s.actor.ep e
  soundEp e s <|
    if ok r && (r.pkind ≠ .collective || isIdle r) then
      if s.hereCore.badItins.contains r.itin.toNat ∧ (r.status = .opened ∨ r.status = .connecting) then .next (trapWith none none 0x1C4 0 s) else k r
    else epTrap 0x0C7 e s

/-- Check 3 of R161: the kind of the current state. -/
def withKind (kind : BitVec 3) (e : BitVec 4) (s : State) (k : View → Out) : Out :=
  let v := s.epView e
  if v.kind = kind then k v else refuse 0 e s

/-- The next state of a state with one. -/
def View.then0 (v : View) : BitVec 6 := v.next.headD 0

/-- The endpoint record changed by the running activation, saved first (R159). -/
def changeEp (e : BitVec 4) (f : Actor → Actor) (s : State) (k : State → Out) : Out :=
  orNoRoom (s.saveEp s.ctx.slot e) s fun t => k (t.setActor (f t.actor))

/-! ## Sending (R165, R166) -/

/-- Whether a message of the running activation may leave at once (R163, R235): a conservative actor's unless a staged fence holds it, a timed actor's unless it follows a deferred write behind a fence. -/
def State.sendsNow (s : State) (r : EpRec) : Bool :=
  match s.actor.disc with
  | .untimed => false
  | .conservative => ! s.fencedOff true
  | .timed => ! s.ctx.relFence && r.pkind ≠ .host && r.pkind ≠ .remote

/-- Whether a message of an endpoint has stayed at the core for its sequence: what is sent on the endpoint stays behind it (R27). -/
def State.stayed (s : State) (e : BitVec 4) : Bool :=
  let m (i : Item) : Bool := match i with
    | .msg x y _ => x = e && ! y.hdr.deleg
    | _ => false
  s.ctx.staging.any m || s.hereCore.deferral.any fun x => x.slot = s.ctx.slot && m x.item

/-- An item that may leave at once, after what waits behind a fence (R235). -/
def State.leaveNow (s : State) (it : Item) : State :=
  if s.hereCore.fenced.any fun x => x.slot = s.ctx.slot then
    s.setHere { s.hereCore with fenced := s.hereCore.fenced ++ [⟨s.ctx.slot, s.ctx.key, it⟩] }
  else s.release s.ctx.slot it

/-- The output record of a message that leaves at once and can be cancelled (R365). -/
def State.logOutput (s : State) (m : Msg) (d : Dest) : Option State :=
  if m.hdr.irrev then some s else s.log s.ctx.slot (.output m.hdr m.rcpt d)

/-- The message of a send of any kind: VRT, staging or leaving, and the endpoint's advance to a state (R162 to R165). -/
def sendMsg (e : BitVec 4) (cls : BitVec 6) (kind : MsgKind) (label join deleg : Bool) (payload : List Byte) (nx : BitVec 6)
    (queueAlways : Bool) (s : State) (k : State → Out) : Out :=
  let a := s.actor
  let r := a.ep e
  match s.sendVrt r.lastvrt with
  | .error (c, d) => raise c d s
  | .ok (rule, v) =>
    let now := s.sendsNow r && ! queueAlways && ! s.tooFar a.aid a.seq a.seq && ! s.stayed e
    let h := { a.header e v cls payload.length s.ctx.prioEff with
               label := label, join := join, deleg := deleg, irrev := ! (now && a.disc = .timed) }
    let m : Msg := ⟨h, payload, kind, a.peerOf e⟩
    let adv (x : Actor) : Actor :=
      let q := s.hereCore.advanced (x.ep e) nx
      ({ (x.setEp e { q with sent := q.sent + 1, lastvrt := if x.disc = .untimed then q.lastvrt else v }) with seq := x.seq + 1 })
    if now then
      changeEp e adv s fun t => orNoRoom (t.logOutput m (a.dest e)) t fun t => k (t.leaveNow (.msg e m rule))
    else s.queue (.msg e m rule) fun t => changeEp e adv t k

/-- Bits of g[b] of send, sendv and sendt (R165). -/
def sendLen (x : Word) : Nat := (x.setWidth 13).toNat
def sendOk (x : Word) (limit : Nat) : Bool := x.toNat / 2 ^ 17 = 0 && x.toNat / 2 ^ 13 % 8 = 0 && decide (sendLen x ≤ limit)

/-- The pages that a Depot request names, by their addresses: those of a page-service request (R253); those of a checkpoint take's list as global memory holds it, and those of the checkpoint that a restore is for (R262, log 69). -/
def State.depotPages (s : State) (r : EpRec) (payload : List Byte) : List Nat :=
  if r.pkind ≠ .depot ∨ payload.length ≠ 32 then []
  else
    let w (i : Nat) : Nat := (payloadWord payload i).toNat
    if r.peer.extractLsb' 22 2 = 0 then
      let op := w 1 / 2 ^ 60
      if op > 4 then [] else (List.range (if op = 2 then 1 else w 1 / 2 ^ 48 % 256 + 1)).map fun i => w 0 + i * 2 ^ 16
    else if r.peer.extractLsb' 22 2 = 2 then
      if w 3 / 2 ^ 60 = 0 ∧ w 1 % 64 = 0 ∧ w 2 < 2 ^ 24 then ((s.pageList (w 1) (w 2)).getD []).map fun p => p.1 * 65536
      else if w 3 / 2 ^ 60 = 1 then (((s.validSlot (w 3 % 65536)).map fun x => x.pages).getD []).map fun p => p.1 * 65536
      else []
    else []

/-- The Depot-control check of a request at its send (R253, R262): its first page without the right. -/
def State.depotRefused (s : State) (r : EpRec) (payload : List Byte) : Option Word :=
  ((s.depotPages r payload).find? fun va => ! (s.hereCore.rights s.actor.aid.tenant (va / 65536)).2.2.2).map (BitVec.ofNat 64)

/-- send, sendv and sendt after the operand checks: the state, the class, the bound, the length; the payload is read by `data` (R161, R165). -/
def sendChecked (e : BitVec 4) (cls : BitVec 6) (x : Word) (s : State) (data : Nat → Except (BitVec 9 × Word) (List Byte)) : Out :=
  withKind 0 e s fun v =>
    let r := s.actor.ep e
    let n := sendLen x
    if v.cls ≠ cls ∨ s.hereCore.bounded r.itin v.then0 r.loop then refuse 1 e s
    else if n < v.min ∨ v.max < n then refuse 2 e s
    else
      match data n with
      | .error (c, d) => raise c d s
      | .ok bytes =>
        match s.depotRefused r bytes with
        | some d => raise 0x1A8 d s
        | none => sendMsg e cls .plain false (x.getLsbD 16) false bytes v.then0 false s fun t => .next (t.advance 4)

/-- The endpoint of a send: open, or connecting from a spawn (R184). -/
def canSend (a : Actor) (e : BitVec 4) (r : EpRec) : Bool := isOpen r || (r.status = .connecting && (a.auxOf e).spawning)

/-- The payload of a send in the scratchpad (R161 item 4); an uncorrectable word traps its reader (R202). -/
def scratchPayload (addr : Word) (d : Word) (s : State) (n : Nat) : Except (BitVec 9 × Word) (List Byte) :=
  if n = 0 then .ok []
  else if addr.toNat % 8 ≠ 0 then .error (0x0C8, d)
  else if addr.toNat + n > 0x30000 then .error (0x0C9, d)
  else if s.actor.zonesBad then .error (0x1C7, 0)
  else if ! linesAll (lineReadable s.actor) addr.toNat n then .error (0x0CA, d)
  else match s.hereCore.badIn addr.toNat n with
    | some w => .error (0x1C0, BitVec.ofNat 64 (8 * w))
    | none => .ok (s.readBytes addr.toNat n)

/-- SEND (R165). -/
def execSend (c : BitVec 6) (b a : BitVec 5) (e : BitVec 4) (s : State) : Out :=
  withStatus (canSend s.actor e) e s fun _ =>
    if ! sendOk (s.g b) 4096 then epTrap 0x0C6 e s
    else sendChecked e c (s.g b) s (scratchPayload (s.g a) (s.epDetail e) s)

/-- SENDV (R165): bytes of a vector register. -/
def execSendv (c : BitVec 6) (b : BitVec 5) (v : BitVec 4) (e : BitVec 4) (s : State) : Out :=
  withStatus (canSend s.actor e) e s fun _ =>
    if ! sendOk (s.g b) 128 then epTrap 0x0C6 e s
    else sendChecked e c (s.g b) s fun n => .ok (leBytes (s.v v).toNat n)

/-- SENDT (R165): bytes of the slice view of a held tile; it waits for the context's earlier matrix commands. Both follow the operand check and precede the itinerary's (log 71). -/
def execSendt (c : BitVec 6) (b : BitVec 5) (t : BitVec 3) (e : BitVec 4) (s : State) : Out :=
  withStatus (canSend s.actor e) e s fun _ =>
    if ! sendOk (s.g b) 2048 then epTrap 0x0C6 e s
    else if ! s.holds t then tileTrap 0x060 t s
    else if s.hereCore.mq.any fun m => m.ctx = s.cx then .next (s.stall .engine)
    else sendChecked e c (s.g b) s fun n =>
      if s.hereCore.tileBad t (0, n) then .error (0x1C3, 0) else .ok (leBytes (s.hereCore.tile t).data.toNat n)

/-- SEL (R166): a label message; the state advances to the state at the label. -/
def execSelLabel (l : BitVec 2) (e : BitVec 4) (s : State) : Out :=
  withStatus (canSend s.actor e) e s fun r =>
    withKind 2 e s fun v =>
      match v.next[l.toNat]? with
      | none => refuse 1 e s
      | some t =>
        if s.hereCore.bounded r.itin t r.loop then refuse 1 e s
        else sendMsg e v.cls .plain true false false [l.setWidth 8] t false s fun t => .next (t.advance 4)

/-! ## Receiving (R167 to R171) -/

/-- Whether a class is held: a message of it is taken by recv, offer or recvep (R33, R304). -/
def Actor.isHeld (a : Actor) (c : BitVec 6) : Bool :=
  match a.junction[c.toNat] with
  | j => j.valid && j.held

def Actor.isHandler (a : Actor) (c : BitVec 6) : Bool :=
  match a.junction[c.toNat] with
  | j => j.valid && ! j.held

/-- The unconsumed messages of an endpoint's buffer, in arrival order; a report or a notice outside the itinerary stands elsewhere. -/
def Actor.buffer (a : Actor) (e : BitVec 4) : List Held :=
  a.box.filter fun h => h.ep = e && ! h.consumed && h.msg.kind.isOwn && ! (h.direct)

/-- The cause of a close notice (R176). -/
def Held.cause (h : Held) : BitVec 9 := (payloadWord h.msg.payload 0).setWidth 9

/-- A message that an armed join counter counts (R380). -/
def Actor.counts (a : Actor) (h : Held) : Bool :=
  h.armed && a.jreg.valid && h.msg.kind.isOwn &&
    (if h.msg.hdr.close then h.cause ≠ 0 && ! a.jreg.mask.getLsbD h.ep.toNat else h.msg.hdr.join)

/-- Whether the running activation may take a message (R168, R363): not one that a join counter counts, which waits for the activation's end (R380). -/
def State.mayTake (s : State) (h : Held) : Bool :=
  s.actor.isHeld h.msg.hdr.cls && ! h.msg.hdr.close && ! s.actor.counts h &&
    (if s.actor.disc = .untimed then h.msg.hdr.irrev || s.safeHere h.msg.hdr.key.vrt else h.msg.hdr.key.before s.ctx.key)

/-- A message marked consumed by the activation in context `x` of the actor's core (R170). -/
def State.consume (s : State) (k : BitVec 4) (h : Held) (byRecv : Bool) : State :=
  let a := s.actorAt k
  let h' := { h with consumed := true, byRecv := byRecv }
  s.setActorAt k { a with box := a.box.map fun x => if x = h then h' else x }

/-- A message taken by the running activation from an endpoint, which advances to a state (R162, R167, R169). -/
def takeMsg (e : BitVec 4) (h : Held) (nx : BitVec 6) (s : State) (k : State → Out) : Out :=
  let log (t : State) : Option State :=
    if t.actor.disc = .timed then (t.logHeld t.ctx.slot (.history { h with byRecv := true }) h.msg.payload).map fun x => x.1 else some t
  orNoRoom (log s) s fun t =>
    changeEp e (fun x => let q := s.hereCore.advanced (x.ep e) nx; x.setEp e { q with rcvd := q.rcvd + 1 }) t fun t =>
      let t := t.consume t.ctx.slot h true
      k (t.setCtx { t.ctx with consumed := t.ctx.consumed ++ [{ h with consumed := true, byRecv := true }] })

/-- The oldest message of an open endpoint's buffer in a state of a kind, as recv, offer and recvep look for it (R167, R168): in the buffer since an earlier cycle (R268), and fetched back (R367). -/
def withOldest (kind : BitVec 3) (e : BitVec 4) (s : State) (k : View → Held → Out) : Out :=
  withStatus isOpen e s fun _ =>
    withKind kind e s fun v =>
      match (s.actor.buffer e).head? with
      | none => if s.actor.disc = .untimed then .next (s.stall .message) else refuse 3 e s
      | some h =>
        if s.mayTake h && decide (h.arrived < s.time) then
          if s.actor.fetched h then k v h
          else
            let t := s.fetchBack s.ctx.slot
            .next (if t.actor.log = s.actor.log then t.stall .message else t)
        else if s.actor.disc = .untimed then .next (s.stall .message) else refuse 3 e s

/-- Whether a taken message fits the state: class, header state, label and delegate flags (R167, R169). -/
def fits (v : View) (st : BitVec 6) (label deleg : Bool) (h : Held) : Bool :=
  h.msg.hdr.cls = v.cls && h.msg.hdr.state = st && h.msg.hdr.label = label && h.msg.hdr.deleg = deleg

/-- RECV (R169). -/
def execRecv (b a : BitVec 5) (e : BitVec 4) (s : State) : Out :=
  withOldest 1 e s fun v h =>
    let r := s.actor.ep e
    if ! fits v r.state false false h ∨ s.hereCore.bounded r.itin v.then0 r.loop then refuse 1 e s
    else takeMsg e h v.then0 s fun t =>
      .next (((t.setG a (h.addr.setWidth 64)).setG b (BitVec.ofNat 64 h.msg.payload.length)).advance 4)

/-- OFFER (R169). -/
def execOffer (a : BitVec 5) (e : BitVec 4) (s : State) : Out :=
  withOldest 3 e s fun v h =>
    let r := s.actor.ep e
    let l := (h.msg.payload.headD 0).toNat
    match v.next[l]? with
    | none => refuse 1 e s
    | some nx =>
      if ! fits v r.state true false h ∨ s.hereCore.bounded r.itin nx r.loop then refuse 1 e s
      else takeMsg e h nx s fun t => .next ((t.setG a (BitVec.ofNat 64 l)).advance 4)

/-- PROBE (R171). -/
def execProbe (a : BitVec 5) (e : BitVec 4) (s : State) : Out :=
  withStatus isOpen e s fun _ =>
    let l := s.actor.buffer e
    let x : Nat := match l with
      | [] => 0
      | h :: _ => (if h.msg.hdr.deleg then 2 ^ 16 else 0) + (if h.msg.hdr.close then 2 ^ 15 else 0) + (if h.msg.hdr.label then 2 ^ 14 else 0)
          + h.msg.hdr.cls.toNat * 2 ^ 8 + min 255 (l.filter fun h => s.mayTake h && ! h.msg.hdr.deleg).length
    writeG 4 a (BitVec.ofNat 64 x) s

/-! ## Connecting (R172, R173, R184) -/

/-- The torus holds a module's coordinates; a size of d in a dimension is stored as d − 1 (R12). -/
def inTorus (torus c : BitVec 12) : Bool :=
  decide ((c.extractLsb' 0 4).toNat ≤ (torus.extractLsb' 0 4).toNat) && decide ((c.extractLsb' 4 4).toNat ≤ (torus.extractLsb' 4 4).toNat) &&
    decide ((c.extractLsb' 8 4).toNat ≤ (torus.extractLsb' 8 4).toNat)

/-- g[a] of connect names a peer within its limits (R173, R250). Of a KIND 4 word bits [23:17], which belong to no field, must be 0 as well (log 70). -/
def peerOk (s : State) (x : Word) : Bool :=
  let k := x.extractLsb' 61 3
  let mid := x.extractLsb' 40 21
  let co := x.extractLsb' 28 12
  let pe := x.extractLsb' 24 4
  if k = 0 then mid = 0 && co = 0 && pe ≠ 15
  else if k = 2 then mid = 0 && co = 0 && pe = 0 && x.extractLsb' 22 2 ≠ 3 && x.extractLsb' 0 22 = 0
  else if k = 4 then mid = 0 && co = 0 && pe = 0 && x.extractLsb' 17 7 = 0
  else if k = 5 then mid = 0 && pe ≠ 15 && co ≠ s.coords && inTorus s.torus co
  else false

/-- The itinerary that g[b] names, loaded for the actor's tenant (R173), its directory entry read without an error (R316). -/
def withItin (x : Word) (e : BitVec 4) (s : State) (k : BitVec 7 → Out) : Out :=
  if x.toNat / 2 ^ 7 ≠ 0 then epTrap 0x0C6 e s
  else
    let d := s.hereCore.dirAt (x.setWidth 7)
    if s.hereCore.badItins.contains (x.setWidth 7 : BitVec 7).toNat then .next (trapWith none none 0x1C4 0 s)
    else if d.valid && d.tenant = s.actor.aid.tenant then k (x.setWidth 7) else epTrap 0x0C5 e s

/-- A request of connect, spawn or gjoin with its key: it is always staged, held or deferred (R163), takes the next sequence, and sets LASTVRT as a send does. -/
def queueRequest (e : BitVec 4) (it : Key → VrtRule → Item) (f : Actor → Actor) (s : State) : Out :=
  match s.sendVrt (s.actor.ep e).lastvrt with
  | .error (c, d) => raise c d s
  | .ok (rule, v) =>
    s.queue (it ⟨v, s.actor.aid.id, s.actor.seq⟩ rule) fun t =>
      changeEp e (fun a => let b := f a; { (if b.disc = .untimed then b else b.setEp e { b.ep e with lastvrt := v }) with seq := b.seq + 1 }) t
        fun t => .next ((t.advance 4).syncDir t.here)

/-- CONNECT (R173): STATUS becomes connecting at issue. -/
def execConnect (c : BitVec 6) (b a : BitVec 5) (e : BitVec 4) (s : State) : Out :=
  withStatus isIdle e s fun r =>
    if ! peerOk s (s.g a) then epTrap 0x0C6 e s
    else withItin (s.g b) e s fun i =>
      queueRequest e (fun key rule => .connect e (s.g a) i c key rule)
        (fun x => (x.setEp e { x.ep e with status := .connecting, itin := i, pkind := (x.ep e).pkind.again }).setAux e
          { x.auxOf e with old := r.status, cls := c, spawning := false, closeLeft := false }) s

/-- ACCEPT (R172): armed when it is released. -/
def execAccept (c : BitVec 6) (b a : BitVec 5) (e : BitVec 4) (s : State) : Out :=
  withStatus isIdle e s fun _ =>
    let x := s.g a
    if x ≠ BitVec.allOnes 64 ∧ (x.extractLsb' 61 3 = 2 ∨ ! peerOk s x) then epTrap 0x0C6 e s
    else withItin (s.g b) e s fun i => s.queue (.accept e x i c) fun t => .next (t.advance 4)

/-- SPAWN (R184). -/
def execSpawn (c : BitVec 6) (b a : BitVec 5) (e : BitVec 4) (s : State) : Out :=
  withStatus isIdle e s fun r =>
    let x := s.g a
    if x.toNat / 2 ^ 32 ≠ 0 ∨ x.extractLsb' 12 4 ≠ 0 then epTrap 0x0C6 e s
    else withItin (s.g b) e s fun i =>
      queueRequest e (fun key rule => .spawn e x i c key rule)
        (fun y => (y.setEp e { y.ep e with status := .connecting, pkind := .actor, pmod := 0, itin := i, state := 0, loop := 0, sent := 0, rcvd := 0 }).setAux e
          { y.auxOf e with old := r.status, cls := c, spawning := true, closeLeft := false }) s

/-! ## Closing (R172, R175) -/

/-- CLOSE (R175); of an armed endpoint it disarms (R172). -/
def execClose (k : BitVec 5) (e : BitVec 4) (s : State) : Out :=
  withStatus (fun r => r.status = .opened || r.status = .armed) e s fun r =>
    if r.status = .armed then changeEp e (fun a => a.setEp e { a.ep e with status := .closed }) s fun t => .next (t.advance 4)
    else
      let v := s.epView e
      let cp := if v.kind.toNat ≥ 6 then r.state else v.close
      let (rule, vrt) := s.closeVrt r.lastvrt
      let h := { s.actor.header e vrt 62 16 s.ctx.prioEff with close := true }
      let m : Msg := ⟨h, noticeBytes r.state cp (k.setWidth 9) r.sent, .plain, s.actor.peerOf e⟩
      s.queue (.close e m rule) fun t =>
        changeEp e (fun a =>
          let q := (a.ep e).closed (k.setWidth 9) cp
          { (a.setEp e { q with sent := q.sent + 1, lastvrt := if a.disc = .untimed then q.lastvrt else vrt }) with seq := a.seq + 1 }) t
          fun t => .next (t.advance 4)

/-! ## estate (R185) -/

def EpStatus.code : EpStatus → Nat
  | .free => 0 | .armed => 1 | .connecting => 2 | .opened => 3 | .closing => 4 | .closed => 5 | .delegated => 6

def PKind.code : PKind → Nat
  | .actor => 0 | .memory => 1 | .depot => 2 | .collective => 3 | .host => 4 | .remote => 5

/-- Messages in an endpoint's buffer not yet consumed (R157): those in its slots, for e15 also reports, notices and close notices that it took in (R174, R176), and those returned to history records (R367). -/
def Actor.queued (a : Actor) (e : BitVec 4) : Nat :=
  (a.box.filter fun h => ! h.consumed && (if h.place = .e15 then e = 15 else h.ep = e && (h.place = .run || h.place = .hist))).length

/-- Word w of an endpoint's record (R156, R157). -/
def Actor.epWord (a : Actor) (e : BitVec 4) (w : BitVec 2) : Word :=
  let r := a.ep e
  BitVec.ofNat 64 (match w.toNat with
  | 0 => r.status.code * 2 ^ 61 + r.pkind.code * 2 ^ 58 + r.look.toNat * 2 ^ 50 + r.itin.toNat * 2 ^ 43 + r.state.toNat * 2 ^ 37
      + r.peer.toNat * 2 ^ 13 + r.pmod.toNat * 2
  | 1 => r.lastvrt.toNat
  | 2 => r.loop.toNat * 2 ^ 48 + r.sent.toNat * 2 ^ 24 + r.rcvd.toNat
  | _ => r.ccause.toNat * 2 ^ 55 + r.cpoint.toNat * 2 ^ 49 + (if r.cbypeer then 2 ^ 48 else 0) + r.bufbase.toNat * 2 ^ 30
      + min (a.queued e) 255 * 2 ^ 16 + r.slot.toNat)

/-- ESTATE (R185): it never traps and never waits. -/
def execEstate (w : BitVec 2) (a : BitVec 5) (e : BitVec 4) (s : State) : Out := writeG 4 a (s.actor.epWord e w) s

/-! ## Delegation (R180, R181) -/

/-- SENDEP (R180). The delegated endpoint's status is part of check 1 (R161). The causes 0x0E1 and 0x0E2 come after the carrier's check 3, and an error in the delegated endpoint's directory entry after them: the manual places neither, and the order is the model's choice (log 98). -/
def execSendep (c : BitVec 6) (m : BitVec 4) (e : BitVec 4) (s : State) : Out :=
  withStatus isOpen e s fun r =>
    let q := s.actor.ep m
    soundEp m s <|
    if q.pkind = .collective ∨ q.status ≠ .opened then epTrap 0x0E0 e s
    else withKind 4 e s fun v =>
      if v.cls ≠ c ∨ s.hereCore.bounded r.itin v.then0 r.loop then refuse 1 e s
      else if (s.actor.auxOf m).holdDirect then epTrap 0x0E1 e s
      else if s.actor.queued m ≠ 0 then epTrap 0x0E2 e s
      else if s.hereCore.badItins.contains q.itin.toNat then raise 0x1C4 0 s
      else
        let here : Loc := ⟨s.here, s.ctx.slot⟩
        let bytes := leBytes (s.hereCore.dirAt q.itin).fp.toNat 8 ++ leBytes (s.actor.epWord m 0).toNat 8 ++ leBytes (s.actor.epWord m 1).toNat 8
          ++ leBytes (s.actor.epWord m 2).toNat 8 ++ leBytes ((here.peer m).toNat * 2 ^ 13) 8
        sendMsg e c (.delegation (s.actor.auxOf m).peerId s.coords) false false true bytes v.then0 true s fun t =>
          changeEp m (fun a => a.setEp m { a.ep m with status := .delegated }) t fun t => .next (t.advance 4)

/-- The lowest-indexed valid directory entry of a tenant with a fingerprint (R313). -/
def Core.findItin (k : Core) (t : BitVec 4) (fp : Word) : Option (BitVec 7) :=
  (k.dir.find? fun x => x.2.valid && x.2.tenant = t && x.2.fp = fp).map fun x => BitVec.ofNat 7 x.1

/-- Whether that search reads an entry in error (R316): one up to the entry that it finds. -/
def Core.findBad (k : Core) (t : BitVec 4) (fp : Word) : Bool :=
  k.badItins.any fun i => match k.findItin t fp with
    | some j => decide (i ≤ j.toNat)
    | none => true

/-- RECVEP (R181). The causes 0x0E3 to 0x0E5 come in that order after the carrier's itinerary and message checks: the manual gives them no place, and the order is the model's choice (log 98). -/
def execRecvep (m : BitVec 4) (e : BitVec 4) (s : State) : Out :=
  withOldest 5 e s fun v h =>
    let r := s.actor.ep e
    let w := payloadWord h.msg.payload
    if ! fits v r.state false true h ∨ s.hereCore.bounded r.itin v.then0 r.loop then refuse 1 e s
    else soundEp m s <|
    if ! isIdle (s.actor.ep m) then epTrap 0x0E3 e s
    else if s.hereCore.findBad s.actor.aid.tenant (w 0) then .next (trapWith none none 0x1C4 0 s)
    else
      match s.hereCore.findItin s.actor.aid.tenant (w 0) with
      | none => epTrap 0x0E4 e s
      | some i =>
        let d := s.hereCore.dirAt i
        match s.actor.bind m d.look d.slot with
        | none => epTrap 0x0E5 e s
        | some _ =>
          let old : Loc × BitVec 4 := (peerLoc ((w 4).extractLsb' 13 24), peerEp ((w 4).extractLsb' 13 24))
          let from_ : BitVec 24 × BitVec 12 := match h.msg.kind with
            | .delegation p x => (p, x)
            | _ => (0, s.coords)
          let kind := (PKind.ofCode ((w 1).extractLsb' 58 3).toNat).seen ((w 1).extractLsb' 1 12) from_.2 s.coords
          takeMsg e h v.then0 s fun t =>
            t.queue (.relocate m from_.2 old.1 old.2 h.msg.hdr.key.sender) fun t =>
              changeEp m (fun a =>
                let b := (a.bind m d.look d.slot).getD a
                let q : EpRec :=
                  { b.ep m with
                    status := .connecting, pkind := kind.1, itin := i,
                    state := (w 1).extractLsb' 37 6, peer := (w 1).extractLsb' 13 24, pmod := kind.2, lastvrt := w 2,
                    loop := (w 3).extractLsb' 48 16, sent := (w 3).extractLsb' 24 24, rcvd := (w 3).extractLsb' 0 24 }
                (b.setEp m q).setAux m { b.auxOf m with peerId := from_.1, holdDirect := true, spawning := false, closeLeft := false }) t
                fun t => .next ((t.advance 4).syncDir t.here)

end Sys2Proof.Machine
end

