-- ==== Sys2Proof/Machine/Memory.lean ====
section
/-! DEFINITION. The memory requests and copy commands at issue: majors 0x2C and 0x2D (10_global_memory.md R224 to R233). -/

namespace Sys2Proof.Machine

/-! ## Checks at issue (R227) -/

/-- The window of an address: global 0, host 1 and 2 (R221, R195). -/
def windowOf (va : Nat) : Option Nat :=
  if 0x0001_0000_0000 ≤ va ∧ va < 0x00F0_0000_0000_0000 then some 0
  else if 0x00F0_0000_0000_0000 ≤ va ∧ va < 0x00F8_0000_0000_0000 then some 1
  else if 0x00F8_0000_0000_0000 ≤ va ∧ va < 0x0100_0000_0000_0000 then some 2 else none

/-- Check 3: the first and the last byte lie in one window. -/
def inWindow (r : Nat × Nat) : Bool := (windowOf r.1).isSome && windowOf r.1 = windowOf (r.1 + r.2 - 1)

/-- The pages that a range touches. -/
def pagesOf (r : Nat × Nat) : List Nat := List.range' (r.1 / 65536) ((r.1 + r.2 - 1) / 65536 + 1 - r.1 / 65536)

/-- Check 6: the address of the first byte whose page lacks the right (R321). -/
def State.noRight (s : State) (write : Bool) (rs : List (Nat × Nat)) : Option Word :=
  (rs.flatMap fun r => (pagesOf r).map fun p => (p, max r.1 (p * 65536))).findSome? fun x =>
    let q := s.hereCore.rights s.actor.aid.tenant x.1
    if (if write then q.2.1 else q.1) then none else some (BitVec.ofNat 64 x.2)

/-- The local range of a request of a global address (check 5): the causes for the window and the zones, with the detail of each (R353). -/
def State.localRefused (s : State) (write : Bool) (addr n : Nat) (cw cz : BitVec 9) (va : Word) : Option (BitVec 9 × Word) :=
  if n = 0 then none
  else (checkLocal s.actor s.ctx write (BitVec.ofNat 64 addr) n 1).map fun b => (if b = .window then cw else b.cause (cz - 2), b.detail va)

/-! ## Leaving (R224, R225) -/

/-- The e15 limit and the VRT of a request, its record on e15 (R225), and its leaving at once or not (R224). -/
def issueRequest (limit : BitVec 9) (addr : Word) (read : Bool) (pages : List Nat) (it : Key → VrtRule → Item) (s : State) : Out :=
  let a := s.actor
  soundEp 15 s <|
  if a.e15Count ≥ 32 then raise limit addr s
  else
    match s.sendVrt (a.ep 15).lastvrt with
    | .error (c, d) => raise c d s
    | .ok (rule, v) =>
      let item := it ⟨v, a.aid.id, a.seq⟩ rule
      let now := read && ! (if a.disc = .timed then s.ctx.relFence else s.fencedOff false) && ! s.tooFar a.aid a.seq a.seq
      let waiting := s.hereCore.fenced.any fun x => x.slot = s.ctx.slot
      let rec_ (x : Actor) : Actor :=
        let q := x.ep 15
        { (x.setEp 15 { q with sent := q.sent + 1, lastvrt := if x.disc = .untimed then q.lastvrt else v }) with
          seq := x.seq + 1, e15used := x.e15used ++ [x.seq] }
      let mark (t : State) : State := t.setCtx { t.ctx with wpages := t.ctx.wpages ++ pages }
      if now then
        if ! waiting && ! s.mayLeave a.aid item then .next (s.stall .queueFull)
        else changeEp 15 rec_ s fun t => .next ((t.leaveNow item).advance 4)
      else s.queue item fun t => changeEp 15 rec_ t fun t => .next ((mark t).advance 4)

/-- Whether a write issued now is an sc write (R239). -/
def State.scWrite (s : State) : Bool := s.ctx.scFence

def State.request (s : State) (op : MemOp) (addr : Word) (len : Nat) (c : BitVec 6) (ack sc : Bool) (key : Key) : MemReq :=
  { actor := s.actor.aid, loc := ⟨s.here, s.ctx.slot⟩, key := key, op := op, addr := addr, len := len, cls := c, ack := ack, sc := sc, crossed := false }

/-! ## mrd, mwr, mamo (R228, R229) -/

/-- mrd and mwr: the descriptor, then the checks of R227 in their order. -/
def readWrite (write : Bool) (c : BitVec 6) (b a : BitVec 5) (s : State) : Out :=
  let va := s.g a
  let d := s.g b
  let len := (d.setWidth 9).toNat
  let laddr := (d.extractLsb' 32 18).toNat
  let ack := d.getLsbD 16
  if d.toNat / 2 ^ 50 ≠ 0 ∨ d.extractLsb' 17 15 ≠ 0 ∨ d.extractLsb' 9 7 ≠ 0 ∨ len = 0 ∨ 256 < len ∨ (! write ∧ (laddr ≠ 0 ∨ ack)) then raise 0x103 va s
  else if ! inWindow (va.toNat, len) then raise 0x101 va s
  else if va.toNat / 65536 ≠ (va.toNat + len - 1) / 65536 then raise 0x102 va s
  else
    match (if write then s.localRefused false laddr len 0x104 0x105 va else none) with
    | some e => raise e.1 e.2 s
    | none =>
      match s.noRight write [(va.toNat, len)] with
      | some x => raise (if write then 0x107 else 0x106) x s
      | none =>
        match (if write then s.hereCore.badIn laddr len else none) with
        | some w => raise 0x1C0 (BitVec.ofNat 64 (8 * w)) s
        | none =>
          issueRequest 0x108 va (! write) (if write then [va.toNat / 65536] else [])
            (fun key rule => .mem (s.request (if write then .write (s.readBytes laddr len) else .read) va len c (! write || ack) (write && s.scWrite) key) rule) s

/-- MRD (R228). -/
def execMrd (c : BitVec 6) (b a : BitVec 5) (s : State) : Out := readWrite false c b a s
/-- MWR (R228): the bytes are copied at issue. -/
def execMwr (c : BitVec 6) (b a : BitVec 5) (s : State) : Out := readWrite true c b a s

/-- MAMO (R229): it is an sc write (R239). -/
def execMamo (c : BitVec 6) (b a : BitVec 5) (s : State) : Out :=
  let va := s.g a
  let d := s.g b
  let n := if d.getLsbD 4 then 4 else 8
  if d.toNat / 64 ≠ 0 ∨ 8 ≤ d.toNat % 16 ∨ (d.getLsbD 5 ∧ d.toNat % 16 ≠ 4 ∧ d.toNat % 16 ≠ 5) then raise 0x103 va s
  else if va.toNat % n ≠ 0 then raise 0x100 va s
  else if ! inWindow (va.toNat, n) then raise 0x101 va s
  else
    match s.noRight true [(va.toNat, n)] with
    | some x => raise 0x107 x s
    | none =>
      issueRequest 0x108 va false [va.toNat / 65536]
        (fun key rule => .mem (s.request (.amo d (s.g (b + 1)) (s.g (b + 2))) va n c true true key) rule) s

/-! ## Copy commands (R230 to R233) -/

/-- The global ranges of a copy command (R231, R232). -/
def copyRanges (op : CopyOp) (va len : Nat) (x : Word) : List (Nat × Nat) :=
  match op with
  | .get => [(va, len)]
  | .put => [(va, len)]
  | .fill => [(va, len)]
  | .cvt =>
    let seg := if x.setWidth 3 = (1 : BitVec 3) ∨ x.setWidth 3 = (3 : BitVec 3) then 1156 else 2116
    (List.range (len / 4096)).map fun u => (va + u * (x.extractLsb' 32 16).toNat, seg)
  | _ =>
    let es := (x.setWidth 13).toNat
    (List.range (len / es)).map fun k => (((va : Int) + k * (x.extractLsb' 32 32).toInt).toNat, es)

/-- The bytes of the local range (R230, R232). -/
def copyLocal (op : CopyOp) (len : Nat) (x : Word) : Nat :=
  match op with
  | .fill => 0
  | .cvt => if x.setWidth 3 = (4 : BitVec 3) then 2112 * len / 4096 else len
  | _ => len

/-- Descriptor fields outside their limits (R230 to R232, 0x124). -/
def copyBad (op : CopyOp) (d x : Word) (read : Bool) : Bool :=
  let len := (d.setWidth 17).toNat
  d.extractLsb' 50 13 ≠ 0 || d.extractLsb' 17 15 ≠ 0 || decide (len < 8) || decide (65536 < len) || (! read && ! d.getLsbD 63) ||
    (match op with
    | .fill => d.extractLsb' 32 18 ≠ 0
    | .gath => x.extractLsb' 13 19 ≠ 0 || decide ((x.setWidth 13).toNat < 8) || decide (4096 < (x.setWidth 13).toNat) || decide (len % (x.setWidth 13).toNat ≠ 0)
    | .scat => x.extractLsb' 13 19 ≠ 0 || decide ((x.setWidth 13).toNat < 8) || decide (4096 < (x.setWidth 13).toNat) || decide (len % (x.setWidth 13).toNat ≠ 0)
    | .cvt =>
      let ss := (x.extractLsb' 32 16).toNat
      let code := (x.setWidth 3).toNat
      x.extractLsb' 48 16 ≠ 0 || x.extractLsb' 3 29 ≠ 0 || decide (5 ≤ code) || decide (len % 4096 ≠ 0) || decide (ss % 64 ≠ 0) ||
        decide (ss < if code = 1 ∨ code = 3 then 1216 else 2176)
    | _ => false)

/-- Values not a multiple of 8 (0x120). -/
def copyMisaligned (op : CopyOp) (va d x : Word) : Bool :=
  decide (va.toNat % 8 ≠ 0) || decide ((d.extractLsb' 32 18).toNat % 8 ≠ 0) || decide ((d.setWidth 17).toNat % 8 ≠ 0) ||
    (match op with
    | .gath => decide ((x.setWidth 13).toNat % 8 ≠ 0) || decide ((x.extractLsb' 32 32).toNat % 8 ≠ 0)
    | .scat => decide ((x.setWidth 13).toNat % 8 ≠ 0) || decide ((x.extractLsb' 32 32).toNat % 8 ≠ 0)
    | _ => false)

/-- The global ranges lie each in one window; an element below address 0 lies in none (R227 item 3). -/
def rangesOk (op : CopyOp) (va len : Nat) (x : Word) : Bool :=
  (match op with
  | .gath => decide (0 ≤ (va : Int) + ((len / (x.setWidth 13).toNat - 1 : Nat) : Int) * (x.extractLsb' 32 32).toInt)
  | .scat => decide (0 ≤ (va : Int) + ((len / (x.setWidth 13).toNat - 1 : Nat) : Int) * (x.extractLsb' 32 32).toInt)
  | _ => true) && (copyRanges op va len x).all inWindow

/-- A copy command at issue: the checks of R227 in their order. -/
def copyCommand (op : CopyOp) (c : BitVec 6) (b a : BitVec 5) (s : State) : Out :=
  let va := s.g a
  let d := s.g b
  let x := s.g (b + 1)
  let len := (d.setWidth 17).toNat
  let laddr : BitVec 18 := d.extractLsb' 32 18
  let cmd (key : Key) : CopyCmd :=
    ⟨s.actor.aid, ⟨s.here, s.ctx.slot⟩, s.cx, key, op, va, laddr, len, x, d.getLsbD 63, c, s.scWrite, 0, 0, []⟩
  let read := (cmd Key.zero).isRead
  if copyBad op d x read then raise 0x124 va s
  else if copyMisaligned op va d x then raise 0x120 va s
  else if ! rangesOk op va.toNat len x then raise 0x121 va s
  else
    let rs := copyRanges op va.toNat len x
    match s.localRefused read laddr.toNat (copyLocal op len x) 0x122 0x123 va with
    | some e => raise e.1 e.2 s
    | none =>
      match s.noRight (! read) rs with
      | some y => raise (if read then 0x125 else 0x126) y s
      | none => issueRequest 0x12A va read (if read then [] else rs.flatMap pagesOf) (fun key rule => .copy (cmd key) rule) s

/-- CPGET (R231). -/
def execCpget (c : BitVec 6) (b a : BitVec 5) (s : State) : Out := copyCommand .get c b a s
/-- CPPUT (R231). -/
def execCpput (c : BitVec 6) (b a : BitVec 5) (s : State) : Out := copyCommand .put c b a s
/-- CPGATH (R231). -/
def execCpgath (c : BitVec 6) (b a : BitVec 5) (s : State) : Out := copyCommand .gath c b a s
/-- CPSCAT (R231). -/
def execCpscat (c : BitVec 6) (b a : BitVec 5) (s : State) : Out := copyCommand .scat c b a s
/-- CPFILL (R231). -/
def execCpfill (c : BitVec 6) (b a : BitVec 5) (s : State) : Out := copyCommand .fill c b a s
/-- CPCVT (R232). -/
def execCpcvt (c : BitVec 6) (b a : BitVec 5) (s : State) : Out := copyCommand .cvt c b a s

/-- Whether a copy command of the context, or of its actor when `all`, that has left the core has not completed (R233). -/
def State.copying (s : State) (x : BitVec 2) (k : BitVec 4) : Bool :=
  s.hereCore.cq.any (fun c => c.ctx = x && c.loc.slot = k) ||
    (s.requests (s.actorAt k).aid).any fun r => match r.op with
      | .put .. => true
      | .finish .. => true
      | .fetch => true
      | _ => false

/-- CPWAIT (R233): the context stalls until its copy commands that have left have completed. -/
def execCpwait (s : State) : Out :=
  if s.copying s.cx s.ctx.slot then .next (s.stall .engine) else .next (s.advance 4)

end Sys2Proof.Machine
end

