-- ==== Sys2Proof/Machine/System.lean ====
section
/-! DEFINITION. Majors 0x30 and 0x34: virtual time (17_virtual_time.md R376), prio (R343), budget (R382), join counters (18_counters.md R377 to R379), commit and done (12_queues.md R275, R276), capabilities (R332, R333), system registers (08_system_registers.md R188 to R190), fences (R235), trap and halt (R350, R351). -/

namespace Sys2Proof.Machine

/-! ## System registers (R188 to R190) -/

def Disc.code : Disc → Nat
  | .untimed => 0 | .conservative => 1 | .timed => 2

/-- SELF (R189). -/
def State.selfWord (s : State) : Word :=
  let a := s.actor
  BitVec.ofNat 64 (a.disc.code * 2 ^ 60 + a.aid.tenant.toNat * 2 ^ 56 + s.ctx.slot.toNat * 2 ^ 52 + (s.here.toNat / 4) * 2 ^ 42
    + (s.here.toNat % 4) * 2 ^ 40 + a.image.toNat * 2 ^ 24 + a.aid.id.toNat)

/-- DURSTAT (R267). -/
def DurStat.word (d : DurStat) : Word :=
  BitVec.ofNat 64 ((if d.fail then 2 ^ 63 else 0) + d.cause.toNat * 2 ^ 40 + d.page.toNat)

/-- BOOTSTAT (R192). -/
def Mgmt.bootstat (m : Mgmt) : Word :=
  BitVec.ofNat 64 (m.step.toNat * 2 ^ 56 + m.fwMaj.toNat * 2 ^ 48 + m.fwMin.toNat * 2 ^ 32 + m.reason.toNat * 2 ^ 16
    + m.attempts.toNat * 2 ^ 12 + (if m.minimal then 8 else 0) + (if m.ready then 1 else 0))

/-- The value of a system register (R188, R189). -/
def State.sysreg (s : State) (n : BitVec 12) : Word :=
  let x := s.ctx
  let k := s.hereCore
  match n.toNat with
  | 0x000 => x.vnow
  | 0x001 => x.vout
  | 0x002 => k.vmile
  | 0x003 => BitVec.ofNat 64 (k.rounds.toNat * 2 ^ 32 + (if k.settled then 1 else 0))
  | 0x008 => x.fflags.setWidth 64
  | 0x009 => x.vrnd.setWidth 64
  | 0x00A => x.seed.setWidth 64
  | 0x00B => s.mxhold
  | 0x00C => s.actor.durstat.word
  | 0x010 => x.jstat
  | 0x011 => x.trapinfo[0]
  | 0x012 => x.trapinfo[1]
  | 0x013 => x.trapinfo[2]
  | 0x014 => x.trapinfo[3]
  | 0x018 => x.budget.setWidth 64
  | 0x019 => x.prioEff.setWidth 64 <<< 2 ||| x.prioBase.setWidth 64
  | 0x01A => s.selfWord
  | 0x100 => k.cycle
  | 0x200 => s.mgmt.bootstat
  | _ => 0

/-- Registers with a field of access HW (R189, R190). -/
def sysregHw (n : BitVec 12) : Bool :=
  match n.toNat with
  | 0x000 => true | 0x002 => true | 0x003 => true | 0x010 => true | 0x011 => true | 0x012 => true | 0x013 => true | 0x014 => true
  | 0x018 => true | 0x019 => true | 0x01A => true | 0x100 => true
  | _ => false

/-- A register's RW fields written: `f` makes the new value from the old one. A SEED of zero becomes 1 (R97); a VRND mode of 6 or 7 leaves VRND (R112). -/
def State.setSysreg (s : State) (n : BitVec 12) (f : Word → Word) : State :=
  let x := s.ctx
  match n.toNat with
  | 0x001 => s.setCtx { x with vout := f x.vout }
  | 0x008 => s.setCtx { x with fflags := (f (x.fflags.setWidth 64)).setWidth 7 }
  | 0x009 =>
    let m : BitVec 3 := (f (x.vrnd.setWidth 64)).setWidth 3
    if m.toNat < 6 then s.setCtx { x with vrnd := m } else s
  | 0x00A =>
    let v : BitVec 32 := (f (x.seed.setWidth 64)).setWidth 32
    s.setCtx { x with seed := if v = 0 then 1 else v }
  | _ => s

/-- DURSTAT after a write that clears FAIL: a failure of the same cycle stays, with what it records (R267). -/
def Actor.clearDur (a : Actor) (now : Nat) : DurStat :=
  match a.durFail with
  | some (c, d) => if c = now then d else { a.durstat with fail := false }
  | none => { a.durstat with fail := false }

/-- syswr, sysbs and sysbc: an HW register refuses (R190, 0x1A3); `clear` says that ones clear the W1C field of DURSTAT. -/
def sysWrite (n : BitVec 12) (v : Word) (clear : Bool) (f : Word → Word) (s : State) : Out :=
  if sysregHw n then raise 0x1A3 (n.setWidth 64) s
  else if n = 0x00C then
    let a := s.actor
    if clear && v.getLsbD 63 then .next ((s.setActor { a with durstat := a.clearDur s.time }).advance 4) else .next (s.advance 4)
  else .next ((s.setSysreg n f).advance 4)

/-- SYSRD (R190). -/
def execSysrd (n : BitVec 12) (d : BitVec 5) (s : State) : Out := writeG 4 d (s.sysreg n) s
/-- SYSWR (R190). -/
def execSyswr (n : BitVec 12) (a : BitVec 5) (s : State) : Out := sysWrite n (s.g a) true (fun _ => s.g a) s
/-- SYSBS (R190). -/
def execSysbs (n : BitVec 12) (a : BitVec 5) (s : State) : Out := sysWrite n (s.g a) true (fun old => old ||| s.g a) s
/-- SYSBC (R190). -/
def execSysbc (n : BitVec 12) (a : BitVec 5) (s : State) : Out := sysWrite n (s.g a) false (fun old => old &&& ~~~(s.g a)) s

/-! ## Virtual time, priority, budget (R376, R343, R382) -/

/-- VNOW (R376). -/
def execVnow (d : BitVec 5) (s : State) : Out := writeG 4 d s.ctx.vnow s

/-- VSET (R376). -/
def execVset (a : BitVec 5) (s : State) : Out :=
  let x := s.ctx
  let v := if s.actor.disc = .untimed then s.g a else if x.vnow.ult (s.g a) then s.g a - x.vnow else 0
  .next ((s.setCtx { x with vout := v }).advance 4)

/-- VMILE (R376). -/
def execVmile (d : BitVec 5) (s : State) : Out := writeG 4 d s.hereCore.vmile s

/-- PRIO (R343). -/
def execPrio (a : BitVec 5) (s : State) : Out :=
  let x := s.g a
  if s.actor.prio.toNat < x.toNat then raise 0x1A0 x s
  else
    let p : BitVec 2 := x.setWidth 2
    .next ((s.setCtx { s.ctx with prioBase := p, prioEff := if p.ult s.actor.lent then s.actor.lent else p }).advance 4)

/-- BUDGET (R382): it can only shorten the activation. -/
def execBudget (a : BitVec 5) (s : State) : Out :=
  let n := s.g a
  if n = 0 ∨ 2 ^ 24 < n.toNat then raise 0x161 n s
  else .next ((s.setCtx { s.ctx with budget := BitVec.ofNat 25 (min s.ctx.budget.toNat n.toNat) }).advance 4)

/-! ## Join counters (R377 to R379) -/

/-- The doubleword of a join counter. -/
def State.word64 (s : State) (w : Nat) : Word := BitVec.ofNat 64 (leNat (s.hereCore.pad.bytes (8 * w) 8))

def clearArmed (x : Word) : Word := x &&& 0x7FFFFFFFFFFFFFFF

/-- JREG saved before its first change by the running activation (R365, R377). -/
def State.saveJreg (s : State) (k : BitVec 4) : Option State :=
  if savedSince (fun r => match r with | .jreg _ => true | _ => false) (s.actorAt k).log then some s
  else s.log k (.jreg (s.actorAt k).jreg)

/-- The checks of jarm and jdis on the counter's address: an 8-byte store into a kept zone (R379). -/
def counterRefused (s : State) (addr : Word) : Option Bad :=
  match checkLocal s.actor s.ctx true addr 8 8 with
  | some b => some b
  | none =>
    match s.actor.zoneOf (addr.toNat / 64) with
    | some z => if z.kind = .kept then none else some .zone
    | none => some .zone

/-- A doubleword of the running actor stored, its line saved first. -/
def storeWord (w : Nat) (v : Word) (s : State) (k : State → Out) : Out :=
  orNoRoom (s.store s.ctx.slot (8 * w) (leBytes v.toNat 8)) s k

/-- jdis on a word (R379). -/
def disarm (w : Nat) (s : State) : Out :=
  match s.hereCore.badIn (8 * w) 8 with
  | some _ => raise 0x1C0 (BitVec.ofNat 64 (8 * w)) s
  | none =>
    orNoRoom (s.saveJreg s.ctx.slot) s fun t =>
      storeWord w (clearArmed (t.word64 w)) t fun t =>
        let a := t.actor
        .next ((if a.jreg.word.toNat = w then t.setActor { a with jreg := JReg.zero } else t).advance 4)

/-- JARM (R379). -/
def execJarm (c : BitVec 6) (a d : BitVec 5) (s : State) : Out :=
  let addr := s.g a
  match counterRefused s addr with
  | some b => badAccess 0x048 b addr s
  | none =>
    let w := addr.toNat / 8
    let n : BitVec 16 := (s.g d).setWidth 16
    let old := s.actor.jreg
    let fresh (t : State) : Out :=
      if n = 0 then disarm w t
      else
        storeWord w (BitVec.ofNat 64 (2 ^ 63 + c.toNat * 2 ^ 56 + n.toNat * 2 ^ 32)) t fun t =>
          .next ((t.setActor { t.actor with jreg := ⟨true, 0, BitVec.ofNat 15 w⟩ }).advance 4)
    orNoRoom (s.saveJreg s.ctx.slot) s fun t =>
      if old.valid ∧ old.word.toNat ≠ w then
        match t.hereCore.badIn (8 * old.word.toNat) 8 with
        | some _ => raise 0x1C0 (BitVec.ofNat 64 (8 * old.word.toNat)) t
        | none => storeWord old.word.toNat (clearArmed (t.word64 old.word.toNat)) t fresh
      else fresh t

/-- JDIS (R379). -/
def execJdis (a : BitVec 5) (s : State) : Out :=
  let addr := s.g a
  match counterRefused s addr with
  | some b => badAccess 0x048 b addr s
  | none => disarm (addr.toNat / 8) s

/-! ## commit and done (R275, R276) -/

/-- The records since the newest marker taken out of a log: the backtrack log of the running activation (R275). -/
def sinceMarker : List Placed → List Placed
  | [] => []
  | p :: l => if p.entry.isMarker then p :: l else match p.entry with
    | .returned _ => p :: sinceMarker l
    | .spilledAnti _ => p :: sinceMarker l
    | _ => sinceMarker l

/-- COMMIT (R275): without effect in a timed activation. -/
def execCommit (s : State) : Out :=
  if s.actor.disc = .timed then .next (s.advance 4)
  else
    let items := s.ctx.staging
    let t := s.setCtx { s.ctx with staging := [], committed := true, kept := s.ctx.consumed.length }
    let t := t.setLogged t.ctx.slot { t.actor with log := sinceMarker t.actor.log }
    let t := t.releaseAll t.ctx.slot t.ctx.key items
    let p := t.ctx.prioBase
    .next ((t.setCtx { t.ctx with prioEff := if p.ult t.actor.lent then t.actor.lent else p }).advance 4)

/-- The endpoints that keep an actor from retiring (R38). -/
def Actor.live (a : Actor) : Option (BitVec 4) :=
  ((List.range 15).map fun i => BitVec.ofNat 4 i).find? fun e =>
    match (a.ep e).status with
    | .armed => true
    | .connecting => true
    | .opened => true
    | .delegated => true
    | _ => false

/-- What a reinjected message is at its destination, which receives it as a first arrival: a reply holds no slot any more and waits for one (R349). -/
def MsgKind.anew : MsgKind → MsgKind
  | .reply st va => .again st va
  | k => k

/-- The diversion that trap #31 has marked for reinjection, with the message as it was and its actor (R349). -/
def Ctx.marked (x : Ctx) : Option (Held × Header × AId × MsgKind) :=
  match x.reinject, x.trigger with
  | true, some t => match t.held.msg.kind with
    | .diversion _ orig who was => some (t.held, orig, who, was)
    | _ => none
  | _, _ => none

/-- The reinjection staged by `done`, as the activation's last item, with the slot's bytes as they stand (R349): it reads them (R202), and it takes its place in the staging queue (R273). -/
def reinject (s : State) (k : State → Out) : Out :=
  match s.ctx.marked with
  | none => k s
  | some (h, orig, who, was) =>
    match s.hereCore.badIn h.addr.toNat h.msg.payload.length with
    | some w => raise 0x1C0 (BitVec.ofNat 64 (8 * w)) s
    | none => s.queue (.reinject ⟨orig, s.hereCore.pad.bytes h.addr.toNat h.msg.payload.length, was.anew, who⟩) k

/-- done: the context is released once its waits are met, as a step of its own (R276). -/
def finish (n : Nat) (retire : Bool) (s : State) : Out :=
  match (if retire then s.actor.live else none) with
  | some e => epTrap 0x0CD e s
  | none => reinject s fun t => let t := t.advance n; .next (t.setCtx { t.ctx with phase := .releasing retire })

/-- DONE (R276). -/
def execDone (s : State) : Out := finish 4 false s
/-- DONE_RETIRE (R276, R38). -/
def execDoneRetire (s : State) : Out := finish 4 true s
/-- C_DONE (R52). -/
def execCDone (s : State) : Out := finish 2 false s

/-! ## Capabilities (R332, R333) -/

/-- CAPGIVE (R332). -/
def execCapgive (a d : BitVec 5) (s : State) : Out :=
  let va := s.g a
  let x := s.g d
  if windowOf va.toNat ≠ some 0 then raise 0x1BA va s
  else if x.extractLsb' 36 28 ≠ 0 ∨ 62 ≤ (x.extractLsb' 30 6).toNat ∨ 62 ≤ (x.extractLsb' 24 6).toNat then raise 0x1BB x s
  else
    match s.noRight true [(va.toNat, 1)] with
    | some y => raise 0x107 y s
    | none =>
      issueRequest 0x108 va false []
        (fun key rule => .mem (s.request (.capgive s.actor.aid.id x) va 1 (x.extractLsb' 30 6) true false key) rule) s

/-- CAPCHK (R333): it leaves at once and stalls its context until the home answers. -/
def execCapchk (a d : BitVec 5) (s : State) : Out :=
  let va := s.g a
  if windowOf va.toNat ≠ some 0 then raise 0x1BA va s
  else
    match s.noRight false [(va.toNat, 1)] with
    | some y => raise 0x106 y s
    | none =>
      let r := s.request (.capchk d s.cx) va 1 0 false false s.ctx.key
      let t := (s.post s.here.toNat (BitVec.allOnes 64) (.mem r)).advance 4
      .next (t.setCtx { t.ctx with wait := .memory })

/-! ## Fences (R235) -/

/-- A fence: in the staging queue of an untimed or conservative activation; at once in a timed one, unless it follows a deferred write, whose pages a durable fence of any kind waits for (R266). It never traps and never stalls: it takes its place in a queue that is full (log 74). -/
def fenceOp (kind : FenceKind) (scope : BitVec 4) (s : State) : Out :=
  let x := s.ctx
  let s := s.setCtx { x with scFence := kind = .sc && decide (scope.toNat ≥ 6) }
  let it : Item := .fence kind scope s.actor.seq (if scope = 10 then x.wpages else [])
  if s.actor.disc ≠ .timed then .next ((s.enqueue it).advance 4)
  else if x.relFence || ((kind ≠ .acq || scope = 10) && ! x.wpages.isEmpty) then
    .next (((s.enqueue it).setCtx { (s.enqueue it).ctx with relFence := true }).advance 4)
  else .next ((s.releaseAll x.slot x.key [it]).advance 4)

/-- FENCE_ACQ (R235). -/
def execFenceAcq (c : BitVec 4) (s : State) : Out := fenceOp .acq c s
/-- FENCE_REL (R235). -/
def execFenceRel (c : BitVec 4) (s : State) : Out := fenceOp .rel c s
/-- FENCE_FULL (R235). -/
def execFenceFull (c : BitVec 4) (s : State) : Out := fenceOp .full c s
/-- FENCE_SC (R235, R239). -/
def execFenceSc (c : BitVec 4) (s : State) : Out := fenceOp .sc c s

/-! ## trap and halt (R349 to R351) -/

/-- Whether the running activation was started by a diversion (R348). -/
def Ctx.diverted (x : Ctx) : Bool :=
  match x.trigger with
  | some t => match t.held.msg.kind with
    | .diversion _ _ _ _ => true
    | _ => false
  | none => false

/-- TRAP (R350); trap #31 in a lay-by activation started by a diversion marks it for reinjection (R349). -/
def execTrap (d : BitVec 5) (s : State) : Out :=
  if d = 31 ∧ s.ctx.diverted then .next ((s.setCtx { s.ctx with reinject := true }).advance 4)
  else raise (d.setWidth 9) 0 s

/-- A stop of a partition triggered by a halt or by a trap; a stopped one takes no trigger (R356). -/
def State.trip (s : State) (p : BitVec 4) : State :=
  if s.mgmt.stopped[p.toNat] then s else { s with mgmt := { s.mgmt with rbTrip := s.mgmt.rbTrip.set p.toNat true } }

/-- HALT (R351): it triggers a stop of the core's partition, or traps. -/
def execHalt (s : State) : Out :=
  match s.hereCore.arm with
  | some p => if s.mgmt.haltOk[p.toNat] then .next ((s.trip p).advance 4) else raise 0x1A0 0 s
  | none => raise 0x1A0 0 s

end Sys2Proof.Machine
end

