-- ==== Sys2Proof/Machine/Closing.lean ====
section
/-! DEFINITION. What closes channels without a close instruction (07_endpoint_registers.md R175 to R179, R399), the links' routes (12_queues.md R285 to R287), diversion (16_scheduling_and_trap_tables.md R348), kill and retirement (01_device.md R38), and the directory's counts (14_code_and_protocol_tables.md R313). -/

namespace Sys2Proof.Machine

/-! ## Close notices of the device (R399) -/

/-- The completions of a group that are on their way when a member dies carry BROKEN: they are delivered after the death (R300). -/
def breakCompletions (gk : Nat) (fl : List Flying) : List Flying :=
  fl.map fun f => match f.pkt with
    | .msg d m =>
      if m.kind = .completion ∧ m.hdr.tenant.toNat * 65536 + (m.hdr.key.sender.setWidth 16).toNat = gk then
        { f with pkt := .msg d { m with payload := leBytes (leNat (m.payload.take 8) ||| 2 ^ 10) 8 ++ m.payload.drop 8 } }
      else f
    | _ => f

/-- Whether an actor is a member of a group that has neither left nor died (R290, R291, R300). -/
def Group.hasMember (g : Group) (who : AId) : Bool := g.members.any fun m => m.actor = who && ! m.gone && ! m.dead

/-- The death of an actor on a group endpoint (R300): the registry learns of it when the actor is a member, and the completions of a formed group that are on their way carry BROKEN. An actor whose join has not been recorded is no member. -/
def State.dies (s : State) (st gk : Nat) (who : AId) : State :=
  match s.groups.find? fun g => g.1 = gk with
  | some (_, g) =>
    if ! g.hasMember who then s
    else { s with flight := if g.formed then breakCompletions gk s.flight else s.flight }.post st (BitVec.allOnes 64) (.death gk who (s.begun gk))
  | none => s

/-- Endpoint `e` closes in a state with a cause at a close-point (R175, R178): its notice leaves station `st` at once, at the larger of `v` and LASTVRT. On a group endpoint the registry learns of the member's death instead (R300); the manual gives the close-point of its itinerary no number. -/
def shut (st : Nat) (mile : Word) (e : BitVec 4) (cause : BitVec 9) (cp state : BitVec 6) (v : Word) (prio : BitVec 2) (s : State) (a : Actor) :
    State × Actor :=
  let r := a.ep e
  if r.pkind = .collective then
    (s.dies st (groupKey a.aid.tenant r.peer) a.aid,
      (a.setEp e { r with status := .closed, state := Config.groupClosePoint, cpoint := Config.groupClosePoint, ccause := cause, cbypeer := false }).freeRun e)
  else
    let vrt := maxWord v r.lastvrt
    let h := { a.header e vrt 62 16 prio with close := true }
    let m : Msg := ⟨h, noticeBytes state cp cause r.sent, .plain, a.peerOf e⟩
    let q := { r.closed cause cp with sent := r.sent + 1, lastvrt := vrt }
    let p := strandAll st mile e (s.postMsg st (a.dest e) m) a.bump
    (p.1, (p.2.setEp e q).leftClose e)

/-- Whether an endpoint has a channel that a kill or a lost peer closes: open, taken over by a recvep whose move is in progress, or joined to a group that has not formed (R290). -/
def Actor.hasChannel (a : Actor) (e : BitVec 4) : Bool :=
  let r := a.ep e
  r.status = .opened || (r.status = .connecting && ((a.auxOf e).holdDirect || r.pkind = .collective))

/-- The close-point of an endpoint's current state, by the tables of core `c`. -/
def State.closePoint (s : State) (c : CoreId) (r : EpRec) : BitVec 6 := ((s.core c).view r.itin r.state).close

/-- An endpoint that no activation closes: VRT max(VMILE + 1, LASTVRT) (R399). -/
def machineClose (c : CoreId) (st : Nat) (mile : Word) (cause : BitVec 9) (e : BitVec 4) (s : State) (a : Actor) : State × Actor :=
  shut st mile e cause (s.closePoint c (a.ep e)) (a.ep e).state (satAdd mile 1) a.prio s a

/-- Every endpoint of an actor with a channel and a property closed with a cause. -/
def closeAll (c : CoreId) (st : Nat) (mile : Word) (cause : BitVec 9) (which : EpRec → Bool) (s : State) (a : Actor) : State × Actor :=
  (programEps.filter fun e => a.hasChannel e && which (a.ep e)).foldl (fun p e => machineClose c st mile cause e p.1 p.2) (s, a)

/-! ## The end of an actor (R38, R276) -/

/-- What a core holds for the actor in a slot dropped, with the slot and the zones. -/
def Core.vacate (k : Core) (n : BitVec 4) : Core :=
  { k with
    actors := drop n.toNat k.actors,
    deferral := k.deferral.filter fun x => x.slot ≠ n,
    fenced := k.fenced.filter fun x => x.slot ≠ n,
    called := k.called.filter fun x => x.1 ≠ n,
    antis := match k.actors.find? fun x => x.1 = n.toNat with
      | some x => k.antis.filter fun y => y.1 ≠ x.2.aid
      | none => k.antis }

/-- Whether the gleave of a member on an endpoint has completed (R291): its wave has, and no completion of an earlier wave is on its way or held; a retired actor, which consumes nothing any more, holds none. -/
def State.hasLeft (s : State) (a : Actor) (e : BitVec 4) : Bool :=
  let r := a.ep e
  r.pkind = .collective && r.status = .closing &&
    (s.groups.all fun g => g.1 ≠ groupKey a.aid.tenant r.peer || g.2.members.all fun m => m.actor ≠ a.aid || m.gone) &&
    (a.retired || a.box.all fun h => h.ep ≠ e || h.msg.kind ≠ .completion) &&
    s.flight.all fun f => match f.pkt with
      | .msg _ m => ! (m.kind = .completion && m.rcpt = a.aid && m.hdr.dest.setWidth 4 = e)
      | _ => true

/-- The group endpoints that an actor has left closed, with their runs freed. -/
def State.closeLeft (s : State) (a : Actor) : Actor :=
  (programEps.filter (s.hasLeft a)).foldl (fun a e => (a.setEp e { a.ep e with status := .closed }).freeRun e) a

/-- The run of the diversion buffer freed once the actor is no longer the tenant's lay-by actor and no diversion stands in it (R348). -/
def State.freeDiversions (s : State) (a : Actor) : Actor :=
  if s.mgmt.layby[a.aid.tenant.toNat] ≠ some a.aid.id ∧ a.box.all fun h => h.place ≠ .divert then { a with divertRun := none } else a

/-- What waits at an actor's home base for a slot of it discarded and counted when the actor is gone (R177, R329, R348). -/
def State.dropWaiting (s : State) (who : AId) : State :=
  let b := s.base (homeOf who)
  let t := (b.waiting.filter fun w => w.who = who).foldl (fun t _ => t.count 0x30B8) s
  t.setBase (homeOf who) { b with waiting := b.waiting.filter fun w => w.who ≠ who }

/-- At the end of an activation: left groups close, and the slot of a retired actor is freed once no endpoint of it is closing (R276, R291). -/
def State.reap (s : State) (k : BitVec 4) : State :=
  let a := s.freeDiversions (s.closeLeft (s.actorAt k))
  let s := s.setActorAt k a
  if a.retired ∧ programEps.all fun e => (a.ep e).status ≠ .closing then
    let s := s.dropWaiting a.aid
    let b := s.base (homeOf a.aid)
    ((s.setBase (homeOf a.aid) { b with spills := b.spills.filter fun x => x.1 ≠ a.aid }).setHere (s.hereCore.vacate k)).syncDir s.here
  else s

/-- The delegations that an actor holds and has not committed (R183): unconsumed, or taken by an activation that can be undone. -/
def Actor.delegations (a : Actor) : List Msg :=
  ((a.box.filter fun h => ! h.consumed).map fun h => h.msg) ++
    a.log.filterMap fun p => match p.entry with
      | .history h => if h.byRecv then some h.msg else none
      | _ => none

/-- Whether a connect names an actor of the module at coordinates `here` (R173): a KIND 0 connect of a connector on it, or a KIND 5 connect to it. -/
def Conn.names (c : Conn) (here : BitVec 12) (who : AId) : Bool :=
  let kind := c.peer.extractLsb' 61 3
  c.peer.setWidth 24 = who.id && c.actor.tenant = who.tenant && ((kind = 0 && c.pmod = here) || (kind = 5 && c.peer.extractLsb' 28 12 = here))

/-- A connect on its way to a killed actor answered with 0x0CE from the actor's sequence on, and so an answer that has yet to reach its connector (R174). -/
def killedHandshakes (here : BitVec 12) (who : AId) : BitVec 40 → List Flying → List Flying
  | _, [] => []
  | q, f :: l =>
    match f.pkt with
    | .connect (.home a) c =>
      if a = who then { f with pkt := .answer ⟨0x0CE, c, who.id, .actor, 0, 0, q⟩ } :: killedHandshakes here who (q + 1) l
      else f :: killedHandshakes here who q l
    | .answer x =>
      (if x.conn.names here who then
        { f with pkt := .answer { x with cause := if x.cause = 0 then 0x0CE else x.cause } } else f) :: killedHandshakes here who q l
    | _ => f :: killedHandshakes here who q l

/-- Whether a member's gleave has yet to leave its core (R291, R300). -/
def State.leaveHeld (s : State) (a : Actor) (e : BitVec 4) : Bool :=
  let g := groupKey a.aid.tenant (a.ep e).peer
  (a.ep e).pkind = .collective && (a.ep e).status = .closing &&
    ! (s.flight.any fun f => match f.pkt with
      | .contrib c _ _ => c.group = g && c.actor = a.aid && c.op = .leave
      | _ => false) &&
    s.groups.any fun x => x.1 = g && x.2.members.any fun m => m.actor = a.aid && m.leftAt.isNone && ! m.gone && ! m.dead

/-- The connects that wait at the home base of a killed actor answered with 0x0CE (R173, R174). -/
def State.killWaiting (s : State) (st : Nat) (who : AId) (q : BitVec 40) : State :=
  let b := s.base (homeOf who)
  let mine := b.conns.filter fun c => c.names s.coords who
  (mine.zipIdx.foldl (fun t x => t.post st (satAdd x.1.key.vrt 1) (.answer ⟨0x0CE, x.1, who.id, .actor, 0, 0, q + BitVec.ofNat 40 x.2⟩)) s).setBase
    (homeOf who) { b with conns := b.conns.filter fun c => ! c.names s.coords who }

/-- The state and the actor after every channel of a killed actor has closed (R38, R179, R183); a group that it has not left learns of its death (R300). An acceptor whose peer has opened already, its confirmation on its way, closes as an open endpoint. -/
def killChannels (c : CoreId) (st : Nat) (mile : Word) (cause : BitVec 9) (s : State) (a : Actor) : State × Actor :=
  let who := a.aid
  let s := ({ s with flight := killedHandshakes s.coords who a.seq s.flight }.killWaiting st who a.seq).dropWaiting who
  let sure (e : BitVec 4) : Bool := s.flight.any fun f => match f.pkt with
    | .confirm (.ep l n) r _ => r = who && n = e && st = l.core.toNat
    | _ => false
  let a := programEps.foldl (fun x e =>
    if (x.ep e).status = .connecting && sure e then x.setEp e { x.ep e with status := .opened } else x) a
  let p := a.delegations.foldl (fun p m => strand st mile m p) (s, { a with box := [], log := [] })
  let p := closeAll c st mile cause (fun _ => true) p.1 p.2
  (programEps.filter fun e => p.1.leaveHeld p.2 e).foldl (fun p e => machineClose c st mile cause e p.1 p.2) p

/-- A resident actor without an activation in progress killed (R38): in slot k of the core in focus. -/
def State.killAt (s : State) (k : BitVec 4) (cause : BitVec 9) : State :=
  let p := killChannels s.here s.here.toNat s.hereCore.vmile cause s (s.actorAt k)
  let b := p.1.base (homeOf p.2.aid)
  ((p.1.setBase (homeOf p.2.aid) { b with spills := b.spills.filter fun x => x.1 ≠ p.2.aid }).setHere (p.1.hereCore.vacate k)).syncDir s.here

/-! ## Diversion (R348) -/

/-- The tenant's lay-by actor, when it can take a diversion: it exists and its class-63 entry is a handler. -/
def State.laybyOf (s : State) (t : BitVec 4) : Option AId :=
  match s.mgmt.layby[t.toNat] with
  | none => none
  | some i =>
    let a : AId := ⟨t, i⟩
    let ok (x : Actor) : Bool := x.isHandler 63 && ! x.retired && x.divertRun.isSome
    match s.locOf a with
    | some l => if ok (look Actor.zero l.slot.toNat (s.core l.core).actors) then some a else none
    | none => match s.savedOf a with
      | some x => if ok x.actor then some a else none
      | none => none

/-- Whether a message can be diverted (R179): a lay-by actor takes it, and it is not itself a diversion. -/
def State.canDivert (s : State) (m : Msg) : Bool :=
  (s.laybyOf m.rcpt.tenant).isSome && (match m.kind with | .diversion _ _ _ _ => false | _ => true)

/-- Whether a message arrived on an endpoint that a trap of its activation may close (R179): every one but what e15 receives and a diversion. -/
def Held.onChannel (h : Held) : Bool :=
  h.ep ≠ 15 && (match h.msg.kind with | .diversion _ _ _ _ => false | _ => true)

/-- A message diverted with its trap record, or discarded and counted (R348). -/
def State.divert (s : State) (m : Msg) (trec : TrapRec) : State :=
  match s.laybyOf m.rcpt.tenant with
  | some a =>
    if s.canDivert m then
      let d : Dest := match s.locOf a with
        | some l => .ep l 15
        | none => .home a
      s.postMsg s.here.toNat d ⟨{ m.hdr with cls := 63, irrev := true, dest := 15 }, m.payload, .diversion trec m.hdr m.rcpt m.kind, a⟩
    else s.count 0x30B8
  | none => s.count 0x30B8

/-! ## Links (R12, R285 to R287) -/

/-- The way round a ring of a dimension: whether + has no more hops. -/
def plusWay (size here there : Nat) : Bool :=
  let up := (there + size - here) % size
  decide (up ≤ size - up)

/-- The port by which a message for another module leaves (R287): ports 4d and 4d + 1 serve the + direction of dimension d, 4d + 2 and 4d + 3 the − direction (log 15). -/
def State.linkPort (s : State) (dmod : BitVec 12) (sender : BitVec 24) (e : BitVec 4) : Nat :=
  let part (c : BitVec 12) (d : Nat) : Nat := (c.extractLsb' (4 * d) 4).toNat
  let d := if part dmod 0 ≠ part s.coords 0 then 0 else if part dmod 1 ≠ part s.coords 1 then 1 else 2
  let up := plusWay (part s.torus d + 1) (part s.coords d) (part dmod d)
  4 * d + (if up then 0 else 2) + (sender.toNat + e.toNat) % 2

def State.port (s : State) (l : Nat) : Port := look Port.reset l s.ports
def State.setPort (s : State) (l : Nat) (p : Port) : State := { s with ports := put l p s.ports }

/-- The link channel of a packet (R285): a message's by its priority, 3 for the control messages. -/
def Packet.linkChannel : Packet → BitVec 2
  | .msg _ m => if m.hdr.anti ∨ 2 ≤ m.hdr.prio.toNat then 1 else 0
  | _ => 3

/-- The module that a destination names. -/
def Dest.module : Dest → Option (BitVec 12)
  | .link d _ _ => some d
  | .fwd d _ _ => some d
  | _ => none

/-- Whether a destination lies in another module, by a link (R287). -/
def State.away (s : State) (d : Dest) : Bool :=
  match d with
  | .link _ _ _ => true
  | .fwd c _ _ => c ≠ s.coords
  | _ => false

/-- The module that a packet on a link is for. -/
def Packet.module : Packet → Option (BitVec 12)
  | .msg d _ => d.module
  | .connect _ c => some (c.peer.extractLsb' 28 12)
  | .answer x => some x.conn.pmod
  | .confirm d _ _ => d.module
  | .undo d _ _ _ => d.module
  | .ack d _ _ => d.module
  | .reloc d _ _ => d.module
  | .marker d _ _ _ _ => d.module
  | .forwardReq _ v => some v.oldMod
  | _ => none

/-- The endpoint a destination names. -/
def Dest.endpoint : Dest → BitVec 4
  | .ep _ e => e
  | .fwd _ _ e => e
  | .link _ _ e => e
  | .child _ e => e
  | _ => 0

/-- What chooses a packet's port beside its module (R287): its sender and the endpoint it is for; a marker goes the way of its peer's messages, both to the old location and from it (R182). -/
def Packet.choice : Packet → BitVec 24 × BitVec 4
  | .msg d m => (m.hdr.key.sender, d.endpoint)
  | .connect _ c => (c.actor.id, c.peer.extractLsb' 24 4)
  | .answer x => (x.conn.actor.id, x.conn.ep)
  | .confirm d _ k => (k.sender, d.endpoint)
  | .undo d _ k _ => (k.sender, d.endpoint)
  | .ack d a _ => (a.id, d.endpoint)
  | .reloc d _ v => (v.id, d.endpoint)
  | .marker d _ _ p _ => (p, d.endpoint)
  | .forwardReq _ v => (v.id, v.oldEp)
  | _ => (0, 0)

/-- The VRT at which a packet is counted. -/
def Packet.vrtOf : Packet → Word
  | .msg _ m => m.hdr.key.vrt
  | .connect _ c => c.key.vrt
  | .answer x => satAdd x.conn.key.vrt 1
  | _ => BitVec.allOnes 64

/-- A packet with the colour of the station that sends it (R371). -/
def Packet.coloured (p : Packet) (c : Bool) : Packet :=
  match p with
  | .msg d m => .msg d { m with hdr := { m.hdr with colour := c } }
  | p => p

/-- The Milestone that a station goes by: a core's, a logic base's, elsewhere the last round's. -/
def State.mileAt (s : State) (st : Nat) : Word :=
  if st < 4096 then (s.core (BitVec.ofNat 12 st)).vmile else if st < 4104 then (s.base (st - 4096)).vmile else s.lastM

/-- A message discarded and counted at a station (R2, R177); a delegation closes its channel (R183). -/
def State.loseMsg (s : State) (st : Nat) (m : Msg) : State :=
  (strand st (s.mileAt st) m (s, { Actor.zero with aid := m.rcpt })).1.count 0x30B8

def State.losePacket (s : State) (st : Nat) : Packet → State
  | .msg _ m => s.loseMsg st m
  | _ => s

/-- Every endpoint whose peer lies through a port closes with 0x1C9 (R286). -/
def State.loseLink (s : State) (l : Nat) : State :=
  let lost (t : State) (a : Actor) (r : EpRec) : Bool := r.pkind = .remote && t.linkPort r.pmod a.aid.id (peerEp r.peer) = l
  let t := s.cores.foldl (fun t c => c.2.actors.foldl (fun t x =>
    t.at (BitVec.ofNat 12 c.1) t.cx fun u =>
      let k := BitVec.ofNat 4 x.1
      let p := closeAll u.here u.here.toNat u.hereCore.vmile 0x1C9 (lost u (u.actorAt k)) u (u.actorAt k)
      p.1.setDevice k p.2) t) s
  t.bases.foldl (fun t b => b.2.saved.foldl (fun t x =>
    let p := closeAll x.last.core (baseStation b.1) b.2.vmile 0x1C9 (lost t x.actor) t x.actor
    p.1.setSaved { x with actor := p.2 }) t) t

/-- A packet sent by a link port to its neighbour (R286, R287), counted at fabric scope (R374). A port that is down, as those of a dimension of size 1 are (R12), loses it and its channels; none when the replay buffer has no room for its flits (R269). -/
def State.putOut (s : State) (l : Nat) (v : Word) (pkt : Packet) : Option State :=
  let p := s.port l
  let c := (s.station (linkStation l)).colour
  let fl := ((if s.fabricOn then pkt.coloured c else pkt)).flits p.txSeq pkt.linkChannel c s.tick
  if ! p.up ∨ s.torus.extractLsb' (4 * (l / 4)) 4 = 0 then some ((s.losePacket (linkStation l) pkt).loseLink l)
  else if 512 < p.replay.length + fl.length then none
  else
    let t := { s with tick := s.tick + 1 }.setPort l { p with txSeq := p.txSeq + BitVec.ofNat 12 fl.length, replay := p.replay ++ fl, out := p.out ++ fl }
    some (if s.fabricOn then t.setStation (linkStation l) ((t.station (linkStation l)).sent v) else t)

/-- The packet at a place of `flight` taken by the link port that its route gives it and sent to another module (R287). -/
def State.toLink (s : State) (n : Nat) (pkt : Packet) : Option State :=
  let c := pkt.choice
  let l := s.linkPort (pkt.module.getD s.coords) c.1 c.2
  (s.take n (linkStation l)).putOut l (((s.flight[n]?).map fun f => f.vrt).getD 0) pkt

/-- As `toLink`, for a step with that name. -/
def onLink (name : String) (r : Option State) : Out :=
  match r with
  | some t => .next t
  | none => notEnabled name

end Sys2Proof.Machine
end

