-- ==== Sys2Proof/Machine/Arrival.lean ====
section
/-! DEFINITION. Messages that reach their endpoints (01_device.md R32, R34; 07_endpoint_registers.md R175 to R177, R182, R183; 12_queues.md R269 to R271, R278; 17_virtual_time.md R367, R368): MESSAGE_ARRIVAL, ANTI_MESSAGE, ACKNOWLEDGEMENT, and the steps of a relocation. -/

namespace Sys2Proof.Machine

/-! ## The order of what travels (R167, R281) -/

/-- The channel end that a packet's destination is. -/
def Dest.lane : Dest → Dest × BitVec 4
  | .ep l e => (.ep l e, e)
  | .fwd c l e => (.fwd c l e, e)
  | d => (d, 0)

/-- What travels in order: the channel end that a packet is for. Anti-messages overtake (R278); what e15 receives from different homes has no order. -/
def Packet.lane : Packet → Option (Dest × BitVec 4)
  | .msg (.home a) m =>
    let e : BitVec 4 := m.hdr.dest.setWidth 4
    if m.hdr.anti ∨ e = 15 then none else some (.home a, e)
  | .msg d m => if m.hdr.anti ∨ d.lane.2 = 15 then none else some d.lane
  | .confirm d _ _ => some d.lane
  | .undo d _ _ _ => some d.lane
  | .reloc d _ _ => some d.lane
  | .marker (.home a) _ _ _ v => some (.home a, v.ep)
  | .marker d _ _ _ _ => some d.lane
  | _ => none

/-- Whether nothing of the same channel is before a packet. -/
def State.first (s : State) (n : Nat) (p : Packet) : Bool :=
  match p.lane with
  | none => true
  | some l => (s.flight.take n).all fun f => f.pkt.lane ≠ some l

/-! ## Delivery -/

/-- What becomes of a message at its actor. -/
inductive Landing where
  | gone
  | forward (v : Move)
  | undone
  | completes
  | keep (h : Held)
  /-- without a slot, so that it waits at the home base (R329, R348) -/
  | atHome
  | full
  deriving DecidableEq, Repr

/-- A slot of an endpoint's run (R270), by its address. -/
def Actor.runSlot (a : Actor) (e : BitVec 4) : Option (BitVec 18) :=
  let r := a.ep e
  let mine := a.box.filter fun h => h.ep = e && h.place = .run
  if r.look.toNat ≤ mine.length then none
  else if r.slot = 0 then some r.bufbase
  else (freeSlot mine r.bufbase.toNat r.slot.toNat r.look.toNat).map fun q => r.bufbase + BitVec.ofNat 18 (q * r.slot.toNat)

/-- A slot of the e15 buffer. -/
def Actor.e15Slot (a : Actor) : Option (BitVec 18) :=
  (freeSlot a.box (a.ep 15).bufbase.toNat 256 32).map fun q => (a.ep 15).bufbase + BitVec.ofNat 18 (q * 256)

/-- A message at an endpoint of its actor (R177, R182): `fwd` says that it was forwarded, `armed` that an armed join counter is there (R380). -/
def Actor.land (a : Actor) (e : BitVec 4) (fwd : Bool) (m : Msg) (now : Nat) (armed : Bool) : Landing :=
  let r := a.ep e
  let x := a.auxOf e
  let held (addr : BitVec 18) (size : Nat) (p : Place) : Held :=
    ⟨m, e, addr, size, p, now, now, false, false, x.holdDirect && ! fwd && m.kind.isOwn, armed⟩
  match m.kind with
  | .reply _ _ =>
    if a.e15undone.contains m.hdr.key.seq then .undone
    else if ! a.e15used.contains m.hdr.key.seq then .gone
    else match a.e15Slot with
      | some q => .keep (held q 256 .e15)
      | none => .gone
  | .completion =>
    if r.pkind = .collective ∧ (r.status = .opened ∨ r.status = .closing) then
      match a.runSlot e with
      | some q => .keep (held q r.slot.toNat .run)
      | none => .full
    else .gone
  | .plain | .delegation _ _ =>
    match x.forwardTo with
    | some v => .forward v
    | none =>
      if r.status = .closing ∧ x.closeLeft then if m.hdr.close then .completes else .gone
      else if r.status = .opened ∨ r.status = .closing ∨ r.status = .delegated ∨ (r.status = .connecting ∧ x.holdDirect) then
        match a.runSlot e with
        | some q => .keep (held q r.slot.toNat .run)
        | none =>
          if ! m.hdr.close then .full
          else match (if a.e15Count < 32 then a.e15Slot else none) with
            | some q => .keep (held q 256 .e15)
            | none => .keep (held 0 0 .waiting)
      else .gone
  | .notice | .diversion _ _ _ _ =>
    match a.outerSlot m with
    | some y => .keep (heldAt e m y now)
    | none => .atHome
  | .report | .again _ _ => .keep (held 0 0 .waiting)

/-- Whether an anti-message that waits matches a message (R278, R279). -/
def antiOf (l : List (AId × Header)) (who : AId) (m : Msg) : Bool :=
  ! m.hdr.irrev && l.any fun x => x.1 = who && x.2.key = m.hdr.key

def dropAnti (l : List (AId × Header)) (who : AId) (k : Key) : List (AId × Header) := l.filter fun x => ! (x.1 = who && x.2.key = k)

/-- Whether a spilled anti-message record of an actor matches a key. -/
def Actor.logAnti (a : Actor) (k : Key) : Bool := a.log.any fun p => match p.entry with
  | .spilledAnti h => h.key = k
  | _ => false

def Actor.dropLogAnti (a : Actor) (k : Key) : Actor :=
  { a with log := a.log.map fun p => match p.entry with
      | .spilledAnti h => if h.key = k then { p with entry := .filler 1 } else p
      | _ => p }

/-- Whether the join counter of an actor is armed (R380). Of a word in error the bit cannot be read: it is a free value (R202, log 99). -/
def State.armedAt (s : State) (k : BitVec 4) : Bool :=
  let a := s.actorAt k
  let w := a.jreg.word.toNat
  a.jreg.valid && (if s.hereCore.badPad.contains w then Config.freeFull s.tick w else (s.word64 w).getLsbD 63)

/-- A message discarded and counted (R177); a delegation closes its channel (R183). -/
def State.discardAt (s : State) (k : BitVec 4) (m : Msg) : State :=
  let p := strand s.here.toNat s.hereCore.vmile m (s, s.actorAt k)
  (p.1.setActorAt k p.2).count 0x30B8

/-- A completion with BROKEN noted on its endpoint (R298, R299). -/
def Actor.note (a : Actor) (e : BitVec 4) (m : Msg) : Actor :=
  if m.kind = .completion ∧ (payloadWord m.payload 0).getLsbD 10 then a.setAux e { a.auxOf e with broken := true } else a

/-- A message put into the box of a resident actor, its payload written, and its rollback called for if it is a straggler. -/
def State.hold (s : State) (k : BitVec 4) (h : Held) : State :=
  let a := s.actorAt k
  let t := s.setDevice k ({ a with box := a.box ++ [h] }.note h.ep h.msg)
  if h.place = .waiting then t.settle k
  else
    let t := t.setHere (t.hereCore.landed h)
    if s.straggles k h.msg.hdr.key then t.call k h.msg.hdr.key false else t

/-- The close of an endpoint completed by its peer (R175): the buffer is freed. -/
def State.closeDone (s : State) (k : BitVec 4) (e : BitVec 4) : State :=
  let a := s.actorAt k
  ((s.setDevice k ((a.setEp e { a.ep e with status := .closed }).freeRun e)).reap k).syncDir s.here

/-- The anti-message that waits for a message of the actor in a slot, taken: from the core's store, the actor's log, or its home base (R278). -/
def State.antiFor (s : State) (k : BitVec 4) (m : Msg) : Option State :=
  let a := s.actorAt k
  let home := s.base (homeOf a.aid)
  if antiOf s.hereCore.antis a.aid m then some (s.setHere { s.hereCore with antis := dropAnti s.hereCore.antis a.aid m.hdr.key })
  else if ! m.hdr.irrev && a.logAnti m.hdr.key then some (s.setActorAt k (a.dropLogAnti m.hdr.key))
  else if antiOf home.heldAntis a.aid m then
    some (s.setBase (homeOf a.aid) { home with heldAntis := dropAnti home.heldAntis a.aid m.hdr.key })
  else none

/-- A message that waits for a slot at its actor's home base (R329, R348). -/
def State.waitHome (s : State) (who : AId) (e : BitVec 4) (m : Msg) : State :=
  let b := s.base (homeOf who)
  s.setBase (homeOf who) { b with waiting := b.waiting ++ [⟨who, e, m⟩] }

/-- A message that an old location sends on to the new one (R182). -/
def State.forward (s : State) (st : Nat) (v : Move) (m : Msg) : State := s.postMsg st v.dest (v.forwarded s.coords m)

/-- The endpoint of the actor in a slot closed by its core with a machine cause. -/
def State.closeHere (s : State) (k : BitVec 4) (e : BitVec 4) (cause : BitVec 9) : State :=
  let p := machineClose s.here s.here.toNat s.hereCore.vmile cause e s (s.actorAt k)
  p.1.setDevice k p.2

/-- A message at the actor in slot k of the core in focus. -/
def State.deliver (s : State) (k : BitVec 4) (e : BitVec 4) (fwd : Bool) (m : Msg) : State :=
  let a := s.actorAt k
  let s := { s with tick := s.tick + 1 }
  match s.antiFor k m with
  | some t => t.count 0x3088
  | none =>
  if a.retired ∧ ! (m.hdr.close ∧ (a.ep e).status = .closing) then (s.discardAt k m).reap k
  else if m.kind.isOwn ∧ (a.ep e).status = .opened ∧ s.hereCore.badItins.contains (a.ep e).itin.toNat then
    (s.discardAt k m).closeHere k e 0x1C4
  else
    match a.land e fwd m s.time (s.armedAt k) with
    | .gone => s.discardAt k m
    | .forward v => s.forward s.here.toNat v m
    | .atHome => s.waitHome a.aid e m
    | .undone =>
      (s.setActorAt k { a with e15used := a.e15used.filter (· ≠ m.hdr.key.seq), e15undone := a.e15undone.filter (· ≠ m.hdr.key.seq) }).settle k
    | .completes => s.closeDone k e
    | .keep h => (s.hold k h).wakeHere
    | .full =>
      if a.disc = .timed ∧ a.box.any (fun h => h.ep = e && h.place = .hist && ! h.consumed) then
        let h : Held := ⟨m, e, 0, (m.payload.length + 63) / 64 * 64, .hist, s.time, s.time, false, false, false, s.armedAt k⟩
        match s.logHeld k (.returned h) m.payload with
        | some (t, addr) =>
          let h' := { h with addr := BitVec.ofNat 18 addr }
          let b := t.actorAt k
          let log := match b.log with
            | p :: l => { p with entry := .returned h' } :: l
            | [] => []
          let t := t.setActorAt k { b with log := log, box := b.box ++ [h'] }
          (if s.straggles k m.hdr.key then t.call k m.hdr.key false else t).wakeHere
        | none => s.discardAt k m
      else
        let t := (s.discardAt k m).closeHere k e 0x0CF
        t.setActorAt k { t.actorAt k with fullAt := some t.time }

/-- A message at the save area of an evicted actor (R259). -/
def State.deliverSaved (s : State) (x : Saved) (e : BitVec 4) (fwd : Bool) (m : Msg) : State :=
  let a := x.actor
  let st := baseStation (homeOf a.aid)
  let b := s.base (homeOf a.aid)
  let s := { s with tick := s.tick + 1 }
  let armed := a.jreg.valid && decide (128 ≤ ((cellAt (8 * a.jreg.word.toNat + 7) x.pad).getD 0).toNat)
  let lose (s : State) : State :=
    let p := strand st b.vmile m (s, a)
    (p.1.setSaved { x with actor := p.2 }).count 0x30B8
  if antiOf x.antis a.aid m then (s.setSaved { x with antis := dropAnti x.antis a.aid m.hdr.key }).count 0x3088
  else if ! m.hdr.irrev && a.logAnti m.hdr.key then (s.setSaved { x with actor := a.dropLogAnti m.hdr.key }).count 0x3088
  else if antiOf b.heldAntis a.aid m then
    (s.setBase (homeOf a.aid) { b with heldAntis := dropAnti b.heldAntis a.aid m.hdr.key }).count 0x3088
  else
    match a.land e fwd m s.time armed with
    | .gone => lose s
    | .forward v => s.forward st v m
    | .atHome => s.waitHome a.aid e m
    | .undone =>
      s.setSaved { x with actor := { a with e15used := a.e15used.filter (· ≠ m.hdr.key.seq), e15undone := a.e15undone.filter (· ≠ m.hdr.key.seq) } }
    | .completes => s.setSaved { x with actor := (a.setEp e { a.ep e with status := .closed }).freeRun e }
    | .keep h =>
      let y := if h.place = .waiting then x else x.landed h
      s.settleSaved y ({ a with box := a.box ++ [h] }.note e m)
    | .full =>
      let h : Held := ⟨m, e, 0, (m.payload.length + 63) / 64 * 64, .hist, s.time, s.time, false, false, false, armed⟩
      match (if a.disc = .timed ∧ a.box.any (fun y => y.ep = e && y.place = .hist && ! y.consumed) then a.record (.returned h) (s.spillRoom a.aid) else none) with
      | some (c, at_) =>
        let h' := { h with addr := BitVec.ofNat 18 (at_ + 64) }
        let far := match c.log with
          | p :: _ => p.spilled
          | [] => true
        let log := match c.log with
          | p :: l => { p with entry := .returned h' } :: l
          | [] => []
        s.setSaved { x with actor := { c with log := log, box := c.box ++ [h'] },
                            pad := if far then x.pad else (Mem.setBytes ⟨x.pad, []⟩ (at_ + 64) m.payload).cells }
      | none =>
        let p := machineClose x.last.core st b.vmile 0x0CF e (lose s) a
        p.1.setSaved { x with actor := { p.2 with fullAt := some s.time } }

/-- The quadrant of a core. -/
def quadOf (c : CoreId) : BitVec 2 := c.setWidth 2

/-- Whether a core is stopped by the Roadblock, or does not run in minimal mode (R384): what is for it waits in the network (R358). -/
def State.halted (s : State) (c : CoreId) : Bool := (s.core c).stopped || (s.mgmt.minimal && quadOf c ≠ 0)

/-- A message that has reached a location or a home base and whose actor is elsewhere: passed on in order (R41, R182), or discarded (R177). -/
def State.passOn (s : State) (st : Nat) (m : Msg) (atHome : Bool) : State :=
  match s.locOf m.rcpt with
  | some l => s.postMsg st (if atHome then .fwd s.coords l (m.hdr.dest.setWidth 4) else .home m.rcpt) m
  | none =>
    if (s.savedOf m.rcpt).isSome then s.postMsg st (.home m.rcpt) m
    else
      s.loseMsg st m

/-! ## The Depot's side (R251, R252) -/

def State.chan (s : State) (ch : Nat) : Option DepotChan := (s.chans.find? fun x => x.1 = ch).map fun x => x.2

/-- The Depot's end of a channel closed by a notice (R175, R176): it is acknowledged at once; requests taken before it are still served. -/
def State.chanClose (s : State) (n : Nat) (c : DepotChan) : State :=
  let t := s.post depotStation (BitVec.allOnes 64) (.ack (.ep c.loc c.ep) c.actor false)
  if t.depotQ.any fun r => r.chan = n then { t with chans := put n { c with live := false } t.chans } else { t with chans := drop n t.chans }

/-- The number under which the snapshots of a take stand: that of its request, since two takes may have one identifier and one cut. -/
def Take.key (k : Take) : Nat := k.req.chan + 2 ^ 18 * k.req.key.seq.toNat

/-- A take gone from the engine, with its marks and its snapshots (R263). -/
def State.dropTake (s : State) (k : Take) : State :=
  let rest := s.takes.filter (· ≠ k)
  let marked (p : Nat) : Bool := rest.any fun t => t.pages.any fun x => x.1 = p
  { s with takes := rest,
           bases := s.bases.map fun b => (b.1, { b.2 with snaps := b.2.snaps.filter fun y => y.1 ≠ k.key }),
           leaves := s.leaves.map fun l => if (k.pages.any fun x => x.1 = l.1) ∧ ! marked l.1 then (l.1, { l.2 with cow := false }) else l }

/-- The number of a take's sequence, and the identifier's slots with the one that it writes replaced (R265). -/
def State.nextCheckpoint (s : State) (id : Nat) : Word := match s.validSlot id with | some x => x.seq + 1 | none => 1

def State.setCkSlot (s : State) (id : Nat) (seq : Word) (x : CkSlot) : State :=
  let old := s.ckSlots id
  { s with ckpts := put id (if seq.toNat % 2 = 1 then (old.1, x) else (x, old.2)) s.ckpts }

/-- A take stopped without an end: the header of its slot is erased, its request is gone (R265). -/
def State.stopTake (s : State) (k : Take) : State :=
  let t := s.dropTake k
  { t.setCkSlot k.id.toNat (t.nextCheckpoint k.id.toNat) CkSlot.zero with depotQ := t.depotQ.filter (· ≠ k.req) }

/-- Whether a close notice says that its sender was killed (R354). -/
def killCause (c : BitVec 9) : Bool := c = 0x1C7 || (decide ((0x1CA : BitVec 9) ≤ c) && decide (c ≤ (0x1CD : BitVec 9)))

/-- A message on a Depot channel: a close notice takes effect, a request or an undoable label waits in the queue (R251, R252). -/
def depotTake (ch : BitVec 18) (m : Msg) (s : State) : State :=
  let n := ch.toNat % 65536
  match s.chan n with
  | none => s.count 0x30B8
  | some c =>
    if ! m.hdr.irrev ∧ s.depotAntis.any fun h => h.key = m.hdr.key then
      { s with depotAntis := s.depotAntis.filter fun h => h.key ≠ m.hdr.key }.count 0x3088
    else if ! c.live then s.count 0x30B8
    else if m.hdr.close then
      let t := if killCause ((payloadWord m.payload 0).setWidth 9) then (s.takes.filter fun k => k.req.chan = n).foldl State.stopTake s else s
      t.chanClose n c
    else if m.hdr.label then
      if m.hdr.irrev then s else { s with depotQ := s.depotQ ++ [⟨n, c.actor, c.loc, m.hdr.key, m.hdr.irrev, [], s.lastM, s.time⟩] }
    else { s with depotQ := s.depotQ ++ [⟨n, c.actor, c.loc, m.hdr.key, m.hdr.irrev, (List.range 4).map (payloadWord m.payload), s.lastM, s.time⟩] }

/-- The request at a place of the Depot's queue that may be served: the first of its channel, taken by R252, not being scanned. -/
def State.served (s : State) (n : Nat) (v : Service) : Option (DepotReq × DepotChan) :=
  match s.depotQ[n]? with
  | none => none
  | some r =>
    match s.chan r.chan with
    | none => none
    | some c =>
      if c.service = v ∧ r.words ≠ [] ∧ (r.irrev || safe s.lastM s.lastSettled r.key.vrt) ∧
        (s.depotQ.find? fun x => x.chan = r.chan && x.words ≠ []) = some r ∧
        (s.cores.all fun k => match k.2.scan with | some x => x.reply ≠ r | none => true) ∧ (s.takes.all fun t => t.req ≠ r)
      then some (r, c) else none

/-- A page-service request (R253), read from its words. -/
structure PageReq where
  op : Nat
  first : Nat
  count : Nat
  deriving DecidableEq, Repr

def DepotReq.word (r : DepotReq) (i : Nat) : Nat := (r.words.getD i 0).toNat

def DepotReq.page (r : DepotReq) : PageReq := ⟨r.word 1 / 2 ^ 60, r.word 0 / 65536, r.word 1 / 2 ^ 48 % 256 + 1⟩

/-- Fields outside their limits (R253, 0x1A6). Bits that belong to no field of the request's OP are ignored where the manual does not call them reserved: the model's choice (log 102). -/
def DepotReq.pageBad (r : DepotReq) : Bool :=
  let p := r.page
  decide (7 ≤ p.op) || r.word 1 / 2 ^ 57 % 8 ≠ 0 || r.word 1 % 2 ^ 48 ≠ 0 || r.word 3 ≠ 0 ||
    (if p.op = 5 ∨ p.op = 6 then decide (2 ^ 24 ≤ r.word 0) || p.count ≠ 1 else r.word 0 % 65536 ≠ 0 || (p.op = 2 && p.count ≠ 1)) ||
    (p.op = 2 && (r.word 2 / 2 ^ 32 % 2 ^ 18 % 8 ≠ 0 || decide (r.word 2 / 2 ^ 32 % 2 ^ 18 < 8) || decide (65536 < r.word 2 / 2 ^ 32 % 2 ^ 18) || r.word 2 % 2 ^ 18 % 8 ≠ 0)) ||
    (p.op = 6 && r.word 2 % 2 ^ 18 / 4096 ≠ 0)

/-- Whether the pager of a tenant asks (R253, R396). -/
def State.fromPager (s : State) (a : AId) : Bool := s.mgmt.pager[a.tenant.toNat].1 && s.mgmt.pager[a.tenant.toNat].2.2 = a.id

/-- The actor that an eviction in its waiting step is for (R258 step 1), by the place of its request. -/
def State.evictionAt (s : State) (n : Nat) : Option AId :=
  match s.served n .page with
  | some (r, _) =>
    let who : AId := ⟨r.actor.tenant, BitVec.ofNat 24 (r.word 0)⟩
    if r.page.op = 5 ∧ ! r.pageBad ∧ s.fromPager r.actor ∧ (s.locOf who).isSome then some who else none
  | none => none

/-- Whether an actor is being evicted: its reload and its kill wait (R260). -/
def State.evicting (s : State) (who : AId) : Bool := (List.range s.depotQ.length).any fun i => s.evictionAt i = some who

/-! ## MESSAGE_ARRIVAL -/

/-- The station that a packet reaches: that of the core it is sent to. -/
def Dest.station : Dest → Nat
  | .ep l _ => l.core.toNat
  | .fwd _ l _ => l.core.toNat
  | .home a => baseStation (homeOf a)
  | .host n => hostStation (n.toNat / 65536)
  | .depot _ => depotStation
  | .link _ l _ => l.core.toNat
  | .child a _ => baseStation (homeOf a)

/-- The station beside the router that takes a message: that of its destination, or the link port of its route. -/
def State.routerOf (s : State) (p : Packet) : Nat :=
  match p with
  | .msg d m => if s.away d then linkStation (s.linkPort (d.module.getD 0) m.hdr.key.sender d.endpoint) else d.station
  | _ => 0

/-- Whether a message with a greater key has entered the buffer of an actor's endpoint in this cycle: two deliveries of one cycle are pushed in the order of their keys (R269). -/
def Actor.keyedLater (a : Actor) (now : Nat) (e : BitVec 4) (key : Key) : Bool :=
  a.box.any fun h => h.ep = e && h.arrived = now && key.before h.msg.hdr.key

/-- An actor where it is: resident, or in its save area. -/
def State.actorOf (s : State) (who : AId) : Option Actor :=
  match s.locOf who with
  | some l => some (look Actor.zero l.slot.toNat (s.core l.core).actors)
  | none => (s.savedOf who).map fun x => x.actor

/-- Whether a message meets an anti-message of a core's store that was full for another one in this cycle: the entry that it frees would have been free before (R268). -/
def State.antiLate (s : State) (c : CoreId) (m : Msg) : Bool :=
  (s.core c).antiFull = some s.time && antiOf (s.core c).antis m.rcpt m

/-- Whether a message comes after the choice of this cycle that it would have changed: the arrival is in the mailbox before the choice (R369). -/
def State.passedOver (s : State) (l : Loc) (key : Key) : Bool :=
  (look Actor.zero l.slot.toNat (s.core l.core).actors).disc ≠ .untimed &&
    (s.core l.core).ctxs.toList.any fun x => x.phase ≠ .free && x.slot = l.slot && x.started = s.time && key.before x.key

/-- MESSAGE_ARRIVAL (R32): the packet at a place of `flight`, a message that nothing of its channel precedes. A router discards a message whose head flit fails its checks (R2, R280). -/
def execMessageArrival (n : Nat) (s : State) : Out :=
  let no := notEnabled "MESSAGE_ARRIVAL"
  match s.packet n with
  | some (.msg d m) =>
    if m.hdr.anti ∨ ! s.first n (.msg d m) then no
    else if m.hdr.fails then .next ((s.take n (s.routerOf (.msg d m))).loseMsg (s.routerOf (.msg d m)) m)
    else
      let at_ (l : Loc) (e : BitVec 4) (fwd : Bool) : Out :=
        if s.halted l.core ∨ (look Actor.zero l.slot.toNat (s.core l.core).actors).keyedLater s.time e m.hdr.key ∨ s.antiLate l.core m ∨ s.passedOver l m.hdr.key then no
        else
          let t := s.take n l.core.toNat
          if s.locOf m.rcpt = some l then .next (t.at l.core t.cx fun u => u.deliver l.slot e fwd m)
          else .next (t.passOn l.core.toNat m false)
      if s.away d then onLink "MESSAGE_ARRIVAL" (s.toLink n (.msg d m))
      else match d with
      | .ep l e => at_ l e false
      | .fwd _ l e => at_ l e true
      | .home a =>
        let st := baseStation (homeOf a)
        let t := s.take n st
        match s.savedOf a with
        | some x =>
          if x.actor.keyedLater s.time (m.hdr.dest.setWidth 4) m.hdr.key then no
          else .next (t.deliverSaved x (m.hdr.dest.setWidth 4) false m)
        | none => .next (t.passOn st m true)
      | .depot ch => .next (depotTake ch m (s.take n depotStation))
      | _ => no
  | _ => no

/-! ## ANTI_MESSAGE (R278) -/

/-- Whether a message for an actor has found no slot in this cycle: a slot that a step frees in it would have been free before (R268). -/
def State.overrun (s : State) (who : AId) : Bool := (s.actorOf who).any fun a => a.fullAt = some s.time

/-- A message of an actor removed from its buffer and its mailbox. -/
def Actor.annihilate (a : Actor) (k : Key) : Actor :=
  { a with box := a.box.filter fun h => ! (! h.consumed && ! h.msg.hdr.irrev && h.msg.hdr.key = k),
           log := a.log.map fun p => match p.entry with
             | .returned h => if h.msg.hdr.key = k then { p with entry := .filler p.entry.units } else p
             | _ => p }

def Actor.waits (a : Actor) (k : Key) : Bool := a.box.any fun h => ! h.consumed && ! h.msg.hdr.irrev && h.msg.hdr.key = k

/-- The key of the activation that consumed a message, by the records of its log, newest first: the next marker below its history record. -/
def consumerIn (k : Key) : List Placed → Bool → Option Key
  | [], _ => none
  | p :: l, seen =>
    match p.entry with
    | .history h => consumerIn k l (seen || h.msg.hdr.key = k)
    | .marker key _ _ _ => if seen then some key else consumerIn k l false
    | _ => consumerIn k l seen

/-- An anti-message that waits for its positive: in the core's store of 64 entries, in the actor's log, or at its home base. An entry that another step of the cycle frees would have been free before (R268). -/
def State.storeAnti (s : State) (k : BitVec 4) (h : Header) : State :=
  let a := s.actorAt k
  if s.hereCore.antis.length < 64 then s.setHere { s.hereCore with antis := s.hereCore.antis ++ [(a.aid, h)] }
  else
  let s := s.setHere { s.hereCore with antiFull := some s.time }
  match s.log k (.spilledAnti h) with
    | some t => t
    | none =>
      let b := s.base (homeOf a.aid)
      s.setBase (homeOf a.aid) { b with heldAntis := b.heldAntis ++ [(a.aid, h)] }

/-- An anti-message at endpoint e of a resident actor: where the endpoint has moved, what is not here any more is sought at its new location (R182). -/
def State.antiAt (s : State) (k : BitVec 4) (e : BitVec 4) (m : Msg) : State :=
  let a := s.actorAt k
  let h := m.hdr
  if a.waits h.key then ((s.setActorAt k (a.annihilate h.key)).count 0x3088).settle k
  else
    match consumerIn h.key a.log false with
    | some key => (s.storeAnti k h).call k key true
    | none => match (a.auxOf e).forwardTo with
      | some v => s.forward s.here.toNat v m
      | none => s.storeAnti k h

/-- An anti-message at endpoint e of an evicted actor. -/
def State.antiSaved (s : State) (x : Saved) (e : BitVec 4) (m : Msg) : State :=
  let a := x.actor
  let h := m.hdr
  if a.waits h.key then (s.settleSaved x (a.annihilate h.key)).count 0x3088
  else match consumerIn h.key a.log false, (a.auxOf e).forwardTo with
    | none, some v => s.forward (baseStation (homeOf a.aid)) v m
    | _, _ => s.setSaved { x with antis := x.antis ++ [(a.aid, h)] }

/-- ANTI_MESSAGE (R278): it annihilates its positive, calls for a rollback, or waits. -/
def execAntiMessage (n : Nat) (s : State) : Out :=
  let no := notEnabled "ANTI_MESSAGE"
  match s.packet n with
  | some (.msg d m) =>
    if ! m.hdr.anti then no
    else if m.hdr.fails then .next ((s.take n (s.routerOf (.msg d m))).count 0x30B8)
    else
      let somewhere (st : Nat) (e : BitVec 4) : Out :=
        if s.overrun m.rcpt then no
        else
        let t := s.take n st
        match s.locOf m.rcpt with
        | some l => .next (t.at l.core t.cx fun u => u.antiAt l.slot e m)
        | none =>
          match s.savedOf m.rcpt with
          | some x => .next (t.antiSaved x e m)
          | none => .next (t.count 0x30B8)
      if s.away d then onLink "ANTI_MESSAGE" (s.toLink n (.msg d m))
      else match d with
      | .ep l e => if s.halted l.core then no else somewhere l.core.toNat e
      | .fwd _ l e => if s.halted l.core then no else somewhere l.core.toNat e
      | .home a => somewhere (baseStation (homeOf a)) (m.hdr.dest.setWidth 4)
      | .depot _ =>
        let t := s.take n depotStation
        if t.depotQ.any fun r => r.key = m.hdr.key && ! r.irrev then
          let gone (r : DepotReq) : Bool := r.key = m.hdr.key && ! r.irrev
          let t := (t.takes.filter fun k => gone k.req).foldl State.dropTake t
          .next ({ t with depotQ := t.depotQ.filter fun r => ! gone r }.count 0x3088)
        else .next { t with depotAntis := t.depotAntis ++ [m.hdr] }
      | .child a e =>
        -- its positive waits for the child as it does (R184)
        match s.flight.findIdx? fun f => match f.pkt with
          | .msg (.child b i) x => a = b && e = i && x.hdr.key = m.hdr.key && ! x.hdr.anti
          | _ => false with
        | some i =>
          let st := match s.locOf a with
            | some l => l.core.toNat
            | none => baseStation (homeOf a)
          .next (((s.take (max i n) st).take (min i n) st).count 0x3088)
        | none => no
      | _ => no
  | _ => no

/-! ## ACKNOWLEDGEMENT (R175) -/

/-- Where a control message finds its actor: resident, or at its home base (R182). -/
def State.control (s : State) (who : AId) (f : Actor → Actor) (g : State → BitVec 4 → State) : State :=
  match s.locOf who with
  | some l => s.at l.core s.cx fun t => g (t.setDevice l.slot (f (t.actorAt l.slot))) l.slot |>.wakeHere
  | none =>
    match s.savedOf who with
    | some x => s.setSaved { x with actor := f x.actor }
    | none => s

/-- The core that a packet is sent to. -/
def Dest.core? : Dest → Option CoreId
  | .ep l _ => some l.core
  | .fwd _ l _ => some l.core
  | _ => none

/-- Whether a packet for a core of a stopped partition waits (R358). -/
def State.barred (s : State) (d : Dest) : Bool :=
  match d.core? with
  | some c => s.halted c
  | none => false

/-- ACKNOWLEDGEMENT (R175, R181): a closing endpoint, a host's among them (R197), becomes closed and its buffer is freed; the target of a recvep becomes open. -/
def execAcknowledgement (n : Nat) (s : State) : Out :=
  match s.packet n with
  | some (.ack (.host q) _ _) =>
    .next { s.take n (hostStation (q.toNat / 65536)) with hosts := s.hosts.map fun h =>
      if h.num = q ∧ h.record.status = .closing then { h with record := { h.record with status := .closed } } else h }
  | some (.ack d who mv) =>
    if s.away d then onLink "ACKNOWLEDGEMENT" (s.toLink n (.ack d who mv))
    else if s.barred d then notEnabled "ACKNOWLEDGEMENT"
    else
      let e := d.endpoint
      let t := s.take n d.station
      let f (a : Actor) : Actor :=
        if mv then (if (a.ep e).status = .connecting ∧ (a.auxOf e).holdDirect ∧ (a.auxOf e).asked.isNone then a.setEp e { a.ep e with status := .opened } else a)
        else if (a.ep e).status = .closing ∧ (a.auxOf e).closeLeft then (a.setEp e { a.ep e with status := .closed }).freeRun e else a
      .next (t.control who f fun u k => (u.reap k).syncDir u.here)
  | _ => notEnabled "ACKNOWLEDGEMENT"

/-! ## Relocation (R182) -/

/-- The old location of a moved endpoint forwards (R182): the messages that it holds go to the new location in arrival order, and so does what will reach it. -/
def Actor.forwards (a : Actor) (st : Nat) (e : BitVec 4) (v : Move) (s : State) : State × Actor :=
  let mine (h : Held) : Bool := h.ep = e && ! h.consumed && h.msg.kind.isOwn
  ((a.box.filter mine).foldl (fun t h => t.forward st v h.msg) s,
    { a with box := a.box.filter fun h => ! mine h }.setAux e { a.auxOf e with forwardTo := some v })

/-- The peer of a moved endpoint (R182, R287): its channel end `m` leads to the new location, and so do the anti-messages of what it has sent there. An endpoint whose channel is gone stays as it is. -/
def Actor.follow (a : Actor) (here : BitVec 12) (m : BitVec 4) (v : Move) : Actor :=
  let r := a.ep m
  if r.status = .free ∨ r.status = .closed ∨ r.status = .armed then a
  else
  let kind := PKind.seen .actor 0 v.mod here
  let b := (a.setEp m { r with peer := v.loc.peer v.ep, pkind := kind.1, pmod := kind.2 }).setAux m { a.auxOf m with peerId := v.id }
  { b with log := b.log.map fun p => match p.entry with
      | .output h who d =>
        if who = a.peerOf m ∧ d = a.dest m then
          { p with entry := .output { h with dest := (v.loc.peer v.ep).extractLsb' 4 20 } (b.peerOf m) (b.dest m) } else p
      | _ => p }

/-- RELOCATION_NOTICE (R182): the peer sets PEER to the new location, sends the marker to the old one, and acknowledges, across a link where the channel end moves in another module (R287). A notice that finds its actor moved is forwarded like a message; one that comes before the answer of the peer's handshake waits for it. -/
def execRelocationNotice (n : Nat) (s : State) : Out :=
  let no := notEnabled "RELOCATION_NOTICE"
  match s.packet n with
  | some (.reloc d who v) =>
    if s.barred d ∨ ! s.first n (.reloc d who v) then no
    else if s.away d then onLink "RELOCATION_NOTICE" (s.toLink n (.reloc d who v))
    else
      let t := s.take n d.station
      let m := d.endpoint
      let sent (st : Nat) (peer : BitVec 24) (u : State) : State :=
        (u.post st (BitVec.allOnes 64) (.marker (s.endOf v.oldMod v.old v.oldEp) ⟨who.tenant, v.oldId⟩ false peer v)).post st (BitVec.allOnes 64)
          (.ack (s.endOf v.mod v.loc v.ep) ⟨who.tenant, v.id⟩ true)
      match d with
      | .host q =>
        .next (sent (hostStation (q.toNat / 65536)) (BitVec.ofNat 24 (0xFF0000 + q.toNat % 65536)) { t with hosts := t.hosts.map fun h =>
          if h.num = q then { h with peerId := v.id, record := { h.record with peer := v.loc.peer v.ep } } else h })
      | .depot ch =>
        let num := ch.toNat % 65536
        .next (sent depotStation (BitVec.ofNat 24 (0xFD0000 + num)) { t with chans := t.chans.map fun c =>
          if c.1 = num then (c.1, { c.2 with actor := ⟨who.tenant, v.id⟩, loc := v.loc, ep := v.ep }) else c })
      | _ =>
        let a : Actor := (s.actorOf who).getD Actor.zero
        match (a.auxOf m).forwardTo with
        | some w => .next (t.post d.station (BitVec.allOnes 64) (.reloc w.dest ⟨who.tenant, w.id⟩ v))
        | none =>
          if (a.ep m).status = .delegated ∨ ((a.ep m).status = .connecting ∧ ! (a.auxOf m).holdDirect ∧ ! (a.auxOf m).spawning) then no
          else .next (sent d.station who.id (t.control who (fun x => x.follow s.coords m v) fun u _ => u))
  | _ => no

/-- FORWARDING_REQUEST (R182): the old location forwards what it holds and what will reach it; for an evicted actor the home base does. -/
def execForwardingRequest (n : Nat) (s : State) : Out :=
  match s.packet n with
  | some (.forwardReq tenant v) =>
    if v.oldMod ≠ s.coords then onLink "FORWARDING_REQUEST" (s.toLink n (.forwardReq tenant v))
    else if s.halted v.old.core then notEnabled "FORWARDING_REQUEST"
    else
      let who : AId := ⟨tenant, v.oldId⟩
      let t := s.take n v.old.core.toNat
      match t.locOf who with
      | some q =>
        .next (t.at q.core t.cx fun u =>
          let p := (u.actorAt q.slot).forwards u.here.toNat v.oldEp v u
          (p.1.setDevice q.slot p.2).settle q.slot)
      | none =>
        match t.savedOf who with
        | some x =>
          let p := x.actor.forwards (baseStation (homeOf who)) v.oldEp v t
          .next (p.1.settleSaved x p.2)
        | none => .next t
  | _ => notEnabled "FORWARDING_REQUEST"

/-- An endpoint whose move the marker ends: its direct messages are no longer held, and it is open (R181, R182). -/
def Actor.moved (a : Actor) (e : BitVec 4) : Actor :=
  { a.setAux e { a.auxOf e with holdDirect := false } with
    box := (a.box.filter fun h => ! (h.ep = e && h.direct)) ++ (a.box.filter fun h => h.ep = e && h.direct).map fun h => { h with direct := false } }

/-- The old location's record freed when the marker has passed (R182): a delegated endpoint becomes free. -/
def Actor.forwarded (a : Actor) (m : BitVec 4) : Actor :=
  let b := (a.freeRun m).setAux m { a.auxOf m with forwardTo := none, run := none }
  let c := { b with box := b.box.filter fun h => ! (h.ep = m && ! h.consumed && h.msg.kind.isOwn) }
  c.setEp m { c.ep m with status := .free }

/-- Whether a move goes nowhere: the marker of a delegation that was discarded ends the old location's forwarding (R183). -/
def Move.ends (v : Move) : Bool := ! v.atHome && v.mod = v.oldMod && v.loc = v.old && v.ep = v.oldEp && v.id = v.oldId

/-- FORWARDING_END_MARKER (R182): at the old location it is passed on last and the record is freed; at the new one the held direct messages follow. -/
def execForwardingEndMarker (n : Nat) (s : State) : Out :=
  let no := notEnabled "FORWARDING_END_MARKER"
  match s.packet n with
  | some (.marker d who fromOld peer v) =>
    if s.barred d ∨ ! s.first n (.marker d who fromOld peer v) then no
    else if s.away d then onLink "FORWARDING_END_MARKER" (s.toLink n (.marker d who fromOld peer v))
    else
      let m := d.endpoint
      let t := s.take n d.station
      let free (u : State) : State := u.control who (fun a => a.forwarded m) fun u _ => u.syncDir u.here
      let last (st : Nat) (u : State) : State := u.post st (BitVec.allOnes 64) (.marker v.dest ⟨who.tenant, v.id⟩ true peer v)
      if fromOld then .next (t.control who (fun a => a.moved m) fun u k => u.settle k)
      else if v.ends then .next (free t)
      else if v.atHome then
        -- a reload: what is on its way passes the old core, then the home base
        match d with
        | .home _ => .next (last d.station t)
        | _ => .next (t.post d.station (BitVec.allOnes 64) (.marker (.home who) who false peer v))
      else if (s.actorOf who).any fun a => ((a.auxOf m).forwardTo).isNone then no
      else .next (last d.station (free t))
  | _ => no

end Sys2Proof.Machine
end

