-- ==== Sys2Proof/Machine/Activate.lean ====
section
/-! DEFINITION. Activations from dispatch to their end (01_device.md R29 to R34; 16_scheduling_and_trap_tables.md R340 to R348; 18_counters.md R380, R381; 12_queues.md R276): ACTIVATION_DISPATCH, CLOSE_NOTICE, COUNTED_MESSAGE, DONE_RELEASE, TRAP_SEQUENCE, BUDGET_EXHAUSTED, KILL, PRIORITY_LOAN; and ROLLBACK (17_virtual_time.md R367 to R370). -/

namespace Sys2Proof.Machine

/-! ## The slot table (R337, R338, R340) -/

def SlotEntry.zero : SlotEntry := ⟨false, false, 0⟩

/-- The six bits of an entry number reversed (R338). -/
def rev6 (i : Nat) : Nat := (List.range 6).foldl (fun m k => 2 * m + i / 2 ^ k % 2) 0

/-- An entry of the slot table, none when it gives an idle cycle. -/
def Core.entry (k : Core) (i : Nat) : Option SlotEntry :=
  let e := look SlotEntry.zero i k.slots
  if e.valid && ! decide (rev6 i < k.throttle.toNat) then some e else none

/-- The table walk of R340: what the tenant of the current entry has, or, with DONATE, the first entry after it whose tenant has something. -/
def Core.walk (k : Core) (has : BitVec 4 → Option α) : Option α :=
  match k.entry k.pointer.toNat with
  | none => none
  | some e =>
    match has e.tenant with
    | some x => some x
    | none =>
      if e.donate then
        (List.range' 1 63).findSome? fun i => match k.entry ((k.pointer.toNat + i) % 64) with
          | some f => has f.tenant
          | none => none
      else none

/-! ## The next message of an actor (R29, R30, R32, R167, R362, R363) -/

/-- Whether a message stands in the mailbox: it is not of a held class, or it is counted. What is consumed by dispatch only stands there whatever its class. -/
def Actor.mailed (a : Actor) (h : Held) : Bool :=
  ! h.consumed && (! h.msg.kind.isOwn || h.msg.hdr.close || ! a.isHeld h.msg.hdr.cls || a.counts h)

/-- The oldest message of a message's buffer (R167); what stands under no itinerary is in no buffer's order. -/
def Actor.front (a : Actor) (h : Held) : Held :=
  if h.msg.kind.isOwn then (a.box.find? fun x => x.ep = h.ep && ! x.consumed && x.msg.kind.isOwn).getD h else h

/-- Whether dispatch may consume the oldest message of a buffer (R167, R175, R182): its endpoint is open at a state that takes one, or its tables cannot be read, which fails the delivery (R316); nothing while it waits for a slot. -/
def Core.takes (k : Core) (a : Actor) (h : Held) : Bool :=
  h.place ≠ .waiting && (! h.msg.kind.isOwn ||
    ((a.ep h.ep).status = .opened && ! h.direct &&
      (h.msg.hdr.close || k.badItins.contains (a.ep h.ep).itin.toNat ||
        (k.view (a.ep h.ep).itin (a.ep h.ep).state).kind = 1 || (k.view (a.ep h.ep).itin (a.ep h.ep).state).kind = 3)))

/-- Whether a message may be consumed now: the oldest of its buffer, with its spilled record fetched back (R367). -/
def Core.acceptable (k : Core) (a : Actor) (h : Held) : Bool := k.takes a h && a.front h = h && a.fetched h

/-- The heads of the FIFOs of the senders, in box order. -/
def fifoHeads : List Held → List (BitVec 24) → List Held
  | [], _ => []
  | h :: l, seen => if seen.contains h.msg.hdr.key.sender then fifoHeads l seen else h :: fifoHeads l (h.msg.hdr.key.sender :: seen)

/-- The least of a list by a relation. -/
def leastBy (lt : Held → Held → Bool) : List Held → Option Held
  | [] => none
  | h :: l => match leastBy lt l with
    | some x => if lt x h then some x else some h
    | none => some h

/-- The horizon of a timed actor on a core (R362). -/
def State.withinHorizon (s : State) (t : BitVec 4) (m v : Word) : Bool := decide (v ≤ satAdd m s.mgmt.horizon[t.toNat])

/-- Whether a message's own VRT lets it start an activation (R29, R362, R363). -/
def State.ripe (s : State) (a : Actor) (h : Held) : Bool :=
  match a.disc with
  | .untimed => h.msg.hdr.irrev || s.safeHere h.msg.hdr.key.vrt
  | .conservative => s.safeHere h.msg.hdr.key.vrt
  | .timed => s.withinHorizon a.aid.tenant s.hereCore.vmile h.msg.hdr.key.vrt

/-- The next message of the actor in a slot. A mailbox that is empty at the start of the cycle stays so for this choice (R268); one that is not has what arrives in the cycle (R369). A timed actor starts in key order alone (R362): a message of a lower key that stands behind another one of its buffer holds the choice back. That one was sent by an activation that has been undone, and its anti-message is on its way (R370). -/
def State.nextOf (s : State) (k : BitVec 4) : Option Held :=
  let a := s.actorAt k
  let mail := a.box.filter a.mailed
  let box := if mail.any fun h => decide (h.arrived < s.time) then mail else []
  match a.disc with
  | .untimed =>
    leastBy (fun x y => decide (x.arrived < y.arrived) || (x.arrived = y.arrived && x.msg.hdr.key.sender.ult y.msg.hdr.key.sender))
      ((fifoHeads box []).filter fun h => s.hereCore.acceptable a h && s.ripe a h)
  | .conservative =>
    (leastBy (fun x y => x.msg.hdr.key.before y.msg.hdr.key) (box.filter (s.hereCore.acceptable a))).filter (s.ripe a)
  | .timed =>
    (leastBy (fun x y => x.msg.hdr.key.before y.msg.hdr.key) (box.filter fun h => a.mailed (a.front h) && s.hereCore.takes a (a.front h))).filter
      fun h => s.hereCore.acceptable a h && s.ripe a h

/-- Whether a message for the actor in a slot has found no slot in this cycle: nothing frees one in it any more (R268). -/
def State.tooLate (s : State) (k : BitVec 4) : Bool := (s.actorAt k).fullAt = some s.time

/-- Whether an actor may start an activation at all (R32, R277, R347, R367), or take a counted message: it has none in progress since an earlier cycle (R341, R380). -/
def State.idle (s : State) (k : BitVec 4) : Bool :=
  let a := s.actorAt k
  s.hasActor k && ! a.retired && decide (a.freedAt < s.time) && ! s.tooLate k && (s.ctxOf k).isNone && a.pending.isNone && (s.hereCore.called.all fun x => x.1 ≠ k) &&
    (a.disc ≠ .timed || decide (s.hereCore.deferral.length ≤ 240))

/-- The effective actor class (R342). -/
def Actor.effective (a : Actor) : BitVec 2 := if a.prio.ult a.lent then a.lent else a.prio

/-- The eligible actor of a tenant that is given a context (R341): the highest class, the earliest eligibility, the lowest slot. -/
def State.chosen (s : State) (t : BitVec 4) : Option (BitVec 4 × Held) :=
  let all := (List.range 16).filterMap fun i =>
    let k := BitVec.ofNat 4 i
    if (s.actorAt k).aid.tenant = t ∧ s.idle k then (s.nextOf k).map fun h => (k, h) else none
  let age (x : BitVec 4 × Held) : Nat := max x.2.since (s.actorAt x.1).freedAt
  let better (x y : BitVec 4 × Held) : Bool :=
    let p := (s.actorAt x.1).effective
    let q := (s.actorAt y.1).effective
    q.ult p || (p = q && decide (age x < age y))
  all.foldl (fun m x => match m with
    | none => some x
    | some y => if better x y then some x else some y) none

/-- The lowest context of the core in focus that is free since an earlier cycle (R341). -/
def State.freeCtx (s : State) : Option (BitVec 2) :=
  ([0, 1, 2, 3] : List (BitVec 2)).find? fun x => (s.ctxAt x).phase = .free && (s.ctxAt x).freedAt ≠ some s.time

/-! ## The advance by a consumed message (R32 step 4, R176) -/

/-- An endpoint advanced by a message, or the cause of a refusal (R167, R178, R310), or of tables that cannot be read (R316). -/
def Core.advanceBy (k : Core) (r : EpRec) (h : Held) : Except (BitVec 9) EpRec :=
  let v := k.view r.itin r.state
  let bad : BitVec 9 := 0x0A0 + v.kind.setWidth 9 * 4 + 1
  let counted (q : EpRec) : EpRec := { q with rcvd := q.rcvd + 1 }
  match h.msg.kind with
  | .plain | .delegation _ _ =>
    if k.badItins.contains r.itin.toNat then .error 0x1C4
    else if h.msg.hdr.close then
      .ok (counted { r with status := .closed, state := v.close, cpoint := v.close, ccause := h.cause, cbypeer := true })
    else
      let l := if v.kind = 3 then (h.msg.payload.headD 0).toNat else 0
      match v.next[l]? with
      | none => .error bad
      | some t =>
        if h.msg.hdr.cls ≠ v.cls ∨ h.msg.hdr.state ≠ r.state ∨ h.msg.hdr.label ≠ (v.kind = 3 : Bool) ∨ h.msg.hdr.deleg ∨ k.bounded r.itin t r.loop then .error bad
        else .ok (counted (k.advanced r t))
  | .reply _ _ => .ok (counted r)
  | .again _ _ => .ok (counted r)
  | .completion => .ok (counted r)
  | _ => .ok r

/-- The status and the address of a reply. -/
def MsgKind.status : MsgKind → Option (BitVec 9 × Word)
  | .reply st va => some (st, va)
  | .again st va => some (st, va)
  | _ => none

/-- What a diversion carries from a message that started no activation (R305). DETAIL holds the endpoint index for the causes of classes 5 to 7, without an instruction word, the global address for 0x10C, 0 for class 14 (R353); for the others R353 names no value. -/
def bareRecord (h : Held) (cause : BitVec 9) (n : Nat) : TrapRec :=
  let x := Config.unnamedDetail cause.toNat n
  let d : Word :=
    if 0x0A0 ≤ cause.toNat ∧ cause.toNat < 0x100 then x.extractLsb' 32 32 ++ 0#28 ++ h.ep
    else if 0x1C0 ≤ cause.toNat then 0
    else match h.msg.kind.status with
      | some (_, va) => va
      | none => x
  ⟨0, h.ep, h.msg.hdr.cls, cause, h.msg.hdr.key, d⟩

/-! ## The end of a message's stay -/

/-- Messages gone from an actor, with the e15 slots of replies and the old record of a returned message (R170, R225, R367). -/
def Actor.endTaken (a : Actor) (l : List Held) : Actor :=
  let gone := l.filterMap fun h => if h.msg.kind.isReply then some h.msg.hdr.key.seq else none
  { a with box := a.box.filter (fun x => ! (l.any fun h => h.same x)), e15used := a.e15used.filter (fun q => ! gone.contains q),
           log := a.log.map fun p => match p.entry with
             | .returned y => if l.any fun h => h.same y then { p with entry := .filler p.entry.units } else p
             | _ => p }

/-- The run that a close notice kept, freed: the one at `base`, where the endpoint's buffer stood when the notice was taken (R176). One that the endpoint has been given since stays. -/
def Actor.endNotice (a : Actor) (h : Held) (base : BitVec 18) : Actor :=
  if ! h.msg.hdr.close then a
  else match (a.auxOf h.ep).run with
    | some r => if r.base = base.toNat then a.freeRun h.ep else a
    | none => a

/-- The acknowledgement of a close notice (R176). -/
def State.ackClose (s : State) (k : BitVec 4) (e : BitVec 4) : State :=
  let a := s.actorAt k
  s.post s.here.toNat (BitVec.allOnes 64) (.ack (a.dest e) (a.peerOf e) false)

/-! ## Start (R18, R32 step 5, R97, R189, R365) -/

/-- The records of a dispatch, in order (R365). -/
def State.startRecords (s : State) (k : BitVec 4) (h : Held) (cls : BitVec 6) (join : Bool) : List LogRec :=
  let a := s.actorAt k
  let w := a.jreg.word
  [.marker h.msg.hdr.key h.ep cls a.seq] ++ (if a.disc = .timed then [.history h] else []) ++ [.endpoint h.ep (a.ep h.ep) (a.auxOf h.ep)] ++
    if join then [.join w (s.hereCore.isFull w.toNat) (s.word64 w.toNat), .jreg a.jreg] else []

/-- Records written in order; none when the log cannot take one. -/
def State.logEach (s : State) (k : BitVec 4) : List LogRec → Option State
  | [] => some s
  | r :: l =>
    let put : Option State := match r with
      | .history h => (s.logHeld k r h.msg.payload).map fun x => x.1
      | r => s.log k r
    match put with
    | some t => t.logEach k l
    | none => none

/-- The records of a dispatch written; where the log cannot take them, the activation traps at once, and the records by which it is undone stand beyond the limit (log 77). -/
def State.logStart (s : State) (k : BitVec 4) (h : Held) (cls : BitVec 6) (join : Bool) : State × Bool :=
  let l := s.startRecords k h cls join
  match s.logEach k l with
  | some t => (t, true)
  | none => (s.setLogged k { s.actorAt k with log := (l.map fun r => ⟨0, true, r⟩).reverse ++ (s.actorAt k).log }, false)

/-- TRAPINFO0 (R189, R346). -/
def TrapRec.info0 (t : TrapRec) : Word :=
  BitVec.ofNat 64 (t.pc.toNat * 2 ^ 40 + t.endpt.toNat * 2 ^ 36 + t.cls.toNat * 2 ^ 30 + t.cause.toNat)

def TrapRec.words (t : TrapRec) : Vector Word 4 :=
  #v[t.info0, t.key.vrt, BitVec.ofNat 64 (t.key.sender.toNat * 2 ^ 40 + t.key.seq.toNat), t.detail]

/-- g6 at the start: the state after the advance, the close-point of a notice, the status of a reply (R18, R176, R225). -/
def startState (h : Held) (r : EpRec) : Word :=
  match h.msg.kind with
  | .reply st _ => st.setWidth 64
  | .again st _ => st.setWidth 64
  | .notice => 0
  | .diversion _ _ _ _ => 0
  | _ => if h.msg.hdr.close then r.cpoint.setWidth 64 else r.state.setWidth 64

/-- A context set up for an activation: registers, system registers and the first PC. -/
def startCtx (old : Ctx) (a : Actor) (img : Nat) (k : BitVec 4) (h : Held) (cls : BitVec 6) (jstat : Word) (trig : Trigger) (now : Nat) : Ctx :=
  let zero : Vector Word 32 := Vector.replicate 32 0
  let e : BitVec 4 := match h.msg.kind with
    | .diversion _ _ _ _ => 15
    | _ => h.ep
  let g := (((((zero.set 1 (h.addr.setWidth 64)).set 2 (BitVec.ofNat 64 h.msg.payload.length)).set 3 (e.setWidth 64)).set 4 (cls.setWidth 64)).set 5
    (h.msg.hdr.key.sender.setWidth 64)).set 6 (startState h trig.after)
  { Ctx.reset with
    phase := .running, slot := k, pc := BitVec.ofNat 16 (img + 2 * a.junction[cls.toNat].offset.toNat), g := g,
    vnow := h.msg.hdr.key.vrt, seed := seedOf h.msg.hdr.key, jstat := jstat,
    trapinfo := match h.msg.kind with
      | .diversion t _ _ _ => t.words
      | _ => Vector.replicate 4 0,
    budget := a.budget, prioBase := a.prio, prioEff := a.effective, trigger := some trig, g3 := e, g4 := cls, started := now,
    retired := old.retired }

/-- The load address of an actor's image on the core in focus (R57, R304). -/
def Core.imageBase (k : Core) (t : BitVec 4) (n : BitVec 16) : Nat :=
  match k.images.find? fun x => x.tenant = t && x.num = n with
  | some x => x.base
  | none => 0

/-- The activation of a message started in a context: the endpoint as it is after the message, the counter's word as it is after the count. A log that cannot spill makes it trap at once (R365), as does a reply whose status is a machine cause (R228), at the address that failed (R353). -/
def State.begin (s : State) (x : BitVec 2) (k : BitVec 4) (h : Held) (cls : BitVec 6) (r : EpRec) (join : Option (Nat × Word)) (jstat : Word) : State :=
  let p := s.logStart k h cls join.isSome
  let t := p.1
  let a := t.actorAt k
  let h' := { h with consumed := true }
  let b := { (a.setEp h.ep r) with box := a.box.map fun y => if y = h then h' else y }
  let t := t.setActorAt k (if join.isSome then { b with jreg := JReg.zero } else b)
  let t := match join with
    | some (w, v) => t.setHere (t.hereCore.writePad (8 * w) (leBytes v.toNat 8))
    | none => t
  let trig : Trigger := ⟨h', join.isSome, r, BitVec.ofNat 15 ((join.map fun y => y.1).getD 0), (join.map fun y => y.2).getD 0⟩
  let img := t.hereCore.imageBase a.aid.tenant a.image
  let t := t.setHere { t.hereCore with dispatched := some t.time }
  let t := t.setCtxAt x (startCtx (t.ctxAt x) (t.actorAt k) img k h' cls jstat trig t.time)
  let t := if h.msg.hdr.close then t.ackClose k h.ep else t
  let machine : Option (BitVec 9 × Word) := h.msg.kind.status.filter fun y => decide (0x1C0 ≤ y.1.toNat) && decide (y.1.toNat < 0x1E0)
  match machine with
  | some (st, va) => { trapWith none none st va { t with cx := x } with cx := t.cx }
  | none => if p.2 then t else { trapWith none none 0x142 h.msg.hdr.key.vrt { t with cx := x } with cx := t.cx }

/-- A message that dispatch consumes without an activation (R305): diverted with a cause, its slot freed, with the run that a close notice kept. It is not held pending in a timed actor. -/
def State.turnAway (s : State) (k : BitVec 4) (h : Held) (cause : BitVec 9) : State :=
  let a := s.actorAt k
  let t := s.setActorAt k ((a.endTaken [h]).endNotice h (a.ep h.ep).bufbase)
  match h.msg.kind with
  | .diversion _ _ _ _ => (t.count 0x30B8).settle k
  | _ => ({ t with tick := t.tick + 1 }.divert h.msg (bareRecord h cause t.tick)).settle k

/-- What follows the restoring of a trapped activation (R345 steps 6 to 8): channels close, the trigger is diverted or discarded, the trap is counted. `undone` says that the restore point is the activation's start; `v` is the VRT of the notices (R399). -/
def State.trapEnd (s : State) (k : BitVec 4) (trec : TrapRec) (close : Option (BitVec 4 × BitVec 6 × BitVec 6)) (trigger : Option Trigger)
    (undone : Bool) (v : Word) (prio : BitVec 2) : State :=
  let st := s.here.toNat
  let mile := s.hereCore.vmile
  let diverted := match trigger with
    | some t => s.canDivert t.held.msg
    | none => false
  let own := match trigger with
    | some t => t.held.onChannel
    | none => false
  -- what the trigger did before the start stays when it is not diverted, to come again (R349, R386)
  -- and so does a close that the device has made meanwhile (R159)
  let s := match trigger with
    | some t =>
      if undone && (! diverted || t.held.msg.hdr.close) then
        let r := (s.actorAt k).ep t.held.ep
        let s := s.setActorAt k ((s.actorAt k).setEp t.held.ep
          (if t.held.msg.kind.isOwn ∧ r.status ≠ .opened then { r with rcvd := t.after.rcvd } else { t.after with peer := r.peer, pmod := r.pmod }))
        if t.byJoin then (s.setActorAt k { s.actorAt k with jreg := JReg.zero }).setHere (s.hereCore.writePad (8 * t.word.toNat) (leBytes t.val.toNat 8)) else s
      else s
    | none => s
  let s := match close with
    | some (e, cp, state) =>
      if (s.actorAt k).hasChannel e ∨ ((s.actorAt k).ep e).status = .connecting then
        let p := shut st mile e trec.cause cp state v prio s (s.actorAt k)
        p.1.setActorAt k p.2
      else s
    | none => s
  let machine := decide (0x1C0 ≤ trec.cause.toNat) && decide (trec.cause.toNat < 0x1E0) && trec.cause ≠ 0x1CB
  let s :=
    if own && (machine || ! diverted) && (s.actorAt k).hasChannel trec.endpt then
      let r := (s.actorAt k).ep trec.endpt
      let p := shut st mile trec.endpt trec.cause (s.closePoint s.here r) r.state v prio s (s.actorAt k)
      p.1.setActorAt k p.2
    else s
  let s := match trigger with
    | some t => (s.setActorAt k (((s.actorAt k).endTaken [t.held]).endNotice t.held t.after.bufbase)).divert t.held.msg trec
    | none => s
  let cls := trec.cause.toNat / 32
  let s := s.count (0x3000 + 8 * cls)
  -- a trap of a masked class stops the partition (R356)
  match s.hereCore.arm with
  | some p => if s.mgmt.trapMask[p.toNat].getLsbD cls then s.trip p else s
  | none => s

/-- A message at which an activation traps before it begins: the trap sequence without an activation. In a timed actor it is held pending: the message counts as an ended activation of no instructions (R31). -/
def State.trapAt (s : State) (k : BitVec 4) (h : Held) (trec : TrapRec) (close : Option (BitVec 4 × BitVec 6 × BitVec 6)) : State :=
  let a := s.actorAt k
  let trig : Trigger := ⟨{ h with consumed := true }, false, a.ep h.ep, 0, 0⟩
  if a.disc = .timed then
    let t := (s.logStart k h h.msg.hdr.cls false).1
    let b := (t.actorAt k).endTaken [h]
    (t.setActorAt k { b with ended := b.ended ++ [⟨h.msg.hdr.key, false⟩], pending := some ⟨trec, close, some trig, a.effective⟩, freedAt := t.time }).settle k
  else
    let v := if a.disc = .untimed then satAdd s.hereCore.vmile 1 else satAdd h.msg.hdr.key.vrt 1
    let t := s.trapEnd k trec close (some trig) true v a.prio
    (t.setActorAt k { t.actorAt k with freedAt := t.time }).settle k

/-- A message whose delivery is refused before an activation begins (R167, R178, R316, R354). -/
def State.refuseAt (s : State) (k : BitVec 4) (h : Held) (cause : BitVec 9) : State :=
  let r := (s.actorAt k).ep h.ep
  { s with tick := s.tick + 1 }.trapAt k h (bareRecord h cause s.tick) (if h.onChannel then some (h.ep, s.closePoint s.here r, r.state) else none)

/-- Whether the device meets an error in an actor's record when it gives it a message that starts class `cls`: in the endpoint's record or in the junction entry (R354). -/
def Actor.badFor (a : Actor) (e : BitVec 4) (cls : BitVec 6) : Bool := a.bad.contains (.endpoint e) || a.bad.contains (.junction cls)

/-- A message given to the chosen actor and a free context (R32 steps 3 to 5, R167, R225, R305, R354). -/
def State.give (s : State) (x : BitVec 2) (k : BitVec 4) (h : Held) : State :=
  let a := s.actorAt k
  let s := s.setHere { s.hereCore with dispatched := some s.time }
  if a.badFor h.ep h.msg.hdr.cls then s.refuseAt k h 0x1C7
  else
  match s.hereCore.advanceBy (a.ep h.ep) h with
  | .error c => s.refuseAt k h c
  | .ok q =>
    if a.isHandler h.msg.hdr.cls then s.begin x k h h.msg.hdr.cls q none 0
    else if h.msg.hdr.close then
      let t := (s.setActorAt k (a.setEp h.ep q)).ackClose k h.ep
      (t.turnAway k h 0x1B2).syncDir s.here
    else s.turnAway k h (if h.msg.kind.status.isSome then 0x10C else 0x1B2)

/-- The actor, message and context of the dispatch that the table walk makes now: one in a cycle (R341). -/
def State.dispatchChoice (s : State) : Option (BitVec 4 × Held × BitVec 2) :=
  if s.halted s.here ∨ s.hereCore.dispatched = some s.time then none
  else match s.hereCore.walk s.chosen, s.freeCtx with
    | some (k, h), some x => some (k, h, x)
    | _, _ => none

/-- ACTIVATION_DISPATCH (R341): a free context is given to the chosen actor. Notices and counted messages have steps of their own. -/
def execActivationDispatch (c : BitVec 12) (s : State) : Out :=
  s.atOut c 0 fun t =>
    match t.dispatchChoice with
    | some (k, h, x) =>
      if h.msg.hdr.close ∨ (t.actorAt k).counts h then notEnabled "ACTIVATION_DISPATCH" else .next (t.give x k h)
    | none => notEnabled "ACTIVATION_DISPATCH"

/-- CLOSE_NOTICE (R176): the notice is the actor's next message; the endpoint becomes closed, the acknowledgement returns, and the class-62 handler starts. -/
def execCloseNotice (c : BitVec 12) (k : BitVec 4) (e : BitVec 4) (s : State) : Out :=
  s.atOut c 0 fun t =>
    match t.dispatchChoice with
    | some (j, h, x) =>
      if j = k ∧ h.ep = e ∧ h.msg.hdr.close ∧ (t.actorAt k).counts h = false then .next (t.give x k h) else notEnabled "CLOSE_NOTICE"
    | none => notEnabled "CLOSE_NOTICE"

/-! ## Counted messages (R380) -/

/-- The marker of the newest activation of a log. -/
def newestMarker (l : List Placed) : Option (Key × BitVec 40) :=
  l.findSome? fun p => match p.entry with
    | .marker k _ _ q => some (k, q)
    | _ => none

/-- A word's LEFT, FAIL and OK after a counted message. -/
def countedWord (v : Word) (fail : Bool) : Word :=
  let left : BitVec 16 := v.extractLsb' 32 16 - 1
  let f : BitVec 16 := v.extractLsb' 16 16 + (if fail then 1 else 0)
  let o : BitVec 16 := v.setWidth 16 + (if fail then 0 else 1)
  v.extractLsb' 48 16 ++ left ++ f ++ o

/-- JSTAT of an activation that a counter starts (R189). -/
def jstatOf (v : Word) : Word := BitVec.ofNat 64 (2 ^ 48 + (v.extractLsb' 16 16).toNat * 2 ^ 24 + (v.setWidth 16).toNat)

/-- JREG cleared once a store has cleared ARMED (R380). A timed actor's newest activation has it among its records, so that what undoes the store restores it. -/
def State.disarm (s : State) (k : BitVec 4) : State :=
  let a := s.actorAt k
  let t := if a.disc = .timed ∧ (newestMarker a.log).isSome then
      (s.log k (.jreg a.jreg)).getD (s.setLogged k { a with log := ⟨0, true, .jreg a.jreg⟩ :: a.log })
    else s
  t.setActorAt k { t.actorAt k with jreg := JReg.zero }

/-- COUNTED_MESSAGE (R380): the next message of the actor in a slot counts. A decrement is an activation of no instructions: a word in error (R202), or a log without room (R365), is its trap. -/
def execCountedMessage (c : BitVec 12) (k : BitVec 4) (s : State) : Out :=
  let no := notEnabled "COUNTED_MESSAGE"
  s.atOut c 0 fun t =>
    let a := t.actorAt k
    match (if t.idle k ∧ ! t.hereCore.stopped then t.nextOf k else none) with
    | none => no
    | some h =>
      if ! a.counts h then no
      else
        let w := a.jreg.word.toNat
        if t.hereCore.badPad.contains w then
          .next ({ t with tick := t.tick + 1 }.trapAt k h { bareRecord h 0x1C1 t.tick with detail := BitVec.ofNat 64 (8 * w) } none)
        else
        let old := t.word64 w
        if ! old.getLsbD 63 then .next (t.disarm k)
        else if a.badFor h.ep (old.extractLsb' 56 6) then .next (t.refuseAt k h 0x1C7)
        else
          match t.hereCore.advanceBy (a.ep h.ep) h with
          | .error e => .next (t.refuseAt k h e)
          | .ok q =>
            let v := countedWord old h.msg.hdr.close
            let mark : BitVec 16 := if h.msg.hdr.close then a.jreg.mask else a.jreg.mask ||| (1 <<< h.ep.toNat)
            let j : JReg := { a.jreg with mask := mark }
            if v.extractLsb' 32 16 = 0 then
              match t.dispatchChoice with
              | some (i, g, x) =>
                if i = k ∧ g = h then
                  let cls : BitVec 6 := old.extractLsb' 56 6
                  if a.isHandler cls then .next (t.begin x k h cls q (some (w, clearArmed v)) (jstatOf v))
                  else
                    let t := t.setActorAt k { (a.setEp h.ep q) with jreg := JReg.zero }
                    let t := t.setHere { t.hereCore.writePad (8 * w) (leBytes (clearArmed v).toNat 8) with dispatched := some t.time }
                    let t := if h.msg.hdr.close then t.ackClose k h.ep else t
                    .next ((t.turnAway k h 0x1B2).syncDir t.here)
                else no
              | none => no
            else
              let logged := if a.disc = .timed then (t.logEach k (t.startRecords k h h.msg.hdr.cls true)) else some t
              match logged with
              | none => .next ({ t with tick := t.tick + 1 }.trapAt k h { bareRecord h 0x142 t.tick with detail := h.msg.hdr.key.vrt } none)
              | some t =>
                let b := { ((t.actorAt k).setEp h.ep q) with jreg := j, freedAt := t.time }
                let b := if a.disc = .timed then { b with ended := b.ended ++ [⟨h.msg.hdr.key, false⟩] } else b
                let t := t.setActorAt k ((b.endTaken [h]).endNotice h (b.ep h.ep).bufbase)
                let t := t.setHere (t.hereCore.writePad (8 * w) (leBytes v.toNat 8))
                let t := if h.msg.hdr.close then t.ackClose k h.ep else t
                .next ((t.settle k).syncDir t.here)

/-! ## Undoing (R345 step 3, R367) -/

/-- A message put back among those of its actor by its arrival (R170, R367). -/
def putBack (h : Held) : List Held → List Held
  | [] => [h]
  | x :: l => if h.arrived < x.arrived ∨ (h.arrived = x.arrived ∧ h.msg.hdr.key.before x.msg.hdr.key) then h :: x :: l else x :: putBack h l

/-- Where the anti-message of a message that went to `d` goes, and for which actor: a child that stood since is where the endpoint leads; what was sent to one that was refused is gone (R184). -/
def Actor.chases (a : Actor) (d : Dest) (who : AId) : Option (Dest × AId) :=
  match d with
  | .child _ e => if (a.auxOf e).spawning && (a.ep e).status ≠ .connecting then none else some (a.dest e, a.peerOf e)
  | d => some (d, who)

/-- One record undone at the actor in a slot; a line's words that stood in error are so again. History records are for the walk. -/
def State.undo (s : State) (k : BitVec 4) (r : LogRec) : State :=
  match r with
  | .line n full data bad =>
    let c := s.hereCore.writePad (64 * n.toNat) data
    let c := { c with badPad := bad.foldl (fun m w => insertNat w m) c.badPad }
    s.setHere ((full.zip (List.range 8)).foldl (fun c p => c.setFull (8 * n.toNat + p.2) p.1) c)
  | .endpoint e rec aux => s.setActorAt k (((s.actorAt k).setEp e rec).setAux e aux)
  | .join w full v => s.setHere ((s.hereCore.writePad (8 * w.toNat) (leBytes v.toNat 8)).setFull w.toNat full)
  | .jreg v => s.setActorAt k { s.actorAt k with jreg := v }
  | .output h who d =>
    let unsent (x : Deferred) : Bool := x.slot = k && (match x.item with | .msg _ m _ => m.hdr.key = h.key | _ => false)
    if s.hereCore.fenced.any unsent then s.setHere { s.hereCore with fenced := s.hereCore.fenced.filter fun x => ! unsent x }
    else
      match (s.actorAt k).chases d who with
      | some (d, who) => s.postMsg s.here.toNat d ⟨{ h with anti := true, len := 0 }, [], .plain, who⟩
      | none => s
  | _ => s

/-- Scratch zones made unspecified (R20, R208). -/
def State.scatter (s : State) (k : BitVec 4) : State :=
  let zs := (s.actorAt k).zones.toList.filter fun z => z.valid && z.kind = .scratch
  let c := zs.foldl (fun (c : Core) z =>
    let lo := 64 * z.base.toNat
    let hi := 64 * (z.base.toNat + z.len.toNat)
    { c with pad := c.pad.forget lo hi s.tick, full := c.full.filter (fun w => ! (decide (lo ≤ 8 * w) && decide (8 * w < hi))),
             fullFog := ⟨lo / 8, hi / 8, s.tick⟩ :: cutFog (lo / 8) (hi / 8) c.fullFog }) s.hereCore
  { s.setHere c with tick := s.tick + 1 }

/-- The records of the newest activation of a log, newest first, and the rest from its marker on. -/
def segment (l : List Placed) : List Placed × List Placed := (l.takeWhile fun p => ! p.entry.isMarker, l.dropWhile fun p => ! p.entry.isMarker)

/-- Undone records, newest first, as they stay in the ring: what a returned message keeps, and fillers below it until it goes. -/
def keepReturned : List Placed → Bool → List Placed
  | [], _ => []
  | p :: l, below =>
    match p.entry with
    | .returned _ => p :: keepReturned l true
    | .spilledAnti _ => p :: keepReturned l true
    | _ => if below && ! p.spilled then { p with entry := .filler p.entry.units } :: keepReturned l below else keepReturned l below

/-- The unit after the newest record that stands in the ring. -/
def Actor.nextUnit (a : Actor) (freed : Nat) : Nat :=
  match a.log.find? fun p => ! p.spilled with
  | some p => if a.ringUnits = 0 then 0 else (p.unit + p.entry.units) % a.ringUnits
  | none => freed

/-- A request that an undone activation issued: its sequence is not below that of the earliest undone marker (R368). -/
def undoneSeq (low q : BitVec 40) : Bool := ! seqBefore q low

/-- The newest activation of a log undone: its records in reverse; its consumed messages returned, or dropped when they are replies to an undone request. `all` says that the trigger is returned too. -/
def State.undoNewest (s : State) (k : BitVec 4) (low : BitVec 40) (all : Bool) : State :=
  let l := (s.actorAt k).log
  let (recs, rest) := segment l
  let t := recs.foldl (fun t p => t.undo k p.entry) s
  let a := t.actorAt k
  let back (p : Placed) : Option Held :=
    match p.entry with
    | .history h =>
      if h.msg.kind.isReply && undoneSeq low h.msg.hdr.key.seq then none
      else if ! all && ! h.byRecv then none
      else some { h with consumed := false, byRecv := false, place := .hist, addr := BitVec.ofNat 18 ((unitPlace a.ring p.unit).1 + 64),
                         size := (h.msg.payload.length + 63) / 64 * 64 }
    | _ => none
  let recs' := recs.map fun p => match back p with
    | some h => { p with entry := .returned h }
    | none => p
  let box := (recs.filterMap back).foldl (fun b h => putBack h b) a.box
  let freed := match (recs ++ rest.take 1).getLast? with
    | some p => p.unit
    | none => a.logNext
  let b := { a with log := keepReturned (recs' ++ rest.take 1) false ++ rest.drop 1, box := box }
  t.setActorAt k { b with logNext := b.nextUnit freed }

/-- The sequence of the earliest activation to be undone. -/
def lowestSeq (l : List Placed) (undone : Key → Bool) : Option (BitVec 40) :=
  l.foldl (fun m p => match p.entry with
    | .marker k _ _ q => if undone k then some q else m
    | _ => m) none

/-- The requests of undone activations (R368): those that never left free their slots, those that have left are dropped on arrival, held replies to them are dropped. -/
def State.dropRequests (s : State) (k : BitVec 4) (low : BitVec 40) (items : List Item) : State :=
  let a := (s.actorAt k).freeItems items
  let held := (a.box.filter fun h => ! h.consumed && h.msg.kind.isReply && undoneSeq low h.msg.hdr.key.seq)
  let b := a.endTaken held
  s.setActorAt k { b with e15undone := (b.e15undone ++ b.e15used.filter (undoneSeq low)).eraseDups }

/-- The ended activations of an actor with undone keys undone, newest first. -/
def State.undoEnded (k : BitVec 4) (low : BitVec 40) (undone : Key → Bool) : Nat → State → State
  | 0, s => s
  | n + 1, s =>
    match (s.actorAt k).ended.getLast? with
    | some e =>
      if undone e.key then
        let t := s.undoNewest k low true
        let a := t.actorAt k
        State.undoEnded k low undone n (t.setActorAt k { a with ended := a.ended.dropLast, pending := none })
      else s
    | none => s

/-- The anti-messages that wait, at the core, in the actor's log or at its home, matched against its unconsumed messages (R278). -/
def State.meetAntis (s : State) (k : BitVec 4) : State :=
  ((s.actorAt k).box.filter fun h => ! h.consumed).foldl (fun t h =>
    match t.antiFor k h.msg with
    | some u => (u.setActorAt k ((u.actorAt k).annihilate h.msg.hdr.key)).count 0x3088
    | none => t) s

/-- The rollback walk (R367) for every call that stands for the actor in a slot; an uncorrectable log that it meets ends the actor as a kill with 0x1C7, as in a trap's restoring (R345, R354). -/
def State.rollback (s : State) (k : BitVec 4) : State :=
  let calls := s.hereCore.called.filter fun x => x.1 = k
  let undone (key : Key) : Bool := calls.any fun x => x.2.1.before key || (x.2.2 && x.2.1 = key)
  let s := s.setHere { s.hereCore with called := s.hereCore.called.filter fun x => x.1 ≠ k }
  let a := s.actorAt k
  if (a.ended.any fun e => undone e.key) ∧ a.bad.contains .log then s.killAt k 0x1C7
  else
  let t :=
    if a.ended.any fun e => undone e.key then
      let low := (lowestSeq a.log undone).getD a.seq
      let t := State.undoEnded k low undone a.ended.length s
      let gone (x : Deferred) : Bool := x.slot = k && undone x.key
      let items := ((t.hereCore.deferral ++ t.hereCore.fenced).filter gone).map fun x => x.item
      let t := t.setHere { t.hereCore with deferral := t.hereCore.deferral.filter (fun x => ! gone x), fenced := t.hereCore.fenced.filter fun x => ! gone x }
      let t := ((t.dropRequests k low items).scatter k).count 0x3080
      let t := (t.setLogged k { t.actorAt k with freedAt := t.time }).fetchBack k
      t
    else s
  ((t.meetAntis k).settle k).wakeHere |>.syncDir s.here

/-- ROLLBACK (R367): called for, and no activation of the actor is in progress; not once an anti-message has found its store full in the cycle, which the walk could have emptied (R268). -/
def execRollback (c : BitVec 12) (k : BitVec 4) (s : State) : Out :=
  s.atOut c 0 fun t =>
    if (t.hereCore.called.any fun x => x.1 = k) ∧ (t.ctxOf k).isNone ∧ t.hasActor k ∧ t.hereCore.antiFull ≠ some t.time then .next (t.rollback k) else notEnabled "ROLLBACK"

/-! ## The end of an activation (R276, R347) -/

/-- A context freed; the count of instructions retired since reset stays (R359). -/
def State.freeContext (s : State) (x : BitVec 2) : State :=
  let t := s.setHere (s.hereCore.stopEngines x)
  t.setCtxAt x { Ctx.reset with retired := (s.ctxAt x).retired, freedAt := some s.time }

/-- The messages that the activation of a context took, its trigger first. -/
def Ctx.allTaken (x : Ctx) : List Held := (match x.trigger with | some t => [t.held] | none => []) ++ x.consumed

/-- An activation ended without a trap: its slots freed, its context freed, its actor as its discipline says. -/
def State.conclude (s : State) (x : BitVec 2) (retire : Bool) (pending : Option Pending) : State :=
  let c := s.ctxAt x
  let k := c.slot
  let a := (s.actorAt k).endTaken c.allTaken
  let a := match c.trigger with
    | some t => a.endNotice t.held t.after.bufbase
    | none => a
  let a := { a with freedAt := s.time }
  let b :=
    if a.disc = .timed then { a with ended := a.ended ++ [⟨c.key, retire⟩], pending := pending }
    else { a with log := (sinceMarker a.log).filter (fun p => ! p.entry.isMarker), retired := a.retired || retire }
  let t := ((s.freeContext x).setLogged k b).fetchBack k
  ((t.settle k).reap k).wakeHere.syncDir s.here

/-- Whether the waits of done are met (R70, R113, R142, R207). -/
def State.waitsMet (s : State) (x : BitVec 2) : Bool :=
  let c := s.ctxAt x
  s.hereCore.vq.all (fun y => y.ctx ≠ x) && s.hereCore.mq.all (fun y => y.ctx ≠ x) &&
    s.hereCore.cq.all fun y => ! (y.ctx = x && y.loc.slot = c.slot && y.isRead)

/-- DONE_RELEASE (R276): staged and held items leave in order as far as they may, and the copy commands among them complete (R207); then the slots and the context are freed. -/
def execDoneRelease (c : BitVec 12) (x : BitVec 2) (s : State) : Out :=
  let no := notEnabled "DONE_RELEASE"
  s.atOut c x fun t =>
    match t.ctx.phase with
    | .releasing retire =>
      if ! t.waitsMet x ∨ t.hereCore.stopped ∨ t.tooLate t.ctx.slot then no
      else if t.actor.disc ≠ .timed ∧ t.hereCore.fenced.any fun y => y.slot = t.ctx.slot then no
      else
        let n := t.ctx.staging.length
        let p := t.releaseFrom t.ctx.slot t.ctx.staging
        let t := p.1.setCtx { p.1.ctx with staging := p.2, leaving := true }
        if p.2.isEmpty ∧ t.waitsMet x then .next (t.conclude x retire none)
        else if p.2.length < n then .next t else no
    | _ => no

/-! ## Traps (R345 to R348) -/

/-- A returned message's slot as its delivery left it (R20, R170). -/
def Core.relanded (k : Core) (h : Held) : Core :=
  if h.place = .hist ∨ h.place = .waiting then k else k.landed h

/-- The trap of an untimed or conservative activation, or of one that is killed (R345). -/
def State.trapNow (s : State) (x : BitVec 2) (trec : TrapRec) (close : Option (BitVec 4 × BitVec 6 × BitVec 6)) : State :=
  let c := s.ctxAt x
  let k := c.slot
  let a := s.actorAt k
  let low := match newestMarker a.log with
    | some (_, q) => q
    | none => a.seq
  -- steps 3 and 5: restore, and return what recv, offer and recvep took after the restore point
  let back := c.consumed.drop c.kept
  let t :=
    if a.disc = .timed then s.undoNewest k low false
    else
      let t := (segment a.log).1.foldl (fun t p => t.undo k p.entry) s
      let b := t.actorAt k
      let box := b.box.map fun h => if back.any fun y => y.same h then { h with consumed := false, byRecv := false } else h
      let t := t.setActorAt k { b with log := (sinceMarker b.log).filter (fun p => ! p.entry.isMarker), box := box }
      t.setHere (back.foldl Core.relanded t.hereCore)
  -- step 4: drop outputs
  let gone (y : Deferred) : Bool := a.disc = .timed && y.slot = k && y.key = c.key
  let items := c.staging ++ (((t.hereCore.deferral ++ t.hereCore.fenced).filter gone).map fun y => y.item)
  let t := t.setHere { t.hereCore with deferral := t.hereCore.deferral.filter (fun y => ! gone y), fenced := t.hereCore.fenced.filter fun y => ! gone y }
  let t := if a.disc = .timed then t.dropRequests k low items else t.setActorAt k ((t.actorAt k).freeItems items)
  let t := t.setActorAt k ((t.actorAt k).endTaken (c.consumed.take c.kept))
  let t := t.scatter k
  let v := if a.disc = .untimed then satAdd t.hereCore.vmile 1 else satAdd c.vnow 1
  let t := t.trapEnd k trec close c.trigger (! c.committed) v c.prioEff
  let t := (t.freeContext x).setLogged k { t.actorAt k with freedAt := t.time }
  ((t.settle k).reap k).wakeHere.syncDir t.here

/-- TRAP_SEQUENCE (R345, R347): once the activation's copy commands that have left have completed. A timed actor's trap is held pending; an uncorrectable record met in the restoring ends the actor as a kill with 0x1C7. -/
def execTrapSequence (c : BitVec 12) (x : BitVec 2) (s : State) : Out :=
  s.atOut c x fun t =>
    match t.ctx.phase with
    | .trapping trec close killed =>
      let k := t.ctx.slot
      if t.copying x k ∨ t.tooLate k then notEnabled "TRAP_SEQUENCE"
      else match killed with
        | some cause => .next ((t.trapNow x trec close).killAt k cause)
        | none =>
          if t.actor.disc = .timed then .next (t.conclude x false (some ⟨trec, close, t.ctx.trigger, t.ctx.prioEff⟩))
          else if (t.actorAt k).bad.contains .log then .next ((t.trapNow x trec close).killAt k 0x1C7)
          else .next (t.trapNow x trec close)
    | _ => notEnabled "TRAP_SEQUENCE"

/-- The held trap of an actor's only ended activation takes effect (R347): R345 in full, on the actor in a slot of the core in focus; an uncorrectable record ends the actor as a kill with 0x1C7. -/
def State.trapHeld (s : State) (k : BitVec 4) (p : Pending) (key : Key) : State :=
  let a := s.actorAt k
  let low := match newestMarker a.log with
    | some (_, q) => q
    | none => a.seq
  let t := s.undoNewest k low false
  let gone (y : Deferred) : Bool := y.slot = k && y.key = key
  let items := ((t.hereCore.deferral ++ t.hereCore.fenced).filter gone).map fun y => y.item
  let t := t.setHere { t.hereCore with deferral := t.hereCore.deferral.filter (fun y => ! gone y), fenced := t.hereCore.fenced.filter fun y => ! gone y }
  let t := (t.dropRequests k low items).scatter k
  let t := t.setActorAt k { t.actorAt k with ended := (t.actorAt k).ended.drop 1, pending := none }
  let t := t.trapEnd k p.trec p.close p.trigger true (satAdd key.vrt 1) p.prio
  let t := (t.setLogged k { t.actorAt k with freedAt := t.time }).fetchBack k
  if a.bad.contains .log then t.killAt k 0x1C7 else ((t.settle k).reap k).wakeHere.syncDir t.here

/-- BUDGET_EXHAUSTED (R381): at an instruction boundary, or in the wait of done; not on a stopped core (R357). -/
def execBudgetExhausted (c : BitVec 12) (x : BitVec 2) (s : State) : Out :=
  s.atOut c x fun t =>
    if t.ctx.budget ≠ 0 ∨ t.hereCore.stopped then notEnabled "BUDGET_EXHAUSTED"
    else match t.ctx.phase with
      | .running => raise 0x160 0 t
      | .releasing _ => if t.ctx.leaving ∨ t.waitsMet x then notEnabled "BUDGET_EXHAUSTED" else raise 0x160 0 t
      | _ => notEnabled "BUDGET_EXHAUSTED"

/-- A saved actor killed from its save area (R260). -/
def State.killSaved (s : State) (x : Saved) (cause : BitVec 9) : State :=
  let a := x.actor.aid
  let st := baseStation (homeOf a)
  let p := killChannels x.last.core st (s.base (homeOf a)).vmile cause s x.actor
  let b := p.1.base (homeOf a)
  (p.1.setBase (homeOf a) { b with saved := b.saved.filter (fun y => y.actor.aid ≠ a), spills := b.spills.filter (fun y => y.1 ≠ a),
                                   poolUsed := b.poolUsed - BitVec.ofNat 24 x.frames }).syncDir x.last.core

/-- KILL (R38, R344): a running activation ends first, by a trap with 0x1CB; a stopped partition waits until GO (R360), an actor that is being evicted until its save area stands (R260). -/
def execKill (t : BitVec 4) (i : BitVec 24) (s : State) : Out :=
  let a : AId := ⟨t, i⟩
  match s.locOf a with
  | some l =>
    s.atOut l.core 0 fun u =>
      if u.hereCore.stopped ∨ u.evicting a then notEnabled "KILL"
      else match u.ctxOf l.slot with
        | none => .next (u.killAt l.slot 0x1CB)
        | some x =>
          match (u.ctxAt x).phase with
          | .running => .next { trapWith none (some 0x1CB) 0x1CB 0 { u with cx := x } with cx := u.cx }
          | _ => notEnabled "KILL"
  | none =>
    match s.savedOf a with
    | some x => .next (s.killSaved x 0x1CB)
    | none => notEnabled "KILL"

/-- PRIORITY_LOAN (R342): the loans in force reach a borrower and its running activation. -/
def execPriorityLoan (c : BitVec 12) (k : BitVec 4) (s : State) : Out :=
  s.atOut c 0 fun t =>
    if ! t.hasActor k then notEnabled "PRIORITY_LOAN"
    else .next (t.lend k)

end Sys2Proof.Machine
end

