-- ==== Sys2Proof/WellFormed.lean ====
section
/-! DEFINITION. Reserved field values: the checks the code scanner makes on an encoding whose major, function and reserved bits are legal (02_instruction_formats.md R55 detail 0x1F), each with the rule that names the value reserved. For a step without an encoding: the ranges of what it names. -/

namespace Sys2Proof

/-- The assigned system register numbers (R188). -/
def sysregAssigned (s : BitVec 12) : Bool :=
  match s.toNat with
  | 0x000 | 0x001 | 0x002 | 0x003 | 0x008 | 0x009 | 0x00A | 0x00B | 0x00C => true
  | 0x010 | 0x011 | 0x012 | 0x013 | 0x014 | 0x018 | 0x019 | 0x01A | 0x100 | 0x200 => true
  | _ => false

/-- An operand field of major 0x21: a tile 0-7 or a register pair 17-31 (R143). -/
def operandField (a : BitVec 5) : Bool := decide (a.toNat < 8) || decide (17 ≤ a.toNat)

/-- No field of the instruction holds a reserved value. -/
def Instr.wellFormed : Instr → Bool
  | .add _ _ _ => true
  | .sub _ _ _ => true
  | .and _ _ _ => true
  | .or _ _ _ => true
  | .xor _ _ _ => true
  | .andn _ _ _ => true
  | .orn _ _ _ => true
  | .sll _ _ _ => true
  | .srl _ _ _ => true
  | .sra _ _ _ => true
  | .rol _ _ _ => true
  | .ror _ _ _ => true
  | .slt _ _ _ => true
  | .sltn _ _ _ => true
  | .seq _ _ _ => true
  | .sne _ _ _ => true
  | .mul _ _ _ => true
  | .mulh _ _ _ => true
  | .mulhn _ _ _ => true
  | .div _ _ _ => true
  | .divn _ _ _ => true
  | .rem _ _ _ => true
  | .remn _ _ _ => true
  | .min _ _ _ => true
  | .max _ _ _ => true
  | .minn _ _ _ => true
  | .maxn _ _ _ => true
  | .sel _ _ _ _ => true
  | .clz _ _ => true
  | .ctz _ _ => true
  | .pop _ _ => true
  | .rev8 _ _ => true
  | .bext _ _ _ => true
  | .bextn _ _ _ => true
  | .bins _ _ _ _ => true
  | .sxb _ _ => true
  | .sxh _ _ => true
  | .sxw _ _ => true
  | .zxb _ _ => true
  | .zxh _ _ => true
  | .zxw _ _ => true
  | .slli _ _ _ => true
  | .srli _ _ _ => true
  | .srai _ _ _ => true
  | .addi _ _ _ => true
  | .andi _ _ _ => true
  | .ori _ _ _ => true
  | .xori _ _ _ => true
  | .slti _ _ _ => true
  | .lui _ _ => true
  | .lpc _ _ => true
  | .bEq _ _ _ => true
  | .bNe _ _ _ => true
  | .bLt _ _ _ => true
  | .bGe _ _ _ => true
  | .bLtn _ _ _ => true
  | .bGen _ _ _ => true
  | .bBset _ _ _ => true
  | .bBclr _ _ _ => true
  | .j _ => true
  | .jal _ => true
  | .jalr _ _ _ => true
  | .dbnz _ _ _ => true
  | .fadd m _ _ _ => decide (m.toNat < 6)   -- R83
  | .fsub m _ _ _ => decide (m.toNat < 6)   -- R83
  | .fmul m _ _ _ => decide (m.toNat < 6)   -- R83
  | .fdiv m _ _ _ => decide (m.toNat < 6)   -- R83
  | .fsqrt m _ _ => decide (m.toNat < 6)   -- R83
  | .fmin _ _ _ => true
  | .fmax _ _ _ => true
  | .fabs _ _ => true
  | .fneg _ _ => true
  | .fsgnj _ _ _ => true
  | .ffma _ _ _ _ => true
  | .ffms _ _ _ _ => true
  | .fnfma _ _ _ _ => true
  | .fcmpeq _ _ _ => true
  | .fcmplt _ _ _ => true
  | .fcmple _ _ _ => true
  | .fcvtFG m _ _ _ => decide (m.toNat < 6)   -- R83
  | .fcvtGF m _ _ _ => decide (m.toNat < 6)   -- R83
  | .fmvFG _ _ => true
  | .fmvGF _ _ => true
  | .fcls _ _ => true
  | .fround m _ _ => decide (m.toNat < 6)   -- R83
  | .fcvtFBf16 _ _ => true
  | .fcvtBf16F m _ _ => decide (m.toNat < 6)   -- R83
  | .fcvtFHf _ _ => true
  | .fcvtHfF m _ _ => decide (m.toNat < 6)   -- R83
  | .fscal m _ _ _ => decide (m.toNat < 6)   -- R83
  | .frecip _ _ => true
  | .frsq _ _ => true
  | .ldb _ _ _ => true
  | .ldbn _ _ _ => true
  | .ldh _ _ _ => true
  | .ldhn _ _ _ => true
  | .ldw _ _ _ => true
  | .ldwn _ _ _ => true
  | .ldd _ _ _ => true
  | .ldf _ _ _ => true
  | .ldsync _ _ _ => true
  | .ldpeek _ _ _ => true
  | .stb _ _ _ => true
  | .sth _ _ _ => true
  | .stw _ _ _ => true
  | .std _ _ _ => true
  | .stf _ _ _ => true
  | .stfill _ _ _ => true
  | .clrfull _ _ => true
  | .aadd _ _ _ => true
  | .aswap _ _ _ => true
  | .acas _ _ _ _ => true
  | .ldbits _ _ _ a _ => decide (a.toNat < 4)   -- R218
  | .stbits _ _ a _ => decide (a.toNat < 4)   -- R218
  | .badd _ d => decide (d.toNat < 4)   -- R90
  | .bset _ d => decide (d.toNat < 4)   -- R90
  | .bget a _ => decide (a.toNat < 4)   -- R90
  | .vadd _ _ _ _ t => decide (t.toNat < 3)   -- R50
  | .vsub _ _ _ _ t => decide (t.toNat < 3)   -- R50
  | .vmul _ _ _ _ t => decide (t.toNat < 3)   -- R50
  | .vmulh _ _ _ _ t => decide (t.toNat < 3)   -- R50
  | .vmulhn _ _ _ _ t => decide (t.toNat < 3)   -- R50
  | .vmin _ _ _ _ t => decide (t.toNat < 3)   -- R50
  | .vmax _ _ _ _ t => decide (t.toNat < 3)   -- R50
  | .vminn _ _ _ _ t => decide (t.toNat < 3)   -- R50
  | .vmaxn _ _ _ _ t => decide (t.toNat < 3)   -- R50
  | .vand _ _ _ _ t => decide (t.toNat < 3)   -- R50
  | .vor _ _ _ _ t => decide (t.toNat < 3)   -- R50
  | .vxor _ _ _ _ t => decide (t.toNat < 3)   -- R50
  | .vsll _ _ _ _ t => decide (t.toNat < 3)   -- R50
  | .vsrl _ _ _ _ t => decide (t.toNat < 3)   -- R50
  | .vsra _ _ _ _ t => decide (t.toNat < 3)   -- R50
  | .vabs _ _ _ t => decide (t.toNat < 3)   -- R50
  | .vadds _ _ _ _ t => decide (t.toNat < 3)   -- R50
  | .vaddsn _ _ _ _ t => decide (t.toNat < 3)   -- R50
  | .vsubs _ _ _ _ t => decide (t.toNat < 3)   -- R50
  | .vsubsn _ _ _ _ t => decide (t.toNat < 3)   -- R50
  | .vavg _ _ _ _ t => decide (t.toNat < 3)   -- R50
  | .vdot4 _ _ _ _ _ => true
  | .vcmpeq _ _ _ d t => decide (t.toNat < 3) && decide (d.toNat < 8)   -- R117, R50
  | .vcmplt _ _ _ d t => decide (t.toNat < 3) && decide (d.toNat < 8)   -- R117, R50
  | .vcmpltn _ _ _ d t => decide (t.toNat < 3) && decide (d.toNat < 8)   -- R117, R50
  | .vfadd _ _ _ _ t => decide (11 ≤ t.toNat) && decide (t.toNat < 14)   -- R50
  | .vfsub _ _ _ _ t => decide (11 ≤ t.toNat) && decide (t.toNat < 14)   -- R50
  | .vfmul _ _ _ _ t => decide (11 ≤ t.toNat) && decide (t.toNat < 14)   -- R50
  | .vffma _ _ _ _ _ t => decide (11 ≤ t.toNat) && decide (t.toNat < 14)   -- R50
  | .vffms _ _ _ _ _ t => decide (11 ≤ t.toNat) && decide (t.toNat < 14)   -- R50
  | .vfmin _ _ _ _ t => decide (11 ≤ t.toNat) && decide (t.toNat < 14)   -- R50
  | .vfmax _ _ _ _ t => decide (11 ≤ t.toNat) && decide (t.toNat < 14)   -- R50
  | .vfabs _ _ _ t => decide (11 ≤ t.toNat) && decide (t.toNat < 14)   -- R50
  | .vfneg _ _ _ t => decide (11 ≤ t.toNat) && decide (t.toNat < 14)   -- R50
  | .vfdiv _ _ _ _ => true
  | .vfsqrt _ _ _ => true
  | .vfrecip _ _ _ t => decide (11 ≤ t.toNat) && decide (t.toNat < 14)   -- R50
  | .vfrsq _ _ _ t => decide (11 ≤ t.toNat) && decide (t.toNat < 14)   -- R50
  | .vfexp2 _ _ _ t => decide (11 ≤ t.toNat) && decide (t.toNat < 14)   -- R50
  | .vfcmpeq _ _ _ d t => decide (11 ≤ t.toNat) && decide (t.toNat < 14) && decide (d.toNat < 8)   -- R119, R50
  | .vfcmplt _ _ _ d t => decide (11 ≤ t.toNat) && decide (t.toNat < 14) && decide (d.toNat < 8)   -- R119, R50
  | .vfcmple _ _ _ d t => decide (11 ≤ t.toNat) && decide (t.toNat < 14) && decide (d.toNat < 8)   -- R119, R50
  | .vfclass _ _ _ t => decide (11 ≤ t.toNat) && decide (t.toNat < 14)   -- R50
  | .vfscale _ _ _ _ t => decide (11 ≤ t.toNat) && decide (t.toNat < 14)   -- R50
  | .vcvt _ t s _ _ => decide (t.toNat < 11) && decide (s.toNat < 11) && decide (t ≠ s)   -- R123, R124
  | .vcvtsc c k a d => decide (k.toNat < 4) && decide ((k.toNat % 2 = 1 ∨ (c ≠ d ∧ c ≠ a)))   -- R125
  | .vsplat _ w _ _ => decide (w.toNat < 3)   -- R123
  | .vsplatf _ w _ _ => decide (w.toNat < 3) && decide (w.toNat ≠ 0)   -- R123, R126
  | .vext i _ x _ => decide (x.toNat < 6) && decide (i.toNat < 1024 / (8 * 2 ^ (x.toNat / 2)))   -- R123, R126
  | .vins i w _ _ => decide (w.toNat < 3) && decide (i.toNat < 1024 / (8 * 2 ^ w.toNat))   -- R123, R126
  | .vperm _ w _ _ _ => decide (w.toNat < 3)   -- R123
  | .vslide _ _ _ _ => true
  | .vcompress _ w _ _ => decide (w.toNat < 3)   -- R123
  | .vexpand _ w _ _ => decide (w.toNat < 3)   -- R123
  | .vmerge _ w _ _ _ => decide (w.toNat < 3)   -- R123
  | .vredsum _ t _ _ => decide (t.toNat < 9)   -- R128
  | .vredmax _ t _ _ => decide (t.toNat < 9)   -- R128
  | .vredmin _ t _ _ => decide (t.toNat < 9)   -- R128
  | .vtopk _ _ _ _ d => decide (d.toNat % 2 = 0)   -- R129
  | .vtopkM _ _ b a d => decide (d.toNat % 2 = 0) && decide (a.toNat % 2 = 0) && decide (b.toNat % 2 = 0)   -- R129
  | .vmand b a d => decide (d.toNat < 8) && decide (a.toNat < 8) && decide (b.toNat < 8)   -- R123
  | .vmor b a d => decide (d.toNat < 8) && decide (a.toNat < 8) && decide (b.toNat < 8)   -- R123
  | .vmnot a d => decide (d.toNat < 8) && decide (a.toNat < 8)   -- R123
  | .vmpop b _ => decide (b.toNat < 8)   -- R123
  | .vld _ _ w _ _ => decide (w.toNat < 3)   -- R123
  | .vst _ _ w _ _ => decide (w.toNat < 3)   -- R123
  | .vldx _ w _ _ _ => decide (w.toNat ≠ 0) && decide (w.toNat ≠ 3)   -- R132
  | .vstx _ w _ _ _ => decide (w.toNat ≠ 0) && decide (w.toNat ≠ 3)   -- R132
  | .vldbits _ _ m w _ _ => decide ((m.toNat < 2 ∨ w.toNat = 5))   -- R133
  | .tcfg _ _ => true
  | .trel _ => true
  | .tzero _ => true
  | .tldrow _ _ _ => true
  | .tldcol _ _ _ => true
  | .tstrow _ _ _ => true
  | .tstcol _ _ _ => true
  | .tload _ _ _ => true
  | .tstore _ _ _ => true
  | .twait => true
  | .mmaBf16 c b a t => operandField a && operandField b && decide (a.toNat ≠ t.toNat) && decide (b.toNat ≠ t.toNat) && decide ((a ≠ b ∨ 17 ≤ a.toNat)) && decide (c.toNat ≠ 31)   -- R143, R154, R46
  | .mmaHf c b a t => operandField a && operandField b && decide (a.toNat ≠ t.toNat) && decide (b.toNat ≠ t.toNat) && decide ((a ≠ b ∨ 17 ≤ a.toNat)) && decide (c.toNat ≠ 31)   -- R143, R154, R46
  | .mmaE4e4 c b a t => operandField a && operandField b && decide (a.toNat ≠ t.toNat) && decide (b.toNat ≠ t.toNat) && decide ((a ≠ b ∨ 17 ≤ a.toNat)) && decide (c.toNat ≠ 31)   -- R143, R154, R46
  | .mmaE4e5 c b a t => operandField a && operandField b && decide (a.toNat ≠ t.toNat) && decide (b.toNat ≠ t.toNat) && decide ((a ≠ b ∨ 17 ≤ a.toNat)) && decide (c.toNat ≠ 31)   -- R143, R154, R46
  | .mmaE5e4 c b a t => operandField a && operandField b && decide (a.toNat ≠ t.toNat) && decide (b.toNat ≠ t.toNat) && decide ((a ≠ b ∨ 17 ≤ a.toNat)) && decide (c.toNat ≠ 31)   -- R143, R154, R46
  | .mmaE5e5 c b a t => operandField a && operandField b && decide (a.toNat ≠ t.toNat) && decide (b.toNat ≠ t.toNat) && decide ((a ≠ b ∨ 17 ≤ a.toNat)) && decide (c.toNat ≠ 31)   -- R143, R154, R46
  | .mmaBf16e4 c b a t => operandField a && operandField b && decide (a.toNat ≠ t.toNat) && decide (b.toNat ≠ t.toNat) && decide ((a ≠ b ∨ 17 ≤ a.toNat)) && decide (c.toNat ≠ 31)   -- R143, R154, R46
  | .mmaI8 b a t => operandField a && operandField b && decide (a.toNat ≠ t.toNat) && decide (b.toNat ≠ t.toNat) && decide ((a ≠ b ∨ 17 ≤ a.toNat))   -- R143, R154
  | .mmaTi8 b a t => operandField a && operandField b && decide (a.toNat ≠ t.toNat) && decide (b.toNat ≠ t.toNat) && decide ((a ≠ b ∨ 17 ≤ a.toNat))   -- R143, R154
  | .mmaTbf16 c b a t => operandField a && operandField b && decide (a.toNat ≠ t.toNat) && decide (b.toNat ≠ t.toNat) && decide ((a ≠ b ∨ 17 ≤ a.toNat)) && decide (c.toNat ≠ 31) && decide (17 ≤ a.toNat)   -- R143, R154, R46
  | .connect c _ _ e => decide (e.toNat ≠ 15) && decide (c.toNat < 62)   -- R160
  | .accept c _ _ e => decide (e.toNat ≠ 15) && decide (c.toNat < 62)   -- R160
  | .send c _ _ e => decide (e.toNat ≠ 15) && decide (c.toNat < 62)   -- R160
  | .sendv c _ _ e => decide (e.toNat ≠ 15) && decide (c.toNat < 62)   -- R160
  | .sendt c _ _ e => decide (e.toNat ≠ 15) && decide (c.toNat < 62)   -- R160
  | .selLabel _ e => decide (e.toNat ≠ 15)   -- R160
  | .recv _ _ e => decide (e.toNat ≠ 15)   -- R160
  | .offer _ e => decide (e.toNat ≠ 15)   -- R160
  | .probe _ e => decide (e.toNat ≠ 15)   -- R160
  | .close _ e => decide (e.toNat ≠ 15)   -- R160
  | .sendep c m e => decide (e.toNat ≠ 15) && decide (c.toNat < 62) && decide (m ≠ e) && decide (m.toNat ≠ 15)   -- R160
  | .recvep m e => decide (e.toNat ≠ 15) && decide (m ≠ e) && decide (m.toNat ≠ 15)   -- R160
  | .estate _ _ _ => true
  | .spawn c _ _ e => decide (e.toNat ≠ 15) && decide (c.toNat < 62)   -- R160
  | .mrd c _ _ => decide (c.toNat < 62)   -- R226
  | .mwr c _ _ => decide (c.toNat < 62)   -- R226
  | .mamo c b _ => decide (c.toNat < 62) && decide (1 ≤ b.toNat) && decide (b.toNat ≤ 29)   -- R226
  | .cpget c _ _ => decide (c.toNat < 62)   -- R226
  | .cpput c _ _ => decide (c.toNat < 62)   -- R226
  | .cpgath c b _ => decide (c.toNat < 62) && decide (1 ≤ b.toNat) && decide (b.toNat ≤ 30)   -- R226
  | .cpscat c b _ => decide (c.toNat < 62) && decide (1 ≤ b.toNat) && decide (b.toNat ≤ 30)   -- R226
  | .cpfill c b _ => decide (c.toNat < 62) && decide (1 ≤ b.toNat) && decide (b.toNat ≤ 30)   -- R226
  | .cpcvt c b _ => decide (c.toNat < 62) && decide (1 ≤ b.toNat) && decide (b.toNat ≤ 30)   -- R226
  | .cpwait => true
  | .gjoin c _ e => decide (e.toNat ≠ 15) && decide (c.toNat < 62)   -- R296
  | .gleave e => decide (e.toNat ≠ 15)   -- R296
  | .gwait c e => decide (e.toNat ≠ 15) && decide (c.toNat < 62)   -- R296
  | .gred c _ _ e => decide (e.toNat ≠ 15) && decide (c.toNat < 62)   -- R296
  | .gbcast c _ _ e => decide (e.toNat ≠ 15) && decide (c.toNat < 62)   -- R296
  | .grs c _ _ e => decide (e.toNat ≠ 15) && decide (c.toNat < 62)   -- R296
  | .gag c _ _ e => decide (e.toNat ≠ 15) && decide (c.toNat < 62)   -- R296
  | .vnow _ => true
  | .vset _ => true
  | .vmile _ => true
  | .prio _ => true
  | .budget _ => true
  | .commit => true
  | .done => true
  | .doneRetire => true
  | .jarm c _ _ => decide (c.toNat < 62)   -- R378
  | .jdis _ => true
  | .capgive _ _ => true
  | .capchk _ _ => true
  | .sysrd s _ => sysregAssigned s   -- R188
  | .syswr s _ => sysregAssigned s   -- R188
  | .sysbs s _ => sysregAssigned s   -- R188
  | .sysbc s _ => sysregAssigned s   -- R188
  | .fenceAcq s => decide (s.toNat < 11)   -- R51
  | .fenceRel s => decide (s.toNat < 11)   -- R51
  | .fenceFull s => decide (s.toNat < 11)   -- R51
  | .fenceSc s => decide (s.toNat < 11)   -- R51
  | .trap _ => true
  | .halt => true
  | .cAdd _ _ => true
  | .cSub _ _ => true
  | .cAnd _ _ => true
  | .cOr _ _ => true
  | .cXor _ _ => true
  | .cMv _ _ => true
  | .cLdd _ _ => true
  | .cStd _ _ => true
  | .cAddi _ _ => true
  | .cLi _ _ => true
  | .cSlli _ _ => true
  | .cSrli _ _ => true
  | .cSrai _ _ => true
  | .cAndi _ _ => true
  | .cOri _ _ => true
  | .cXori _ _ => true
  | .cBeqz _ _ => true
  | .cBnez _ _ => true
  | .cBltz _ _ => true
  | .cBgez _ _ => true
  | .cJ _ => true
  | .cJr _ => true
  | .cDbnz _ _ => true
  | .cDone => true
  | .vectorCommandExecution _ => true
  | .matrixCommandExecution _ => true
  | .copyCommandExecution _ => true
  | .doneRelease _ _ => true
  | .fenceConditionMet _ _ => true
  | .messageArrival _ => true
  | .antiMessage _ => true
  | .activationDispatch _ => true
  | .countedMessage _ _ => true
  | .rollback _ _ => true
  | .trapSequence _ _ => true
  | .budgetExhausted _ _ => true
  | .kill _ _ => true
  | .connectRequest _ => true
  | .connectAnswer _ => true
  | .connectConfirmation _ => true
  | .connectUndo _ => true
  | .spawnRequest _ => true
  | .closeNotice _ _ _ => true
  | .acknowledgement _ => true
  | .relocationNotice _ => true
  | .forwardingRequest _ => true
  | .forwardingEndMarker _ => true
  | .memoryPeerRequest _ => true
  | .pageWalk _ _ => true
  | .invalidation _ => true
  | .homeAcknowledgement _ => true
  | .parkDeadline _ => true
  | .capabilityHandOver _ => true
  | .pageOut _ => true
  | .pageIn _ => true
  | .deposit _ => true
  | .discard _ => true
  | .persist _ => true
  | .evictActor _ => true
  | .reloadActor _ => true
  | .demandPageIn _ => true
  | .checkpointTake _ => true
  | .checkpointRestore _ => true
  | .checkpointQuery _ => true
  | .codeLoad _ => true
  | .codeUnload _ => true
  | .codeScan _ => true
  | .groupJoinAtRegistry _ => true
  | .collectiveChunk _ => true
  | .resultChunk _ => true
  | .memberDeath _ => true
  | .priorityLoan _ _ => true
  | .milestoneRoundStart => true
  | .takeTheCut _ => true
  | .milestonePass => true
  | .roundCompletion _ => true
  | .fabricRound => true
  | .ctlWrite => true
  | .hostRingDelivery _ => true
  | .linkFlitReceive l => decide (l.toNat < 12)   -- R285
  | .linkAcknowledgement l => decide (l.toNat < 12)   -- R285
  | .linkReplay l => decide (l.toNat < 12)   -- R285
  | .allocate => true
  | .free => true
  | .setOrdering => true
  | .setHolder => true
  | .writeProtectionEntry => true
  | .clearProtectionEntry => true
  | .coreConfigurationRequest => true
  | .slotPointerWrap _ => true
  | .arbiterPeriod => true
  | .coolantSample => true
  | .lifeCycleChange => true
  | .laybyWrite => true
  | .savepoolWrite => true
  | .roadblockStop _ => true
  | .roadblockResume _ => true
  | .leaveMinimalMode => true
  | .hostRegisterWrite => true
  | .launch => true
  | .reset => true
  | .scrub _ a => decide (a.toNat < 24576)   -- R200
  | .lifetimeSecond => true
  | .hostMessageEntry _ => true
  | .sendWindowWrite => true
  | .hostReadCompletion _ => true
  | .capchkAnswer _ => true

/-- The encoded rows of the table: every other constructor is a step of the part itself. -/
def Instr.isEncoded : Instr → Bool
  | .add _ _ _ => true
  | .sub _ _ _ => true
  | .and _ _ _ => true
  | .or _ _ _ => true
  | .xor _ _ _ => true
  | .andn _ _ _ => true
  | .orn _ _ _ => true
  | .sll _ _ _ => true
  | .srl _ _ _ => true
  | .sra _ _ _ => true
  | .rol _ _ _ => true
  | .ror _ _ _ => true
  | .slt _ _ _ => true
  | .sltn _ _ _ => true
  | .seq _ _ _ => true
  | .sne _ _ _ => true
  | .mul _ _ _ => true
  | .mulh _ _ _ => true
  | .mulhn _ _ _ => true
  | .div _ _ _ => true
  | .divn _ _ _ => true
  | .rem _ _ _ => true
  | .remn _ _ _ => true
  | .min _ _ _ => true
  | .max _ _ _ => true
  | .minn _ _ _ => true
  | .maxn _ _ _ => true
  | .sel _ _ _ _ => true
  | .clz _ _ => true
  | .ctz _ _ => true
  | .pop _ _ => true
  | .rev8 _ _ => true
  | .bext _ _ _ => true
  | .bextn _ _ _ => true
  | .bins _ _ _ _ => true
  | .sxb _ _ => true
  | .sxh _ _ => true
  | .sxw _ _ => true
  | .zxb _ _ => true
  | .zxh _ _ => true
  | .zxw _ _ => true
  | .slli _ _ _ => true
  | .srli _ _ _ => true
  | .srai _ _ _ => true
  | .addi _ _ _ => true
  | .andi _ _ _ => true
  | .ori _ _ _ => true
  | .xori _ _ _ => true
  | .slti _ _ _ => true
  | .lui _ _ => true
  | .lpc _ _ => true
  | .bEq _ _ _ => true
  | .bNe _ _ _ => true
  | .bLt _ _ _ => true
  | .bGe _ _ _ => true
  | .bLtn _ _ _ => true
  | .bGen _ _ _ => true
  | .bBset _ _ _ => true
  | .bBclr _ _ _ => true
  | .j _ => true
  | .jal _ => true
  | .jalr _ _ _ => true
  | .dbnz _ _ _ => true
  | .fadd _ _ _ _ => true
  | .fsub _ _ _ _ => true
  | .fmul _ _ _ _ => true
  | .fdiv _ _ _ _ => true
  | .fsqrt _ _ _ => true
  | .fmin _ _ _ => true
  | .fmax _ _ _ => true
  | .fabs _ _ => true
  | .fneg _ _ => true
  | .fsgnj _ _ _ => true
  | .ffma _ _ _ _ => true
  | .ffms _ _ _ _ => true
  | .fnfma _ _ _ _ => true
  | .fcmpeq _ _ _ => true
  | .fcmplt _ _ _ => true
  | .fcmple _ _ _ => true
  | .fcvtFG _ _ _ _ => true
  | .fcvtGF _ _ _ _ => true
  | .fmvFG _ _ => true
  | .fmvGF _ _ => true
  | .fcls _ _ => true
  | .fround _ _ _ => true
  | .fcvtFBf16 _ _ => true
  | .fcvtBf16F _ _ _ => true
  | .fcvtFHf _ _ => true
  | .fcvtHfF _ _ _ => true
  | .fscal _ _ _ _ => true
  | .frecip _ _ => true
  | .frsq _ _ => true
  | .ldb _ _ _ => true
  | .ldbn _ _ _ => true
  | .ldh _ _ _ => true
  | .ldhn _ _ _ => true
  | .ldw _ _ _ => true
  | .ldwn _ _ _ => true
  | .ldd _ _ _ => true
  | .ldf _ _ _ => true
  | .ldsync _ _ _ => true
  | .ldpeek _ _ _ => true
  | .stb _ _ _ => true
  | .sth _ _ _ => true
  | .stw _ _ _ => true
  | .std _ _ _ => true
  | .stf _ _ _ => true
  | .stfill _ _ _ => true
  | .clrfull _ _ => true
  | .aadd _ _ _ => true
  | .aswap _ _ _ => true
  | .acas _ _ _ _ => true
  | .ldbits _ _ _ _ _ => true
  | .stbits _ _ _ _ => true
  | .badd _ _ => true
  | .bset _ _ => true
  | .bget _ _ => true
  | .vadd _ _ _ _ _ => true
  | .vsub _ _ _ _ _ => true
  | .vmul _ _ _ _ _ => true
  | .vmulh _ _ _ _ _ => true
  | .vmulhn _ _ _ _ _ => true
  | .vmin _ _ _ _ _ => true
  | .vmax _ _ _ _ _ => true
  | .vminn _ _ _ _ _ => true
  | .vmaxn _ _ _ _ _ => true
  | .vand _ _ _ _ _ => true
  | .vor _ _ _ _ _ => true
  | .vxor _ _ _ _ _ => true
  | .vsll _ _ _ _ _ => true
  | .vsrl _ _ _ _ _ => true
  | .vsra _ _ _ _ _ => true
  | .vabs _ _ _ _ => true
  | .vadds _ _ _ _ _ => true
  | .vaddsn _ _ _ _ _ => true
  | .vsubs _ _ _ _ _ => true
  | .vsubsn _ _ _ _ _ => true
  | .vavg _ _ _ _ _ => true
  | .vdot4 _ _ _ _ _ => true
  | .vcmpeq _ _ _ _ _ => true
  | .vcmplt _ _ _ _ _ => true
  | .vcmpltn _ _ _ _ _ => true
  | .vfadd _ _ _ _ _ => true
  | .vfsub _ _ _ _ _ => true
  | .vfmul _ _ _ _ _ => true
  | .vffma _ _ _ _ _ _ => true
  | .vffms _ _ _ _ _ _ => true
  | .vfmin _ _ _ _ _ => true
  | .vfmax _ _ _ _ _ => true
  | .vfabs _ _ _ _ => true
  | .vfneg _ _ _ _ => true
  | .vfdiv _ _ _ _ => true
  | .vfsqrt _ _ _ => true
  | .vfrecip _ _ _ _ => true
  | .vfrsq _ _ _ _ => true
  | .vfexp2 _ _ _ _ => true
  | .vfcmpeq _ _ _ _ _ => true
  | .vfcmplt _ _ _ _ _ => true
  | .vfcmple _ _ _ _ _ => true
  | .vfclass _ _ _ _ => true
  | .vfscale _ _ _ _ _ => true
  | .vcvt _ _ _ _ _ => true
  | .vcvtsc _ _ _ _ => true
  | .vsplat _ _ _ _ => true
  | .vsplatf _ _ _ _ => true
  | .vext _ _ _ _ => true
  | .vins _ _ _ _ => true
  | .vperm _ _ _ _ _ => true
  | .vslide _ _ _ _ => true
  | .vcompress _ _ _ _ => true
  | .vexpand _ _ _ _ => true
  | .vmerge _ _ _ _ _ => true
  | .vredsum _ _ _ _ => true
  | .vredmax _ _ _ _ => true
  | .vredmin _ _ _ _ => true
  | .vtopk _ _ _ _ _ => true
  | .vtopkM _ _ _ _ _ => true
  | .vmand _ _ _ => true
  | .vmor _ _ _ => true
  | .vmnot _ _ => true
  | .vmpop _ _ => true
  | .vld _ _ _ _ _ => true
  | .vst _ _ _ _ _ => true
  | .vldx _ _ _ _ _ => true
  | .vstx _ _ _ _ _ => true
  | .vldbits _ _ _ _ _ _ => true
  | .tcfg _ _ => true
  | .trel _ => true
  | .tzero _ => true
  | .tldrow _ _ _ => true
  | .tldcol _ _ _ => true
  | .tstrow _ _ _ => true
  | .tstcol _ _ _ => true
  | .tload _ _ _ => true
  | .tstore _ _ _ => true
  | .twait => true
  | .mmaBf16 _ _ _ _ => true
  | .mmaHf _ _ _ _ => true
  | .mmaE4e4 _ _ _ _ => true
  | .mmaE4e5 _ _ _ _ => true
  | .mmaE5e4 _ _ _ _ => true
  | .mmaE5e5 _ _ _ _ => true
  | .mmaBf16e4 _ _ _ _ => true
  | .mmaI8 _ _ _ => true
  | .mmaTi8 _ _ _ => true
  | .mmaTbf16 _ _ _ _ => true
  | .connect _ _ _ _ => true
  | .accept _ _ _ _ => true
  | .send _ _ _ _ => true
  | .sendv _ _ _ _ => true
  | .sendt _ _ _ _ => true
  | .selLabel _ _ => true
  | .recv _ _ _ => true
  | .offer _ _ => true
  | .probe _ _ => true
  | .close _ _ => true
  | .sendep _ _ _ => true
  | .recvep _ _ => true
  | .estate _ _ _ => true
  | .spawn _ _ _ _ => true
  | .mrd _ _ _ => true
  | .mwr _ _ _ => true
  | .mamo _ _ _ => true
  | .cpget _ _ _ => true
  | .cpput _ _ _ => true
  | .cpgath _ _ _ => true
  | .cpscat _ _ _ => true
  | .cpfill _ _ _ => true
  | .cpcvt _ _ _ => true
  | .cpwait => true
  | .gjoin _ _ _ => true
  | .gleave _ => true
  | .gwait _ _ => true
  | .gred _ _ _ _ => true
  | .gbcast _ _ _ _ => true
  | .grs _ _ _ _ => true
  | .gag _ _ _ _ => true
  | .vnow _ => true
  | .vset _ => true
  | .vmile _ => true
  | .prio _ => true
  | .budget _ => true
  | .commit => true
  | .done => true
  | .doneRetire => true
  | .jarm _ _ _ => true
  | .jdis _ => true
  | .capgive _ _ => true
  | .capchk _ _ => true
  | .sysrd _ _ => true
  | .syswr _ _ => true
  | .sysbs _ _ => true
  | .sysbc _ _ => true
  | .fenceAcq _ => true
  | .fenceRel _ => true
  | .fenceFull _ => true
  | .fenceSc _ => true
  | .trap _ => true
  | .halt => true
  | .cAdd _ _ => true
  | .cSub _ _ => true
  | .cAnd _ _ => true
  | .cOr _ _ => true
  | .cXor _ _ => true
  | .cMv _ _ => true
  | .cLdd _ _ => true
  | .cStd _ _ => true
  | .cAddi _ _ => true
  | .cLi _ _ => true
  | .cSlli _ _ => true
  | .cSrli _ _ => true
  | .cSrai _ _ => true
  | .cAndi _ _ => true
  | .cOri _ _ => true
  | .cXori _ _ => true
  | .cBeqz _ _ => true
  | .cBnez _ _ => true
  | .cBltz _ _ => true
  | .cBgez _ _ => true
  | .cJ _ => true
  | .cJr _ => true
  | .cDbnz _ _ => true
  | .cDone => true
  | .vectorCommandExecution _ => false
  | .matrixCommandExecution _ => false
  | .copyCommandExecution _ => false
  | .doneRelease _ _ => false
  | .fenceConditionMet _ _ => false
  | .messageArrival _ => false
  | .antiMessage _ => false
  | .activationDispatch _ => false
  | .countedMessage _ _ => false
  | .rollback _ _ => false
  | .trapSequence _ _ => false
  | .budgetExhausted _ _ => false
  | .kill _ _ => false
  | .connectRequest _ => false
  | .connectAnswer _ => false
  | .connectConfirmation _ => false
  | .connectUndo _ => false
  | .spawnRequest _ => false
  | .closeNotice _ _ _ => false
  | .acknowledgement _ => false
  | .relocationNotice _ => false
  | .forwardingRequest _ => false
  | .forwardingEndMarker _ => false
  | .memoryPeerRequest _ => false
  | .pageWalk _ _ => false
  | .invalidation _ => false
  | .homeAcknowledgement _ => false
  | .parkDeadline _ => false
  | .capabilityHandOver _ => false
  | .pageOut _ => false
  | .pageIn _ => false
  | .deposit _ => false
  | .discard _ => false
  | .persist _ => false
  | .evictActor _ => false
  | .reloadActor _ => false
  | .demandPageIn _ => false
  | .checkpointTake _ => false
  | .checkpointRestore _ => false
  | .checkpointQuery _ => false
  | .codeLoad _ => false
  | .codeUnload _ => false
  | .codeScan _ => false
  | .groupJoinAtRegistry _ => false
  | .collectiveChunk _ => false
  | .resultChunk _ => false
  | .memberDeath _ => false
  | .priorityLoan _ _ => false
  | .milestoneRoundStart => false
  | .takeTheCut _ => false
  | .milestonePass => false
  | .roundCompletion _ => false
  | .fabricRound => false
  | .ctlWrite => false
  | .hostRingDelivery _ => false
  | .linkFlitReceive _ => false
  | .linkAcknowledgement _ => false
  | .linkReplay _ => false
  | .allocate => false
  | .free => false
  | .setOrdering => false
  | .setHolder => false
  | .writeProtectionEntry => false
  | .clearProtectionEntry => false
  | .coreConfigurationRequest => false
  | .slotPointerWrap _ => false
  | .arbiterPeriod => false
  | .coolantSample => false
  | .lifeCycleChange => false
  | .laybyWrite => false
  | .savepoolWrite => false
  | .roadblockStop _ => false
  | .roadblockResume _ => false
  | .leaveMinimalMode => false
  | .hostRegisterWrite => false
  | .launch => false
  | .reset => false
  | .scrub _ _ => false
  | .lifetimeSecond => false
  | .hostMessageEntry _ => false
  | .sendWindowWrite => false
  | .hostReadCompletion _ => false
  | .capchkAnswer _ => false

end Sys2Proof
end

