-- ==== Sys2Proof/Decode.lean ====
section
/-! DEFINITION. The decoder: total on any bytes, rejecting by the name of the scan condition (02_instruction_formats.md R55); after it the encoder, from the same encoding tables. Words are natural numbers whose bit 0 is the least significant bit of the first parcel (R42). -/

namespace Sys2Proof

/-- The formats of R45 and R52, as R55 orders them. -/
inductive Fmt where
  | a | i | l | d | b | j | v | m | e | s | cr | ci | cb
  deriving DecidableEq, Repr

/-- Why an encoding is no instruction: the instruction-level conditions of R55. -/
inductive Reject where
  /-- The bytes end inside the instruction (details 0x00, 0x01). Safe: nothing runs. -/
  | short
  /-- Reserved major (0x1D). -/
  | major
  /-- Reserved fn, fn5, fn6 or S function number (0x1E). -/
  | fn
  /-- A reserved bit is nonzero (0x10 to 0x1C by format). -/
  | bits (f : Fmt)
  /-- A reserved field value (0x1F). -/
  | fieldValue
  deriving DecidableEq, Repr

/-- The detail of the class-15 cause that R55 gives the condition. -/
def Reject.detail : Reject → Nat
  | .short => 0x01
  | .major => 0x1D
  | .fn => 0x1E
  | .fieldValue => 0x1F
  | .bits .a => 0x10
  | .bits .i => 0x11
  | .bits .l => 0x12
  | .bits .d => 0x13
  | .bits .b => 0x14
  | .bits .j => 0x15
  | .bits .v => 0x16
  | .bits .m => 0x17
  | .bits .e => 0x18
  | .bits .s => 0x19
  | .bits .cr => 0x1A
  | .bits .ci => 0x1B
  | .bits .cb => 0x1C

/-- Field of `len` bits from bit `lo` of a word. -/
def fld (w lo len : Nat) : BitVec len := BitVec.ofNat len (w / 2 ^ lo)

/-- The encoded rows of the table, without their fields. -/
inductive Row where
  | add | sub | and | or | xor | andn | orn | sll
  | srl | sra | rol | ror | slt | sltn | seq | sne
  | mul | mulh | mulhn | div | divn | rem | remn | min
  | max | minn | maxn | sel | clz | ctz | pop | rev8
  | bext | bextn | bins | sxb | sxh | sxw | zxb | zxh
  | zxw | slli | srli | srai | addi | andi | ori | xori
  | slti | lui | lpc | bEq | bNe | bLt | bGe | bLtn
  | bGen | bBset | bBclr | j | jal | jalr | dbnz | fadd
  | fsub | fmul | fdiv | fsqrt | fmin | fmax | fabs | fneg
  | fsgnj | ffma | ffms | fnfma | fcmpeq | fcmplt | fcmple | fcvtFG
  | fcvtGF | fmvFG | fmvGF | fcls | fround | fcvtFBf16 | fcvtBf16F | fcvtFHf
  | fcvtHfF | fscal | frecip | frsq | ldb | ldbn | ldh | ldhn
  | ldw | ldwn | ldd | ldf | ldsync | ldpeek | stb | sth
  | stw | std | stf | stfill | clrfull | aadd | aswap | acas
  | ldbits | stbits | badd | bset | bget | vadd | vsub | vmul
  | vmulh | vmulhn | vmin | vmax | vminn | vmaxn | vand | vor
  | vxor | vsll | vsrl | vsra | vabs | vadds | vaddsn | vsubs
  | vsubsn | vavg | vdot4 | vcmpeq | vcmplt | vcmpltn | vfadd | vfsub
  | vfmul | vffma | vffms | vfmin | vfmax | vfabs | vfneg | vfdiv
  | vfsqrt | vfrecip | vfrsq | vfexp2 | vfcmpeq | vfcmplt | vfcmple | vfclass
  | vfscale | vcvt | vcvtsc | vsplat | vsplatf | vext | vins | vperm
  | vslide | vcompress | vexpand | vmerge | vredsum | vredmax | vredmin | vtopk
  | vtopkM | vmand | vmor | vmnot | vmpop | vld | vst | vldx
  | vstx | vldbits | tcfg | trel | tzero | tldrow | tldcol | tstrow
  | tstcol | tload | tstore | twait | mmaBf16 | mmaHf | mmaE4e4 | mmaE4e5
  | mmaE5e4 | mmaE5e5 | mmaBf16e4 | mmaI8 | mmaTi8 | mmaTbf16 | connect | accept
  | send | sendv | sendt | selLabel | recv | offer | probe | close
  | sendep | recvep | estate | spawn | mrd | mwr | mamo | cpget
  | cpput | cpgath | cpscat | cpfill | cpcvt | cpwait | gjoin | gleave
  | gwait | gred | gbcast | grs | gag | vnow | vset | vmile
  | prio | budget | commit | done | doneRetire | jarm | jdis | capgive
  | capchk | sysrd | syswr | sysbs | sysbc | fenceAcq | fenceRel | fenceFull
  | fenceSc | trap | halt | cAdd | cSub | cAnd | cOr | cXor
  | cMv | cLdd | cStd | cAddi | cLi | cSlli | cSrli | cSrai
  | cAndi | cOri | cXori | cBeqz | cBnez | cBltz | cBgez | cJ
  | cJr | cDbnz | cDone
  deriving DecidableEq, Repr

/-- The last check of R55: no field of the word, read as a row, holds a reserved value. The conditions are those of Instr.wellFormed, on the fields of the word (row_fieldsOk below). -/
def Row.fieldsOk (r : Row) (w : Nat) : Bool :=
  match r with
  | .fadd => decide ((fld w 25 3).toNat < 6)
  | .fsub => decide ((fld w 25 3).toNat < 6)
  | .fmul => decide ((fld w 25 3).toNat < 6)
  | .fdiv => decide ((fld w 25 3).toNat < 6)
  | .fsqrt => decide ((fld w 25 3).toNat < 6)
  | .fcvtFG => decide ((fld w 25 3).toNat < 6)
  | .fcvtGF => decide ((fld w 25 3).toNat < 6)
  | .fround => decide ((fld w 25 3).toNat < 6)
  | .fcvtBf16F => decide ((fld w 25 3).toNat < 6)
  | .fcvtHfF => decide ((fld w 25 3).toNat < 6)
  | .fscal => decide ((fld w 25 3).toNat < 6)
  | .ldbits => decide ((fld w 13 5).toNat < 4)
  | .stbits => decide ((fld w 13 5).toNat < 4)
  | .badd => decide ((fld w 8 5).toNat < 4)
  | .bset => decide ((fld w 8 5).toNat < 4)
  | .bget => decide ((fld w 13 5).toNat < 4)
  | .vadd => decide ((fld w 2 2).toNat < 3)
  | .vsub => decide ((fld w 2 2).toNat < 3)
  | .vmul => decide ((fld w 2 2).toNat < 3)
  | .vmulh => decide ((fld w 2 2).toNat < 3)
  | .vmulhn => decide ((fld w 2 2).toNat < 3)
  | .vmin => decide ((fld w 2 2).toNat < 3)
  | .vmax => decide ((fld w 2 2).toNat < 3)
  | .vminn => decide ((fld w 2 2).toNat < 3)
  | .vmaxn => decide ((fld w 2 2).toNat < 3)
  | .vand => decide ((fld w 2 2).toNat < 3)
  | .vor => decide ((fld w 2 2).toNat < 3)
  | .vxor => decide ((fld w 2 2).toNat < 3)
  | .vsll => decide ((fld w 2 2).toNat < 3)
  | .vsrl => decide ((fld w 2 2).toNat < 3)
  | .vsra => decide ((fld w 2 2).toNat < 3)
  | .vabs => decide ((fld w 2 2).toNat < 3)
  | .vadds => decide ((fld w 2 2).toNat < 3)
  | .vaddsn => decide ((fld w 2 2).toNat < 3)
  | .vsubs => decide ((fld w 2 2).toNat < 3)
  | .vsubsn => decide ((fld w 2 2).toNat < 3)
  | .vavg => decide ((fld w 2 2).toNat < 3)
  | .vcmpeq => decide ((fld w 2 2).toNat < 3) && decide ((fld w 8 4).toNat < 8)
  | .vcmplt => decide ((fld w 2 2).toNat < 3) && decide ((fld w 8 4).toNat < 8)
  | .vcmpltn => decide ((fld w 2 2).toNat < 3) && decide ((fld w 8 4).toNat < 8)
  | .vfadd => decide (11 ≤ (fld w 2 4).toNat) && decide ((fld w 2 4).toNat < 14)
  | .vfsub => decide (11 ≤ (fld w 2 4).toNat) && decide ((fld w 2 4).toNat < 14)
  | .vfmul => decide (11 ≤ (fld w 2 4).toNat) && decide ((fld w 2 4).toNat < 14)
  | .vffma => decide (11 ≤ (fld w 2 4).toNat) && decide ((fld w 2 4).toNat < 14)
  | .vffms => decide (11 ≤ (fld w 2 4).toNat) && decide ((fld w 2 4).toNat < 14)
  | .vfmin => decide (11 ≤ (fld w 2 4).toNat) && decide ((fld w 2 4).toNat < 14)
  | .vfmax => decide (11 ≤ (fld w 2 4).toNat) && decide ((fld w 2 4).toNat < 14)
  | .vfabs => decide (11 ≤ (fld w 2 4).toNat) && decide ((fld w 2 4).toNat < 14)
  | .vfneg => decide (11 ≤ (fld w 2 4).toNat) && decide ((fld w 2 4).toNat < 14)
  | .vfrecip => decide (11 ≤ (fld w 2 4).toNat) && decide ((fld w 2 4).toNat < 14)
  | .vfrsq => decide (11 ≤ (fld w 2 4).toNat) && decide ((fld w 2 4).toNat < 14)
  | .vfexp2 => decide (11 ≤ (fld w 2 4).toNat) && decide ((fld w 2 4).toNat < 14)
  | .vfcmpeq => decide (11 ≤ (fld w 2 4).toNat) && decide ((fld w 2 4).toNat < 14) && decide ((fld w 8 4).toNat < 8)
  | .vfcmplt => decide (11 ≤ (fld w 2 4).toNat) && decide ((fld w 2 4).toNat < 14) && decide ((fld w 8 4).toNat < 8)
  | .vfcmple => decide (11 ≤ (fld w 2 4).toNat) && decide ((fld w 2 4).toNat < 14) && decide ((fld w 8 4).toNat < 8)
  | .vfclass => decide (11 ≤ (fld w 2 4).toNat) && decide ((fld w 2 4).toNat < 14)
  | .vfscale => decide (11 ≤ (fld w 2 4).toNat) && decide ((fld w 2 4).toNat < 14)
  | .vcvt => decide ((fld w 20 4).toNat < 11) && decide ((fld w 16 4).toNat < 11) && decide ((fld w 20 4) ≠ (fld w 16 4))
  | .vcvtsc => decide ((fld w 16 4).toNat < 4) && decide (((fld w 16 4).toNat % 2 = 1 ∨ ((fld w 20 4) ≠ (fld w 8 4) ∧ (fld w 20 4) ≠ (fld w 12 4))))
  | .vsplat => decide ((fld w 17 3).toNat < 3)
  | .vsplatf => decide ((fld w 17 3).toNat < 3) && decide ((fld w 17 3).toNat ≠ 0)
  | .vext => decide ((fld w 13 3).toNat < 6) && decide ((fld w 20 7).toNat < 1024 / (8 * 2 ^ ((fld w 13 3).toNat / 2)))
  | .vins => decide ((fld w 17 3).toNat < 3) && decide ((fld w 20 7).toNat < 1024 / (8 * 2 ^ (fld w 17 3).toNat))
  | .vperm => decide ((fld w 20 2).toNat < 3)
  | .vcompress => decide ((fld w 20 2).toNat < 3)
  | .vexpand => decide ((fld w 20 2).toNat < 3)
  | .vmerge => decide ((fld w 20 2).toNat < 3)
  | .vredsum => decide ((fld w 20 4).toNat < 9)
  | .vredmax => decide ((fld w 20 4).toNat < 9)
  | .vredmin => decide ((fld w 20 4).toNat < 9)
  | .vtopk => decide ((fld w 8 4).toNat % 2 = 0)
  | .vtopkM => decide ((fld w 8 4).toNat % 2 = 0) && decide ((fld w 12 4).toNat % 2 = 0) && decide ((fld w 16 4).toNat % 2 = 0)
  | .vmand => decide ((fld w 8 4).toNat < 8) && decide ((fld w 12 4).toNat < 8) && decide ((fld w 16 4).toNat < 8)
  | .vmor => decide ((fld w 8 4).toNat < 8) && decide ((fld w 12 4).toNat < 8) && decide ((fld w 16 4).toNat < 8)
  | .vmnot => decide ((fld w 8 4).toNat < 8) && decide ((fld w 12 4).toNat < 8)
  | .vmpop => decide ((fld w 16 4).toNat < 8)
  | .vld => decide ((fld w 18 2).toNat < 3)
  | .vst => decide ((fld w 18 2).toNat < 3)
  | .vldx => decide ((fld w 21 2).toNat ≠ 0) && decide ((fld w 21 2).toNat ≠ 3)
  | .vstx => decide ((fld w 21 2).toNat ≠ 0) && decide ((fld w 21 2).toNat ≠ 3)
  | .vldbits => decide (((fld w 20 2).toNat < 2 ∨ (fld w 16 4).toNat = 5))
  | .mmaBf16 => operandField (fld w 11 5) && operandField (fld w 16 5) && decide ((fld w 11 5).toNat ≠ (fld w 8 3).toNat) && decide ((fld w 16 5).toNat ≠ (fld w 8 3).toNat) && decide (((fld w 11 5) ≠ (fld w 16 5) ∨ 17 ≤ (fld w 11 5).toNat)) && decide ((fld w 21 5).toNat ≠ 31)
  | .mmaHf => operandField (fld w 11 5) && operandField (fld w 16 5) && decide ((fld w 11 5).toNat ≠ (fld w 8 3).toNat) && decide ((fld w 16 5).toNat ≠ (fld w 8 3).toNat) && decide (((fld w 11 5) ≠ (fld w 16 5) ∨ 17 ≤ (fld w 11 5).toNat)) && decide ((fld w 21 5).toNat ≠ 31)
  | .mmaE4e4 => operandField (fld w 11 5) && operandField (fld w 16 5) && decide ((fld w 11 5).toNat ≠ (fld w 8 3).toNat) && decide ((fld w 16 5).toNat ≠ (fld w 8 3).toNat) && decide (((fld w 11 5) ≠ (fld w 16 5) ∨ 17 ≤ (fld w 11 5).toNat)) && decide ((fld w 21 5).toNat ≠ 31)
  | .mmaE4e5 => operandField (fld w 11 5) && operandField (fld w 16 5) && decide ((fld w 11 5).toNat ≠ (fld w 8 3).toNat) && decide ((fld w 16 5).toNat ≠ (fld w 8 3).toNat) && decide (((fld w 11 5) ≠ (fld w 16 5) ∨ 17 ≤ (fld w 11 5).toNat)) && decide ((fld w 21 5).toNat ≠ 31)
  | .mmaE5e4 => operandField (fld w 11 5) && operandField (fld w 16 5) && decide ((fld w 11 5).toNat ≠ (fld w 8 3).toNat) && decide ((fld w 16 5).toNat ≠ (fld w 8 3).toNat) && decide (((fld w 11 5) ≠ (fld w 16 5) ∨ 17 ≤ (fld w 11 5).toNat)) && decide ((fld w 21 5).toNat ≠ 31)
  | .mmaE5e5 => operandField (fld w 11 5) && operandField (fld w 16 5) && decide ((fld w 11 5).toNat ≠ (fld w 8 3).toNat) && decide ((fld w 16 5).toNat ≠ (fld w 8 3).toNat) && decide (((fld w 11 5) ≠ (fld w 16 5) ∨ 17 ≤ (fld w 11 5).toNat)) && decide ((fld w 21 5).toNat ≠ 31)
  | .mmaBf16e4 => operandField (fld w 11 5) && operandField (fld w 16 5) && decide ((fld w 11 5).toNat ≠ (fld w 8 3).toNat) && decide ((fld w 16 5).toNat ≠ (fld w 8 3).toNat) && decide (((fld w 11 5) ≠ (fld w 16 5) ∨ 17 ≤ (fld w 11 5).toNat)) && decide ((fld w 21 5).toNat ≠ 31)
  | .mmaI8 => operandField (fld w 11 5) && operandField (fld w 16 5) && decide ((fld w 11 5).toNat ≠ (fld w 8 3).toNat) && decide ((fld w 16 5).toNat ≠ (fld w 8 3).toNat) && decide (((fld w 11 5) ≠ (fld w 16 5) ∨ 17 ≤ (fld w 11 5).toNat))
  | .mmaTi8 => operandField (fld w 11 5) && operandField (fld w 16 5) && decide ((fld w 11 5).toNat ≠ (fld w 8 3).toNat) && decide ((fld w 16 5).toNat ≠ (fld w 8 3).toNat) && decide (((fld w 11 5) ≠ (fld w 16 5) ∨ 17 ≤ (fld w 11 5).toNat))
  | .mmaTbf16 => operandField (fld w 11 5) && operandField (fld w 16 5) && decide ((fld w 11 5).toNat ≠ (fld w 8 3).toNat) && decide ((fld w 16 5).toNat ≠ (fld w 8 3).toNat) && decide (((fld w 11 5) ≠ (fld w 16 5) ∨ 17 ≤ (fld w 11 5).toNat)) && decide ((fld w 21 5).toNat ≠ 31) && decide (17 ≤ (fld w 11 5).toNat)
  | .connect => decide ((fld w 8 4).toNat ≠ 15) && decide ((fld w 22 6).toNat < 62)
  | .accept => decide ((fld w 8 4).toNat ≠ 15) && decide ((fld w 22 6).toNat < 62)
  | .send => decide ((fld w 8 4).toNat ≠ 15) && decide ((fld w 22 6).toNat < 62)
  | .sendv => decide ((fld w 8 4).toNat ≠ 15) && decide ((fld w 22 6).toNat < 62)
  | .sendt => decide ((fld w 8 4).toNat ≠ 15) && decide ((fld w 22 6).toNat < 62)
  | .selLabel => decide ((fld w 8 4).toNat ≠ 15)
  | .recv => decide ((fld w 8 4).toNat ≠ 15)
  | .offer => decide ((fld w 8 4).toNat ≠ 15)
  | .probe => decide ((fld w 8 4).toNat ≠ 15)
  | .close => decide ((fld w 8 4).toNat ≠ 15)
  | .sendep => decide ((fld w 8 4).toNat ≠ 15) && decide ((fld w 22 6).toNat < 62) && decide ((fld w 12 4) ≠ (fld w 8 4)) && decide ((fld w 12 4).toNat ≠ 15)
  | .recvep => decide ((fld w 8 4).toNat ≠ 15) && decide ((fld w 12 4) ≠ (fld w 8 4)) && decide ((fld w 12 4).toNat ≠ 15)
  | .spawn => decide ((fld w 8 4).toNat ≠ 15) && decide ((fld w 22 6).toNat < 62)
  | .mrd => decide ((fld w 22 6).toNat < 62) && decide (w / 2 ^ 8 % 16 = 15)
  | .mwr => decide ((fld w 22 6).toNat < 62) && decide (w / 2 ^ 8 % 16 = 15)
  | .mamo => decide ((fld w 22 6).toNat < 62) && decide (1 ≤ (fld w 17 5).toNat) && decide ((fld w 17 5).toNat ≤ 29) && decide (w / 2 ^ 8 % 16 = 15)
  | .cpget => decide ((fld w 22 6).toNat < 62) && decide (w / 2 ^ 8 % 16 = 15)
  | .cpput => decide ((fld w 22 6).toNat < 62) && decide (w / 2 ^ 8 % 16 = 15)
  | .cpgath => decide ((fld w 22 6).toNat < 62) && decide (1 ≤ (fld w 17 5).toNat) && decide ((fld w 17 5).toNat ≤ 30) && decide (w / 2 ^ 8 % 16 = 15)
  | .cpscat => decide ((fld w 22 6).toNat < 62) && decide (1 ≤ (fld w 17 5).toNat) && decide ((fld w 17 5).toNat ≤ 30) && decide (w / 2 ^ 8 % 16 = 15)
  | .cpfill => decide ((fld w 22 6).toNat < 62) && decide (1 ≤ (fld w 17 5).toNat) && decide ((fld w 17 5).toNat ≤ 30) && decide (w / 2 ^ 8 % 16 = 15)
  | .cpcvt => decide ((fld w 22 6).toNat < 62) && decide (1 ≤ (fld w 17 5).toNat) && decide ((fld w 17 5).toNat ≤ 30) && decide (w / 2 ^ 8 % 16 = 15)
  | .cpwait => decide (w / 2 ^ 8 % 16 = 15)
  | .gjoin => decide ((fld w 8 4).toNat ≠ 15) && decide ((fld w 22 6).toNat < 62)
  | .gleave => decide ((fld w 8 4).toNat ≠ 15)
  | .gwait => decide ((fld w 8 4).toNat ≠ 15) && decide ((fld w 22 6).toNat < 62)
  | .gred => decide ((fld w 8 4).toNat ≠ 15) && decide ((fld w 22 6).toNat < 62)
  | .gbcast => decide ((fld w 8 4).toNat ≠ 15) && decide ((fld w 22 6).toNat < 62)
  | .grs => decide ((fld w 8 4).toNat ≠ 15) && decide ((fld w 22 6).toNat < 62)
  | .gag => decide ((fld w 8 4).toNat ≠ 15) && decide ((fld w 22 6).toNat < 62)
  | .jarm => decide ((fld w 18 6).toNat < 62)
  | .sysrd => sysregAssigned (fld w 18 12)
  | .syswr => sysregAssigned (fld w 18 12)
  | .sysbs => sysregAssigned (fld w 18 12)
  | .sysbc => sysregAssigned (fld w 18 12)
  | .fenceAcq => decide ((fld w 18 4).toNat < 11)
  | .fenceRel => decide ((fld w 18 4).toNat < 11)
  | .fenceFull => decide ((fld w 18 4).toNat < 11)
  | .fenceSc => decide ((fld w 18 4).toNat < 11)
  | .add | .sub | .and | .or | .xor | .andn | .orn | .sll
  | .srl | .sra | .rol | .ror | .slt | .sltn | .seq | .sne
  | .mul | .mulh | .mulhn | .div | .divn | .rem | .remn | .min
  | .max | .minn | .maxn | .sel | .clz | .ctz | .pop | .rev8
  | .bext | .bextn | .bins | .sxb | .sxh | .sxw | .zxb | .zxh
  | .zxw | .slli | .srli | .srai | .addi | .andi | .ori | .xori
  | .slti | .lui | .lpc | .bEq | .bNe | .bLt | .bGe | .bLtn
  | .bGen | .bBset | .bBclr | .j | .jal | .jalr | .dbnz | .fmin
  | .fmax | .fabs | .fneg | .fsgnj | .ffma | .ffms | .fnfma | .fcmpeq
  | .fcmplt | .fcmple | .fmvFG | .fmvGF | .fcls | .fcvtFBf16 | .fcvtFHf | .frecip
  | .frsq | .ldb | .ldbn | .ldh | .ldhn | .ldw | .ldwn | .ldd
  | .ldf | .ldsync | .ldpeek | .stb | .sth | .stw | .std | .stf
  | .stfill | .clrfull | .aadd | .aswap | .acas | .vdot4 | .vfdiv | .vfsqrt
  | .vslide | .tcfg | .trel | .tzero | .tldrow | .tldcol | .tstrow | .tstcol
  | .tload | .tstore | .twait | .estate | .vnow | .vset | .vmile | .prio
  | .budget | .commit | .done | .doneRetire | .jdis | .capgive | .capchk | .trap
  | .halt | .cAdd | .cSub | .cAnd | .cOr | .cXor | .cMv | .cLdd
  | .cStd | .cAddi | .cLi | .cSlli | .cSrli | .cSrai | .cAndi | .cOri
  | .cXori | .cBeqz | .cBnez | .cBltz | .cBgez | .cJ | .cJr | .cDbnz
  | .cDone => true

/-- The instruction of a row, its fields read from the word. -/
noncomputable def Row.build (r : Row) (w : Nat) : Instr :=
  match r with
  | .add => .add (fld w 18 5) (fld w 13 5) (fld w 8 5)
  | .sub => .sub (fld w 18 5) (fld w 13 5) (fld w 8 5)
  | .and => .and (fld w 18 5) (fld w 13 5) (fld w 8 5)
  | .or => .or (fld w 18 5) (fld w 13 5) (fld w 8 5)
  | .xor => .xor (fld w 18 5) (fld w 13 5) (fld w 8 5)
  | .andn => .andn (fld w 18 5) (fld w 13 5) (fld w 8 5)
  | .orn => .orn (fld w 18 5) (fld w 13 5) (fld w 8 5)
  | .sll => .sll (fld w 18 5) (fld w 13 5) (fld w 8 5)
  | .srl => .srl (fld w 18 5) (fld w 13 5) (fld w 8 5)
  | .sra => .sra (fld w 18 5) (fld w 13 5) (fld w 8 5)
  | .rol => .rol (fld w 18 5) (fld w 13 5) (fld w 8 5)
  | .ror => .ror (fld w 18 5) (fld w 13 5) (fld w 8 5)
  | .slt => .slt (fld w 18 5) (fld w 13 5) (fld w 8 5)
  | .sltn => .sltn (fld w 18 5) (fld w 13 5) (fld w 8 5)
  | .seq => .seq (fld w 18 5) (fld w 13 5) (fld w 8 5)
  | .sne => .sne (fld w 18 5) (fld w 13 5) (fld w 8 5)
  | .mul => .mul (fld w 18 5) (fld w 13 5) (fld w 8 5)
  | .mulh => .mulh (fld w 18 5) (fld w 13 5) (fld w 8 5)
  | .mulhn => .mulhn (fld w 18 5) (fld w 13 5) (fld w 8 5)
  | .div => .div (fld w 18 5) (fld w 13 5) (fld w 8 5)
  | .divn => .divn (fld w 18 5) (fld w 13 5) (fld w 8 5)
  | .rem => .rem (fld w 18 5) (fld w 13 5) (fld w 8 5)
  | .remn => .remn (fld w 18 5) (fld w 13 5) (fld w 8 5)
  | .min => .min (fld w 18 5) (fld w 13 5) (fld w 8 5)
  | .max => .max (fld w 18 5) (fld w 13 5) (fld w 8 5)
  | .minn => .minn (fld w 18 5) (fld w 13 5) (fld w 8 5)
  | .maxn => .maxn (fld w 18 5) (fld w 13 5) (fld w 8 5)
  | .sel => .sel (fld w 23 5) (fld w 18 5) (fld w 13 5) (fld w 8 5)
  | .clz => .clz (fld w 13 5) (fld w 8 5)
  | .ctz => .ctz (fld w 13 5) (fld w 8 5)
  | .pop => .pop (fld w 13 5) (fld w 8 5)
  | .rev8 => .rev8 (fld w 13 5) (fld w 8 5)
  | .bext => .bext (fld w 18 5) (fld w 13 5) (fld w 8 5)
  | .bextn => .bextn (fld w 18 5) (fld w 13 5) (fld w 8 5)
  | .bins => .bins (fld w 23 5) (fld w 18 5) (fld w 13 5) (fld w 8 5)
  | .sxb => .sxb (fld w 13 5) (fld w 8 5)
  | .sxh => .sxh (fld w 13 5) (fld w 8 5)
  | .sxw => .sxw (fld w 13 5) (fld w 8 5)
  | .zxb => .zxb (fld w 13 5) (fld w 8 5)
  | .zxh => .zxh (fld w 13 5) (fld w 8 5)
  | .zxw => .zxw (fld w 13 5) (fld w 8 5)
  | .slli => .slli (fld w 18 6) (fld w 13 5) (fld w 8 5)
  | .srli => .srli (fld w 18 6) (fld w 13 5) (fld w 8 5)
  | .srai => .srai (fld w 18 6) (fld w 13 5) (fld w 8 5)
  | .addi => .addi (fld w 18 14) (fld w 13 5) (fld w 8 5)
  | .andi => .andi (fld w 18 14) (fld w 13 5) (fld w 8 5)
  | .ori => .ori (fld w 18 14) (fld w 13 5) (fld w 8 5)
  | .xori => .xori (fld w 18 14) (fld w 13 5) (fld w 8 5)
  | .slti => .slti (fld w 18 14) (fld w 13 5) (fld w 8 5)
  | .lui => .lui (fld w 13 19) (fld w 8 5)
  | .lpc => .lpc (fld w 13 19) (fld w 8 5)
  | .bEq => .bEq (fld w 21 11) (fld w 13 5) (fld w 8 5)
  | .bNe => .bNe (fld w 21 11) (fld w 13 5) (fld w 8 5)
  | .bLt => .bLt (fld w 21 11) (fld w 13 5) (fld w 8 5)
  | .bGe => .bGe (fld w 21 11) (fld w 13 5) (fld w 8 5)
  | .bLtn => .bLtn (fld w 21 11) (fld w 13 5) (fld w 8 5)
  | .bGen => .bGen (fld w 21 11) (fld w 13 5) (fld w 8 5)
  | .bBset => .bBset (fld w 21 11) (fld w 13 5) (fld w 8 5)
  | .bBclr => .bBclr (fld w 21 11) (fld w 13 5) (fld w 8 5)
  | .j => .j (fld w 8 24)
  | .jal => .jal (fld w 8 24)
  | .jalr => .jalr (fld w 18 14) (fld w 13 5) (fld w 8 5)
  | .dbnz => .dbnz (fld w 18 14) (fld w 13 5) (fld w 8 5)
  | .fadd => .fadd (fld w 25 3) (fld w 18 5) (fld w 13 5) (fld w 8 5)
  | .fsub => .fsub (fld w 25 3) (fld w 18 5) (fld w 13 5) (fld w 8 5)
  | .fmul => .fmul (fld w 25 3) (fld w 18 5) (fld w 13 5) (fld w 8 5)
  | .fdiv => .fdiv (fld w 25 3) (fld w 18 5) (fld w 13 5) (fld w 8 5)
  | .fsqrt => .fsqrt (fld w 25 3) (fld w 13 5) (fld w 8 5)
  | .fmin => .fmin (fld w 18 5) (fld w 13 5) (fld w 8 5)
  | .fmax => .fmax (fld w 18 5) (fld w 13 5) (fld w 8 5)
  | .fabs => .fabs (fld w 13 5) (fld w 8 5)
  | .fneg => .fneg (fld w 13 5) (fld w 8 5)
  | .fsgnj => .fsgnj (fld w 18 5) (fld w 13 5) (fld w 8 5)
  | .ffma => .ffma (fld w 23 5) (fld w 18 5) (fld w 13 5) (fld w 8 5)
  | .ffms => .ffms (fld w 23 5) (fld w 18 5) (fld w 13 5) (fld w 8 5)
  | .fnfma => .fnfma (fld w 23 5) (fld w 18 5) (fld w 13 5) (fld w 8 5)
  | .fcmpeq => .fcmpeq (fld w 18 5) (fld w 13 5) (fld w 8 5)
  | .fcmplt => .fcmplt (fld w 18 5) (fld w 13 5) (fld w 8 5)
  | .fcmple => .fcmple (fld w 18 5) (fld w 13 5) (fld w 8 5)
  | .fcvtFG => .fcvtFG (fld w 25 3) (fld w 23 2) (fld w 13 5) (fld w 8 5)
  | .fcvtGF => .fcvtGF (fld w 25 3) (fld w 23 2) (fld w 13 5) (fld w 8 5)
  | .fmvFG => .fmvFG (fld w 13 5) (fld w 8 5)
  | .fmvGF => .fmvGF (fld w 13 5) (fld w 8 5)
  | .fcls => .fcls (fld w 13 5) (fld w 8 5)
  | .fround => .fround (fld w 25 3) (fld w 13 5) (fld w 8 5)
  | .fcvtFBf16 => .fcvtFBf16 (fld w 13 5) (fld w 8 5)
  | .fcvtBf16F => .fcvtBf16F (fld w 25 3) (fld w 13 5) (fld w 8 5)
  | .fcvtFHf => .fcvtFHf (fld w 13 5) (fld w 8 5)
  | .fcvtHfF => .fcvtHfF (fld w 25 3) (fld w 13 5) (fld w 8 5)
  | .fscal => .fscal (fld w 25 3) (fld w 18 5) (fld w 13 5) (fld w 8 5)
  | .frecip => .frecip (fld w 13 5) (fld w 8 5)
  | .frsq => .frsq (fld w 13 5) (fld w 8 5)
  | .ldb => .ldb (fld w 18 10) (fld w 13 5) (fld w 8 5)
  | .ldbn => .ldbn (fld w 18 10) (fld w 13 5) (fld w 8 5)
  | .ldh => .ldh (fld w 18 10) (fld w 13 5) (fld w 8 5)
  | .ldhn => .ldhn (fld w 18 10) (fld w 13 5) (fld w 8 5)
  | .ldw => .ldw (fld w 18 10) (fld w 13 5) (fld w 8 5)
  | .ldwn => .ldwn (fld w 18 10) (fld w 13 5) (fld w 8 5)
  | .ldd => .ldd (fld w 18 10) (fld w 13 5) (fld w 8 5)
  | .ldf => .ldf (fld w 18 10) (fld w 13 5) (fld w 8 5)
  | .ldsync => .ldsync (fld w 18 10) (fld w 13 5) (fld w 8 5)
  | .ldpeek => .ldpeek (fld w 18 10) (fld w 13 5) (fld w 8 5)
  | .stb => .stb (fld w 18 10) (fld w 13 5) (fld w 8 5)
  | .sth => .sth (fld w 18 10) (fld w 13 5) (fld w 8 5)
  | .stw => .stw (fld w 18 10) (fld w 13 5) (fld w 8 5)
  | .std => .std (fld w 18 10) (fld w 13 5) (fld w 8 5)
  | .stf => .stf (fld w 18 10) (fld w 13 5) (fld w 8 5)
  | .stfill => .stfill (fld w 18 10) (fld w 13 5) (fld w 8 5)
  | .clrfull => .clrfull (fld w 18 10) (fld w 13 5)
  | .aadd => .aadd (fld w 18 5) (fld w 13 5) (fld w 8 5)
  | .aswap => .aswap (fld w 18 5) (fld w 13 5) (fld w 8 5)
  | .acas => .acas (fld w 23 5) (fld w 18 5) (fld w 13 5) (fld w 8 5)
  | .ldbits => .ldbits (fld w 24 1) (fld w 23 1) (fld w 18 5) (fld w 13 5) (fld w 8 5)
  | .stbits => .stbits (fld w 23 1) (fld w 18 5) (fld w 13 5) (fld w 8 5)
  | .badd => .badd (fld w 13 5) (fld w 8 5)
  | .bset => .bset (fld w 13 5) (fld w 8 5)
  | .bget => .bget (fld w 13 5) (fld w 8 5)
  | .vadd => .vadd (fld w 24 3) (fld w 16 4) (fld w 12 4) (fld w 8 4) (fld w 2 2)
  | .vsub => .vsub (fld w 24 3) (fld w 16 4) (fld w 12 4) (fld w 8 4) (fld w 2 2)
  | .vmul => .vmul (fld w 24 3) (fld w 16 4) (fld w 12 4) (fld w 8 4) (fld w 2 2)
  | .vmulh => .vmulh (fld w 24 3) (fld w 16 4) (fld w 12 4) (fld w 8 4) (fld w 2 2)
  | .vmulhn => .vmulhn (fld w 24 3) (fld w 16 4) (fld w 12 4) (fld w 8 4) (fld w 2 2)
  | .vmin => .vmin (fld w 24 3) (fld w 16 4) (fld w 12 4) (fld w 8 4) (fld w 2 2)
  | .vmax => .vmax (fld w 24 3) (fld w 16 4) (fld w 12 4) (fld w 8 4) (fld w 2 2)
  | .vminn => .vminn (fld w 24 3) (fld w 16 4) (fld w 12 4) (fld w 8 4) (fld w 2 2)
  | .vmaxn => .vmaxn (fld w 24 3) (fld w 16 4) (fld w 12 4) (fld w 8 4) (fld w 2 2)
  | .vand => .vand (fld w 24 3) (fld w 16 4) (fld w 12 4) (fld w 8 4) (fld w 2 2)
  | .vor => .vor (fld w 24 3) (fld w 16 4) (fld w 12 4) (fld w 8 4) (fld w 2 2)
  | .vxor => .vxor (fld w 24 3) (fld w 16 4) (fld w 12 4) (fld w 8 4) (fld w 2 2)
  | .vsll => .vsll (fld w 24 3) (fld w 16 4) (fld w 12 4) (fld w 8 4) (fld w 2 2)
  | .vsrl => .vsrl (fld w 24 3) (fld w 16 4) (fld w 12 4) (fld w 8 4) (fld w 2 2)
  | .vsra => .vsra (fld w 24 3) (fld w 16 4) (fld w 12 4) (fld w 8 4) (fld w 2 2)
  | .vabs => .vabs (fld w 24 3) (fld w 12 4) (fld w 8 4) (fld w 2 2)
  | .vadds => .vadds (fld w 24 3) (fld w 16 4) (fld w 12 4) (fld w 8 4) (fld w 2 2)
  | .vaddsn => .vaddsn (fld w 24 3) (fld w 16 4) (fld w 12 4) (fld w 8 4) (fld w 2 2)
  | .vsubs => .vsubs (fld w 24 3) (fld w 16 4) (fld w 12 4) (fld w 8 4) (fld w 2 2)
  | .vsubsn => .vsubsn (fld w 24 3) (fld w 16 4) (fld w 12 4) (fld w 8 4) (fld w 2 2)
  | .vavg => .vavg (fld w 24 3) (fld w 16 4) (fld w 12 4) (fld w 8 4) (fld w 2 2)
  | .vdot4 => .vdot4 (fld w 24 3) (fld w 20 4) (fld w 16 4) (fld w 12 4) (fld w 8 4)
  | .vcmpeq => .vcmpeq (fld w 24 3) (fld w 16 4) (fld w 12 4) (fld w 8 4) (fld w 2 2)
  | .vcmplt => .vcmplt (fld w 24 3) (fld w 16 4) (fld w 12 4) (fld w 8 4) (fld w 2 2)
  | .vcmpltn => .vcmpltn (fld w 24 3) (fld w 16 4) (fld w 12 4) (fld w 8 4) (fld w 2 2)
  | .vfadd => .vfadd (fld w 24 3) (fld w 16 4) (fld w 12 4) (fld w 8 4) (fld w 2 4)
  | .vfsub => .vfsub (fld w 24 3) (fld w 16 4) (fld w 12 4) (fld w 8 4) (fld w 2 4)
  | .vfmul => .vfmul (fld w 24 3) (fld w 16 4) (fld w 12 4) (fld w 8 4) (fld w 2 4)
  | .vffma => .vffma (fld w 24 3) (fld w 20 4) (fld w 16 4) (fld w 12 4) (fld w 8 4) (fld w 2 4)
  | .vffms => .vffms (fld w 24 3) (fld w 20 4) (fld w 16 4) (fld w 12 4) (fld w 8 4) (fld w 2 4)
  | .vfmin => .vfmin (fld w 24 3) (fld w 16 4) (fld w 12 4) (fld w 8 4) (fld w 2 4)
  | .vfmax => .vfmax (fld w 24 3) (fld w 16 4) (fld w 12 4) (fld w 8 4) (fld w 2 4)
  | .vfabs => .vfabs (fld w 24 3) (fld w 12 4) (fld w 8 4) (fld w 2 4)
  | .vfneg => .vfneg (fld w 24 3) (fld w 12 4) (fld w 8 4) (fld w 2 4)
  | .vfdiv => .vfdiv (fld w 24 3) (fld w 16 4) (fld w 12 4) (fld w 8 4)
  | .vfsqrt => .vfsqrt (fld w 24 3) (fld w 12 4) (fld w 8 4)
  | .vfrecip => .vfrecip (fld w 24 3) (fld w 12 4) (fld w 8 4) (fld w 2 4)
  | .vfrsq => .vfrsq (fld w 24 3) (fld w 12 4) (fld w 8 4) (fld w 2 4)
  | .vfexp2 => .vfexp2 (fld w 24 3) (fld w 12 4) (fld w 8 4) (fld w 2 4)
  | .vfcmpeq => .vfcmpeq (fld w 24 3) (fld w 16 4) (fld w 12 4) (fld w 8 4) (fld w 2 4)
  | .vfcmplt => .vfcmplt (fld w 24 3) (fld w 16 4) (fld w 12 4) (fld w 8 4) (fld w 2 4)
  | .vfcmple => .vfcmple (fld w 24 3) (fld w 16 4) (fld w 12 4) (fld w 8 4) (fld w 2 4)
  | .vfclass => .vfclass (fld w 24 3) (fld w 12 4) (fld w 8 4) (fld w 2 4)
  | .vfscale => .vfscale (fld w 24 3) (fld w 16 4) (fld w 12 4) (fld w 8 4) (fld w 2 4)
  | .vcvt => .vcvt (fld w 24 3) (fld w 20 4) (fld w 16 4) (fld w 12 4) (fld w 8 4)
  | .vcvtsc => .vcvtsc (fld w 20 4) (fld w 16 4) (fld w 12 4) (fld w 8 4)
  | .vsplat => .vsplat (fld w 24 3) (fld w 17 3) (fld w 12 5) (fld w 8 4)
  | .vsplatf => .vsplatf (fld w 24 3) (fld w 17 3) (fld w 12 5) (fld w 8 4)
  | .vext => .vext (fld w 20 7) (fld w 16 4) (fld w 13 3) (fld w 8 5)
  | .vins => .vins (fld w 20 7) (fld w 17 3) (fld w 12 5) (fld w 8 4)
  | .vperm => .vperm (fld w 24 3) (fld w 20 2) (fld w 16 4) (fld w 12 4) (fld w 8 4)
  | .vslide => .vslide (fld w 20 7) (fld w 16 4) (fld w 12 4) (fld w 8 4)
  | .vcompress => .vcompress (fld w 24 3) (fld w 20 2) (fld w 12 4) (fld w 8 4)
  | .vexpand => .vexpand (fld w 24 3) (fld w 20 2) (fld w 12 4) (fld w 8 4)
  | .vmerge => .vmerge (fld w 24 3) (fld w 20 2) (fld w 16 4) (fld w 12 4) (fld w 8 4)
  | .vredsum => .vredsum (fld w 24 3) (fld w 20 4) (fld w 12 4) (fld w 8 4)
  | .vredmax => .vredmax (fld w 24 3) (fld w 20 4) (fld w 12 4) (fld w 8 4)
  | .vredmin => .vredmin (fld w 24 3) (fld w 20 4) (fld w 12 4) (fld w 8 4)
  | .vtopk => .vtopk (fld w 22 5) (fld w 20 1) (fld w 16 4) (fld w 12 4) (fld w 8 4)
  | .vtopkM => .vtopkM (fld w 22 5) (fld w 20 1) (fld w 16 4) (fld w 12 4) (fld w 8 4)
  | .vmand => .vmand (fld w 16 4) (fld w 12 4) (fld w 8 4)
  | .vmor => .vmor (fld w 16 4) (fld w 12 4) (fld w 8 4)
  | .vmnot => .vmnot (fld w 12 4) (fld w 8 4)
  | .vmpop => .vmpop (fld w 16 4) (fld w 8 5)
  | .vld => .vld (fld w 24 3) (fld w 20 4) (fld w 18 2) (fld w 12 5) (fld w 8 4)
  | .vst => .vst (fld w 24 3) (fld w 20 4) (fld w 18 2) (fld w 12 5) (fld w 8 4)
  | .vldx => .vldx (fld w 24 3) (fld w 21 2) (fld w 17 4) (fld w 12 5) (fld w 8 4)
  | .vstx => .vstx (fld w 24 3) (fld w 21 2) (fld w 17 4) (fld w 12 5) (fld w 8 4)
  | .vldbits => .vldbits (fld w 24 3) (fld w 22 1) (fld w 20 2) (fld w 16 4) (fld w 12 2) (fld w 8 4)
  | .tcfg => .tcfg (fld w 11 5) (fld w 8 3)
  | .trel => .trel (fld w 8 3)
  | .tzero => .tzero (fld w 8 3)
  | .tldrow => .tldrow (fld w 16 5) (fld w 11 4) (fld w 8 3)
  | .tldcol => .tldcol (fld w 16 5) (fld w 11 4) (fld w 8 3)
  | .tstrow => .tstrow (fld w 16 5) (fld w 11 4) (fld w 8 3)
  | .tstcol => .tstcol (fld w 16 5) (fld w 11 4) (fld w 8 3)
  | .tload => .tload (fld w 16 5) (fld w 11 5) (fld w 8 3)
  | .tstore => .tstore (fld w 16 5) (fld w 11 5) (fld w 8 3)
  | .twait => .twait
  | .mmaBf16 => .mmaBf16 (fld w 21 5) (fld w 16 5) (fld w 11 5) (fld w 8 3)
  | .mmaHf => .mmaHf (fld w 21 5) (fld w 16 5) (fld w 11 5) (fld w 8 3)
  | .mmaE4e4 => .mmaE4e4 (fld w 21 5) (fld w 16 5) (fld w 11 5) (fld w 8 3)
  | .mmaE4e5 => .mmaE4e5 (fld w 21 5) (fld w 16 5) (fld w 11 5) (fld w 8 3)
  | .mmaE5e4 => .mmaE5e4 (fld w 21 5) (fld w 16 5) (fld w 11 5) (fld w 8 3)
  | .mmaE5e5 => .mmaE5e5 (fld w 21 5) (fld w 16 5) (fld w 11 5) (fld w 8 3)
  | .mmaBf16e4 => .mmaBf16e4 (fld w 21 5) (fld w 16 5) (fld w 11 5) (fld w 8 3)
  | .mmaI8 => .mmaI8 (fld w 16 5) (fld w 11 5) (fld w 8 3)
  | .mmaTi8 => .mmaTi8 (fld w 16 5) (fld w 11 5) (fld w 8 3)
  | .mmaTbf16 => .mmaTbf16 (fld w 21 5) (fld w 16 5) (fld w 11 5) (fld w 8 3)
  | .connect => .connect (fld w 22 6) (fld w 17 5) (fld w 12 5) (fld w 8 4)
  | .accept => .accept (fld w 22 6) (fld w 17 5) (fld w 12 5) (fld w 8 4)
  | .send => .send (fld w 22 6) (fld w 17 5) (fld w 12 5) (fld w 8 4)
  | .sendv => .sendv (fld w 22 6) (fld w 17 5) (fld w 12 4) (fld w 8 4)
  | .sendt => .sendt (fld w 22 6) (fld w 17 5) (fld w 12 3) (fld w 8 4)
  | .selLabel => .selLabel (fld w 22 2) (fld w 8 4)
  | .recv => .recv (fld w 17 5) (fld w 12 5) (fld w 8 4)
  | .offer => .offer (fld w 12 5) (fld w 8 4)
  | .probe => .probe (fld w 12 5) (fld w 8 4)
  | .close => .close (fld w 22 5) (fld w 8 4)
  | .sendep => .sendep (fld w 22 6) (fld w 12 4) (fld w 8 4)
  | .recvep => .recvep (fld w 12 4) (fld w 8 4)
  | .estate => .estate (fld w 22 2) (fld w 12 5) (fld w 8 4)
  | .spawn => .spawn (fld w 22 6) (fld w 17 5) (fld w 12 5) (fld w 8 4)
  | .mrd => .mrd (fld w 22 6) (fld w 17 5) (fld w 12 5)
  | .mwr => .mwr (fld w 22 6) (fld w 17 5) (fld w 12 5)
  | .mamo => .mamo (fld w 22 6) (fld w 17 5) (fld w 12 5)
  | .cpget => .cpget (fld w 22 6) (fld w 17 5) (fld w 12 5)
  | .cpput => .cpput (fld w 22 6) (fld w 17 5) (fld w 12 5)
  | .cpgath => .cpgath (fld w 22 6) (fld w 17 5) (fld w 12 5)
  | .cpscat => .cpscat (fld w 22 6) (fld w 17 5) (fld w 12 5)
  | .cpfill => .cpfill (fld w 22 6) (fld w 17 5) (fld w 12 5)
  | .cpcvt => .cpcvt (fld w 22 6) (fld w 17 5) (fld w 12 5)
  | .cpwait => .cpwait
  | .gjoin => .gjoin (fld w 22 6) (fld w 12 5) (fld w 8 4)
  | .gleave => .gleave (fld w 8 4)
  | .gwait => .gwait (fld w 22 6) (fld w 8 4)
  | .gred => .gred (fld w 22 6) (fld w 17 5) (fld w 12 5) (fld w 8 4)
  | .gbcast => .gbcast (fld w 22 6) (fld w 17 5) (fld w 12 5) (fld w 8 4)
  | .grs => .grs (fld w 22 6) (fld w 17 5) (fld w 12 5) (fld w 8 4)
  | .gag => .gag (fld w 22 6) (fld w 17 5) (fld w 12 5) (fld w 8 4)
  | .vnow => .vnow (fld w 8 5)
  | .vset => .vset (fld w 13 5)
  | .vmile => .vmile (fld w 8 5)
  | .prio => .prio (fld w 13 5)
  | .budget => .budget (fld w 13 5)
  | .commit => .commit
  | .done => .done
  | .doneRetire => .doneRetire
  | .jarm => .jarm (fld w 18 6) (fld w 13 5) (fld w 8 5)
  | .jdis => .jdis (fld w 13 5)
  | .capgive => .capgive (fld w 13 5) (fld w 8 5)
  | .capchk => .capchk (fld w 13 5) (fld w 8 5)
  | .sysrd => .sysrd (fld w 18 12) (fld w 8 5)
  | .syswr => .syswr (fld w 18 12) (fld w 13 5)
  | .sysbs => .sysbs (fld w 18 12) (fld w 13 5)
  | .sysbc => .sysbc (fld w 18 12) (fld w 13 5)
  | .fenceAcq => .fenceAcq (fld w 18 4)
  | .fenceRel => .fenceRel (fld w 18 4)
  | .fenceFull => .fenceFull (fld w 18 4)
  | .fenceSc => .fenceSc (fld w 18 4)
  | .trap => .trap (fld w 18 5)
  | .halt => .halt
  | .cAdd => .cAdd (fld w 10 5) (fld w 5 5)
  | .cSub => .cSub (fld w 10 5) (fld w 5 5)
  | .cAnd => .cAnd (fld w 10 5) (fld w 5 5)
  | .cOr => .cOr (fld w 10 5) (fld w 5 5)
  | .cXor => .cXor (fld w 10 5) (fld w 5 5)
  | .cMv => .cMv (fld w 10 5) (fld w 5 5)
  | .cLdd => .cLdd (fld w 10 5) (fld w 5 5)
  | .cStd => .cStd (fld w 10 5) (fld w 5 5)
  | .cAddi => .cAddi (fld w 10 6) (fld w 5 5)
  | .cLi => .cLi (fld w 10 6) (fld w 5 5)
  | .cSlli => .cSlli (fld w 10 6) (fld w 5 5)
  | .cSrli => .cSrli (fld w 10 6) (fld w 5 5)
  | .cSrai => .cSrai (fld w 10 6) (fld w 5 5)
  | .cAndi => .cAndi (fld w 10 6) (fld w 5 5)
  | .cOri => .cOri (fld w 10 6) (fld w 5 5)
  | .cXori => .cXori (fld w 10 6) (fld w 5 5)
  | .cBeqz => .cBeqz (fld w 10 6) (fld w 5 5)
  | .cBnez => .cBnez (fld w 10 6) (fld w 5 5)
  | .cBltz => .cBltz (fld w 10 6) (fld w 5 5)
  | .cBgez => .cBgez (fld w 10 6) (fld w 5 5)
  | .cJ => .cJ (fld w 10 6)
  | .cJr => .cJr (fld w 5 5)
  | .cDbnz => .cDbnz (fld w 10 6) (fld w 5 5)
  | .cDone => .cDone

/-- Major 0x00. -/
def dec03 (w : Nat) : Except Reject Row :=
  match w / 2 ^ 28 % 16 with
  | 0 => if w / 2 ^ 23 % 2 ^ 5 = 0 then .ok .add else .error (.bits .a)
  | 1 => if w / 2 ^ 23 % 2 ^ 5 = 0 then .ok .sub else .error (.bits .a)
  | 2 => if w / 2 ^ 23 % 2 ^ 5 = 0 then .ok .and else .error (.bits .a)
  | 3 => if w / 2 ^ 23 % 2 ^ 5 = 0 then .ok .or else .error (.bits .a)
  | 4 => if w / 2 ^ 23 % 2 ^ 5 = 0 then .ok .xor else .error (.bits .a)
  | 5 => if w / 2 ^ 23 % 2 ^ 5 = 0 then .ok .andn else .error (.bits .a)
  | 6 => if w / 2 ^ 23 % 2 ^ 5 = 0 then .ok .orn else .error (.bits .a)
  | 7 => if w / 2 ^ 23 % 2 ^ 5 = 0 then .ok .sll else .error (.bits .a)
  | 8 => if w / 2 ^ 23 % 2 ^ 5 = 0 then .ok .srl else .error (.bits .a)
  | 9 => if w / 2 ^ 23 % 2 ^ 5 = 0 then .ok .sra else .error (.bits .a)
  | 10 => if w / 2 ^ 23 % 2 ^ 5 = 0 then .ok .rol else .error (.bits .a)
  | 11 => if w / 2 ^ 23 % 2 ^ 5 = 0 then .ok .ror else .error (.bits .a)
  | 12 => if w / 2 ^ 23 % 2 ^ 5 = 0 then .ok .slt else .error (.bits .a)
  | 13 => if w / 2 ^ 23 % 2 ^ 5 = 0 then .ok .sltn else .error (.bits .a)
  | 14 => if w / 2 ^ 23 % 2 ^ 5 = 0 then .ok .seq else .error (.bits .a)
  | 15 => if w / 2 ^ 23 % 2 ^ 5 = 0 then .ok .sne else .error (.bits .a)
  | _ => .error .fn

/-- Major 0x01. -/
def dec07 (w : Nat) : Except Reject Row :=
  match w / 2 ^ 28 % 16 with
  | 0 => if w / 2 ^ 23 % 2 ^ 5 = 0 then .ok .mul else .error (.bits .a)
  | 1 => if w / 2 ^ 23 % 2 ^ 5 = 0 then .ok .mulh else .error (.bits .a)
  | 2 => if w / 2 ^ 23 % 2 ^ 5 = 0 then .ok .mulhn else .error (.bits .a)
  | 3 => if w / 2 ^ 23 % 2 ^ 5 = 0 then .ok .div else .error (.bits .a)
  | 4 => if w / 2 ^ 23 % 2 ^ 5 = 0 then .ok .divn else .error (.bits .a)
  | 5 => if w / 2 ^ 23 % 2 ^ 5 = 0 then .ok .rem else .error (.bits .a)
  | 6 => if w / 2 ^ 23 % 2 ^ 5 = 0 then .ok .remn else .error (.bits .a)
  | 7 => if w / 2 ^ 23 % 2 ^ 5 = 0 then .ok .min else .error (.bits .a)
  | 8 => if w / 2 ^ 23 % 2 ^ 5 = 0 then .ok .max else .error (.bits .a)
  | 9 => if w / 2 ^ 23 % 2 ^ 5 = 0 then .ok .minn else .error (.bits .a)
  | 10 => if w / 2 ^ 23 % 2 ^ 5 = 0 then .ok .maxn else .error (.bits .a)
  | 11 => .ok .sel
  | 12 => if w / 2 ^ 18 % 2 ^ 10 = 0 then .ok .clz else .error (.bits .a)
  | 13 => if w / 2 ^ 18 % 2 ^ 10 = 0 then .ok .ctz else .error (.bits .a)
  | 14 => if w / 2 ^ 18 % 2 ^ 10 = 0 then .ok .pop else .error (.bits .a)
  | 15 => if w / 2 ^ 18 % 2 ^ 10 = 0 then .ok .rev8 else .error (.bits .a)
  | _ => .error .fn

/-- Major 0x02. -/
def dec0B (w : Nat) : Except Reject Row :=
  match w / 2 ^ 28 % 16 with
  | 0 => if w / 2 ^ 23 % 2 ^ 5 = 0 then .ok .bext else .error (.bits .a)
  | 1 => if w / 2 ^ 23 % 2 ^ 5 = 0 then .ok .bextn else .error (.bits .a)
  | 2 => .ok .bins
  | 3 => if w / 2 ^ 18 % 2 ^ 10 = 0 then .ok .sxb else .error (.bits .a)
  | 4 => if w / 2 ^ 18 % 2 ^ 10 = 0 then .ok .sxh else .error (.bits .a)
  | 5 => if w / 2 ^ 18 % 2 ^ 10 = 0 then .ok .sxw else .error (.bits .a)
  | 6 => if w / 2 ^ 18 % 2 ^ 10 = 0 then .ok .zxb else .error (.bits .a)
  | 7 => if w / 2 ^ 18 % 2 ^ 10 = 0 then .ok .zxh else .error (.bits .a)
  | 8 => if w / 2 ^ 18 % 2 ^ 10 = 0 then .ok .zxw else .error (.bits .a)
  | 9 => if w / 2 ^ 24 % 2 ^ 4 = 0 then .ok .slli else .error (.bits .a)
  | 10 => if w / 2 ^ 24 % 2 ^ 4 = 0 then .ok .srli else .error (.bits .a)
  | 11 => if w / 2 ^ 24 % 2 ^ 4 = 0 then .ok .srai else .error (.bits .a)
  | _ => .error .fn

/-- Major 0x03. -/
def dec0F (_w : Nat) : Except Reject Row := .ok .addi

/-- Major 0x04. -/
def dec13 (_w : Nat) : Except Reject Row := .ok .andi

/-- Major 0x05. -/
def dec17 (_w : Nat) : Except Reject Row := .ok .ori

/-- Major 0x06. -/
def dec1B (_w : Nat) : Except Reject Row := .ok .xori

/-- Major 0x07. -/
def dec1F (_w : Nat) : Except Reject Row := .ok .slti

/-- Major 0x08. -/
def dec23 (_w : Nat) : Except Reject Row := .ok .lui

/-- Major 0x09. -/
def dec27 (_w : Nat) : Except Reject Row := .ok .lpc

/-- Major 0x0A. -/
def dec2B (w : Nat) : Except Reject Row :=
  match w / 2 ^ 18 % 8 with
  | 0 => .ok .bEq
  | 1 => .ok .bNe
  | 2 => .ok .bLt
  | 3 => .ok .bGe
  | 4 => .ok .bLtn
  | 5 => .ok .bGen
  | 6 => .ok .bBset
  | 7 => .ok .bBclr
  | _ => .error .fn

/-- Major 0x0B. -/
def dec2F (_w : Nat) : Except Reject Row := .ok .j

/-- Major 0x0C. -/
def dec33 (_w : Nat) : Except Reject Row := .ok .jal

/-- Major 0x0D. -/
def dec37 (_w : Nat) : Except Reject Row := .ok .jalr

/-- Major 0x0E. -/
def dec3B (_w : Nat) : Except Reject Row := .ok .dbnz

/-- Major 0x10. -/
def dec43 (w : Nat) : Except Reject Row :=
  match w / 2 ^ 28 % 16 with
  | 0 => if w / 2 ^ 23 % 2 ^ 2 = 0 then .ok .fadd else .error (.bits .a)
  | 1 => if w / 2 ^ 23 % 2 ^ 2 = 0 then .ok .fsub else .error (.bits .a)
  | 2 => if w / 2 ^ 23 % 2 ^ 2 = 0 then .ok .fmul else .error (.bits .a)
  | 3 => if w / 2 ^ 23 % 2 ^ 2 = 0 then .ok .fdiv else .error (.bits .a)
  | 4 => if w / 2 ^ 18 % 2 ^ 7 = 0 then .ok .fsqrt else .error (.bits .a)
  | 5 => if w / 2 ^ 23 % 2 ^ 5 = 0 then .ok .fmin else .error (.bits .a)
  | 6 => if w / 2 ^ 23 % 2 ^ 5 = 0 then .ok .fmax else .error (.bits .a)
  | 7 => if w / 2 ^ 18 % 2 ^ 10 = 0 then .ok .fabs else .error (.bits .a)
  | 8 => if w / 2 ^ 18 % 2 ^ 10 = 0 then .ok .fneg else .error (.bits .a)
  | 9 => if w / 2 ^ 23 % 2 ^ 5 = 0 then .ok .fsgnj else .error (.bits .a)
  | 10 => .ok .ffma
  | 11 => .ok .ffms
  | 12 => .ok .fnfma
  | 13 => if w / 2 ^ 23 % 2 ^ 5 = 0 then .ok .fcmpeq else .error (.bits .a)
  | 14 => if w / 2 ^ 23 % 2 ^ 5 = 0 then .ok .fcmplt else .error (.bits .a)
  | 15 => if w / 2 ^ 23 % 2 ^ 5 = 0 then .ok .fcmple else .error (.bits .a)
  | _ => .error .fn

/-- Major 0x11. -/
def dec47 (w : Nat) : Except Reject Row :=
  match w / 2 ^ 28 % 16 with
  | 0 => if w / 2 ^ 18 % 2 ^ 5 = 0 then .ok .fcvtFG else .error (.bits .a)
  | 1 => if w / 2 ^ 18 % 2 ^ 5 = 0 then .ok .fcvtGF else .error (.bits .a)
  | 2 => if w / 2 ^ 18 % 2 ^ 10 = 0 then .ok .fmvFG else .error (.bits .a)
  | 3 => if w / 2 ^ 18 % 2 ^ 10 = 0 then .ok .fmvGF else .error (.bits .a)
  | 4 => if w / 2 ^ 18 % 2 ^ 10 = 0 then .ok .fcls else .error (.bits .a)
  | 5 => if w / 2 ^ 18 % 2 ^ 7 = 0 then .ok .fround else .error (.bits .a)
  | 6 => if w / 2 ^ 18 % 2 ^ 10 = 0 then .ok .fcvtFBf16 else .error (.bits .a)
  | 7 => if w / 2 ^ 18 % 2 ^ 7 = 0 then .ok .fcvtBf16F else .error (.bits .a)
  | 8 => if w / 2 ^ 18 % 2 ^ 10 = 0 then .ok .fcvtFHf else .error (.bits .a)
  | 9 => if w / 2 ^ 18 % 2 ^ 7 = 0 then .ok .fcvtHfF else .error (.bits .a)
  | 10 => if w / 2 ^ 23 % 2 ^ 2 = 0 then .ok .fscal else .error (.bits .a)
  | 11 => if w / 2 ^ 18 % 2 ^ 10 = 0 then .ok .frecip else .error (.bits .a)
  | 12 => if w / 2 ^ 18 % 2 ^ 10 = 0 then .ok .frsq else .error (.bits .a)
  | _ => .error .fn

/-- Major 0x12. -/
def dec4B (w : Nat) : Except Reject Row :=
  match w / 2 ^ 28 % 16 with
  | 0 => .ok .ldb
  | 1 => .ok .ldbn
  | 2 => .ok .ldh
  | 3 => .ok .ldhn
  | 4 => .ok .ldw
  | 5 => .ok .ldwn
  | 6 => .ok .ldd
  | 7 => .ok .ldf
  | 8 => .ok .ldsync
  | 9 => .ok .ldpeek
  | _ => .error .fn

/-- Major 0x13. -/
def dec4F (w : Nat) : Except Reject Row :=
  match w / 2 ^ 28 % 16 with
  | 0 => .ok .stb
  | 1 => .ok .sth
  | 2 => .ok .stw
  | 3 => .ok .std
  | 4 => .ok .stf
  | 5 => .ok .stfill
  | 6 => if w / 2 ^ 8 % 2 ^ 5 = 0 then .ok .clrfull else .error (.bits .d)
  | _ => .error .fn

/-- Major 0x14. -/
def dec53 (w : Nat) : Except Reject Row :=
  match w / 2 ^ 28 % 16 with
  | 0 => if w / 2 ^ 23 % 2 ^ 5 = 0 then .ok .aadd else .error (.bits .a)
  | 1 => if w / 2 ^ 23 % 2 ^ 5 = 0 then .ok .aswap else .error (.bits .a)
  | 2 => .ok .acas
  | _ => .error .fn

/-- Major 0x15. -/
def dec57 (w : Nat) : Except Reject Row :=
  match w / 2 ^ 28 % 16 with
  | 0 => if w / 2 ^ 25 % 2 ^ 3 = 0 then .ok .ldbits else .error (.bits .a)
  | 1 => if w / 2 ^ 24 % 2 ^ 4 = 0 then .ok .stbits else .error (.bits .a)
  | 2 => if w / 2 ^ 18 % 2 ^ 10 = 0 then .ok .badd else .error (.bits .a)
  | 3 => if w / 2 ^ 18 % 2 ^ 10 = 0 then .ok .bset else .error (.bits .a)
  | 4 => if w / 2 ^ 18 % 2 ^ 10 = 0 then .ok .bget else .error (.bits .a)
  | _ => .error .fn

/-- Major 0x18. -/
def dec63 (w : Nat) : Except Reject Row :=
  match w / 2 ^ 27 % 32 with
  | 0 => if w / 2 ^ 20 % 2 ^ 4 = 0 then .ok .vadd else .error (.bits .v)
  | 1 => if w / 2 ^ 20 % 2 ^ 4 = 0 then .ok .vsub else .error (.bits .v)
  | 2 => if w / 2 ^ 20 % 2 ^ 4 = 0 then .ok .vmul else .error (.bits .v)
  | 3 => if w / 2 ^ 20 % 2 ^ 4 = 0 then .ok .vmulh else .error (.bits .v)
  | 4 => if w / 2 ^ 20 % 2 ^ 4 = 0 then .ok .vmulhn else .error (.bits .v)
  | 5 => if w / 2 ^ 20 % 2 ^ 4 = 0 then .ok .vmin else .error (.bits .v)
  | 6 => if w / 2 ^ 20 % 2 ^ 4 = 0 then .ok .vmax else .error (.bits .v)
  | 7 => if w / 2 ^ 20 % 2 ^ 4 = 0 then .ok .vminn else .error (.bits .v)
  | 8 => if w / 2 ^ 20 % 2 ^ 4 = 0 then .ok .vmaxn else .error (.bits .v)
  | 9 => if w / 2 ^ 20 % 2 ^ 4 = 0 then .ok .vand else .error (.bits .v)
  | 10 => if w / 2 ^ 20 % 2 ^ 4 = 0 then .ok .vor else .error (.bits .v)
  | 11 => if w / 2 ^ 20 % 2 ^ 4 = 0 then .ok .vxor else .error (.bits .v)
  | 12 => if w / 2 ^ 20 % 2 ^ 4 = 0 then .ok .vsll else .error (.bits .v)
  | 13 => if w / 2 ^ 20 % 2 ^ 4 = 0 then .ok .vsrl else .error (.bits .v)
  | 14 => if w / 2 ^ 20 % 2 ^ 4 = 0 then .ok .vsra else .error (.bits .v)
  | 15 => if w / 2 ^ 16 % 2 ^ 8 = 0 then .ok .vabs else .error (.bits .v)
  | 16 => if w / 2 ^ 20 % 2 ^ 4 = 0 then .ok .vadds else .error (.bits .v)
  | 17 => if w / 2 ^ 20 % 2 ^ 4 = 0 then .ok .vaddsn else .error (.bits .v)
  | 18 => if w / 2 ^ 20 % 2 ^ 4 = 0 then .ok .vsubs else .error (.bits .v)
  | 19 => if w / 2 ^ 20 % 2 ^ 4 = 0 then .ok .vsubsn else .error (.bits .v)
  | 20 => if w / 2 ^ 20 % 2 ^ 4 = 0 then .ok .vavg else .error (.bits .v)
  | 21 => .ok .vdot4
  | 22 => if w / 2 ^ 20 % 2 ^ 4 = 0 then .ok .vcmpeq else .error (.bits .v)
  | 23 => if w / 2 ^ 20 % 2 ^ 4 = 0 then .ok .vcmplt else .error (.bits .v)
  | 24 => if w / 2 ^ 20 % 2 ^ 4 = 0 then .ok .vcmpltn else .error (.bits .v)
  | _ => .error .fn

/-- Major 0x19. -/
def dec67 (w : Nat) : Except Reject Row :=
  match w / 2 ^ 27 % 32 with
  | 0 => if w / 2 ^ 20 % 2 ^ 4 = 0 then .ok .vadd else .error (.bits .v)
  | 1 => if w / 2 ^ 20 % 2 ^ 4 = 0 then .ok .vsub else .error (.bits .v)
  | 2 => if w / 2 ^ 20 % 2 ^ 4 = 0 then .ok .vmul else .error (.bits .v)
  | 3 => if w / 2 ^ 20 % 2 ^ 4 = 0 then .ok .vmulh else .error (.bits .v)
  | 4 => if w / 2 ^ 20 % 2 ^ 4 = 0 then .ok .vmulhn else .error (.bits .v)
  | 5 => if w / 2 ^ 20 % 2 ^ 4 = 0 then .ok .vmin else .error (.bits .v)
  | 6 => if w / 2 ^ 20 % 2 ^ 4 = 0 then .ok .vmax else .error (.bits .v)
  | 7 => if w / 2 ^ 20 % 2 ^ 4 = 0 then .ok .vminn else .error (.bits .v)
  | 8 => if w / 2 ^ 20 % 2 ^ 4 = 0 then .ok .vmaxn else .error (.bits .v)
  | 9 => if w / 2 ^ 20 % 2 ^ 4 = 0 then .ok .vand else .error (.bits .v)
  | 10 => if w / 2 ^ 20 % 2 ^ 4 = 0 then .ok .vor else .error (.bits .v)
  | 11 => if w / 2 ^ 20 % 2 ^ 4 = 0 then .ok .vxor else .error (.bits .v)
  | 12 => if w / 2 ^ 20 % 2 ^ 4 = 0 then .ok .vsll else .error (.bits .v)
  | 13 => if w / 2 ^ 20 % 2 ^ 4 = 0 then .ok .vsrl else .error (.bits .v)
  | 14 => if w / 2 ^ 20 % 2 ^ 4 = 0 then .ok .vsra else .error (.bits .v)
  | 15 => if w / 2 ^ 16 % 2 ^ 8 = 0 then .ok .vabs else .error (.bits .v)
  | 16 => if w / 2 ^ 20 % 2 ^ 4 = 0 then .ok .vadds else .error (.bits .v)
  | 17 => if w / 2 ^ 20 % 2 ^ 4 = 0 then .ok .vaddsn else .error (.bits .v)
  | 18 => if w / 2 ^ 20 % 2 ^ 4 = 0 then .ok .vsubs else .error (.bits .v)
  | 19 => if w / 2 ^ 20 % 2 ^ 4 = 0 then .ok .vsubsn else .error (.bits .v)
  | 20 => if w / 2 ^ 20 % 2 ^ 4 = 0 then .ok .vavg else .error (.bits .v)
  | 22 => if w / 2 ^ 20 % 2 ^ 4 = 0 then .ok .vcmpeq else .error (.bits .v)
  | 23 => if w / 2 ^ 20 % 2 ^ 4 = 0 then .ok .vcmplt else .error (.bits .v)
  | 24 => if w / 2 ^ 20 % 2 ^ 4 = 0 then .ok .vcmpltn else .error (.bits .v)
  | _ => .error .fn

/-- Major 0x1B. -/
def dec6F (w : Nat) : Except Reject Row :=
  match w / 2 ^ 27 % 32 with
  | 0 => if w / 2 ^ 20 % 2 ^ 4 = 0 then .ok .vfadd else .error (.bits .v)
  | 1 => if w / 2 ^ 20 % 2 ^ 4 = 0 then .ok .vfsub else .error (.bits .v)
  | 2 => if w / 2 ^ 20 % 2 ^ 4 = 0 then .ok .vfmul else .error (.bits .v)
  | 3 => .ok .vffma
  | 4 => .ok .vffms
  | 5 => if w / 2 ^ 20 % 2 ^ 4 = 0 then .ok .vfmin else .error (.bits .v)
  | 6 => if w / 2 ^ 20 % 2 ^ 4 = 0 then .ok .vfmax else .error (.bits .v)
  | 7 => if w / 2 ^ 16 % 2 ^ 8 = 0 then .ok .vfabs else .error (.bits .v)
  | 8 => if w / 2 ^ 16 % 2 ^ 8 = 0 then .ok .vfneg else .error (.bits .v)
  | 11 => if w / 2 ^ 16 % 2 ^ 8 = 0 then .ok .vfrecip else .error (.bits .v)
  | 12 => if w / 2 ^ 16 % 2 ^ 8 = 0 then .ok .vfrsq else .error (.bits .v)
  | 13 => if w / 2 ^ 16 % 2 ^ 8 = 0 then .ok .vfexp2 else .error (.bits .v)
  | 14 => if w / 2 ^ 20 % 2 ^ 4 = 0 then .ok .vfcmpeq else .error (.bits .v)
  | 15 => if w / 2 ^ 20 % 2 ^ 4 = 0 then .ok .vfcmplt else .error (.bits .v)
  | 16 => if w / 2 ^ 20 % 2 ^ 4 = 0 then .ok .vfcmple else .error (.bits .v)
  | 17 => if w / 2 ^ 16 % 2 ^ 8 = 0 then .ok .vfclass else .error (.bits .v)
  | 18 => if w / 2 ^ 20 % 2 ^ 4 = 0 then .ok .vfscale else .error (.bits .v)
  | _ => .error .fn

/-- Major 0x1D. -/
def dec77 (w : Nat) : Except Reject Row :=
  match w / 2 ^ 27 % 32 with
  | 0 => if w / 2 ^ 20 % 2 ^ 4 = 0 then .ok .vfadd else .error (.bits .v)
  | 1 => if w / 2 ^ 20 % 2 ^ 4 = 0 then .ok .vfsub else .error (.bits .v)
  | 2 => if w / 2 ^ 20 % 2 ^ 4 = 0 then .ok .vfmul else .error (.bits .v)
  | 3 => .ok .vffma
  | 4 => .ok .vffms
  | 5 => if w / 2 ^ 20 % 2 ^ 4 = 0 then .ok .vfmin else .error (.bits .v)
  | 6 => if w / 2 ^ 20 % 2 ^ 4 = 0 then .ok .vfmax else .error (.bits .v)
  | 7 => if w / 2 ^ 16 % 2 ^ 8 = 0 then .ok .vfabs else .error (.bits .v)
  | 8 => if w / 2 ^ 16 % 2 ^ 8 = 0 then .ok .vfneg else .error (.bits .v)
  | 9 => if w / 2 ^ 20 % 2 ^ 4 = 0 then .ok .vfdiv else .error (.bits .v)
  | 10 => if w / 2 ^ 16 % 2 ^ 8 = 0 then .ok .vfsqrt else .error (.bits .v)
  | 11 => if w / 2 ^ 16 % 2 ^ 8 = 0 then .ok .vfrecip else .error (.bits .v)
  | 12 => if w / 2 ^ 16 % 2 ^ 8 = 0 then .ok .vfrsq else .error (.bits .v)
  | 13 => if w / 2 ^ 16 % 2 ^ 8 = 0 then .ok .vfexp2 else .error (.bits .v)
  | 14 => if w / 2 ^ 20 % 2 ^ 4 = 0 then .ok .vfcmpeq else .error (.bits .v)
  | 15 => if w / 2 ^ 20 % 2 ^ 4 = 0 then .ok .vfcmplt else .error (.bits .v)
  | 16 => if w / 2 ^ 20 % 2 ^ 4 = 0 then .ok .vfcmple else .error (.bits .v)
  | 17 => if w / 2 ^ 16 % 2 ^ 8 = 0 then .ok .vfclass else .error (.bits .v)
  | 18 => if w / 2 ^ 20 % 2 ^ 4 = 0 then .ok .vfscale else .error (.bits .v)
  | _ => .error .fn

/-- Major 0x1E. -/
def dec7B (w : Nat) : Except Reject Row :=
  match w / 2 ^ 27 % 32 with
  | 0 => .ok .vcvt
  | 1 => if w / 2 ^ 24 % 2 ^ 3 = 0 then .ok .vcvtsc else .error (.bits .v)
  | 2 => if w / 2 ^ 20 % 2 ^ 4 = 0 then .ok .vsplat else .error (.bits .v)
  | 3 => if w / 2 ^ 20 % 2 ^ 4 = 0 then .ok .vsplatf else .error (.bits .v)
  | 4 => .ok .vext
  | 5 => .ok .vins
  | 6 => if w / 2 ^ 22 % 2 ^ 2 = 0 then .ok .vperm else .error (.bits .v)
  | 7 => .ok .vslide
  | 8 => if w / 2 ^ 16 % 2 ^ 4 = 0 ∧ w / 2 ^ 22 % 2 ^ 2 = 0 then .ok .vcompress else .error (.bits .v)
  | 9 => if w / 2 ^ 16 % 2 ^ 4 = 0 ∧ w / 2 ^ 22 % 2 ^ 2 = 0 then .ok .vexpand else .error (.bits .v)
  | 10 => if w / 2 ^ 22 % 2 ^ 2 = 0 then .ok .vmerge else .error (.bits .v)
  | 11 => if w / 2 ^ 16 % 2 ^ 4 = 0 then .ok .vredsum else .error (.bits .v)
  | 12 => if w / 2 ^ 16 % 2 ^ 4 = 0 then .ok .vredmax else .error (.bits .v)
  | 13 => if w / 2 ^ 16 % 2 ^ 4 = 0 then .ok .vredmin else .error (.bits .v)
  | 14 => if w / 2 ^ 21 % 2 = 0 then .ok .vtopk else .ok .vtopkM
  | 15 => if w / 2 ^ 20 % 2 ^ 7 = 0 then .ok .vmand else .error (.bits .v)
  | 16 => if w / 2 ^ 20 % 2 ^ 7 = 0 then .ok .vmor else .error (.bits .v)
  | 17 => if w / 2 ^ 16 % 2 ^ 11 = 0 then .ok .vmnot else .error (.bits .v)
  | 18 => if w / 2 ^ 13 % 2 ^ 3 = 0 ∧ w / 2 ^ 20 % 2 ^ 7 = 0 then .ok .vmpop else .error (.bits .v)
  | 19 => if w / 2 ^ 17 % 2 ^ 1 = 0 then .ok .vld else .error (.bits .v)
  | 20 => if w / 2 ^ 17 % 2 ^ 1 = 0 then .ok .vst else .error (.bits .v)
  | 21 => if w / 2 ^ 23 % 2 ^ 1 = 0 then .ok .vldx else .error (.bits .v)
  | 22 => if w / 2 ^ 23 % 2 ^ 1 = 0 then .ok .vstx else .error (.bits .v)
  | 23 => if w / 2 ^ 14 % 2 ^ 2 = 0 ∧ w / 2 ^ 23 % 2 ^ 1 = 0 then .ok .vldbits else .error (.bits .v)
  | _ => .error .fn

/-- Major 0x20. -/
def dec83 (w : Nat) : Except Reject Row :=
  match w / 2 ^ 26 % 64 with
  | 0 => if w / 2 ^ 16 % 2 ^ 10 = 0 then .ok .tcfg else .error (.bits .m)
  | 1 => if w / 2 ^ 11 % 2 ^ 15 = 0 then .ok .trel else .error (.bits .m)
  | 2 => if w / 2 ^ 11 % 2 ^ 15 = 0 then .ok .tzero else .error (.bits .m)
  | 3 => if w / 2 ^ 15 % 2 ^ 1 = 0 ∧ w / 2 ^ 21 % 2 ^ 5 = 0 then .ok .tldrow else .error (.bits .m)
  | 4 => if w / 2 ^ 15 % 2 ^ 1 = 0 ∧ w / 2 ^ 21 % 2 ^ 5 = 0 then .ok .tldcol else .error (.bits .m)
  | 5 => if w / 2 ^ 15 % 2 ^ 1 = 0 ∧ w / 2 ^ 21 % 2 ^ 5 = 0 then .ok .tstrow else .error (.bits .m)
  | 6 => if w / 2 ^ 15 % 2 ^ 1 = 0 ∧ w / 2 ^ 21 % 2 ^ 5 = 0 then .ok .tstcol else .error (.bits .m)
  | 7 => if w / 2 ^ 21 % 2 ^ 5 = 0 then .ok .tload else .error (.bits .m)
  | 8 => if w / 2 ^ 21 % 2 ^ 5 = 0 then .ok .tstore else .error (.bits .m)
  | 9 => if w / 2 ^ 8 % 2 ^ 18 = 0 then .ok .twait else .error (.bits .m)
  | _ => .error .fn

/-- Major 0x21; a c that mma.i8 and mma.ti8 do not have is a reserved field value (R154). -/
def dec87 (w : Nat) : Except Reject Row :=
  match w / 2 ^ 26 % 64 with
  | 0 => .ok .mmaBf16
  | 1 => .ok .mmaHf
  | 2 => .ok .mmaE4e4
  | 3 => .ok .mmaE4e5
  | 4 => .ok .mmaE5e4
  | 5 => .ok .mmaE5e5
  | 6 => .ok .mmaBf16e4
  | 7 => if w / 2 ^ 21 % 2 ^ 5 = 0 then .ok .mmaI8 else .error .fieldValue
  | 8 => if w / 2 ^ 21 % 2 ^ 5 = 0 then .ok .mmaTi8 else .error .fieldValue
  | 9 => .ok .mmaTbf16
  | _ => .error .fn

/-- Major 0x28. -/
def decA3 (w : Nat) : Except Reject Row :=
  match w / 2 ^ 28 % 16 with
  | 0 => .ok .connect
  | 1 => .ok .accept
  | 2 => .ok .send
  | 3 => if w / 2 ^ 16 % 2 ^ 1 = 0 then .ok .sendv else .error (.bits .e)
  | 4 => if w / 2 ^ 15 % 2 ^ 2 = 0 then .ok .sendt else .error (.bits .e)
  | 5 => if w / 2 ^ 12 % 2 ^ 10 = 0 ∧ w / 2 ^ 24 % 2 ^ 4 = 0 then .ok .selLabel else .error (.bits .e)
  | 6 => if w / 2 ^ 22 % 2 ^ 6 = 0 then .ok .recv else .error (.bits .e)
  | 7 => if w / 2 ^ 17 % 2 ^ 11 = 0 then .ok .offer else .error (.bits .e)
  | 8 => if w / 2 ^ 17 % 2 ^ 11 = 0 then .ok .probe else .error (.bits .e)
  | 9 => if w / 2 ^ 12 % 2 ^ 10 = 0 ∧ w / 2 ^ 27 % 2 ^ 1 = 0 then .ok .close else .error (.bits .e)
  | 10 => if w / 2 ^ 16 % 2 ^ 6 = 0 then .ok .sendep else .error (.bits .e)
  | 11 => if w / 2 ^ 16 % 2 ^ 12 = 0 then .ok .recvep else .error (.bits .e)
  | 12 => if w / 2 ^ 17 % 2 ^ 5 = 0 ∧ w / 2 ^ 24 % 2 ^ 4 = 0 then .ok .estate else .error (.bits .e)
  | 13 => .ok .spawn
  | _ => .error .fn

/-- Major 0x2C. -/
def decB3 (w : Nat) : Except Reject Row :=
  match w / 2 ^ 28 % 16 with
  | 0 => .ok .mrd
  | 1 => .ok .mwr
  | 2 => .ok .mamo
  | _ => .error .fn

/-- Major 0x2D. -/
def decB7 (w : Nat) : Except Reject Row :=
  match w / 2 ^ 28 % 16 with
  | 0 => .ok .cpget
  | 1 => .ok .cpput
  | 2 => .ok .cpgath
  | 3 => .ok .cpscat
  | 4 => .ok .cpfill
  | 5 => .ok .cpcvt
  | 6 => if w / 2 ^ 12 % 2 ^ 16 = 0 then .ok .cpwait else .error (.bits .e)
  | _ => .error .fn

/-- Major 0x30. -/
def decC3 (w : Nat) : Except Reject Row :=
  if w / 2 ^ 26 % 16 = 15 then
    match 4 * (1 + w / 2 ^ 24 % 4) + w / 2 ^ 30 % 4 with
    | 4 => if w / 2 ^ 8 % 2 ^ 5 = 0 ∧ w / 2 ^ 18 % 2 ^ 6 = 0 then .ok .budget else .error (.bits .s)
    | 5 => if w / 2 ^ 8 % 2 ^ 16 = 0 then .ok .commit else .error (.bits .s)
    | 6 => if w / 2 ^ 18 % 2 = 0 then if w / 2 ^ 8 % 2 ^ 10 = 0 ∧ w / 2 ^ 19 % 2 ^ 5 = 0 then .ok .done else .error (.bits .s) else if w / 2 ^ 8 % 2 ^ 10 = 0 ∧ w / 2 ^ 19 % 2 ^ 5 = 0 then .ok .doneRetire else .error (.bits .s)
    | 7 => .ok .jarm
    | 8 => if w / 2 ^ 8 % 2 ^ 5 = 0 ∧ w / 2 ^ 18 % 2 ^ 6 = 0 then .ok .jdis else .error (.bits .s)
    | 9 => if w / 2 ^ 18 % 2 ^ 6 = 0 then .ok .capgive else .error (.bits .s)
    | 10 => if w / 2 ^ 18 % 2 ^ 6 = 0 then .ok .capchk else .error (.bits .s)
    | _ => .error .fn
  else match w / 2 ^ 30 % 4 with
    | 0 => if w / 2 ^ 13 % 2 ^ 17 = 0 then .ok .vnow else .error (.bits .s)
    | 1 => if w / 2 ^ 8 % 2 ^ 5 = 0 ∧ w / 2 ^ 18 % 2 ^ 12 = 0 then .ok .vset else .error (.bits .s)
    | 2 => if w / 2 ^ 13 % 2 ^ 17 = 0 then .ok .vmile else .error (.bits .s)
    | _ => if w / 2 ^ 8 % 2 ^ 5 = 0 ∧ w / 2 ^ 18 % 2 ^ 12 = 0 then .ok .prio else .error (.bits .s)

/-- Major 0x32. -/
def decCB (w : Nat) : Except Reject Row :=
  match w / 2 ^ 28 % 16 with
  | 0 => if w / 2 ^ 17 % 2 ^ 5 = 0 then .ok .gjoin else .error (.bits .e)
  | 1 => if w / 2 ^ 12 % 2 ^ 16 = 0 then .ok .gleave else .error (.bits .e)
  | 2 => if w / 2 ^ 12 % 2 ^ 10 = 0 then .ok .gwait else .error (.bits .e)
  | 3 => .ok .gred
  | 4 => .ok .gbcast
  | 5 => .ok .grs
  | 6 => .ok .gag
  | _ => .error .fn

/-- Major 0x34. -/
def decD3 (w : Nat) : Except Reject Row :=
  if w / 2 ^ 26 % 16 = 15 then
    match 4 * (1 + w / 2 ^ 24 % 4) + w / 2 ^ 30 % 4 with
    | 4 => match w / 2 ^ 22 % 4 with
      | 0 => if w / 2 ^ 8 % 2 ^ 10 = 0 then .ok .fenceAcq else .error (.bits .s)
      | 1 => if w / 2 ^ 8 % 2 ^ 10 = 0 then .ok .fenceRel else .error (.bits .s)
      | 2 => if w / 2 ^ 8 % 2 ^ 10 = 0 then .ok .fenceFull else .error (.bits .s)
      | _ => if w / 2 ^ 8 % 2 ^ 10 = 0 then .ok .fenceSc else .error (.bits .s)
    | 5 => if w / 2 ^ 8 % 2 ^ 10 = 0 ∧ w / 2 ^ 23 % 2 ^ 1 = 0 then .ok .trap else .error (.bits .s)
    | 6 => if w / 2 ^ 8 % 2 ^ 16 = 0 then .ok .halt else .error (.bits .s)
    | _ => .error .fn
  else match w / 2 ^ 30 % 4 with
    | 0 => if w / 2 ^ 13 % 2 ^ 5 = 0 then .ok .sysrd else .error (.bits .s)
    | 1 => if w / 2 ^ 8 % 2 ^ 5 = 0 then .ok .syswr else .error (.bits .s)
    | 2 => if w / 2 ^ 8 % 2 ^ 5 = 0 then .ok .sysbs else .error (.bits .s)
    | _ => if w / 2 ^ 8 % 2 ^ 5 = 0 then .ok .sysbc else .error (.bits .s)

/-- The row of a 32-bit word, by its opcode byte (R49), reserved functions and reserved bits rejected. -/
def row32 (w : Nat) : Except Reject Row :=
  match w % 256 with
  | 0x03 => dec03 w
  | 0x07 => dec07 w
  | 0x0B => dec0B w
  | 0x0F => dec0F w
  | 0x13 => dec13 w
  | 0x17 => dec17 w
  | 0x1B => dec1B w
  | 0x1F => dec1F w
  | 0x23 => dec23 w
  | 0x27 => dec27 w
  | 0x2B => dec2B w
  | 0x2F => dec2F w
  | 0x33 => dec33 w
  | 0x37 => dec37 w
  | 0x3B => dec3B w
  | 0x43 => dec43 w
  | 0x47 => dec47 w
  | 0x4B => dec4B w
  | 0x4F => dec4F w
  | 0x53 => dec53 w
  | 0x57 => dec57 w
  | 0x63 => dec63 w
  | 0x67 => dec67 w
  | 0x6B => dec67 w
  | 0x6F => dec6F w
  | 0x73 => dec6F w
  | 0x77 => dec77 w
  | 0x7B => dec7B w
  | 0x83 => dec83 w
  | 0x87 => dec87 w
  | 0xA3 => decA3 w
  | 0xB3 => decB3 w
  | 0xB7 => decB7 w
  | 0xC3 => decC3 w
  | 0xCB => decCB w
  | 0xD3 => decD3 w
  | _ => .error .major

/-- The row of a compact parcel, by its class tag and op (R52). -/
def row16 (w : Nat) : Except Reject Row :=
  match w % 32 with
  | 0x00 => if w / 2 ^ 15 % 2 ^ 1 = 0 then .ok .cAdd else .error (.bits .cr)
  | 0x01 => .ok .cAddi
  | 0x02 => .ok .cBeqz
  | 0x04 => if w / 2 ^ 15 % 2 ^ 1 = 0 then .ok .cSub else .error (.bits .cr)
  | 0x05 => .ok .cLi
  | 0x06 => .ok .cBnez
  | 0x08 => if w / 2 ^ 15 % 2 ^ 1 = 0 then .ok .cAnd else .error (.bits .cr)
  | 0x09 => .ok .cSlli
  | 0x0A => .ok .cBltz
  | 0x0C => if w / 2 ^ 15 % 2 ^ 1 = 0 then .ok .cOr else .error (.bits .cr)
  | 0x0D => .ok .cSrli
  | 0x0E => .ok .cBgez
  | 0x10 => if w / 2 ^ 15 % 2 ^ 1 = 0 then .ok .cXor else .error (.bits .cr)
  | 0x11 => .ok .cSrai
  | 0x12 => if w / 2 ^ 5 % 2 ^ 5 = 0 then .ok .cJ else .error (.bits .cb)
  | 0x14 => if w / 2 ^ 15 % 2 ^ 1 = 0 then .ok .cMv else .error (.bits .cr)
  | 0x15 => .ok .cAndi
  | 0x16 => if w / 2 ^ 10 % 2 ^ 6 = 0 then .ok .cJr else .error (.bits .cb)
  | 0x18 => if w / 2 ^ 15 % 2 ^ 1 = 0 then .ok .cLdd else .error (.bits .cr)
  | 0x19 => .ok .cOri
  | 0x1A => .ok .cDbnz
  | 0x1C => if w / 2 ^ 15 % 2 ^ 1 = 0 then .ok .cStd else .error (.bits .cr)
  | 0x1D => .ok .cXori
  | 0x1E => if w / 2 ^ 5 % 2 ^ 11 = 0 then .ok .cDone else .error (.bits .cb)
  | _ => .error .major

/-- What the scanner checks of one instruction encoding (R55): the row, or why it is rejected. -/
def scanWord (long : Bool) (w : Nat) : Except Reject Row :=
  match if long then row32 w else row16 w with
  | .ok r => if r.fieldsOk w then .ok r else .error .fieldValue
  | .error e => .error e

/-- The instruction of a word the scanner accepts. -/
noncomputable def decodeWord (long : Bool) (w : Nat) : Except Reject Instr := (scanWord long w).map (·.build w)

/-- The length of an instruction in bytes, from the length tag of its first parcel alone (R42). -/
def lengthOf (parcel : Nat) : Nat := if parcel % 4 = 3 then 4 else 2

/-- Decode the instruction at the head of a list of bytes; the rest of the list with it. -/
noncomputable def decodeBytes : List (BitVec 8) → Except Reject (Instr × List (BitVec 8))
  | b0 :: b1 :: rest =>
    if b0.toNat % 4 = 3 then
      match rest with
      | b2 :: b3 :: rest =>
        (decodeWord true (b0.toNat + 256 * b1.toNat + 65536 * b2.toNat + 16777216 * b3.toNat)).map (·, rest)
      | _ => .error .short
    else (decodeWord false (b0.toNat + 256 * b1.toNat)).map (·, rest)
  | _ => .error .short

/-- The low `n` bytes of a word, least significant first (R42). -/
def wordBytes : Nat → Nat → List (BitVec 8)
  | 0, _ => []
  | n + 1, w => BitVec.ofNat 8 w :: wordBytes n (w / 256)

/-- The instruction the decoder reads from a word of the opcode table. The longest instruction has four bytes; the bits above `nbits` are zero. -/
noncomputable def decodeTableWord (nbits w : Nat) : Option Instr :=
  match decodeBytes (wordBytes 4 (w % 2 ^ nbits)) with
  | .ok (i, _) => some i
  | .error _ => none

/-- A field put at bit `lo` of a word whose bits there are zero. -/
def put (w : Nat) (x : BitVec n) (lo : Nat) : Nat := w + x.toNat * 2 ^ lo

/-- The encoder: how many bytes and the word (R45, R52). A step of the part itself has no encoding. -/
def encode : Instr → Option (Nat × Nat)
  | .add b a d => some (4, (put (put (put 0x3 b 18) a 13) d 8))
  | .sub b a d => some (4, (put (put (put 0x10000003 b 18) a 13) d 8))
  | .and b a d => some (4, (put (put (put 0x20000003 b 18) a 13) d 8))
  | .or b a d => some (4, (put (put (put 0x30000003 b 18) a 13) d 8))
  | .xor b a d => some (4, (put (put (put 0x40000003 b 18) a 13) d 8))
  | .andn b a d => some (4, (put (put (put 0x50000003 b 18) a 13) d 8))
  | .orn b a d => some (4, (put (put (put 0x60000003 b 18) a 13) d 8))
  | .sll b a d => some (4, (put (put (put 0x70000003 b 18) a 13) d 8))
  | .srl b a d => some (4, (put (put (put 0x80000003 b 18) a 13) d 8))
  | .sra b a d => some (4, (put (put (put 0x90000003 b 18) a 13) d 8))
  | .rol b a d => some (4, (put (put (put 0xA0000003 b 18) a 13) d 8))
  | .ror b a d => some (4, (put (put (put 0xB0000003 b 18) a 13) d 8))
  | .slt b a d => some (4, (put (put (put 0xC0000003 b 18) a 13) d 8))
  | .sltn b a d => some (4, (put (put (put 0xD0000003 b 18) a 13) d 8))
  | .seq b a d => some (4, (put (put (put 0xE0000003 b 18) a 13) d 8))
  | .sne b a d => some (4, (put (put (put 0xF0000003 b 18) a 13) d 8))
  | .mul b a d => some (4, (put (put (put 0x7 b 18) a 13) d 8))
  | .mulh b a d => some (4, (put (put (put 0x10000007 b 18) a 13) d 8))
  | .mulhn b a d => some (4, (put (put (put 0x20000007 b 18) a 13) d 8))
  | .div b a d => some (4, (put (put (put 0x30000007 b 18) a 13) d 8))
  | .divn b a d => some (4, (put (put (put 0x40000007 b 18) a 13) d 8))
  | .rem b a d => some (4, (put (put (put 0x50000007 b 18) a 13) d 8))
  | .remn b a d => some (4, (put (put (put 0x60000007 b 18) a 13) d 8))
  | .min b a d => some (4, (put (put (put 0x70000007 b 18) a 13) d 8))
  | .max b a d => some (4, (put (put (put 0x80000007 b 18) a 13) d 8))
  | .minn b a d => some (4, (put (put (put 0x90000007 b 18) a 13) d 8))
  | .maxn b a d => some (4, (put (put (put 0xA0000007 b 18) a 13) d 8))
  | .sel c b a d => some (4, (put (put (put (put 0xB0000007 c 23) b 18) a 13) d 8))
  | .clz a d => some (4, (put (put 0xC0000007 a 13) d 8))
  | .ctz a d => some (4, (put (put 0xD0000007 a 13) d 8))
  | .pop a d => some (4, (put (put 0xE0000007 a 13) d 8))
  | .rev8 a d => some (4, (put (put 0xF0000007 a 13) d 8))
  | .bext b a d => some (4, (put (put (put 0xB b 18) a 13) d 8))
  | .bextn b a d => some (4, (put (put (put 0x1000000B b 18) a 13) d 8))
  | .bins c b a d => some (4, (put (put (put (put 0x2000000B c 23) b 18) a 13) d 8))
  | .sxb a d => some (4, (put (put 0x3000000B a 13) d 8))
  | .sxh a d => some (4, (put (put 0x4000000B a 13) d 8))
  | .sxw a d => some (4, (put (put 0x5000000B a 13) d 8))
  | .zxb a d => some (4, (put (put 0x6000000B a 13) d 8))
  | .zxh a d => some (4, (put (put 0x7000000B a 13) d 8))
  | .zxw a d => some (4, (put (put 0x8000000B a 13) d 8))
  | .slli s a d => some (4, (put (put (put 0x9000000B s 18) a 13) d 8))
  | .srli s a d => some (4, (put (put (put 0xA000000B s 18) a 13) d 8))
  | .srai s a d => some (4, (put (put (put 0xB000000B s 18) a 13) d 8))
  | .addi i a d => some (4, (put (put (put 0xF i 18) a 13) d 8))
  | .andi i a d => some (4, (put (put (put 0x13 i 18) a 13) d 8))
  | .ori i a d => some (4, (put (put (put 0x17 i 18) a 13) d 8))
  | .xori i a d => some (4, (put (put (put 0x1B i 18) a 13) d 8))
  | .slti i a d => some (4, (put (put (put 0x1F i 18) a 13) d 8))
  | .lui i d => some (4, (put (put 0x23 i 13) d 8))
  | .lpc i d => some (4, (put (put 0x27 i 13) d 8))
  | .bEq o b a => some (4, (put (put (put 0x2B o 21) b 13) a 8))
  | .bNe o b a => some (4, (put (put (put 0x4002B o 21) b 13) a 8))
  | .bLt o b a => some (4, (put (put (put 0x8002B o 21) b 13) a 8))
  | .bGe o b a => some (4, (put (put (put 0xC002B o 21) b 13) a 8))
  | .bLtn o b a => some (4, (put (put (put 0x10002B o 21) b 13) a 8))
  | .bGen o b a => some (4, (put (put (put 0x14002B o 21) b 13) a 8))
  | .bBset o b a => some (4, (put (put (put 0x18002B o 21) b 13) a 8))
  | .bBclr o b a => some (4, (put (put (put 0x1C002B o 21) b 13) a 8))
  | .j o => some (4, (put 0x2F o 8))
  | .jal o => some (4, (put 0x33 o 8))
  | .jalr i a d => some (4, (put (put (put 0x37 i 18) a 13) d 8))
  | .dbnz o a d => some (4, (put (put (put 0x3B o 18) a 13) d 8))
  | .fadd m b a d => some (4, (put (put (put (put 0x43 m 25) b 18) a 13) d 8))
  | .fsub m b a d => some (4, (put (put (put (put 0x10000043 m 25) b 18) a 13) d 8))
  | .fmul m b a d => some (4, (put (put (put (put 0x20000043 m 25) b 18) a 13) d 8))
  | .fdiv m b a d => some (4, (put (put (put (put 0x30000043 m 25) b 18) a 13) d 8))
  | .fsqrt m a d => some (4, (put (put (put 0x40000043 m 25) a 13) d 8))
  | .fmin b a d => some (4, (put (put (put 0x50000043 b 18) a 13) d 8))
  | .fmax b a d => some (4, (put (put (put 0x60000043 b 18) a 13) d 8))
  | .fabs a d => some (4, (put (put 0x70000043 a 13) d 8))
  | .fneg a d => some (4, (put (put 0x80000043 a 13) d 8))
  | .fsgnj b a d => some (4, (put (put (put 0x90000043 b 18) a 13) d 8))
  | .ffma c b a d => some (4, (put (put (put (put 0xA0000043 c 23) b 18) a 13) d 8))
  | .ffms c b a d => some (4, (put (put (put (put 0xB0000043 c 23) b 18) a 13) d 8))
  | .fnfma c b a d => some (4, (put (put (put (put 0xC0000043 c 23) b 18) a 13) d 8))
  | .fcmpeq b a d => some (4, (put (put (put 0xD0000043 b 18) a 13) d 8))
  | .fcmplt b a d => some (4, (put (put (put 0xE0000043 b 18) a 13) d 8))
  | .fcmple b a d => some (4, (put (put (put 0xF0000043 b 18) a 13) d 8))
  | .fcvtFG m t a d => some (4, (put (put (put (put 0x47 m 25) t 23) a 13) d 8))
  | .fcvtGF m t a d => some (4, (put (put (put (put 0x10000047 m 25) t 23) a 13) d 8))
  | .fmvFG a d => some (4, (put (put 0x20000047 a 13) d 8))
  | .fmvGF a d => some (4, (put (put 0x30000047 a 13) d 8))
  | .fcls a d => some (4, (put (put 0x40000047 a 13) d 8))
  | .fround m a d => some (4, (put (put (put 0x50000047 m 25) a 13) d 8))
  | .fcvtFBf16 a d => some (4, (put (put 0x60000047 a 13) d 8))
  | .fcvtBf16F m a d => some (4, (put (put (put 0x70000047 m 25) a 13) d 8))
  | .fcvtFHf a d => some (4, (put (put 0x80000047 a 13) d 8))
  | .fcvtHfF m a d => some (4, (put (put (put 0x90000047 m 25) a 13) d 8))
  | .fscal m b a d => some (4, (put (put (put (put 0xA0000047 m 25) b 18) a 13) d 8))
  | .frecip a d => some (4, (put (put 0xB0000047 a 13) d 8))
  | .frsq a d => some (4, (put (put 0xC0000047 a 13) d 8))
  | .ldb i a d => some (4, (put (put (put 0x4B i 18) a 13) d 8))
  | .ldbn i a d => some (4, (put (put (put 0x1000004B i 18) a 13) d 8))
  | .ldh i a d => some (4, (put (put (put 0x2000004B i 18) a 13) d 8))
  | .ldhn i a d => some (4, (put (put (put 0x3000004B i 18) a 13) d 8))
  | .ldw i a d => some (4, (put (put (put 0x4000004B i 18) a 13) d 8))
  | .ldwn i a d => some (4, (put (put (put 0x5000004B i 18) a 13) d 8))
  | .ldd i a d => some (4, (put (put (put 0x6000004B i 18) a 13) d 8))
  | .ldf i a d => some (4, (put (put (put 0x7000004B i 18) a 13) d 8))
  | .ldsync i a d => some (4, (put (put (put 0x8000004B i 18) a 13) d 8))
  | .ldpeek i a d => some (4, (put (put (put 0x9000004B i 18) a 13) d 8))
  | .stb i a d => some (4, (put (put (put 0x4F i 18) a 13) d 8))
  | .sth i a d => some (4, (put (put (put 0x1000004F i 18) a 13) d 8))
  | .stw i a d => some (4, (put (put (put 0x2000004F i 18) a 13) d 8))
  | .std i a d => some (4, (put (put (put 0x3000004F i 18) a 13) d 8))
  | .stf i a d => some (4, (put (put (put 0x4000004F i 18) a 13) d 8))
  | .stfill i a d => some (4, (put (put (put 0x5000004F i 18) a 13) d 8))
  | .clrfull i a => some (4, (put (put 0x6000004F i 18) a 13))
  | .aadd b a d => some (4, (put (put (put 0x53 b 18) a 13) d 8))
  | .aswap b a d => some (4, (put (put (put 0x10000053 b 18) a 13) d 8))
  | .acas c b a d => some (4, (put (put (put (put 0x20000053 c 23) b 18) a 13) d 8))
  | .ldbits s n w a d => some (4, (put (put (put (put (put 0x57 s 24) n 23) w 18) a 13) d 8))
  | .stbits n w a d => some (4, (put (put (put (put 0x10000057 n 23) w 18) a 13) d 8))
  | .badd a d => some (4, (put (put 0x20000057 a 13) d 8))
  | .bset a d => some (4, (put (put 0x30000057 a 13) d 8))
  | .bget a d => some (4, (put (put 0x40000057 a 13) d 8))
  | .vadd p b a d t => some (4, (put (put (put (put (put 0x63 p 24) b 16) a 12) d 8) t 2))
  | .vsub p b a d t => some (4, (put (put (put (put (put 0x8000063 p 24) b 16) a 12) d 8) t 2))
  | .vmul p b a d t => some (4, (put (put (put (put (put 0x10000063 p 24) b 16) a 12) d 8) t 2))
  | .vmulh p b a d t => some (4, (put (put (put (put (put 0x18000063 p 24) b 16) a 12) d 8) t 2))
  | .vmulhn p b a d t => some (4, (put (put (put (put (put 0x20000063 p 24) b 16) a 12) d 8) t 2))
  | .vmin p b a d t => some (4, (put (put (put (put (put 0x28000063 p 24) b 16) a 12) d 8) t 2))
  | .vmax p b a d t => some (4, (put (put (put (put (put 0x30000063 p 24) b 16) a 12) d 8) t 2))
  | .vminn p b a d t => some (4, (put (put (put (put (put 0x38000063 p 24) b 16) a 12) d 8) t 2))
  | .vmaxn p b a d t => some (4, (put (put (put (put (put 0x40000063 p 24) b 16) a 12) d 8) t 2))
  | .vand p b a d t => some (4, (put (put (put (put (put 0x48000063 p 24) b 16) a 12) d 8) t 2))
  | .vor p b a d t => some (4, (put (put (put (put (put 0x50000063 p 24) b 16) a 12) d 8) t 2))
  | .vxor p b a d t => some (4, (put (put (put (put (put 0x58000063 p 24) b 16) a 12) d 8) t 2))
  | .vsll p b a d t => some (4, (put (put (put (put (put 0x60000063 p 24) b 16) a 12) d 8) t 2))
  | .vsrl p b a d t => some (4, (put (put (put (put (put 0x68000063 p 24) b 16) a 12) d 8) t 2))
  | .vsra p b a d t => some (4, (put (put (put (put (put 0x70000063 p 24) b 16) a 12) d 8) t 2))
  | .vabs p a d t => some (4, (put (put (put (put 0x78000063 p 24) a 12) d 8) t 2))
  | .vadds p b a d t => some (4, (put (put (put (put (put 0x80000063 p 24) b 16) a 12) d 8) t 2))
  | .vaddsn p b a d t => some (4, (put (put (put (put (put 0x88000063 p 24) b 16) a 12) d 8) t 2))
  | .vsubs p b a d t => some (4, (put (put (put (put (put 0x90000063 p 24) b 16) a 12) d 8) t 2))
  | .vsubsn p b a d t => some (4, (put (put (put (put (put 0x98000063 p 24) b 16) a 12) d 8) t 2))
  | .vavg p b a d t => some (4, (put (put (put (put (put 0xA0000063 p 24) b 16) a 12) d 8) t 2))
  | .vdot4 p c b a d => some (4, (put (put (put (put (put 0xA8000063 p 24) c 20) b 16) a 12) d 8))
  | .vcmpeq p b a d t => some (4, (put (put (put (put (put 0xB0000063 p 24) b 16) a 12) d 8) t 2))
  | .vcmplt p b a d t => some (4, (put (put (put (put (put 0xB8000063 p 24) b 16) a 12) d 8) t 2))
  | .vcmpltn p b a d t => some (4, (put (put (put (put (put 0xC0000063 p 24) b 16) a 12) d 8) t 2))
  | .vfadd p b a d t => some (4, (put (put (put (put (put 0x43 p 24) b 16) a 12) d 8) t 2))
  | .vfsub p b a d t => some (4, (put (put (put (put (put 0x8000043 p 24) b 16) a 12) d 8) t 2))
  | .vfmul p b a d t => some (4, (put (put (put (put (put 0x10000043 p 24) b 16) a 12) d 8) t 2))
  | .vffma p c b a d t => some (4, (put (put (put (put (put (put 0x18000043 p 24) c 20) b 16) a 12) d 8) t 2))
  | .vffms p c b a d t => some (4, (put (put (put (put (put (put 0x20000043 p 24) c 20) b 16) a 12) d 8) t 2))
  | .vfmin p b a d t => some (4, (put (put (put (put (put 0x28000043 p 24) b 16) a 12) d 8) t 2))
  | .vfmax p b a d t => some (4, (put (put (put (put (put 0x30000043 p 24) b 16) a 12) d 8) t 2))
  | .vfabs p a d t => some (4, (put (put (put (put 0x38000043 p 24) a 12) d 8) t 2))
  | .vfneg p a d t => some (4, (put (put (put (put 0x40000043 p 24) a 12) d 8) t 2))
  | .vfdiv p b a d => some (4, (put (put (put (put 0x48000077 p 24) b 16) a 12) d 8))
  | .vfsqrt p a d => some (4, (put (put (put 0x50000077 p 24) a 12) d 8))
  | .vfrecip p a d t => some (4, (put (put (put (put 0x58000043 p 24) a 12) d 8) t 2))
  | .vfrsq p a d t => some (4, (put (put (put (put 0x60000043 p 24) a 12) d 8) t 2))
  | .vfexp2 p a d t => some (4, (put (put (put (put 0x68000043 p 24) a 12) d 8) t 2))
  | .vfcmpeq p b a d t => some (4, (put (put (put (put (put 0x70000043 p 24) b 16) a 12) d 8) t 2))
  | .vfcmplt p b a d t => some (4, (put (put (put (put (put 0x78000043 p 24) b 16) a 12) d 8) t 2))
  | .vfcmple p b a d t => some (4, (put (put (put (put (put 0x80000043 p 24) b 16) a 12) d 8) t 2))
  | .vfclass p a d t => some (4, (put (put (put (put 0x88000043 p 24) a 12) d 8) t 2))
  | .vfscale p b a d t => some (4, (put (put (put (put (put 0x90000043 p 24) b 16) a 12) d 8) t 2))
  | .vcvt p t s a d => some (4, (put (put (put (put (put 0x7B p 24) t 20) s 16) a 12) d 8))
  | .vcvtsc c k a d => some (4, (put (put (put (put 0x800007B c 20) k 16) a 12) d 8))
  | .vsplat p w g d => some (4, (put (put (put (put 0x1000007B p 24) w 17) g 12) d 8))
  | .vsplatf p w f d => some (4, (put (put (put (put 0x1800007B p 24) w 17) f 12) d 8))
  | .vext i b x g => some (4, (put (put (put (put 0x2000007B i 20) b 16) x 13) g 8))
  | .vins i w g d => some (4, (put (put (put (put 0x2800007B i 20) w 17) g 12) d 8))
  | .vperm p w b a d => some (4, (put (put (put (put (put 0x3000007B p 24) w 20) b 16) a 12) d 8))
  | .vslide k b a d => some (4, (put (put (put (put 0x3800007B k 20) b 16) a 12) d 8))
  | .vcompress p w a d => some (4, (put (put (put (put 0x4000007B p 24) w 20) a 12) d 8))
  | .vexpand p w a d => some (4, (put (put (put (put 0x4800007B p 24) w 20) a 12) d 8))
  | .vmerge p w b a d => some (4, (put (put (put (put (put 0x5000007B p 24) w 20) b 16) a 12) d 8))
  | .vredsum p t a d => some (4, (put (put (put (put 0x5800007B p 24) t 20) a 12) d 8))
  | .vredmax p t a d => some (4, (put (put (put (put 0x6000007B p 24) t 20) a 12) d 8))
  | .vredmin p t a d => some (4, (put (put (put (put 0x6800007B p 24) t 20) a 12) d 8))
  | .vtopk k y b a d => some (4, (put (put (put (put (put 0x7000007B k 22) y 20) b 16) a 12) d 8))
  | .vtopkM k y b a d => some (4, (put (put (put (put (put 0x7020007B k 22) y 20) b 16) a 12) d 8))
  | .vmand b a d => some (4, (put (put (put 0x7800007B b 16) a 12) d 8))
  | .vmor b a d => some (4, (put (put (put 0x8000007B b 16) a 12) d 8))
  | .vmnot a d => some (4, (put (put 0x8800007B a 12) d 8))
  | .vmpop b g => some (4, (put (put 0x9000007B b 16) g 8))
  | .vld p o w g d => some (4, (put (put (put (put (put 0x9800007B p 24) o 20) w 18) g 12) d 8))
  | .vst p o w g d => some (4, (put (put (put (put (put 0xA000007B p 24) o 20) w 18) g 12) d 8))
  | .vldx p w x g d => some (4, (put (put (put (put (put 0xA800007B p 24) w 21) x 17) g 12) d 8))
  | .vstx p w x g d => some (4, (put (put (put (put (put 0xB000007B p 24) w 21) x 17) g 12) d 8))
  | .vldbits p n m w b d => some (4, (put (put (put (put (put (put 0xB800007B p 24) n 22) m 20) w 16) b 12) d 8))
  | .tcfg a t => some (4, (put (put 0x83 a 11) t 8))
  | .trel t => some (4, (put 0x4000083 t 8))
  | .tzero t => some (4, (put 0x8000083 t 8))
  | .tldrow b v t => some (4, (put (put (put 0xC000083 b 16) v 11) t 8))
  | .tldcol b v t => some (4, (put (put (put 0x10000083 b 16) v 11) t 8))
  | .tstrow b v t => some (4, (put (put (put 0x14000083 b 16) v 11) t 8))
  | .tstcol b v t => some (4, (put (put (put 0x18000083 b 16) v 11) t 8))
  | .tload b a t => some (4, (put (put (put 0x1C000083 b 16) a 11) t 8))
  | .tstore b a t => some (4, (put (put (put 0x20000083 b 16) a 11) t 8))
  | .twait => some (4, 0x24000083)
  | .mmaBf16 c b a t => some (4, (put (put (put (put 0x87 c 21) b 16) a 11) t 8))
  | .mmaHf c b a t => some (4, (put (put (put (put 0x4000087 c 21) b 16) a 11) t 8))
  | .mmaE4e4 c b a t => some (4, (put (put (put (put 0x8000087 c 21) b 16) a 11) t 8))
  | .mmaE4e5 c b a t => some (4, (put (put (put (put 0xC000087 c 21) b 16) a 11) t 8))
  | .mmaE5e4 c b a t => some (4, (put (put (put (put 0x10000087 c 21) b 16) a 11) t 8))
  | .mmaE5e5 c b a t => some (4, (put (put (put (put 0x14000087 c 21) b 16) a 11) t 8))
  | .mmaBf16e4 c b a t => some (4, (put (put (put (put 0x18000087 c 21) b 16) a 11) t 8))
  | .mmaI8 b a t => some (4, (put (put (put 0x1C000087 b 16) a 11) t 8))
  | .mmaTi8 b a t => some (4, (put (put (put 0x20000087 b 16) a 11) t 8))
  | .mmaTbf16 c b a t => some (4, (put (put (put (put 0x24000087 c 21) b 16) a 11) t 8))
  | .connect c b a e => some (4, (put (put (put (put 0xA3 c 22) b 17) a 12) e 8))
  | .accept c b a e => some (4, (put (put (put (put 0x100000A3 c 22) b 17) a 12) e 8))
  | .send c b a e => some (4, (put (put (put (put 0x200000A3 c 22) b 17) a 12) e 8))
  | .sendv c b v e => some (4, (put (put (put (put 0x300000A3 c 22) b 17) v 12) e 8))
  | .sendt c b t e => some (4, (put (put (put (put 0x400000A3 c 22) b 17) t 12) e 8))
  | .selLabel l e => some (4, (put (put 0x500000A3 l 22) e 8))
  | .recv b a e => some (4, (put (put (put 0x600000A3 b 17) a 12) e 8))
  | .offer a e => some (4, (put (put 0x700000A3 a 12) e 8))
  | .probe a e => some (4, (put (put 0x800000A3 a 12) e 8))
  | .close k e => some (4, (put (put 0x900000A3 k 22) e 8))
  | .sendep c m e => some (4, (put (put (put 0xA00000A3 c 22) m 12) e 8))
  | .recvep m e => some (4, (put (put 0xB00000A3 m 12) e 8))
  | .estate w a e => some (4, (put (put (put 0xC00000A3 w 22) a 12) e 8))
  | .spawn c b a e => some (4, (put (put (put (put 0xD00000A3 c 22) b 17) a 12) e 8))
  | .mrd c b a => some (4, (put (put (put 0xFB3 c 22) b 17) a 12))
  | .mwr c b a => some (4, (put (put (put 0x10000FB3 c 22) b 17) a 12))
  | .mamo c b a => some (4, (put (put (put 0x20000FB3 c 22) b 17) a 12))
  | .cpget c b a => some (4, (put (put (put 0xFB7 c 22) b 17) a 12))
  | .cpput c b a => some (4, (put (put (put 0x10000FB7 c 22) b 17) a 12))
  | .cpgath c b a => some (4, (put (put (put 0x20000FB7 c 22) b 17) a 12))
  | .cpscat c b a => some (4, (put (put (put 0x30000FB7 c 22) b 17) a 12))
  | .cpfill c b a => some (4, (put (put (put 0x40000FB7 c 22) b 17) a 12))
  | .cpcvt c b a => some (4, (put (put (put 0x50000FB7 c 22) b 17) a 12))
  | .cpwait => some (4, 0x60000FB7)
  | .gjoin c a e => some (4, (put (put (put 0xCB c 22) a 12) e 8))
  | .gleave e => some (4, (put 0x100000CB e 8))
  | .gwait c e => some (4, (put (put 0x200000CB c 22) e 8))
  | .gred c b a e => some (4, (put (put (put (put 0x300000CB c 22) b 17) a 12) e 8))
  | .gbcast c b a e => some (4, (put (put (put (put 0x400000CB c 22) b 17) a 12) e 8))
  | .grs c b a e => some (4, (put (put (put (put 0x500000CB c 22) b 17) a 12) e 8))
  | .gag c b a e => some (4, (put (put (put (put 0x600000CB c 22) b 17) a 12) e 8))
  | .vnow d => some (4, (put 0xC3 d 8))
  | .vset a => some (4, (put 0x400000C3 a 13))
  | .vmile d => some (4, (put 0x800000C3 d 8))
  | .prio a => some (4, (put 0xC00000C3 a 13))
  | .budget a => some (4, (put 0x3C0000C3 a 13))
  | .commit => some (4, 0x7C0000C3)
  | .done => some (4, 0xBC0000C3)
  | .doneRetire => some (4, 0xBC0400C3)
  | .jarm c a d => some (4, (put (put (put 0xFC0000C3 c 18) a 13) d 8))
  | .jdis a => some (4, (put 0x3D0000C3 a 13))
  | .capgive a d => some (4, (put (put 0x7D0000C3 a 13) d 8))
  | .capchk a d => some (4, (put (put 0xBD0000C3 a 13) d 8))
  | .sysrd s d => some (4, (put (put 0xD3 s 18) d 8))
  | .syswr s a => some (4, (put (put 0x400000D3 s 18) a 13))
  | .sysbs s a => some (4, (put (put 0x800000D3 s 18) a 13))
  | .sysbc s a => some (4, (put (put 0xC00000D3 s 18) a 13))
  | .fenceAcq s => some (4, (put 0x3C0000D3 s 18))
  | .fenceRel s => some (4, (put 0x3C4000D3 s 18))
  | .fenceFull s => some (4, (put 0x3C8000D3 s 18))
  | .fenceSc s => some (4, (put 0x3CC000D3 s 18))
  | .trap d => some (4, (put 0x7C0000D3 d 18))
  | .halt => some (4, 0xBC0000D3)
  | .cAdd b d => some (2, (put (put 0x0 b 10) d 5))
  | .cSub b d => some (2, (put (put 0x4 b 10) d 5))
  | .cAnd b d => some (2, (put (put 0x8 b 10) d 5))
  | .cOr b d => some (2, (put (put 0xC b 10) d 5))
  | .cXor b d => some (2, (put (put 0x10 b 10) d 5))
  | .cMv b d => some (2, (put (put 0x14 b 10) d 5))
  | .cLdd b d => some (2, (put (put 0x18 b 10) d 5))
  | .cStd b a => some (2, (put (put 0x1C b 10) a 5))
  | .cAddi i d => some (2, (put (put 0x1 i 10) d 5))
  | .cLi i d => some (2, (put (put 0x5 i 10) d 5))
  | .cSlli s d => some (2, (put (put 0x9 s 10) d 5))
  | .cSrli s d => some (2, (put (put 0xD s 10) d 5))
  | .cSrai s d => some (2, (put (put 0x11 s 10) d 5))
  | .cAndi i d => some (2, (put (put 0x15 i 10) d 5))
  | .cOri i d => some (2, (put (put 0x19 i 10) d 5))
  | .cXori i d => some (2, (put (put 0x1D i 10) d 5))
  | .cBeqz o a => some (2, (put (put 0x2 o 10) a 5))
  | .cBnez o a => some (2, (put (put 0x6 o 10) a 5))
  | .cBltz o a => some (2, (put (put 0xA o 10) a 5))
  | .cBgez o a => some (2, (put (put 0xE o 10) a 5))
  | .cJ o => some (2, (put 0x12 o 10))
  | .cJr a => some (2, (put 0x16 a 5))
  | .cDbnz o a => some (2, (put (put 0x1A o 10) a 5))
  | .cDone => some (2, 0x1E)
  | .vectorCommandExecution _ => none
  | .matrixCommandExecution _ => none
  | .copyCommandExecution _ => none
  | .doneRelease _ _ => none
  | .fenceConditionMet _ _ => none
  | .messageArrival _ => none
  | .antiMessage _ => none
  | .activationDispatch _ => none
  | .countedMessage _ _ => none
  | .rollback _ _ => none
  | .trapSequence _ _ => none
  | .budgetExhausted _ _ => none
  | .kill _ _ => none
  | .connectRequest _ => none
  | .connectAnswer _ => none
  | .connectConfirmation _ => none
  | .connectUndo _ => none
  | .spawnRequest _ => none
  | .closeNotice _ _ _ => none
  | .acknowledgement _ => none
  | .relocationNotice _ => none
  | .forwardingRequest _ => none
  | .forwardingEndMarker _ => none
  | .memoryPeerRequest _ => none
  | .pageWalk _ _ => none
  | .invalidation _ => none
  | .homeAcknowledgement _ => none
  | .parkDeadline _ => none
  | .capabilityHandOver _ => none
  | .pageOut _ => none
  | .pageIn _ => none
  | .deposit _ => none
  | .discard _ => none
  | .persist _ => none
  | .evictActor _ => none
  | .reloadActor _ => none
  | .demandPageIn _ => none
  | .checkpointTake _ => none
  | .checkpointRestore _ => none
  | .checkpointQuery _ => none
  | .codeLoad _ => none
  | .codeUnload _ => none
  | .codeScan _ => none
  | .groupJoinAtRegistry _ => none
  | .collectiveChunk _ => none
  | .resultChunk _ => none
  | .memberDeath _ => none
  | .priorityLoan _ _ => none
  | .milestoneRoundStart => none
  | .takeTheCut _ => none
  | .milestonePass => none
  | .roundCompletion _ => none
  | .fabricRound => none
  | .ctlWrite => none
  | .hostRingDelivery _ => none
  | .linkFlitReceive _ => none
  | .linkAcknowledgement _ => none
  | .linkReplay _ => none
  | .allocate => none
  | .free => none
  | .setOrdering => none
  | .setHolder => none
  | .writeProtectionEntry => none
  | .clearProtectionEntry => none
  | .coreConfigurationRequest => none
  | .slotPointerWrap _ => none
  | .arbiterPeriod => none
  | .coolantSample => none
  | .lifeCycleChange => none
  | .laybyWrite => none
  | .savepoolWrite => none
  | .roadblockStop _ => none
  | .roadblockResume _ => none
  | .leaveMinimalMode => none
  | .hostRegisterWrite => none
  | .launch => none
  | .reset => none
  | .scrub _ _ => none
  | .lifetimeSecond => none
  | .hostMessageEntry _ => none
  | .sendWindowWrite => none
  | .hostReadCompletion _ => none
  | .capchkAnswer _ => none

/-- The bytes of an instruction as the code store holds them (R42). -/
def encodeBytes (i : Instr) : List (BitVec 8) :=
  match encode i with
  | some (n, w) => wordBytes n w
  | none => []

end Sys2Proof
end

