-- ==== Sys2Proof/Machine/Global.lean ====
section
/-! DEFINITION. The memory peers, the crossing caches and the copy engines (10_global_memory.md R221 to R245; 15_protection_and_translation_tables.md R326 to R333): MEMORY_PEER_REQUEST, PAGE_WALK, INVALIDATION, HOME_ACKNOWLEDGEMENT, PARK_DEADLINE, CAPABILITY_HAND_OVER, CAPCHK_ANSWER, COPY_COMMAND_EXECUTION, FENCE_CONDITION_MET, HOST_READ_COMPLETION, DEMAND_PAGE_IN. -/

namespace Sys2Proof.Machine

/-! ## Pages, frames and lines (R221, R222, R324) -/

/-- The quadrant beside which a stack stands (R221). -/
def quadStack (b : Nat) : Nat := b / 2

/-- The logic base whose crossing cache holds, for a quadrant, the lines homed on a stack (R222). -/
def crossBase (q : BitVec 2) (b : Nat) : Nat := 2 * q.toNat + b % 2

/-- The line that a quadrant holds in its crossing cache. -/
def State.heldLine (s : State) (q : BitVec 2) (ln : Nat) : Option Line :=
  let h := homePage (ln / 512)
  if quadStack h = q.toNat then none else (s.base (crossBase q h)).cache.find? fun x => x.line = ln

/-- The 128 bytes of a line at the point of an observer in a quadrant (R234). -/
def State.lineAt (s : State) (q : BitVec 2) (ln : Nat) : List Byte :=
  match s.heldLine q ln with
  | some x => x.data
  | none => s.homeBytes (ln * 128) 128

/-- The requests in the part of the module between cores and homes: on their way, walking, parked. -/
def State.underWay (s : State) : List MemReq :=
  (s.flight.filterMap fun f => match f.pkt with
    | .mem r => some r
    | _ => none) ++ s.bases.flatMap fun b => (b.2.walkWait.map fun p => p.2) ++ b.2.parked.map fun p => p.req

/-- Whether a write from a quadrant passes its crossing cache, or has passed it, without the line being held there, and is not performed at the line's home. -/
def State.passing (s : State) (q : BitVec 2) (ln : Nat) : Bool :=
  s.underWay.any fun r => r.op.isWrite && (r.crossed || decide (0 < r.pos)) && ! r.sc && quadOf r.loc.core = q && r.lines.contains ln && ! r.held.contains ln

/-- The lines of a crossing cache: 48 MiB of 128 bytes (R11). -/
def cacheLines : Nat := 393216

/-- A crossing cache with room for a line: as it is, or, when it is full, without the first line that carries no unacknowledged update (R222, log 79). -/
def makeRoom (l : List Line) : Option (List Line) :=
  if l.length < cacheLines then some l
  else (l.findIdx? fun x => x.unacked = 0).map fun i => l.eraseIdx i

/-- A read that missed fetches the line from the home, which notes it (R222). It is not held when it lies on a strong page, when no place is free, when a word of it is in error, or while a write from its quadrant that it would not show is on its way (log 79). -/
def State.fillLine (s : State) (q : BitVec 2) (ln : Nat) : State :=
  let h := homePage (ln / 512)
  if quadStack h = q.toNat || (s.leaf (ln / 512)).strong || (s.heldLine q ln).isSome || s.passing q ln ||
      (wordsOf (s.dramAddr (ln * 128)) 128).any (fun w => (s.base h).badDram.contains w) then s
  else
    let c := crossBase q h
    match makeRoom (s.base c).cache with
    | none => s
    | some l =>
      let t := s.setBase c { s.base c with cache := l ++ [⟨ln, s.homeBytes (ln * 128) 128, 0⟩],
                                           badLines := (s.base c).badLines.filter fun y => l.any fun x => x.line = y }
      t.setBase h { t.base h with presence := (t.base h).presence ++ [(ln, q)] }

/-- A part of bytes that stand from `base` on. -/
def sliceBytes (l : List Byte) (base va n : Nat) : List Byte := (l.drop (va - base)).take n

/-- A read of n bytes of global memory from a quadrant, line by line. -/
def State.readGlobal (s : State) (q : BitVec 2) (va n : Nat) : List Byte × State :=
  let ls := linesIn va n
  let t := ls.foldl (fun t l => t.fillLine q l) s
  (sliceBytes (ls.flatMap fun l => s.lineAt q l) (va / 128 * 128) va n, t)

/-- The machine cause of a read and the address that failed (R228, R353, R354): a word of stack DRAM, or a held line, in error. -/
def State.readError (s : State) (q : BitVec 2) (va n : Nat) : Option (BitVec 9 × Word) :=
  (linesIn va n).findSome? fun l =>
    let h := homePage (l / 512)
    match s.heldLine q l with
    | some _ => if (s.base (crossBase q h)).badLines.contains l then some (0x1C6, BitVec.ofNat 64 (l * 128)) else none
    | none =>
      let lo := max va (l * 128)
      let hi := min (va + n) (l * 128 + 128)
      ((wordsOf (s.dramAddr lo) (hi - lo)).find? fun w => (s.base h).badDram.contains w).map fun w =>
        (0x1C5, BitVec.ofNat 64 (lo / 65536 * 65536 + w * 8 % 65536))

/-! ## What an actor has outstanding (R237, R330) -/

def rangeLines (rs : List (Nat × Nat)) : List Nat := rs.flatMap fun r => linesIn r.1 r.2

def CopyCmd.ranges (c : CopyCmd) : List (Nat × Nat) := copyRanges c.op c.gaddr.toNat c.len c.extra

/-- Items of an actor that have not left its core or its home base, with their sequence and lines. -/
def Item.touches : Item → Option (BitVec 40 × List Nat)
  | .mem r _ => some (r.key.seq, r.lines)
  | .copy c _ => some (c.key.seq, rangeLines c.ranges)
  | _ => none

/-- The items of an actor that are staged, held, deferred or behind a fence. -/
def State.itemsOf (s : State) (who : AId) : List Item :=
  (match s.locOf who with
   | some l =>
     let k := s.core l.core
     (k.ctxs.toList.flatMap fun x => if x.slot = l.slot ∧ x.phase ≠ .free then x.staging else []) ++
       (k.deferral.filter fun d => d.slot = l.slot).map (fun d => d.item) ++ (k.fenced.filter fun d => d.slot = l.slot).map fun d => d.item
   | none => []) ++
  match s.savedOf who with
  | some x => x.deferral.map fun d => d.item
  | none => []

/-- Whether an earlier request of the same actor to one of the lines is not performed (R237 item 1): one that has left, or, for `all`, one that has yet to leave. -/
def State.sameLine (s : State) (who : AId) (seq : BitVec 40) (ls : List Nat) (all : Bool) : Bool :=
  ((s.requests who).any fun r => seqBefore r.key.seq seq && r.lines.any ls.contains) ||
    ((s.copies who).any fun c => seqBefore c.key.seq seq && (rangeLines c.ranges).any ls.contains) ||
    (all && (s.itemsOf who).any fun i => match i.touches with
      | some (q, m) => seqBefore q seq && m.any ls.contains
      | none => false)

/-- Whether an address lies in a strong page or a host window (R330). -/
def State.strongAt (s : State) (va : Nat) : Bool := (windowOf va ≠ some 0) || (s.leaf (va / 65536)).strong

/-- Whether a request is to a strong page or a host window. -/
def State.strongReq (s : State) (r : MemReq) : Bool :=
  match r.op with
  | .finish .. => false
  | .capchk .. => false
  | .capgive .. => false
  | _ => s.strongAt r.addr.toNat || r.lines.any fun l => s.strongAt (l * 128)

def State.strongCopy (s : State) (c : CopyCmd) : Bool := c.ranges.any fun x => s.strongAt x.1 || s.strongAt (x.1 + x.2 - 1)

/-- Whether an earlier request of an actor to a strong page or a host window is not performed, or has yet to leave (R237, R330). -/
def State.strongBefore (s : State) (who : AId) (seq : BitVec 40) : Bool :=
  ((s.requests who).any fun x => seqBefore x.key.seq seq && s.strongReq x) || ((s.copies who).any fun c => seqBefore c.key.seq seq && s.strongCopy c) ||
    (s.itemsOf who).any fun i => match i with
      | .mem r _ => seqBefore r.key.seq seq && s.strongReq r
      | .copy c _ => seqBefore c.key.seq seq && s.strongCopy c
      | _ => false

/-- Whether a request waits for an earlier one of its actor to a strong page or a host window (R330). -/
def State.strongWait (s : State) (r : MemReq) : Bool := s.strongReq r && s.strongBefore r.actor r.key.seq

/-! ## Replies (R225) -/

/-- A reply of a request, sent from a station; `va` is the address that a trap for it names (R353). -/
def State.answer (s : State) (st : Nat) (r : MemReq) (status : BitVec 9) (payload : List Byte) (va : Word := r.detail.getD r.addr) : State :=
  let p : BitVec 24 := r.loc.peer 15
  let h : Header :=
    { key := r.key, dest := p.extractLsb' 4 20, cls := r.cls, len := BitVec.ofNat 13 payload.length, state := 0, join := false, ze := false,
      anti := false, close := false, label := false, deleg := false, colour := false, irrev := true, tenant := r.actor.tenant, prio := 0,
      scope := 6, dmod := 0 }
  s.postMsg st (.ep r.loc 15) ⟨h, payload, .reply status va, r.actor⟩

/-- An e15 slot freed without a reply (R225). -/
def State.freeE15 (s : State) (who : AId) (seq : BitVec 40) : State :=
  s.control who (fun a => { a with e15used := a.e15used.filter (· ≠ seq), e15undone := a.e15undone.filter (· ≠ seq) }) fun t k => t.settle k

/-! ## Writing at the home (R222, R263, R331) -/

/-- The home's check of a global write (R331). -/
def State.mayWrite (s : State) (who : AId) (p : Nat) : Bool :=
  (s.cap p).held && (s.cap p).holder = who.id && (s.leaf p).tenant = who.tenant

/-- The takes that list a page (R263), with their cut. -/
def State.takesOf (s : State) (p : Nat) : List (Nat × Word) :=
  (s.takes.filter fun t => t.pages.any fun x => x.1 = p).map fun t => (t.key, t.t)

/-- The cells of a page's frame, by offset. -/
def State.pageCells (s : State) (p : Nat) : List Host.Cell :=
  let b := s.base (homePage p)
  let lo := (s.leaf p).frame.toNat * 65536
  (b.dram.cells.filter fun c => decide (lo ≤ c.1) && decide (c.1 < lo + 65536)).map fun c => (c.1 - lo, c.2)

/-- A frame filled with a page's cells. -/
def Mem.setPage (m : Mem) (frame : Nat) (cells : List Host.Cell) : Mem :=
  let lo := frame * 65536
  cells.foldl (fun (m : Mem) c => m.set (lo + c.1) c.2) (m.clear lo (lo + 65536))

/-- A write of VRT v to a page under a checkpoint's cut: the frame is copied for the snapshot before a write at or above the cut; a write below it is made on both (R263). -/
def State.snapWrite (s : State) (p : Nat) (v : Word) (off : Nat) (bytes : List Byte) : State :=
  (s.takesOf p).foldl (fun t x =>
    let b := t.base (homePage p)
    let has := b.snaps.any fun y => y.1 = x.1 && y.2.1 = p
    if v < x.2 then
      t.setBase (homePage p) { b with snaps := b.snaps.map fun y => if y.1 = x.1 ∧ y.2.1 = p then (y.1, y.2.1, (Mem.setBytes ⟨y.2.2, []⟩ off bytes).cells) else y }
    else if has then t
    else (t.setBase (homePage p) { b with snaps := b.snaps ++ [(x.1, p, t.pageCells p)] }).setLeaf p { t.leaf p with cow := false }) s

/-- Bytes written into the frame of one page: DIRTY is set, words wholly written have fresh check bits. -/
def State.writeHome (s : State) (v : Word) (va : Nat) (bytes : List Byte) : State :=
  let p := va / 65536
  let t := s.snapWrite p v (va % 65536) bytes
  let b := t.base (homePage p)
  let d := t.dramAddr va
  (t.setBase (homePage p)
    { b with dram := b.dram.setBytes d bytes,
             badDram := b.badDram.filter fun w => ! (decide (d ≤ 8 * w) && decide (8 * w + 8 ≤ d + bytes.length)) }).setLeaf p
    { t.leaf p with dirty := true }

/-- The home invalidates lines in every quadrant that has them, but a write's own quadrant where its update stands in a held line (R222 step 3). -/
def State.invalidate (s : State) (q : BitVec 2) (held ls : List Nat) (who : AId) (seq : BitVec 40) : State :=
  ls.foldl (fun t l =>
    let h := homePage (l / 512)
    ((t.base h).presence.filter fun x => x.1 = l && ! (x.2 = q && held.contains l)).foldl
      (fun t x => t.post (baseStation h) (BitVec.allOnes 64) (.inval x.2 l who seq)) t) s

/-- The bytes that a request writes next: its own, or those of a copy command in the first line of what is left of it, with the rest (R230). -/
def splitLine (segs : List (Nat × List Byte)) : List (Nat × List Byte) × List (Nat × List Byte) :=
  match segs with
  | [] => ([], [])
  | (va, bs) :: rest =>
    let n := min bs.length ((va / 128 + 1) * 128 - va)
    if n < bs.length then ([(va, bs.take n)], (va + n, bs.drop n) :: rest)
    else
      let more := rest.takeWhile fun x => x.1 / 128 = va / 128 && (x.1 + x.2.length - 1) / 128 = va / 128
      ((va, bs) :: more, rest.drop more.length)

def MemReq.parts (r : MemReq) : List (Nat × List Byte) :=
  match r.op with
  | .write data => [(r.addr.toNat, data)]
  | .put segs _ _ _ => (splitLine segs).1
  | _ => []

/-- The lines that a request is performed on next. -/
def MemReq.nextLines (r : MemReq) : List Nat :=
  match r.op with
  | .put .. => ((r.parts.flatMap fun x => linesIn x.1 x.2.length)).eraseDups
  | _ => r.lines

/-- What an access to runs of bytes takes at once from byte k of them on: the rest of an aligned word of 8 bytes, as far as the run has it (R223). -/
def wordOf : Nat → List (Nat × List Byte) → Option (Nat × List Byte)
  | _, [] => none
  | k, (va, bs) :: l => if k < bs.length then some (va + k, (bs.drop k).take (8 - (va + k) % 8)) else wordOf (k - bs.length) l

/-- The bytes of runs. -/
def runBytes (l : List (Nat × List Byte)) : Nat := (l.map fun x => x.2.length).sum

/-- The word that a read takes next: its address and the bytes of it (R223). -/
def MemReq.nextWord (r : MemReq) : Nat × Nat :=
  let x := r.addr.toNat + r.pos
  (x, min (r.len - r.pos) (8 - x % 8))

/-- Whether a request is an sc write (R239): so marked, or an mamo. -/
def MemReq.isSc (r : MemReq) : Bool :=
  match r.op with
  | .amo .. => true
  | .write _ => r.sc
  | .put .. => r.sc
  | _ => false

/-- The next word of a request's part written at its home from its quadrant (R223): DRAM takes it and other copies are invalidated (R222). The request as it stands then, none after the last word. -/
def State.writeWord (s : State) (r : MemReq) : State × Option MemReq :=
  match wordOf r.pos r.parts with
  | none => (s, none)
  | some (va, bs) =>
    ((s.writeHome r.key.vrt va bs).invalidate (quadOf r.loc.core) r.held [va / 128] r.actor r.key.seq,
      if r.pos + bs.length < runBytes r.parts then some { r with pos := r.pos + bs.length } else none)

/-- The writer's crossing cache learns that the home has performed a write, where it holds the update, and its core where no reply tells it (R222, R225). -/
def State.acked (s : State) (r : MemReq) (free : Bool) : State :=
  if ! r.held.isEmpty || free then
    s.post (baseStation (homePage (r.addr.toNat / 65536))) (BitVec.allOnes 64) (.homeAck (quadOf r.loc.core) r.held r.actor r.key.seq free)
  else s

/-- A write that is not performed leaves no trace in its quadrant's crossing cache: the lines that hold its update are acknowledged and given up. The manual does not say what becomes of such a line: this is the model's choice (log 79). -/
def State.unwrite (s : State) (r : MemReq) : State :=
  let st := baseStation (homePage (r.addr.toNat / 65536))
  let q := quadOf r.loc.core
  if r.held.isEmpty then s
  else r.held.foldl (fun t l => t.post st (BitVec.allOnes 64) (.inval q l r.actor r.key.seq))
    (s.post st (BitVec.allOnes 64) (.homeAck q r.held r.actor r.key.seq false))

/-- The value of an atomic operation, and whether it writes (R229). -/
def amoValue (desc x cmp : Word) (old : Nat) : Option Nat :=
  let n := if desc.getLsbD 4 then 32 else 64
  let a := old
  let b := x.toNat % 2 ^ n
  let less (i j : Nat) : Bool := if desc.getLsbD 5 then decide (i < j) else decide ((IntTy.mk n true).read i < (IntTy.mk n true).read j)
  match desc.toNat % 16 with
  | 0 => some ((a + b) % 2 ^ n)
  | 1 => some (a &&& b)
  | 2 => some (a ||| b)
  | 3 => some (a ^^^ b)
  | 4 => some (if less b a then b else a)
  | 5 => some (if less a b then b else a)
  | 6 => some b
  | _ => if a = cmp.toNat % 2 ^ n then some b else none

/-! ## Notices to the pager (R327, R396) -/

/-- The fault notice of a page, once until it becomes valid. -/
def State.faultNotice (s : State) (p : Nat) (tenant : BitVec 4) (noFrame : Bool) : State :=
  let h := homePage p
  let b := s.base h
  let pg := s.mgmt.pager[tenant.toNat]
  if b.noticed.contains p || ! pg.1 then s
  else
    let who : AId := ⟨tenant, pg.2.2⟩
    let key : Key := ⟨satAdd b.vmile 1, BitVec.ofNat 24 (0xFC0000 + h), b.notices⟩
    let hdr : Header :=
      { key := key, dest := 15, cls := pg.2.1, len := 8, state := 0, join := false, ze := false, anti := false, close := false, label := false,
        deleg := false, colour := false, irrev := true, tenant := tenant, prio := 0, scope := 6, dmod := 0 }
    let m : Msg := ⟨hdr, leBytes (p * 2 ^ 24 + if noFrame then 1 else 0) 8, .notice, who⟩
    (s.setBase h { b with noticed := b.noticed ++ [p], notices := b.notices + 1 }).postMsg (baseStation h)
      (match s.locOf who with | some l => .ep l 15 | none => .home who) m

/-- The pages of a stack on which requests wait while no frame is free: their tenants' pagers are told (R255, R327). -/
def State.noFrame (s : State) (h : Nat) : State :=
  let b := s.base h
  if b.freeFrame.isSome then s
  else (b.parked.filter fun x => (s.leaf x.page).depot && ! (s.leaf x.page).valid).foldl (fun t x => t.faultNotice x.page (s.leaf x.page).tenant true) s

/-- A request put into the list of its page (R327). While the page is valid, the list is what is left to be performed in its order. -/
def State.park (s : State) (p : Nat) (r : MemReq) : State :=
  let h := homePage p
  let b := s.base h
  let t := s.setBase h { b with parked := b.parked ++ [⟨p, s.time, r⟩] }
  let l := s.leaf p
  if l.valid then t
  else if ! l.depot then t.faultNotice p r.actor.tenant false else t.noFrame h

/-! ## Performing a request whose page is translated -/

/-- The next word of a read at its point, answered from station `st` after the last one (R223, R234). -/
def State.readWord (s : State) (st : Nat) (r : MemReq) : State × Option MemReq :=
  let (x, n) := r.nextWord
  let q := quadOf r.loc.core
  match s.readError q x n with
  | some (c, va) => (s.answer st r c [] va, none)
  | none =>
    let (bytes, t) := s.readGlobal q x n
    if r.pos + n < r.len then (t, some { r with pos := r.pos + n, got := r.got ++ bytes }) else (t.answer st r 0 (r.got ++ bytes), none)

/-- What is left of a copy command's global writes after the line at their head, on its way, with the status so far; after the last line, its end. -/
def State.putRest (s : State) (r : MemReq) (segs : List (Nat × List Byte)) (status : BitVec 9) (flags : BitVec 7) (msg : Bool) : State :=
  let next (op : MemOp) (va : Word) : Packet := .mem { r with op := op, addr := va, crossed := false, held := [], pos := 0 }
  s.post (baseStation (homePage (r.addr.toNat / 65536))) r.key.vrt (match (splitLine segs).2 with
    | [] => next (.finish status flags msg) r.addr
    | x :: l => next (.put (x :: l) status flags msg) (BitVec.ofNat 64 x.1))

/-- A step of a request at its home, its page being valid (R223, R228, R229, R231): a word of it is performed; a copy command's writes are, line by line. The request as it stands then, none when it is done or has gone on. -/
def State.perform (s : State) (r : MemReq) : State × Option MemReq :=
  let va := r.addr.toNat
  let p := va / 65536
  let h := homePage p
  let st := baseStation h
  let refused : Bool := r.pos = 0 && ! s.mayWrite r.actor p
  match r.op with
  | .read => s.readWord st r
  | .write _ =>
    if refused then ((s.answer st r 0x109 []).unwrite r, none)
    else match s.writeWord r with
      | (t, none) => let t := t.acked r (! r.ack); (if r.ack then t.answer st r 0 [] else t, none)
      | x => x
  | .amo desc x cmp =>
    let n := if desc.getLsbD 4 then 4 else 8
    if refused then (s.answer st r 0x109 [], none)
    else
      match (wordsOf (s.dramAddr va) n).find? fun w => (s.base h).badDram.contains w with
      | some w => (s.answer st r 0x1C5 [] (BitVec.ofNat 64 (p * 65536 + w * 8 % 65536)), none)
      | none =>
        let old := leNat (s.homeBytes va n)
        let t := match amoValue desc x cmp old with
          | some v => s.writeHome r.key.vrt va (leBytes v n)
          | none => s
        (t.answer st r 0 (leBytes old 8), none)
  | .put segs status flags msg =>
    if refused then ((s.unwrite r).putRest r segs (if status = 0 then 0x127 else status) flags msg, none)
    else match s.writeWord r with
      | (t, none) => ((t.acked r false).putRest r segs status flags msg, none)
      | x => x
  | .fetch => (s, none)
  | .finish .. => (s, none)
  | .capgive .. => (s, none)
  | .capchk .. => (s, none)

/-- Whether the page-table leaf or the capability entry of a page is in error (R354). -/
def State.badLeaf (s : State) (p : Nat) : Bool := (s.base (homePage p)).badLeaves.contains p

/-- A trap of the activation that issued a copy command that writes local zones (R230); the command is dropped and its slot is free with the trap sequence. -/
def State.failCopy (s : State) (c : CopyCmd) (cause : BitVec 9) (detail : Word) : State :=
  let t := s.setCore c.loc.core { s.core c.loc.core with cq := (s.core c.loc.core).cq.filter fun x => ! (x.key = c.key && x.actor = c.actor) }
  let t := t.freeE15 c.actor c.key.seq
  t.at c.loc.core c.ctx fun u =>
    if u.ctx.slot = c.loc.slot ∧ u.locOf c.actor = some c.loc then
      match u.ctx.phase with
      | .running => (trapWith none none cause detail u).wakeHere
      | .releasing _ => (trapWith none none cause detail u).wakeHere
      | _ => u.wakeHere
    else u

/-- A request answered with a failure: a reply, the end of a copy command's writes, or the trap of one that reads. A write that its quadrant shows already is taken back. For a copy command whose page stays parked, or meets a machine cause, the manual does not say what becomes of the lines that are left: that they are not written is the model's choice (log 101). -/
def State.fail (s : State) (r : MemReq) (cause copyCause : BitVec 9) : State :=
  let st := baseStation (homePage (r.addr.toNat / 65536))
  let s := s.unwrite r
  match r.op with
  | .put _ _ flags msg => s.post st r.key.vrt (.mem { r with op := .finish copyCause flags msg, crossed := false, held := [], pos := 0 })
  | .fetch =>
    match (s.copies r.actor).find? fun c => c.key = r.key with
    | some c => s.failCopy c copyCause r.addr
    | none => s
  | _ => s.answer st r cause []

/-- Whether a crossing cache may hold one of some lines. -/
def State.copied (s : State) (ls : List Nat) : Bool := ls.any fun l => (s.base (homePage (l / 512))).presence.any fun x => x.1 = l

/-- A step of a request whose page is valid: an sc write first invalidates every copy of its lines (R229, R239); every other is performed, a word at a time. -/
def State.serve (s : State) (r : MemReq) : State × Option MemReq :=
  if r.isSc ∧ s.copied r.nextLines then
    (s.invalidate (quadOf r.loc.core) [] r.nextLines r.actor r.key.seq, some { r with crossed := true })
  else
    let p := s.perform { r with crossed := r.crossed || r.isSc }
    (p.1.at r.loc.core s.cx State.wakeHere, p.2)

/-- What waited for a walk put into the list of its page, or failed where the walk meets an error (R326, R354). -/
def State.resolve (s : State) (p : Nat) (r : MemReq) : State := if s.badLeaf p then s.fail r 0x1CE 0x1CE else s.park p r

/-- A page that has become valid: the requests of its list are performed in its order (R327), but for those whose deadline came in an earlier cycle (R328). -/
def State.unpark (s : State) (p : Nat) : State :=
  let h := homePage p
  let b := s.base h
  let late (x : Parked) : Bool := x.page = p && decide (x.since + (s.mgmt.parkdl[x.req.actor.tenant.toNat]).toNat * 1024 + 1 < s.time)
  (b.parked.filter late).foldl (fun t x => t.fail x.req 0x10A 0x128)
    (s.setBase h { b with parked := b.parked.filter (fun x => ! late x), noticed := b.noticed.filter (· ≠ p) })

/-! ## MEMORY_PEER_REQUEST (R222) -/

/-- Whether an sc write that waits at the home for its invalidations holds reads of a line (R239). -/
def State.scWaits (s : State) (ls : List Nat) : Bool := s.underWay.any fun r => r.isSc && r.crossed && r.nextLines.any ls.contains

/-- Whether an invalidation of one of an actor's writes to some lines is on its way. -/
def State.invalFor (s : State) (who : AId) (seq : BitVec 40) : Bool :=
  s.flight.any fun f => match f.pkt with
    | .inval _ _ w k => w = who && k = seq
    | _ => false

/-- Whether a logic base has stopped taking requests: its walk queue is full (R326). -/
def Base.jammed (b : Base) : Bool := decide (256 ≤ b.walkQueue.length)

/-- A request that is not served at once at its home (R326, R327): it joins the list of its page, or a miss joins the walk of its page, starts one, or waits in the walk queue, where every such request has an entry of its own. -/
def State.translate (s : State) (p : Nat) (r : MemReq) : State :=
  let h := homePage p
  let b := s.base h
  if (b.parked.any fun x => x.page = p) || b.tcache.contains p then s.resolve p r
  else
    let w := b.walkWait ++ [(p, r)]
    if b.walks.contains p then s.setBase h { b with walkWait := w }
    else if b.walks.length < 64 ∧ b.walkQueue.isEmpty then s.setBase h { b with walkWait := w, walks := b.walks ++ [p] }
    else s.setBase h { b with walkWait := w, walkQueue := b.walkQueue ++ [p] }

/-- A stack that does not run: in minimal mode only stacks 0 and 1 do (R384). -/
def State.stackDown (s : State) (h : Nat) : Bool := s.mgmt.minimal && decide (2 ≤ h)

/-- Whether a request is a write that its quadrant's crossing cache has taken and whose lines another one of that quadrant shares: the home takes them in the same order (R238). An sc write has no place in it. -/
def MemReq.after (x r : MemReq) : Bool :=
  x.crossed && ! x.isSc && quadOf x.loc.core = quadOf r.loc.core && x.nextLines.any r.nextLines.contains

/-- The requests that walk or stand in the lists of pages. -/
def State.standing (s : State) : List MemReq := s.bases.flatMap fun b => (b.2.walkWait.map fun p => p.2) ++ b.2.parked.map fun p => p.req

/-- Whether no write that its quadrant's crossing cache took before the one at a place of `flight` is on its way to a line of it. -/
def State.inOrder (s : State) (n : Nat) (r : MemReq) : Bool :=
  ((s.flight.take n).all fun f => match f.pkt with
    | .mem x => ! x.after r
    | _ => true) && s.standing.all fun x => ! x.after r

/-- A line with a word of a write in it; `first` counts the write among those that its home has not acknowledged. -/
def Line.updated (x : Line) (va : Nat) (bs : List Byte) (first : Bool) : Line :=
  { x with data := x.data.take (va % 128) ++ bs ++ x.data.drop (va % 128 + bs.length), unacked := x.unacked + if first then 1 else 0 }

/-- Whether a request that has not been at its home passes the crossing cache of its quadrant first (R222): a write to a line homed in another quadrant, on no strong page, but no sc write. -/
def State.crosses (s : State) (r : MemReq) : Bool :=
  let p := r.addr.toNat / 65536
  quadStack (homePage p) ≠ (quadOf r.loc.core).toNat && ! (s.leaf p).strong && ! r.isSc && ! r.crossed

/-- Whether a write is half done at the place where a request is to begin, crossing cache or home, on a line that both share: the place takes writes one after the other. -/
def State.busy (s : State) (r : MemReq) : Bool :=
  s.underWay.any fun x => x.op.isWrite && decide (0 < x.pos) && s.crosses x = s.crosses r &&
    (! s.crosses r || quadOf x.loc.core = quadOf r.loc.core) && x.nextLines.any r.nextLines.contains

/-- A request at a place of `flight` that stays there as it has become, or is taken by a station when it is done. -/
def State.stepAt (s : State) (n st : Nat) (f : State → State × Option MemReq) : State :=
  match f s with
  | (t, some r) => { t with flight := t.flight.modify n fun x => { x with pkt := .mem r } }
  | (_, none) => (f (s.take n st)).1

/-- A word of a write at a place of `flight` that passes the crossing cache of its quadrant: a line held there takes it. After the last one it goes on to its home (R222 steps 1 and 2). -/
def State.cross (s : State) (n : Nat) (r : MemReq) : State :=
  let c := crossBase (quadOf r.loc.core) (homePage (r.addr.toNat / 65536))
  let (va, bs) := (wordOf r.pos r.parts).getD (r.addr.toNat, [])
  let b := s.base c
  let first := (b.cache.any fun x => x.line = va / 128) && ! r.held.contains (va / 128)
  let t := s.setBase c { b with cache := b.cache.map fun x => if x.line = va / 128 then x.updated va bs first else x }
  let r := if first then { r with held := r.held ++ [va / 128] } else r
  if r.pos + bs.length < runBytes r.parts then t.stepAt n (baseStation c) fun u => (u, some { r with pos := r.pos + bs.length })
  else (t.take n (baseStation c)).post (baseStation c) r.key.vrt (.mem { r with crossed := true, pos := 0 })

/-- Whether the home can do a step of a request now: a read waits for an sc write to its line (R239), an sc write for its invalidations; a write waits while another one of its lines is half done, and sets DIRTY, or takes a marked page's snapshot, when no walk of the page is in progress (R325). -/
def State.mayServe (s : State) (r : MemReq) : Bool :=
  let p := r.addr.toNat / 65536
  match r.op with
  | .read => ! s.scWaits [r.nextWord.1 / 128]
  | .fetch => true
  | _ => ! (r.isSc && s.invalFor r.actor r.key.seq) && (r.pos ≠ 0 || ! s.busy r) &&
    ! ((s.base (homePage p)).walks.contains p && (! (s.leaf p).dirty || (s.leaf p).cow))

/-- Whether a write that has passed its crossing cache goes before what stands in the list of its page: an sc write to the page waits for its invalidations, and a line that shows an update which its home has not performed ignores them (R222, R239). -/
def State.urgent (s : State) (r : MemReq) : Bool :=
  r.crossed && ! r.isSc && s.underWay.any fun x => x.isSc && x.crossed && x.addr.toNat / 65536 = r.addr.toNat / 65536 && s.invalFor x.actor x.key.seq

/-- A step of a request of `flight` at its home: served when it is past translation or a hit that nothing of its page stands before; else it is translated or joins the list. -/
def State.atHome (s : State) (n : Nat) (r : MemReq) : Out :=
  let no := notEnabled "MEMORY_PEER_REQUEST"
  let p := r.addr.toNat / 65536
  let h := homePage p
  let b := s.base h
  let past := r.pos ≠ 0 || (r.isSc && r.crossed)
  let hit := if b.parked.any fun x => x.page = p then s.urgent r else b.tcache.contains p && ! b.jammed
  if (s.leaf p).valid && (past || hit) then
    if s.badLeaf p then .next ((s.take n (baseStation h)).fail r 0x1CE 0x1CE)
    else if s.mayServe r then .next (s.stepAt n (baseStation h) fun t => t.serve r) else no
  else if b.jammed then no
  else .next ((s.take n (baseStation h)).translate p r)

/-- What stands in the lists of pages, by its logic base and its place. -/
def State.listed (s : State) : List (Nat × Nat × Parked) := s.bases.flatMap fun b => b.2.parked.zipIdx.map fun x => (b.1, x.2, x.1)

/-- A step of a request that stands in the list of its page (R327): of the first one, or of one that an sc write at the head waits for. -/
def State.fromList (s : State) (h i : Nat) (x : Parked) : Out :=
  let no := notEnabled "MEMORY_PEER_REQUEST"
  let before := ((s.base h).parked.take i).filter fun y => y.page = x.page
  let turn := before.isEmpty || (s.urgent x.req && before.all fun y => ! y.req.after x.req)
  let gone (t : State) : State := t.setBase h { t.base h with parked := (t.base h).parked.eraseIdx i }
  if s.stackDown h ∨ ! (s.leaf x.page).valid ∨ ! turn then no
  else if s.badLeaf x.page then .next ((gone s).fail x.req 0x1CE 0x1CE)
  else if ! s.mayServe x.req then no
  else match s.serve x.req with
    | (t, some r) => .next (t.setBase h { t.base h with parked := (t.base h).parked.set i { x with req := r } })
    | (_, none) => .next ((gone s).serve x.req).1

/-- Whether an earlier capgive of an actor for a page has yet to reach the home: its later write to the page comes after it (R224, R332). -/
def State.givesBefore (s : State) (r : MemReq) : Bool :=
  (s.requests r.actor).any fun x => seqBefore x.key.seq r.key.seq && x.addr.toNat / 65536 = r.addr.toNat / 65536 &&
    (match x.op with | .capgive .. => true | _ => false)

/-- MEMORY_PEER_REQUEST (R222, R223): a step of a request at a point that serves it, the crossing cache of its quadrant or its home, where a word of it is performed. A number past those of `flight` names a request that stands in the list of its page. -/
def execMemoryPeerRequest (n : Nat) (s : State) : Out :=
  let no := notEnabled "MEMORY_PEER_REQUEST"
  match s.packet n with
  | none =>
    match s.listed[n - s.flight.length]? with
    | some (h, i, x) => s.fromList h i x
    | none => no
  | some (.mem r) =>
    let p := r.addr.toNat / 65536
    let h := homePage p
    let q := quadOf r.loc.core
    let cross := crossBase q h
    let write : Out :=
      if r.pos = 0 && ! r.crossed && (s.sameLine r.actor r.key.seq r.nextLines false || s.strongWait r || s.givesBefore r) then no
      else if s.crosses r then
        if r.pos = 0 && ((s.base cross).jammed || s.busy r) then no else .next (s.cross n r)
      else if r.pos = 0 && r.crossed && ! r.isSc && ! s.inOrder n r then no
      else s.atHome n r
    if s.stackDown h then no
    else match r.op with
    | .capgive _ _ => no
    | .capchk d x =>
      let l := s.leaf p
      let c := s.cap p
      let v : Word := BitVec.ofNat 64 ((if l.valid || l.depot then 2 ^ 63 else 0) + (if c.held then 2 ^ 62 else 0)
        + (if c.holder = r.actor.id ∧ l.tenant = r.actor.tenant then 2 ^ 61 else 0) + c.holder.toNat * 2 ^ 24 + c.gen.toNat)
      if (s.base h).jammed then no
      else .next ((s.take n (baseStation h)).post (baseStation h) (BitVec.allOnes 64) (.capAnswer r.loc x r.key d v (if s.badLeaf p then 0x1CE else 0)))
    | .finish status flags msg =>
      if s.invalFor r.actor r.key.seq then no
      else
        let t := s.take n (baseStation h)
        let t := if msg then t.answer (baseStation h) r status (leBytes flags.toNat 8) else t.freeE15 r.actor r.key.seq
        .next (t.at r.loc.core t.cx State.wakeHere)
    | .fetch => s.atHome n r
    | .read =>
      if r.pos = 0 && (s.sameLine r.actor r.key.seq r.lines true || s.strongWait r) then no
      else if (s.heldLine q (r.nextWord.1 / 128)).isSome then
        if r.pos = 0 && (s.base cross).jammed then no
        else .next (s.stepAt n (baseStation cross) fun t =>
          let x := t.readWord (baseStation cross) r
          (if x.2.isNone then x.1.at r.loc.core t.cx State.wakeHere else x.1, x.2))
      else s.atHome n r
    | .write _ => write
    | .amo .. => write
    | .put .. => write
  | _ => no

/-- PAGE_WALK (R323, R326): a walk ends, its entry is cached if it finds one that is valid, and the misses that joined it are served in order; the oldest of the walk queue starts its walk, and those behind it for the same page join it. -/
def execPageWalk (b : BitVec 3) (n : Nat) (s : State) : Out :=
  let x := s.base b.toNat
  match x.walks[n]? with
  | none => notEnabled "PAGE_WALK"
  | some p =>
    let mine := x.walkWait.filter fun w => w.1 = p
    let more := x.walkQueue.take 1
    let cached := if (s.walkLeaf p).valid ∧ ! s.badLeaf p then ((if x.tcache.length < 2048 then x.tcache else x.tcache.drop 1) ++ [p]) else x.tcache
    let t := s.setBase b.toNat { x with walks := x.walks.eraseIdx n ++ more, walkQueue := x.walkQueue.filter (fun y => ! more.contains y),
                                        walkWait := x.walkWait.filter (fun w => w.1 ≠ p), tcache := cached }
    .next (mine.foldl (fun t w => t.resolve p w.2) t)

/-- INVALIDATION (R222): a line leaves a crossing cache; one with an update not yet acknowledged waits for it. -/
def execInvalidation (n : Nat) (s : State) : Out :=
  match s.packet n with
  | some (.inval q l _ _) =>
    let h := homePage (l / 512)
    let c := crossBase q h
    match s.heldLine q l with
    | some x =>
      if x.unacked ≠ 0 then notEnabled "INVALIDATION"
      else
        let t := s.take n (baseStation c)
        let t := t.setBase c { t.base c with cache := (t.base c).cache.filter (fun y => y.line ≠ l), badLines := (t.base c).badLines.filter (· ≠ l) }
        .next (t.setBase h { t.base h with presence := (t.base h).presence.filter fun y => y ≠ (l, q) })
    | none =>
      let t := s.take n (baseStation c)
      .next (t.setBase h { t.base h with presence := (t.base h).presence.filter fun y => y ≠ (l, q) })
  | _ => notEnabled "INVALIDATION"

/-- HOME_ACKNOWLEDGEMENT (R222, R225): a held line's update is performed; a request without a reply frees its e15 slot. -/
def execHomeAcknowledgement (n : Nat) (s : State) : Out :=
  match s.packet n with
  | some (.homeAck q ls who seq free) =>
    let t := s.take n (baseStation (2 * q.toNat))
    let t := ls.foldl (fun t l =>
      let c := crossBase q (homePage (l / 512))
      t.setBase c { t.base c with cache := (t.base c).cache.map fun x => if x.line = l then { x with unacked := x.unacked - 1 } else x }) t
    .next (if free then t.freeE15 who seq else t)
  | _ => notEnabled "HOME_ACKNOWLEDGEMENT"

/-- PARK_DEADLINE (R328): parked request n / 8 of stack n mod 8 has waited too long. -/
def execParkDeadline (n : Nat) (s : State) : Out :=
  let h := n % 8
  let b := s.base h
  match b.parked[n / 8]? with
  | none => notEnabled "PARK_DEADLINE"
  | some x =>
    if (s.leaf x.page).valid ∨ s.time ≤ x.since + (s.mgmt.parkdl[x.req.actor.tenant.toNat]).toNat * 1024 then notEnabled "PARK_DEADLINE"
    else .next ((s.setBase h { b with parked := b.parked.eraseIdx (n / 8) }).fail x.req 0x10A 0x128)

/-- The report of a capgive. -/
def State.capReport (s : State) (st : Nat) (r : MemReq) (status : BitVec 9) (gen : BitVec 16) : State :=
  s.answer st r status (leBytes (gen.toNat * 2 ^ 16 + status.toNat) 8)

/-- CAPABILITY_HAND_OVER (R332): the home changes the holder, after the giver's earlier writes to the page, and sends the notice to the home base of the new one, which passes it on and reports. Where that base knows no such actor, the notice comes back, and the entry is as it was unless it has changed since (log 80). -/
def execCapabilityHandOver (n : Nat) (s : State) : Out :=
  let no := notEnabled "CAPABILITY_HAND_OVER"
  match s.packet n with
  | some (.mem r) =>
    match r.op with
    | .capgive giver arg =>
      let p := r.addr.toNat / 65536
      let h := homePage p
      let st := baseStation h
      let writes := ((s.requests r.actor).any fun x => seqBefore x.key.seq r.key.seq && x.op.isWrite && (x.lines.any fun l => l / 512 = p)) ||
        (s.copies r.actor).any fun c => seqBefore c.key.seq r.key.seq && ! c.isRead && (rangeLines c.ranges).any fun l => l / 512 = p
      if writes ∨ (s.base h).jammed then no
      else
        let t := s.take n st
        let l := s.leaf p
        let c := s.cap p
        let pg := s.mgmt.pager[r.actor.tenant.toNat]
        if s.badLeaf p then .next (t.answer st r 0x1CE [])
        else if ! l.valid ∧ ! l.depot then .next (t.capReport st r 0x1BC c.gen)
        else if ! (c.held ∧ c.holder = giver) ∧ ! (pg.1 ∧ pg.2.2 = giver) then .next (t.capReport st r 0x1BD c.gen)
        else
          let who : AId := ⟨r.actor.tenant, arg.setWidth 24⟩
          let g := c.gen + 1
          let hdr : Header :=
            { key := ⟨satAdd r.key.vrt 1, giver, r.key.seq⟩, dest := 15, cls := arg.extractLsb' 24 6, len := 8, state := 0, join := false,
              ze := false, anti := false, close := false, label := false, deleg := false, colour := false, irrev := true,
              tenant := r.actor.tenant, prio := 0, scope := 6, dmod := 0 }
          let m : Msg := ⟨hdr, leBytes (p * 2 ^ 24 + g.toNat) 8, .notice, who⟩
          .next ((t.setCap p ⟨true, who.id, g⟩).post st r.key.vrt (.capNotice m r c))
    | _ => no
  | some (.capNotice m r old) =>
    let st := baseStation (homeOf m.rcpt)
    let t := s.take n st
    match s.locOf m.rcpt, s.savedOf m.rcpt with
    | some q, _ => .next ((t.postMsg st (.ep q 15) m).capReport st r 0 (old.gen + 1))
    | none, some _ => .next ((t.postMsg st (.home m.rcpt) m).capReport st r 0 (old.gen + 1))
    | none, none => .next (t.post st r.key.vrt (.capBack r old))
  | some (.capBack r old) =>
    let p := r.addr.toNat / 65536
    let st := baseStation (homePage p)
    let t := s.take n st
    match r.op with
    | .capgive _ arg =>
      .next ((if s.cap p = ⟨true, arg.setWidth 24, old.gen + 1⟩ then t.setCap p old else t).capReport st r 0x1BF old.gen)
    | _ => no
  | _ => no

/-- CAPCHK_ANSWER (R333): g[d] of the context that waits takes the answer, or its capchk traps with the machine cause that the home met (R354). An activation that has ended meanwhile takes nothing. -/
def execCapchkAnswer (n : Nat) (s : State) : Out :=
  match s.packet n with
  | some (.capAnswer l x key d v cause) =>
    if s.halted l.core then notEnabled "CAPCHK_ANSWER"
    else
      .next ((s.take n l.core.toNat).at l.core x fun t =>
        if t.ctx.phase = .running ∧ t.ctx.slot = l.slot ∧ t.ctx.key = key ∧ t.ctx.wait = .memory then
          if cause ≠ 0 then trapWith none none cause 0 (t.setCtx { t.ctx with pc := t.ctx.pc - 4 })
          else
            let u := t.setG d v
            u.setCtx { u.ctx with wait := .none }
        else t)
  | _ => notEnabled "CAPCHK_ANSWER"

/-! ## The copy engine (R230 to R233) -/

/-- Context segments decoded (R101 to R103): the bytes of one segment at a place, by the bytes that stand in its extent. -/
def segBlocks (bitmap : Nat) : List Nat := (List.range 32).filter fun i => bitmap.testBit i

def nth (l : List Byte) (i : Nat) : Nat := (l.getD i 0).toNat

/-- Code 0 and 1: 4,096 bytes of bf16, with flags. -/
def decodeSeg (kc4 : Bool) (seg : List Byte) : List Byte × Flags :=
  let bm := leNat (seg.take 4)
  let present := segBlocks bm
  let n := present.length
  let scales := if kc4 then 4 * n else (2 * n + 3) / 4 * 4
  let block (i : Nat) : List Rounded :=
    match present.idxOf? i with
    | none => (List.range 64).map fun _ => (0, 0)
    | some j => (List.range 64).map fun v =>
      if kc4 then
        let b := nth seg (4 + scales + 32 * j + v / 2)
        kc4Decode bf16 (nth seg (4 + 4 * j + v / 16)) (if v % 2 = 0 then b % 16 else b / 16)
      else kc8Decode bf16 (nth seg (4 + 2 * j + v / 32)) (nth seg (4 + scales + 64 * j + v))
  let vs := (List.range 32).flatMap block
  (vs.flatMap fun x => leBytes x.1 2, vs.foldl (fun f x => f ||| x.2) 0)

/-- Code 4: e4m3 values and e8m0 scales as they stand, absent blocks 0x00 with scales 0x7F. -/
def splitSeg (seg : List Byte) : List Byte :=
  let present := segBlocks (leNat (seg.take 4))
  let n := present.length
  let sc := (2 * n + 3) / 4 * 4
  ((List.range 32).flatMap fun i => match present.idxOf? i with
    | none => List.replicate 64 (0 : Byte)
    | some j => (List.range 64).map fun v => seg.getD (4 + sc + 64 * j + v) 0) ++
  (List.range 32).flatMap fun i => match present.idxOf? i with
    | none => [(0x7F : Byte), 0x7F]
    | some j => [seg.getD (4 + 2 * j) 0, seg.getD (5 + 2 * j) 0]

/-- Code 2 and 3: a segment of 4,096 bytes of bf16, elided and quantised. -/
def encodeSeg (kc4 : Bool) (src : List Byte) : List Byte × Flags :=
  let blockBytes (i : Nat) : List Byte := (src.drop (128 * i)).take 128
  let present := (List.range 32).filter fun i => (blockBytes i).any (· ≠ 0)
  let vals (i : Nat) : List FVal := (List.range 64).map fun v => decodeF bf16 (leNat (((blockBytes i).drop (2 * v)).take 2))
  let sub := if kc4 then 16 else 32
  let scaleOf (l : List FVal) : Nat := if kc4 then kc4Scale l else kc8Scale l
  let scalesOf (i : Nat) : List Nat := (List.range (64 / sub)).map fun w => scaleOf (((vals i).drop (sub * w)).take sub)
  let quant (i : Nat) : List Rounded :=
    ((vals i).zip (List.range 64)).map fun x =>
      let s := (scalesOf i).getD (x.2 / sub) 0
      if kc4 then kc4Quant s x.1 else quantPow e4m3 ((s : Int) - 127) x.1
  let scales := present.flatMap scalesOf
  let pad := if kc4 then 0 else (scales.length + 3) / 4 * 4 - scales.length
  let qs := present.map quant
  let bytes := qs.flatMap fun l =>
    if kc4 then (List.range 32).map fun j => BitVec.ofNat 8 ((l.getD (2 * j) (0, 0)).1 + 16 * (l.getD (2 * j + 1) (0, 0)).1)
    else l.map fun x => BitVec.ofNat 8 x.1
  (leBytes (present.foldl (fun m i => m + 2 ^ i) 0) 4 ++ scales.map (BitVec.ofNat 8) ++ List.replicate pad 0 ++ bytes,
    qs.foldl (fun f l => l.foldl (fun f x => f ||| x.2) f) 0)

/-- The bytes that a segment really reads, by its bitmap (R232). -/
def segLen (kc4 : Bool) (bm : Nat) : Nat :=
  let n := (segBlocks bm).length
  if kc4 then 4 + 4 * n + 32 * n else 4 + (2 * n + 3) / 4 * 4 + 64 * n

/-- The local bytes that a command reads, by a reader of n bytes at an address, turned into its global writes, with flags. -/
def copyWrites (c : CopyCmd) (rd : Nat → Nat → List Byte) : List (Nat × List Byte) × Flags :=
  let va := c.gaddr.toNat
  let la := c.laddr.toNat
  match c.op with
  | .fill => ([(va, (List.range (c.len / 8)).flatMap fun _ => leBytes c.extra.toNat 8)], 0)
  | .scat =>
    let es := (c.extra.setWidth 13).toNat
    ((List.range (c.len / es)).map fun (k : Nat) => (((va : Int) + (k : Int) * (c.extra.extractLsb' 32 32).toInt).toNat, rd (la + k * es) es), 0)
  | .cvt =>
    let kc4 : Bool := c.extra.setWidth 3 = (3 : BitVec 3)
    let segs := (List.range (c.len / 4096)).map fun u => (va + u * (c.extra.extractLsb' 32 16).toNat, encodeSeg kc4 (rd (la + 4096 * u) 4096))
    (segs.map fun x => (x.1, x.2.1), segs.foldl (fun f x => f ||| x.2.2) 0)
  | _ => ([(va, rd la c.len)], 0)

/-- The request of a write-type command that has read its source; `detail` is the local address that failed (R353). -/
def copyRequest (c : CopyCmd) (w : List (Nat × List Byte) × Flags) (status : BitVec 9) (detail : Option Word) : MemReq :=
  { actor := c.actor, loc := c.loc, key := c.key, op := if status = 0 then .put w.1 0 w.2 c.msg else .finish status w.2 c.msg,
    addr := BitVec.ofNat 64 ((w.1.head?.map fun x => x.1).getD c.gaddr.toNat), len := 0, cls := c.cls, ack := true, sc := c.sc, crossed := false,
    detail := detail }

/-- Ranges without their first bytes. -/
def dropRanges : Nat → List (Nat × Nat) → List (Nat × Nat)
  | _, [] => []
  | k, (va, n) :: l => if n ≤ k then dropRanges (k - n) l else (va + k, n - k) :: l

/-- Whether a cpcvt's code reads KC4 segments (R232). -/
def CopyCmd.kc4 (c : CopyCmd) : Bool := c.extra.setWidth 3 = (1 : BitVec 3)

/-- The word that a read-type command reads next (R223): its address, and the bytes of it; none once it has read all. Of a segment of a cpcvt, whose length stands in its first bytes, the first word is read whole. -/
def CopyCmd.next (c : CopyCmd) : Option (Nat × Nat) :=
  match c.op with
  | .cvt => (c.ranges[c.pos]?).map fun x => (x.1 + c.got.length, if c.got.isEmpty then 8 else min 8 (segLen c.kc4 (leNat (c.got.take 4)) - c.got.length))
  | _ => ((dropRanges c.pos c.ranges).head?).map fun x => (x.1, min x.2 8)

/-- A word that a read-type command has read turned into its local bytes, with their address, and the command after it. A cpcvt decodes a segment when it has all of it. -/
def CopyCmd.taken (c : CopyCmd) (bytes : List Byte) : Nat × List Byte × CopyCmd :=
  match c.op with
  | .cvt =>
    let code := (c.extra.setWidth 3).toNat
    let need := segLen c.kc4 (leNat ((c.got ++ bytes).take 4))
    let got := (c.got ++ bytes).take need
    let base := c.laddr.toNat + c.pos * (if code = 4 then 2112 else 4096)
    if got.length < need then (base, [], { c with got := got })
    else
      let out := if code = 4 then (splitSeg got, 0) else decodeSeg c.kc4 got
      (base, out.1, { c with pos := c.pos + 1, flags := c.flags ||| out.2, got := [] })
  | _ => (c.laddr.toNat + c.pos, bytes, { c with pos := c.pos + bytes.length })

/-- Whether a read-type command is in execution: it has read something (R357). -/
def CopyCmd.begun (c : CopyCmd) : Bool := decide (0 < c.pos) || ! c.got.isEmpty

/-- Bytes written by an engine with the full bits of their words set (R208). -/
def Core.engineWrite (k : Core) (addr : Nat) (bytes : List Byte) : Core := (k.writePad addr bytes).fillWords true (wordsOf addr bytes.length)

/-- Whether a quadrant's engine can read a line now: it is held there, or the page's home has a translation of it and nothing of the page stands before (R327). -/
def State.translated (s : State) (q : BitVec 2) (l : Nat) : Bool :=
  let p := l / 512
  let b := s.base (homePage p)
  (s.heldLine q l).isSome || (b.tcache.contains p && (s.leaf p).valid && ! s.badLeaf p && b.parked.all fun x => x.page ≠ p)

/-- The logic base that supplies a line to a quadrant (R234). -/
def State.pointOf (s : State) (q : BitVec 2) (l : Nat) : Nat :=
  let h := homePage (l / 512)
  if (s.heldLine q l).isSome then crossBase q h else h

/-- Whether the copy engine of a core is at the global writes of a command: it executes one command at a time (R230). -/
def State.putting (s : State) (c : CoreId) : Bool :=
  s.flight.any (fun f => match f.pkt with
    | .hostRead _ r => r.loc.core = c && (match r.op with | .put .. => true | _ => false)
    | _ => false) ||
  s.underWay.any fun r => r.loc.core = c && (match r.op with | .put .. => true | _ => false)

/-- The command at the head of a core's queue replaced, or gone. -/
def State.setCopy (s : State) (c : CoreId) (cmd : Option CopyCmd) : State :=
  s.setCore c { s.core c with cq := cmd.toList ++ (s.core c).cq.drop 1 }

/-- Bytes written over those of a saved line, from an address on. -/
def patchLine (n : Nat) (data : List Byte) (addr : Nat) (bytes : List Byte) : List Byte :=
  data.zipIdx.map fun x => let y := 64 * n + x.2; if addr ≤ y then (bytes[y - addr]?).getD x.1 else x.1

/-- A record of a kept line that was saved after a local write's activation, with the write in it: what undoes a later activation does not undo the write (R207). -/
def LogRec.patched (addr : Nat) (bytes : List Byte) : LogRec → LogRec
  | .line n full data bad =>
    .line n (full.zipIdx.map fun x => x.1 || (wordsOf addr bytes.length).contains (8 * n.toNat + x.2)) (patchLine n.toNat data addr bytes)
      (bad.filter fun w => ! (decide (addr ≤ 8 * w) && decide (8 * w + 8 ≤ addr + bytes.length)))
  | r => r

/-- A log split behind the records of the activations that are later than a request's: those whose marker has a sequence above it (R207, R368). -/
def laterRecords (seq : BitVec 40) (l : List Placed) : List Placed × List Placed :=
  match l.findIdx? fun p => match p.entry with
    | .marker _ _ _ q => ! seqBefore seq q
    | _ => false with
  | some i =>
    let n := (l.take i).zipIdx.foldl (fun m x => if x.1.entry.isMarker then x.2 + 1 else m) 0
    (l.take n, l.drop n)
  | none => (l, [])

/-- A record of a line as a part of a log found it, or as the core has it where the part holds none. -/
def Core.lineRecord (k : Core) (later : List Placed) (line : Nat) : LogRec :=
  ((later.reverse.map fun p => p.entry).find? fun r => match r with
    | .line n _ _ _ => n.toNat = line
    | _ => false).getD (.line (BitVec.ofNat 12 line) (k.lineFull line) (k.pad.bytes (64 * line) 64) (k.badPad.filter fun w => w / 8 = line))

/-- Records of lines written behind the first n records of a log; none without room. -/
def State.logBehind (s : State) (k : BitVec 4) (n : Nat) : List LogRec → Option State
  | [] => some s
  | r :: l =>
    match s.log k r with
    | none => none
    | some t =>
      let a := t.actorAt k
      let m := a.log.length - (s.actorAt k).log.length
      (t.setActorAt k { a with log := (a.log.drop m).take n ++ a.log.take m ++ a.log.drop (m + n) }).logBehind k n l

/-- The kept lines that a copy command writes saved in the part of the log that its own activation has (R206, R207): a timed activation's command may have waited at the core until later ones began (R235), and what those have saved takes the write in. A committed activation needs no record. -/
def State.saveCopy (s : State) (k : BitVec 4) (seq : BitVec 40) (addr : Nat) (bytes : List Byte) : Option State :=
  let a := s.actorAt k
  let ls := linesOf addr bytes.length
  if a.disc ≠ .timed then s.saveLines k ls
  else
    let (later, own) := laterRecords seq a.log
    if later.isEmpty ∧ ! own.isEmpty then s.saveLines k ls
    else
      let kept (l : Nat) : Bool := match a.zoneOf l with
        | some z => z.kind = .kept
        | none => false
      let need := ls.filter fun l => kept l && ! own.isEmpty && ! savedSince (fun r => match r with | .line n _ _ _ => n.toNat = l | _ => false) own
      (s.setActorAt k { a with log := later.map (fun p => { p with entry := p.entry.patched addr bytes }) ++ own }).logBehind k later.length
        (need.map (s.hereCore.lineRecord later))

/-- A read-type command's bytes land, kept lines saved first; when it has read all, its reply is sent or its slot is free (R233). -/
def State.copyLands (s : State) (c : BitVec 12) (cmd : CopyCmd) (bytes : List Byte) : Out :=
  s.atOut c cmd.ctx fun u =>
    let x := cmd.taken bytes
    match u.saveCopy cmd.loc.slot cmd.key.seq x.1 x.2.1 with
    | none => .next (u.failCopy cmd 0x142 u.ctx.vnow)
    | some u =>
      let u := u.setHere (u.hereCore.engineWrite x.1 x.2.1)
      if x.2.2.next.isSome then .next (u.setCopy c (some x.2.2)).wakeHere
      else
        let u := u.setCopy c none
        let r : MemReq := { actor := cmd.actor, loc := cmd.loc, key := cmd.key, op := .read, addr := cmd.gaddr, len := 0, cls := cmd.cls,
                            ack := true, sc := false, crossed := false }
        let u := if cmd.msg then u.answer u.here.toNat r 0 (leBytes x.2.2.flags.toNat 8) else u.freeE15 cmd.actor cmd.key.seq
        .next u.wakeHere

/-- COPY_COMMAND_EXECUTION (R230): a step of the oldest command of a core's queue. One that writes local zones reads a word and writes it, so that what waits for it goes on (R261); a cpcvt writes a segment when it has read it. One that writes global memory reads its source and sends its writes towards their homes. On a stopped core a command in execution goes on, and no other begins (R357). -/
def execCopyCommandExecution (c : BitVec 12) (s : State) : Out :=
  let no := notEnabled "COPY_COMMAND_EXECUTION"
  let k := s.core c
  match k.cq with
  | [] => no
  | cmd :: _ =>
    let ls := rangeLines cmd.ranges
    let earlier := s.sameLine cmd.actor cmd.key.seq ls true || (s.requests cmd.actor).any fun r => r.key = cmd.key
    if (k.stopped ∧ ! cmd.begun) ∨ s.putting c ∨ earlier ∨ (s.strongCopy cmd ∧ s.strongBefore cmd.actor cmd.key.seq) then no
    else if cmd.isRead then
      match cmd.next with
      | none => no
      | some (va, n) =>
        match hostPort cmd.gaddr with
        | some _ =>
          let t := { s with tick := s.tick + 1 }
          if ! cmd.begun ∧ Config.hostRefuses s.tick then .next (t.failCopy cmd 0x129 cmd.gaddr)
          else t.copyLands c cmd (t.hostMem.bytes va n)
        | none =>
          let q := quadOf c
          let l := va / 128
          let point := s.pointOf q l
          if s.stackDown (homePage (l / 512)) ∨ (s.base point).jammed ∨ ((s.heldLine q l).isNone ∧ s.scWaits [l]) then no
          else if ! s.translated q l then
            .next (s.post c.toNat cmd.key.vrt (.mem { actor := cmd.actor, loc := cmd.loc, key := cmd.key, op := .fetch, addr := BitVec.ofNat 64 va, len := 0,
                                                      cls := cmd.cls, ack := false, sc := false, crossed := false }))
          else match s.readError q va n with
            | some (e, x) => .next (s.failCopy cmd e x)
            | none => let x := s.readGlobal q va n; x.2.copyLands c cmd x.1
    else
      let n := copyLocal cmd.op cmd.len cmd.extra
      let a := look Actor.zero cmd.loc.slot.toNat k.actors
      let w := copyWrites cmd fun x m => a.engineBytes k.pad s.tick x m
      let bad := k.badIn cmd.laddr.toNat n
      let r := copyRequest cmd w (if bad.isSome then 0x1C1 else 0) (bad.map fun i => BitVec.ofNat 64 (8 * i))
      let t := { s with tick := s.tick + 1 }.setCopy c none
      let t := match hostPort cmd.gaddr with
        | some b => t.post c.toNat cmd.key.vrt (.hostRead b r)
        | none => t.post c.toNat cmd.key.vrt (.mem r)
      .next (t.at c t.cx State.wakeHere)

/-! ## Host windows (R227, R244) -/

/-- A step of a request at the host (R223): a word of it is read or written, and after the last one its answer goes back. -/
def State.performHost (s : State) (st : Nat) (r : MemReq) : State × Option MemReq :=
  let done (t : State) (msg : Bool) (status : BitVec 9) (payload : List Byte) : State :=
    let t := if msg then t.answer st r status payload else t.freeE15 r.actor r.key.seq
    t.at r.loc.core t.cx State.wakeHere
  let write (segs : List (Nat × List Byte)) (msg : Bool) (payload : List Byte) : State × Option MemReq :=
    let (va, bs) := (wordOf r.pos segs).getD (0, [])
    let t := { s with hostMem := s.hostMem.setBytes va bs }
    if r.pos + bs.length < runBytes segs then (t, some { r with pos := r.pos + bs.length }) else (done t msg 0 payload, none)
  match r.op with
  | .read =>
    let (x, n) := r.nextWord
    let got := r.got ++ s.hostMem.bytes x n
    if r.pos + n < r.len then (s, some { r with pos := r.pos + n, got := got }) else (done s true 0 got, none)
  | .write data => write [(r.addr.toNat, data)] r.ack []
  | .amo desc x cmp =>
    let m := if desc.getLsbD 4 then 4 else 8
    let old := leNat (s.hostMem.bytes r.addr.toNat m)
    let t := match amoValue desc x cmp old with
      | some v => { s with hostMem := s.hostMem.setBytes r.addr.toNat (leBytes v m) }
      | none => s
    (done t true 0 (leBytes old 8), none)
  | .put segs _ flags msg => write segs msg (leBytes flags.toNat 8)
  | .finish status flags msg => (done s msg status (leBytes flags.toNat 8), none)
  | _ => (s.at r.loc.core s.cx State.wakeHere, none)

/-- The cause and the payload with which a host port refuses a request (R244, R245), and whether its requester is told. -/
def MemReq.hostRefusal (r : MemReq) : Option (Bool × BitVec 9 × List Byte) :=
  match r.op with
  | .read => some (true, 0x10B, [])
  | .write _ => some (true, 0x10B, [])
  | .amo .. => some (true, 0x10B, [])
  | .put _ _ flags msg => some (msg, 0x129, leBytes flags.toNat 8)
  | _ => none

/-- HOST_READ_COMPLETION (R223, R236, R244): a word of a request to a host window is performed at the host, or its port refuses the transaction. -/
def execHostReadCompletion (n : Nat) (s : State) : Out :=
  match s.packet n with
  | some (.hostRead port r) =>
    if r.pos = 0 && s.strongWait r then notEnabled "HOST_READ_COMPLETION"
    else
      let st := hostStation (if port then 1 else 0)
      let s' := { s with tick := s.tick + 1 }
      match (if r.pos = 0 && Config.hostRefuses s.tick then r.hostRefusal else none) with
      | some (msg, cause, payload) =>
        let t := s'.take n st
        .next ((if msg then t.answer st r cause payload else t.freeE15 r.actor r.key.seq).at r.loc.core t.cx State.wakeHere)
      | none =>
        .next (match s'.performHost st r with
          | (t, some x) => { t with flight := t.flight.modify n fun f => { f with pkt := .hostRead port x } }
          | (_, none) => ((s'.take n st).performHost st r).1)
  | _ => notEnabled "HOST_READ_COMPLETION"

/-! ## The Depot's copy of a page (R248, R249, R255, R266) -/

/-- The sectors of a stored page (R248): none for one that is all zero, else 1 to 128. -/
def sectorsOf (gen p : Nat) (cells : List Host.Cell) : Nat := if cells.isEmpty then 0 else max 1 (min 128 (Config.sectors gen p))

/-- The sectors that a snapshot of a checkpoint takes, beside its header and its list. -/
def CkSlot.sectors (x : CkSlot) (id : Nat) : Nat :=
  if x.header.isEmpty then 0 else 1 + (x.pages.length * 8 + 511) / 512 + (x.pages.map fun p => sectorsOf (2 ^ 32 + 65536 * x.seq.toNat + id) p.1 p.2.2).sum

/-- The sectors of an actor's save area in the Depot: its four frames are stored as pages are (R248, R258). -/
def areaSectors (a : AId) : Nat := ((List.range 4).map fun i => min 128 (Config.sectors (2 ^ 40 + a.tenant.toNat) (4 * a.id.toNat + i))).sum

/-- The sectors in use: pages, snapshots and save areas (R247, R258, R265). -/
def State.sectorsUsed (s : State) : Nat :=
  (s.depot.map fun p => sectorsOf p.2.gen.toNat p.1 p.2.cells).sum + (s.ckpts.map fun c => c.2.1.sectors c.1 + c.2.2.sectors c.1).sum +
    (s.bases.map fun b => ((b.2.saved.filter fun x => x.inDepot).map fun x => areaSectors x.actor.aid).sum).sum

/-- The Depot's sectors: 32 TiB of 512 bytes (R11, R247). -/
def depotSectors : Nat := 2 ^ 36

/-- A page's DRAM content written to the Depot: the sectors it takes, or Depot full (R248, R254). A page whose content equals its copy writes none. -/
def State.persistPage (s : State) (p : Nat) : Except (BitVec 9) (State × Nat) :=
  let l := s.leaf p
  let d := s.depotPage p
  let cells := s.pageCells p
  let lo := l.frame.toNat * 8192
  if ! l.valid then .ok (s, 0)
  else if (s.base (homePage p)).badDram.any fun w => decide (lo ≤ w) && decide (w < lo + 8192) then .error 0x1C5
  else if cells = d.cells ∧ ! d.bad then .ok (s.setLeaf p { l with dirty := false }, 0)
  else
    let n := sectorsOf (d.gen.toNat + 1) p cells
    if depotSectors < s.sectorsUsed - sectorsOf d.gen.toNat p d.cells + n then .error 0x1A7
    else .ok (({ s with depot := put p ⟨d.gen + 1, cells, false⟩ s.depot }).setLeaf p { l with dirty := false }, n)

/-- Whether a walk of a page is in progress (R325). -/
def State.walking (s : State) (p : Nat) : Bool := (s.base (homePage p)).walks.contains p

/-- A page that a durable fence could not persist recorded in DURSTAT, unless FAIL is set, with its cycle (R267). -/
def Actor.durFailed (a : Actor) (cause : BitVec 9) (p now : Nat) : Actor :=
  let d : DurStat := ⟨true, cause, BitVec.ofNat 40 p⟩
  { a with durstat := if a.durstat.fail then a.durstat else d, durFail := if a.durFail.any fun x => x.1 = now then a.durFail else some (now, d) }

/-- What a durable fence does for its pages (R266, R267): each that is not durable is persisted, and a failure recorded. -/
def State.makeDurable (s : State) (k : BitVec 4) (pages : List Nat) : State :=
  pages.eraseDups.foldl (fun t p =>
    match t.persistPage p with
    | .ok (u, _) => u
    | .error c => t.setActorAt k ((t.actorAt k).durFailed c p t.time)) s

/-- FENCE_CONDITION_MET (R235, R266): what waits behind a fence of the actor in a slot leaves as far as it may. A durable fence changes leaves, so that the walks of its pages end first (R325). -/
def execFenceConditionMet (c : BitVec 12) (k : BitVec 4) (s : State) : Out :=
  let no := notEnabled "FENCE_CONDITION_MET"
  s.atOut c 0 fun t =>
    let who := (t.actorAt k).aid
    let mine := (t.hereCore.fenced.filter fun x => x.slot = k)
    if t.hereCore.stopped then no
    else match mine with
    | [] =>
      -- a durable fence at the head of a release (R276)
      match t.ctxOf k with
      | none => no
      | some x =>
        match (t.ctxAt x).phase, (t.ctxAt x).staging with
        | .releasing _, .fence kind sc before pages :: rest =>
          if sc = 10 ∧ t.fenceMet who kind sc before ∧ ! pages.any t.walking then
            let u := t.makeDurable k pages
            .next (u.setCtxAt x { u.ctxAt x with staging := rest })
          else no
        | _, _ => no
    | d :: more =>
      let others := t.hereCore.fenced.filter fun x => x.slot ≠ k
      match d.item with
      | .fence kind sc before pages =>
        if sc = 10 then
          if t.fenceMet who kind sc before ∧ ! pages.any t.walking then
            let u := t.makeDurable k pages
            .next ((u.setHere { u.hereCore with fenced := others ++ more }).wakeHere)
          else no
        else release t others mine
      | _ => release t others mine
where
  /-- Items released from the front of the list, each with the key it had. -/
  release (t : State) (others mine : List Deferred) : Out :=
    match mine with
    | [] => notEnabled "FENCE_CONDITION_MET"
    | d :: _ =>
      let r := (t.setHere { t.hereCore with fenced := others }).releaseFrom d.slot (mine.map fun x => x.item)
      let left := mine.drop (mine.length - r.2.length)
      if left.length = mine.length then notEnabled "FENCE_CONDITION_MET"
      else .next ((r.1.setHere { r.1.hereCore with fenced := r.1.hereCore.fenced ++ left }).wakeHere)

/-- A Depot-resident page brought into a frame of its stack (R253, R255). -/
def State.pageInto (s : State) (p f : Nat) : State :=
  let h := homePage p
  let b := s.base h
  let t := s.setBase h { b with dram := b.dram.setPage f (s.depotPage p).cells, taken := insertNat f b.taken,
                                badDram := b.badDram.filter fun w => ! (decide (f * 8192 ≤ w) && decide (w < (f + 1) * 8192)) }
  t.setLeaf p { s.leaf p with valid := true, depot := false, dirty := false, frame := BitVec.ofNat 20 f }

/-- Whether a request that the Depot engine took before a cycle is an operation on a page: the engine performs operations on one page in the order in which they reach it (R255). -/
def State.opBefore (s : State) (p now : Nat) : Bool :=
  (List.range s.depotQ.length).any fun i => match s.served i .page with
    | some (r, _) => r.page.op < 5 && ! r.pageBad && decide (r.since < now) && decide (r.page.first ≤ p) && decide (p < r.page.first + r.page.count)
    | none => false

/-- The parked requests for which a demand page-in can go on (R255): their page is in the Depot, a frame of its stack is free, and no earlier operation on the page is left. -/
def State.demands (s : State) : List Parked :=
  s.bases.flatMap fun b =>
    if b.2.freeFrame.isNone then []
    else b.2.parked.filter fun x => (s.leaf x.page).depot && ! (s.leaf x.page).valid && ! s.opBefore x.page x.since

/-- DEMAND_PAGE_IN (R255): the page of the oldest parked request that a free frame can take (R256). -/
def execDemandPageIn (g : BitVec 40) (s : State) : Out :=
  let no := notEnabled "DEMAND_PAGE_IN"
  let p := g.toNat
  let h := homePage p
  let b := s.base h
  let oldest := s.demands.foldl (fun (m : Option Parked) x => match m with
    | none => some x
    | some y => if x.since < y.since then some x else some y) none
  match oldest, b.freeFrame with
  | some x, some f =>
    if x.page ≠ p then no
    else if (s.depotPage p).bad then
      let mine := b.parked.filter fun y => y.page = p
      let t := s.setBase h { b with parked := b.parked.filter fun y => y.page ≠ p }
      .next (mine.foldl (fun t y => t.fail y.req 0x1C8 0x1C8) t)
    else .next (((s.pageInto p f).unpark p).noFrame h)
  | _, _ => no

end Sys2Proof.Machine
end

