-- ==== Sys2Proof/Machine/Code.lean ====
section
/-! DEFINITION. Code stores and protocol tables: the scanner (02_instruction_formats.md R54 to R57), the load requests (09_local_memory.md R210 to R212), the image descriptor and the itinerary loader (14_code_and_protocol_tables.md R302 to R316), and the creation of actors (01_device.md R21, R303): CODE_LOAD, CODE_UNLOAD, CODE_SCAN. -/

namespace Sys2Proof.Machine

/-! ## State records, loops, look-ahead and fingerprints (R308 to R312) -/

/-- A state record read from its 16 bytes (R308). -/
def readRec (l : List Byte) : StateRec :=
  let n (i : Nat) : Nat := (l.getD i 0).toNat
  let lab := n 6
  { kind := BitVec.ofNat 3 (n 0), cls := BitVec.ofNat 6 (n 1), min := n 2 + 256 * n 3, max := n 4 + 256 * n 5, nlab := lab,
    next := ((List.range 4).take lab).map fun i => BitVec.ofNat 6 (n (7 + i)), close := BitVec.ofNat 6 (n 11),
    bound := BitVec.ofNat 12 (n 12 + 256 * n 13) }

/-- Whether a record obeys R308 and the limits of 0x1B5, among `count` + 1 records. -/
def recOk (count : Nat) (all : List StateRec) (i : Nat) (l : List Byte) : Bool :=
  let n (j : Nat) : Nat := (l.getD j 0).toNat
  let r := readRec l
  let k := n 0
  let shape :=
    if k < 2 then n 6 = 1 && decide (r.min ≤ r.max) && decide (r.max ≤ 4096)
    else if k < 4 then decide (1 ≤ n 6) && decide (n 6 ≤ 4) && r.min = 1 && r.max = 1
    else if k < 6 then n 6 = 1 && r.min = 40 && r.max = 40
    else k < 8 && n 6 = 0 && r.min = 0 && r.max = 0 && n 1 = 0
  shape && decide (n 1 ≤ 61) && n 14 = 0 && n 15 = 0 && decide (n 12 + 256 * n 13 ≤ 4095) &&
    ((List.range 4).all fun j => if j < n 6 then decide (n (7 + j) ≤ count) else n (7 + j) = 255) &&
    decide (n 11 ≤ count) && (all.map fun x => x.kind)[n 11]? = some (7 : BitVec 3) && (k ≠ 7 || n 11 = i)

def recsOk (l : List (List Byte)) : Bool :=
  let all := l.map readRec
  ((l.zip (List.range l.length)).all fun x => recOk (l.length - 1) all x.2 x.1) &&
    (match all with | r :: _ => decide (r.kind.toNat < 6) | [] => false)

/-- The kinds exchanged in every record (R312). -/
def dualRecs (l : List StateRec) : List StateRec := l.map fun r => { r with kind := dualKind r.kind }

/-- The states that a state's advances lead to. -/
def nextsOf (l : List StateRec) (s : Nat) : List Nat := ((l[s]?.map fun r => r.next).getD []).map fun x => x.toNat

/-- What advances reach from a set of states, by a number of widenings. -/
def widen (l : List StateRec) : Nat → List Nat → List Nat
  | 0, x => x
  | n + 1, x => widen l n ((x ++ x.flatMap (nextsOf l)).eraseDups)

/-- The states that one advance or more reaches. -/
def reaches (l : List StateRec) (s : Nat) : List Nat := widen l l.length (nextsOf l s)

/-- The loop of a state (R310); empty when it is in none. -/
def loopOf (l : List StateRec) (s : Nat) : List Nat :=
  if (reaches l s).contains s then (List.range l.length).filter fun t => (reaches l s).contains t && (reaches l t).contains s else []

def boundAt (l : List StateRec) (s : Nat) : Nat := (l[s]?.map fun r => r.bound.toNat).getD 0

/-- Whether the loops obey R310. -/
def loopsOk (l : List StateRec) : Bool :=
  (List.range l.length).all fun s =>
    let lp := loopOf l s
    let n := (lp.filter fun t => boundAt l t ≠ 0).length
    let receives (odd : Nat) : Bool := lp.any fun t => (l[t]?.map fun r => r.kind.toNat % 2).getD 2 = odd
    if lp.isEmpty then boundAt l s = 0
    else if receives 0 && receives 1 then decide (n ≤ 1) else n = 1

/-- LOOPED of a state (R310). -/
def loopedAt (l : List StateRec) (s : Nat) : Bool := (loopOf l s).any fun t => boundAt l t ≠ 0

/-- The records as one side reads them at run time. -/
def viewsOf (l : List StateRec) : List View :=
  (List.range l.length).filterMap fun i => l[i]?.map fun r =>
    { kind := r.kind, cls := r.cls, min := r.min, max := r.max, next := r.next, close := r.close, bound := r.bound, looped := loopedAt l i }

def View.none : View := ⟨7, 0, 0, 0, [], 0, 0, false⟩

/-- An advance of a state and LOOP (R310): the next pair, unless it is refused. -/
def stepLoop (v : List View) (s t loop : Nat) : Option (Nat × Nat) :=
  let b := ((v.getD t View.none).bound).toNat
  if b ≠ 0 ∧ loop = b then none
  else
    let l := if (v.getD s View.none).bound ≠ 0 then (loop + 1) % 65536 else loop
    some (t, if (v.getD t View.none).looped then l else 0)

def stepsFrom (v : List View) (x : Nat × Nat) : List (Nat × Nat) :=
  (v.getD x.1 View.none).next.filterMap fun t => stepLoop v x.1 t.toNat x.2

/-- The pairs of state and LOOP that legal advances reach (R311). -/
def pairs (v : List View) : Nat → List (Nat × Nat) → List (Nat × Nat) → List (Nat × Nat)
  | 0, done, _ => done
  | n + 1, done, front =>
    match front with
    | [] => done
    | _ => pairs v n (done ++ front) (((front.flatMap (stepsFrom v)).eraseDups).filter fun x => ! (done ++ front).contains x)

def View.receives (v : View) : Bool := v.kind = 1 || v.kind = 3 || v.kind = 5

/-- The longest run of messages received from a set of pairs, up to 256; a message whose every advance the bound refuses is not received. -/
def runLength (v : List View) : Nat → List (Nat × Nat) → Nat
  | 0, _ => 0
  | n + 1, front =>
    match front.filter fun x => (v.getD x.1 View.none).receives && ! (stepsFrom v x).isEmpty with
    | [] => 0
    | l => 1 + runLength v n ((l.flatMap (stepsFrom v)).eraseDups)

/-- LOOK of a side (R311), 256 when it is above 255. -/
def lookOf (l : List StateRec) : Nat := let v := viewsOf l; runLength v 256 (pairs v (64 * 65536) [] [(0, 0)])

/-- SLOT of a side (R311). -/
def slotSize (l : List StateRec) : Nat :=
  if lookOf l = 0 then 0
  else (((l.filter fun r => r.kind = 1 || r.kind = 3 || r.kind = 5).map fun r => r.max).foldl max 0 + 63) / 64 * 64

/-- The canonical bytes of a record (R308). -/
def recBytes (r : StateRec) : List Byte :=
  [r.kind.setWidth 8, r.cls.setWidth 8] ++ leBytes r.min 2 ++ leBytes r.max 2 ++ [BitVec.ofNat 8 r.nlab] ++
    ((List.range 4).map fun i => (r.next[i]?.map fun x => x.setWidth 8).getD (0xFF : Byte)) ++ [r.close.setWidth 8] ++ leBytes r.bound.toNat 2 ++ [0, 0]

/-- The fingerprint of an itinerary (R312). -/
def fingerprint (l : List StateRec) : Word :=
  payloadWord (sha256 ([0x53, 0x4B, 0x49, 0x54, 0x01, BitVec.ofNat 8 l.length, 0, 0] ++ l.flatMap recBytes)) 0

/-! ## The itinerary loader (R309, R313 to R315) -/

/-- The records of a loaded itinerary, as its entry reads them. -/
def Core.recsOf (k : Core) (i : BitVec 7) : List StateRec :=
  (List.range ((k.dirAt i).count.toNat + 1)).map fun s =>
    let v := k.view i (BitVec.ofNat 6 s)
    { kind := v.kind, cls := v.cls, min := v.min, max := v.max, nlab := v.next.length, next := v.next, close := v.close, bound := v.bound }

/-- The lowest free run of n entries of the itinerary table (R314). -/
def Core.freeRun (k : Core) (n : Nat) : Option Nat :=
  let taken := (k.dir.filter fun x => x.2.valid).map fun x => (x.2.base.toNat, x.2.count.toNat + 1)
  let starts := 0 :: taken.map fun x => x.1 + x.2
  let ok := starts.filter fun b => decide (b + n ≤ 2048) && taken.all fun x => decide (b + n ≤ x.1) || decide (x.1 + x.2 ≤ b)
  ok.foldl (fun m b => match m with | none => some b | some x => some (min x b)) none

/-- The shape entry of a pair, taken if it is new (R315). -/
def shapeFor (sh : List (Nat × Shape)) (mn mx : Nat) : Option (Nat × List (Nat × Shape)) :=
  let x : Shape := ⟨BitVec.ofNat 13 mn, BitVec.ofNat 13 mx⟩
  if x = Shape.zero then some (0, sh)
  else match sh.find? fun y => y.2 = x with
    | some y => some (y.1, sh)
    | none => ((List.range' 1 255).find? fun i => ! (sh.any fun y => y.1 = i)).map fun i => (i, put i x sh)

/-- Shape entries for every state; none when the table has no room. -/
def shapesFor (sh : List (Nat × Shape)) : List StateRec → Option (List Nat × List (Nat × Shape))
  | [] => some ([], sh)
  | r :: l =>
    match shapeFor sh r.min r.max with
    | none => none
    | some (i, sh) => (shapesFor sh l).map fun x => (i :: x.1, x.2)

/-- One block loaded for a tenant, or the cause that rejects it (R309). -/
def Core.loadBlock (k : Core) (t : BitVec 4) (b : Block) : Except (BitVec 9) Core :=
  let d := k.dirAt b.index
  let same (fp dfp : Word) : Bool := d.fp = fp && d.dfp = dfp && d.tenant = t
  if b.dual then
    let src := k.dirAt b.source
    if ! src.valid ∨ src.tenant ≠ t ∨ src.count ≠ b.count then .error 0x1B8
    else if d.valid then if same src.dfp src.fp then .ok k else .error 0x1B3
    else
      let l := dualRecs (k.recsOf b.source)
      .ok { k with dir := put b.index.toNat { src with dual := ! src.dual, look := BitVec.ofNat 8 (lookOf l), slot := BitVec.ofNat 13 (slotSize l),
                                                         fp := src.dfp, dfp := src.fp, refs := 0 } k.dir }
  else
    let l := b.recs.map readRec
    let fp := fingerprint l
    let dfp := fingerprint (dualRecs l)
    if d.valid then if same fp dfp && recsOk b.recs then .ok k else .error 0x1B3
    else
      match k.freeRun b.recs.length with
      | none => .error 0x1B4
      | some base =>
        if ! recsOk b.recs then .error 0x1B5
        else if ! loopsOk l then .error 0x1B6
        else if 255 < lookOf l ∨ 255 < lookOf (dualRecs l) then .error 0x1B7
        else match shapesFor k.shapes l with
          | none => .error 0x1B9
          | some (ids, sh) =>
            let entry (r : StateRec) (i s : Nat) : StateEntry :=
              ⟨r.kind, r.cls, BitVec.ofNat 8 i, BitVec.ofNat 2 (r.nlab - 1), r.next.getD 0 0, r.next.getD 1 0, r.next.getD 2 0, r.next.getD 3 0,
                r.close, r.bound, loopedAt l s⟩
            let itab := ((l.zip ids).zip (List.range l.length)).foldl (fun m x => put (base + x.2) (entry x.1.1 x.1.2 x.2) m) k.itab
            let e : DirEntry := ⟨true, false, t, BitVec.ofNat 11 base, BitVec.ofNat 6 (l.length - 1), BitVec.ofNat 8 (lookOf l), BitVec.ofNat 13 (slotSize l), 0, fp, dfp⟩
            .ok { k with dir := put b.index.toNat e k.dir, itab := itab, shapes := sh }

def Core.loadBlocks (k : Core) (t : BitVec 4) : List Block → Except (BitVec 9) Core
  | [] => .ok k
  | b :: l => match k.loadBlock t b with
    | .ok k => k.loadBlocks t l
    | .error c => .error c

/-! ## The scanner (R54, R55) -/

/-- The instructions of an image from a parcel on, with the word of each; none for a 32-bit instruction that the last parcel starts. -/
def instrs : Nat → List Byte → List (Nat × Option (Bool × Nat))
  | k, a :: b :: rest =>
    let p := a.toNat + 256 * b.toNat
    if lengthOf p = 2 then (k, some (false, p)) :: instrs (k + 1) rest
    else match rest with
      | c :: d :: rest => (k, some (true, p + 65536 * c.toNat + 16777216 * d.toNat)) :: instrs (k + 2) rest
      | _ => [(k, none)]
  | _, _ => []

/-- The offset of a static target in parcels, and whether it is an lpc (R54, R44). -/
def staticTarget (r : Row) (w : Nat) : Option (Int × Bool) :=
  match r with
  | .lpc => some ((fld w 13 19).toInt, true)
  | .bEq | .bNe | .bLt | .bGe | .bLtn | .bGen | .bBset | .bBclr => some ((fld w 21 11).toInt, false)
  | .j | .jal => some ((fld w 8 24).toInt, false)
  | .dbnz => some ((fld w 18 14).toInt, false)
  | .cBeqz | .cBnez | .cBltz | .cBgez | .cJ | .cDbnz => some ((fld w 10 6).toInt, false)
  | _ => none

/-- Why an instruction at a parcel of an image of n parcels is rejected (R55). The rule gives detail 0x01 no place in its order of the conditions that strike one instruction: a last parcel that starts a 32-bit instruction is rejected with 0x1E1 whatever its major opcode (log 81). -/
def scanInstr (starts : List Nat) (n k : Nat) (x : Option (Bool × Nat)) : Option (BitVec 9) :=
  match x with
  | none => some 0x1E1
  | some (long, w) =>
    match scanWord long w with
    | .error e => some (0x1E0 + BitVec.ofNat 9 e.detail)
    | .ok r =>
      match staticTarget r w with
      | none => none
      | some (off, lpc) =>
        let t := (k : Int) + off
        if t < 0 ∨ (n : Int) ≤ t then some (if lpc then 0x1E6 else 0x1E4)
        else if ! starts.contains t.toNat then some (if lpc then 0x1E5 else 0x1E3) else none

/-- Why a junction entry is rejected. -/
def scanJunction (starts : List Nat) (n : Nat) (j : Junction) : Option (BitVec 9) :=
  if ! (j.valid && ! j.held) then none
  else if n ≤ j.offset.toNat then some 0x1E8 else if ! starts.contains j.offset.toNat then some 0x1E7 else none

/-- The scan of an image's code: its instruction starts, or the cause and the parcel offset reported. -/
def scanCode (code : List Byte) (junction : Vector Junction 64) : Except (BitVec 9 × Nat) (List Nat) :=
  let l := instrs 0 code
  let starts := l.map fun x => x.1
  let n := code.length / 2
  match l.findSome? fun x => (scanInstr starts n x.1 x.2).map fun c => (c, x.1) with
  | some e => .error e
  | none =>
    match junction.toList.findSome? fun j => (scanJunction starts n j).map fun c => (c, j.offset.toNat) with
    | some e => .error e
    | none => .ok starts

/-- The image written in a core's code store scanned, loaded and made executable, in one cycle (R57, R316); or the cause and the offset. -/
def Core.accept (k : Core) (img : Image) (blocks : List Block) : Except (BitVec 9 × Nat) Core :=
  let code := k.code.bytes img.base img.len
  if (wordsOf img.base img.len).any fun w => k.badCode.contains w then .error (0x1EE, 0)
  else match scanCode code img.junction with
    | .error e => .error e
    | .ok starts =>
      match k.loadBlocks img.tenant blocks with
      | .error c => .error (c, 0)
      | .ok k =>
        let lo := img.base / 2
        let hi := lo + img.len / 2
        .ok { k with starts := (k.starts.filter fun p => ! (decide (lo ≤ p) && decide (p < hi))) ++ starts.map (lo + ·),
                     images := k.images ++ [{ img with itins := (blocks.map fun b => b.index).eraseDups }] }

/-- Why an image may not stand at its place (R210, R211): outside the tenant's partition or above its free part, or on an executable image. -/
def Core.placeRefused (k : Core) (img : Image) : Option (BitVec 9) :=
  match k.parts.find? fun p => p.1 = img.tenant.toNat with
  | none => some 0x1E2
  | some (_, b, n) =>
    let lo := 512 * b
    let hi := 512 * (b + n)
    let used := ((k.images.filter fun x => decide (lo ≤ x.base) && decide (x.base < hi)).map fun x => x.len).sum
    if img.base < lo ∨ hi < img.base + img.len ∨ hi - lo - used < img.len then some 0x1E2
    else if k.images.any fun x => decide (img.base < x.base + x.len) && decide (x.base < img.base + img.len) then some 0x1ED else none

/-- An image's code written into a code store (R211). -/
def Core.writeCode (k : Core) (base : Nat) (code : List Byte) : Core :=
  { k with code := k.code.setBytes base code,
           badCode := k.badCode.filter fun w => ! (decide (base ≤ 8 * w) && decide (8 * w + 8 ≤ base + code.length)) }

/-- An image made not executable (R212, R57). -/
def Core.unload (k : Core) (img : Image) : Core :=
  let lo := img.base / 2
  let hi := lo + img.len / 2
  { k with images := k.images.filter (· ≠ img), starts := k.starts.filter fun p => ! (decide (lo ≤ p) && decide (p < hi)) }

/-! ## The image descriptor (R302) -/

/-- Why the engine cannot read a range for a requester on a core: a right is lacking or the page is not the tenant's (0x1BE), DRAM or flash is in error. -/
def State.engineRefused (s : State) (c : CoreId) (t : BitVec 4) (x : Bool) (va n : Nat) : Option (BitVec 9) :=
  if n = 0 then none
  else (pagesOf (va, n)).findSome? fun p =>
    let r := (s.core c).rights t p
    let l := s.leaf p
    let lo := max va (p * 65536)
    let m := min (va + n) ((p + 1) * 65536) - lo
    if ! r.1 ∨ (x ∧ ! r.2.2.1) ∨ (! l.valid ∧ ! l.depot) then some 0x1BE
    else if l.valid then
      if (wordsOf (s.dramAddr lo) m).any fun w => (s.base (homePage p)).badDram.contains w then some 0x1C5 else none
    else if (s.depotPage p).bad then some 0x1C8 else none

def readZone (x : Nat) : Zone :=
  let k : ZoneKind := match x / 2 ^ 28 % 4 with | 0 => .kept | 1 => .scratch | 2 => .mailbox | _ => .log
  ⟨x.testBit 31, k, BitVec.ofNat 12 (x / 2 ^ 12), BitVec.ofNat 12 x⟩

def readJunction (x : Nat) : Junction := ⟨x.testBit 31, x.testBit 30, BitVec.ofNat 14 x⟩

/-- Bytes of a range as a number. -/
def field (d : List Byte) (off n : Nat) : Nat := leNat ((d.drop off).take n)

/-- A junction entry within R304; classes 62 and 63 are never held. -/
def junctionOk (c : Nat) (j : Junction) : Bool :=
  (j.valid || ! j.held) && ((j.valid && ! j.held) || j.offset = 0) && ! (j.held && decide (62 ≤ c))

/-- A data record within R303. -/
def dataOk (zones : Vector Zone 8) (r : Nat × Nat × Nat × Nat) : Bool :=
  match zones.toList[r.1]? with
  | some z => z.valid && z.kind ≠ .log && r.2.1 % 8 = 0 && r.2.2.1 % 8 = 0 && decide (r.2.1 + r.2.2.1 ≤ 64 * z.len.toNat) && r.2.2.2 % 8 = 0
  | none => false

/-- Whether every reserved field is zero and every field within its limits (R302 to R304), as 0x1EC asks. -/
def descriptorOk (d : List Byte) : Bool :=
  let w1 := field d 8 8
  let zones := (List.range 8).map fun i => field d (320 + 4 * i) 4
  let recs := (List.range 8).map fun i => field d (352 + 16 * i) 8
  let nitin := field d 480 8
  field d 0 4 % 2 ^ 28 = 0 && w1 / 2 ^ 58 = 0 && w1 / 2 ^ 56 % 4 ≠ 3 && w1 / 2 ^ 49 % 2 ^ 5 = 0 && w1 / 2 ^ 17 % 2 ^ 7 = 0 &&
    decide (1 ≤ w1 / 2 ^ 24 % 2 ^ 25) && decide (w1 / 2 ^ 24 % 2 ^ 25 ≤ 16777216) && field d 16 8 % 64 = 0 &&
    field d 24 8 % 16 = 0 && (nitin ≠ 0 || field d 24 8 = 0) && decide (nitin ≤ 128) &&
    ((List.range 64).all fun c =>
      let x := field d (64 + 4 * c) 4
      x / 2 ^ 14 % 2 ^ 16 = 0 && junctionOk c (readJunction x)) &&
    (zones.all fun x => ! x.testBit 30 && x / 2 ^ 24 % 16 = 0 && (! x.testBit 31 || decide (1 ≤ x % 4096))) &&
    (recs.all fun x => decide (x / 2 ^ 40 = 0)) &&
    (d.drop 488).all (· = 0)

/-- The data records that a descriptor uses. -/
def readData (d : List Byte) : List (Nat × Nat × Nat × Nat) :=
  (List.range 8).filterMap fun i =>
    let w := field d (352 + 16 * i) 8
    if w.testBit 39 then some (w / 2 ^ 36 % 8, w % 2 ^ 18, w / 2 ^ 18 % 2 ^ 18, field d (360 + 16 * i) 8) else none

/-- The image that a descriptor describes, for a code address. -/
def readImage (d : List Byte) (base : Nat) : Image :=
  let w1 := field d 8 8
  { num := BitVec.ofNat 16 (field d 4 2), tenant := BitVec.ofNat 4 (field d 0 4 / 2 ^ 28), base := base, len := w1 % 2 ^ 17,
    disc := match w1 / 2 ^ 56 % 4 with | 0 => .untimed | 1 => .conservative | _ => .timed,
    prio := BitVec.ofNat 2 (w1 / 2 ^ 54), budget := BitVec.ofNat 25 (w1 / 2 ^ 24),
    junction := Vector.ofFn fun (i : Fin 64) => readJunction (field d (64 + 4 * i) 4),
    zones := Vector.ofFn fun (i : Fin 8) => readZone (field d (320 + 4 * i) 4), data := readData d, itins := [] }

/-- The blocks of an itinerary section, by their number, and the bytes they take (R306). -/
def readBlocks : Nat → List Byte → List Block × Nat
  | 0, _ => ([], 0)
  | n + 1, l =>
    let w := field l 0 8
    let cnt := w / 2 ^ 16 % 64
    let m := if w.testBit 7 then 0 else cnt + 1
    let b : Block := ⟨BitVec.ofNat 7 w, w.testBit 7, BitVec.ofNat 7 (w / 256), BitVec.ofNat 6 cnt,
      (List.range m).map fun i => (l.drop (16 + 16 * i)).take 16⟩
    let rest := readBlocks n (l.drop (16 + 16 * m))
    (b :: rest.1, 16 + 16 * m + rest.2)

/-! ## The Depot's requests and replies (R251, R252, R211) -/

/-- The engine answers a request on its channel and the request ends; the labels before it end with it. -/
def State.depotReply (s : State) (r : DepotReq) (payload : List Byte) : State :=
  let rest := s.depotQ.dropWhile fun x => ! (x = r)
  let before := (s.depotQ.takeWhile fun x => ! (x = r)).filter fun x => ! (x.chan = r.chan && x.words = [])
  let t := { s with depotQ := before ++ rest.drop 1 }
  match t.chan r.chan with
  | none => t
  | some c =>
    if ! c.live then if t.depotQ.any fun x => x.chan = r.chan then t else { t with chans := drop r.chan t.chans }
    else
      let cls : BitVec 6 := match c.service with | .page => 41 | .loader => 43 | .checkpoint => 45
      let p : BitVec 24 := c.loc.peer c.ep
      let h : Header :=
        { key := ⟨satAdd r.key.vrt 1, BitVec.ofNat 24 (0xFD0000 + r.chan), c.answers⟩, dest := p.extractLsb' 4 20, cls := cls,
          len := BitVec.ofNat 13 payload.length, state := 2, join := false, ze := false, anti := false, close := false, label := false,
          deleg := false, colour := false, irrev := true, tenant := c.actor.tenant, prio := 0, scope := 6, dmod := 0 }
      { t with chans := put r.chan { c with answers := c.answers + 1 } t.chans }.postMsg depotStation (.ep c.loc c.ep) ⟨h, payload, .plain, c.actor⟩

/-- The reply of a load or an unload (R211). -/
def loadReply (img off : Nat) (cause : BitVec 9) : List Byte := leBytes (off * 2 ^ 32 + img * 2 ^ 16 + cause.toNat) 8

/-- A scan rejection counted (R383). -/
def State.countScan (s : State) (cause : BitVec 9) : State := if (0x1E0 : BitVec 9) ≤ cause then s.count 0x3078 else s

/-- CODE_LOAD (R211): the engine reads the descriptor and the image and writes it; the target core scans it. -/
def execCodeLoad (n : Nat) (s : State) : Out :=
  let no := notEnabled "CODE_LOAD"
  match s.served n .loader with
  | none => no
  | some (r, _) =>
    let w0 := (r.words.getD 0 0).toNat
    let w1 := (r.words.getD 1 0).toNat
    if w1 / 2 ^ 62 = 1 then no
    else
      let c : CoreId := BitVec.ofNat 12 (w1 / 2 ^ 32 % 1024 * 4 + w1 / 2 ^ 42 % 4)
      let base := w1 % 65536
      let t := r.actor.tenant
      let bad (s : State) (img : Nat) (cause : BitVec 9) : Out := .next ((s.countScan cause).depotReply r (loadReply img 0 cause))
      if w1 / 2 ^ 62 ≠ 0 ∨ w1 / 2 ^ 44 % 2 ^ 18 ≠ 0 ∨ w1 / 2 ^ 16 % 2 ^ 16 ≠ 0 ∨ base % 2 ≠ 0 ∨ w0 % 64 ≠ 0 ∨ r.words.getD 2 0 ≠ 0 ∨ r.words.getD 3 0 ≠ 0 then
        bad s 0 0x1A6
      else if (s.core c).scan.isSome ∨ s.halted c then no
      else
        match s.engineRefused r.loc.core t true w0 512 with
        | some e => bad s 0 e
        | none =>
          let d := s.engineBytes w0 512
          let img := readImage d base
          let codeAt := field d 16 8
          let itinAt := field d 24 8
          match s.engineRefused r.loc.core t true codeAt img.len with
          | some e => bad s img.num.toNat e
          | none =>
            let nit := min (field d 480 8) 128
            let head := readBlocks nit (s.engineBytes itinAt (nit * 1040))
            match s.engineRefused r.loc.core t false itinAt head.2 with
            | some e => bad s img.num.toNat e
            | none =>
              let code := s.engineBytes codeAt img.len
              let section_ := s.engineBytes itinAt head.2
              if img.len = 0 ∨ img.len % 2 = 1 then bad s img.num.toNat 0x1E0
              else match (s.core c).placeRefused { img with tenant := t } with
                | some 0x1E2 => bad s img.num.toNat 0x1E2
                | place =>
                  if sha256 (code ++ (d.drop 64) ++ section_) ≠ (d.drop 32).take 32 then bad s img.num.toNat 0x1E9
                  else if img.tenant ≠ t then bad s img.num.toNat 0x1EA
                  else if field d 6 2 ≠ 1 then bad s img.num.toNat 0x1EB
                  else if ! descriptorOk d ∨ ! (img.data.all (dataOk img.zones)) then bad s img.num.toNat 0x1EC
                  else match place with
                    | some e => bad s img.num.toNat e
                    | none => .next (s.setCore c { (s.core c).writeCode base code with scan := some ⟨img, head.1, r⟩ })

/-- CODE_UNLOAD (R212). A code address that is not zero is refused with 0x1A6 like a reserved field, since R211 gives that field to the load only: the model's choice (log 105). -/
def execCodeUnload (n : Nat) (s : State) : Out :=
  let no := notEnabled "CODE_UNLOAD"
  match s.served n .loader with
  | none => no
  | some (r, _) =>
    let w1 := (r.words.getD 1 0).toNat
    if w1 / 2 ^ 62 ≠ 1 then no
    else
      let c : CoreId := BitVec.ofNat 12 (w1 / 2 ^ 32 % 1024 * 4 + w1 / 2 ^ 42 % 4)
      let num := BitVec.ofNat 16 (w1 / 2 ^ 16)
      let t := r.actor.tenant
      let k := s.core c
      let answer (s : State) (cause : BitVec 9) : Out := .next (s.depotReply r (loadReply num.toNat 0 cause))
      if w1 / 2 ^ 44 % 2 ^ 18 ≠ 0 ∨ w1 % 65536 ≠ 0 ∨ r.words.getD 2 0 ≠ 0 ∨ r.words.getD 3 0 ≠ 0 then answer s 0x1A6
      else if k.scan.isSome ∨ s.halted c then no
      else match k.images.find? fun i => i.num = num && i.tenant = t with
        | none => answer s 0x1A5
        | some img =>
          if k.actors.any fun a => a.2.aid.tenant = t && a.2.image = num then answer s 0x1A4
          else answer ((s.setCore c (k.unload img)).syncDir c) 0

/-- The scan in progress on a core abandoned because a wipe begins (R213, R55 detail 0x0F). -/
def State.abandonScan (s : State) (c : CoreId) : State :=
  match (s.core c).scan with
  | none => s
  | some x => ((s.setCore c { s.core c with scan := none }).countScan 0x1EF).depotReply x.reply (loadReply x.image.num.toNat 0 0x1EF)

/-- The scans in progress on all cores abandoned. -/
def State.abandonScans (s : State) : State := s.cores.foldl (fun t c => t.abandonScan (BitVec.ofNat 12 c.1)) s

/-- CODE_SCAN (R54, R57): the scan of the image written last ends; a rejection is counted (R383). -/
def execCodeScan (c : BitVec 12) (s : State) : Out :=
  let k := s.core c
  match k.scan with
  | none => notEnabled "CODE_SCAN"
  | some x =>
    if s.halted c then notEnabled "CODE_SCAN"
    else
      let k := { k with scan := none }
      let r := k.accept x.image x.blocks
      let t := match r with
        | .ok k => (s.setCore c k).syncDir c
        | .error _ => s.setCore c k
      let cause := match r with
        | .ok _ => (0, 0)
        | .error e => e
      .next ((t.countScan cause.1).depotReply x.reply (loadReply x.image.num.toNat cause.2 cause.1))

/-! ## Creating an actor (R21, R184, R225, R303) -/

/-- Whether zones may stand on a core beside those of its resident actors (R21). -/
def Core.zonesFit (k : Core) (zones : Vector Zone 8) : Bool :=
  let mine := zones.toList.filter fun z => z.valid
  let others := k.actors.flatMap fun a => a.2.zones.toList.filter fun z => z.valid
  let clear (x y : Zone) : Bool := decide (x.base.toNat + x.len.toNat ≤ y.base.toNat) || decide (y.base.toNat + y.len.toNat ≤ x.base.toNat)
  (mine.any fun z => z.kind = .mailbox) && (mine.all fun z => decide (z.base.toNat + z.len.toNat ≤ 3072) && others.all (clear z)) &&
    decide (mine.Pairwise fun x y => clear x y = true)

/-- Zones cleared with their full bits empty (R208, R303). -/
def Core.clearZones (k : Core) (zones : List Zone) : Core :=
  zones.foldl (fun (k : Core) z =>
    let lo := 64 * z.base.toNat
    let hi := 64 * (z.base.toNat + z.len.toNat)
    { k with pad := k.pad.clear lo hi, full := k.full.filter (fun w => ! (decide (lo ≤ 8 * w) && decide (8 * w < hi))),
             fullFog := cutFog (lo / 8) (hi / 8) k.fullFog, badPad := k.badPad.filter fun w => ! (decide (lo ≤ 8 * w) && decide (8 * w < hi)) }) k

/-- A new actor, its e15 open (R158, R225): none when no run holds the e15 buffer. -/
def newActor (who : AId) (img : BitVec 16) (disc : Disc) (prio : BitVec 2) (budget : BitVec 25) (zones : Vector Zone 8)
    (junction : Vector Junction 64) (now : Nat) : Option Actor :=
  let a := { Actor.zero with aid := who, image := img, disc := disc, prio := prio, budget := budget, zones := zones, junction := junction, freedAt := now }
  match a.alloc 8192 with
  | none => none
  | some b => some ((a.setEp 15 (EpRec.memory (BitVec.ofNat 18 b))).setAux 15 { EpAux.zero with run := some ⟨b, 8192⟩ })

/-- An actor put into a slot, its zones cleared and its data written. -/
def Core.settleActor (k : Core) (slot : Nat) (a : Actor) (data : List (Nat × Nat × List Byte)) : Core :=
  let zs := a.zones.toList.filter fun z => z.valid
  let k := k.clearZones zs
  let k := data.foldl (fun (k : Core) d => match a.zones.toList[d.1]? with
    | some z => k.writePad (64 * z.base.toNat + d.2.1) d.2.2
    | none => k) k
  { k with actors := put slot a k.actors }

end Sys2Proof.Machine
end

