-- ==== Sys2Proof/Machine/Groups.lean ====
section
/-! DEFINITION. The group instructions at issue, major 0x32 (13_collective_queues.md R289, R296 to R299). -/

namespace Sys2Proof.Machine

/-! ## The wave descriptor (R297) -/

def waveRoot (x : Word) : BitVec 12 := x.extractLsb' 52 12
def waveRedOp (x : Word) : Nat := (x.extractLsb' 50 2).toNat
def waveType (x : Word) : Nat := (x.extractLsb' 48 2).toNat
def waveZe (x : Word) : Bool := x.getLsbD 47
def waveDaddr (x : Word) : Nat := (x.extractLsb' 27 18).toNat
def waveLen (x : Word) : Nat := (x.setWidth 17).toNat

/-- Fields outside their limits (R297, 0x181). -/
def waveBad (op : WaveOp) (x : Word) : Bool :=
  x.extractLsb' 45 2 ≠ 0 || x.extractLsb' 17 10 ≠ 0 || decide (waveLen x < 128) || decide (65536 < waveLen x) || decide (waveLen x % 128 ≠ 0) ||
    (if op = .red ∨ op = .rs then waveRedOp x = 3 || waveType x = 3 else waveRedOp x ≠ 0 || waveType x ≠ 0) ||
    (waveZe x && waveRedOp x ≠ 0) || (op ≠ .bcast && waveRoot x ≠ 0)

/-- The bytes of the source and of the destination of a rank (R297). -/
def waveSource (op : WaveOp) (x : Word) (count : Nat) (root : Bool) : Nat :=
  match op with
  | .ag => waveLen x / count
  | .bcast => if root then waveLen x else 0
  | _ => waveLen x

def waveDest (op : WaveOp) (x : Word) (count : Nat) : Nat :=
  match op with
  | .rs => waveLen x / count
  | _ => waveLen x

/-- A range within one scratch zone of an actor. -/
def Actor.inScratch (a : Actor) (addr n : Nat) : Bool :=
  a.zones.toList.any fun z => z.valid && z.kind = .scratch && decide (64 * z.base.toNat ≤ addr) && decide (addr + n ≤ 64 * (z.base.toNat + z.len.toNat))

/-- Waves outstanding on a group endpoint: contributions less completions consumed (R289, R298). -/
def EpRec.waves (r : EpRec) : Nat := (r.sent - r.rcvd).toNat

/-- A contribution of a member put into the queue of its discipline (R299): its key, its wave, which is that of the member's k-th operation (R291), and the change of its record. -/
def contribute (e : BitVec 4) (op : WaveOp) (desc src : Word) (c : BitVec 6) (f : EpRec → EpRec) (s : State) : Out :=
  let r := s.actor.ep e
  match s.sendVrt r.lastvrt with
  | .error (cause, d) => raise cause d s
  | .ok (rule, v) =>
    let x : Contrib := ⟨groupKey s.actor.aid.tenant r.peer, s.actor.aid, ⟨s.here, s.ctx.slot⟩, e, ⟨v, s.actor.aid.id, s.actor.seq⟩, (s.actor.auxOf e).waves + 1, op, desc, src, c, s.ctx.prioEff⟩
    s.queue (.contrib x rule) fun t =>
      changeEp e (fun a => let q := f (a.ep e)
        { ((a.setEp e { q with lastvrt := if a.disc = .untimed then q.lastvrt else v }).setAux e { a.auxOf e with waves := (a.auxOf e).waves + 1 }) with
          seq := a.seq + 1 }) t fun t => .next (t.advance 4)

/-- Checks 8 and 9 of R298, then the contribution; gleave and gwait name no descriptor register, so their DETAIL is unnamed (R353). -/
def outstanding (e : BitVec 4) (desc : Option Word) (s : State) (k : Out) : Out :=
  let bad (cause : BitVec 9) : Out := match desc with
    | some x => raise cause x s
    | none => raiseOpen cause s
  if 4 ≤ (s.actor.ep e).waves then bad 0x187
  else if (s.actor.auxOf e).broken then bad 0x188 else k

/-- gred, gbcast, grs and gag: the checks of R298 in their order; DETAIL is the descriptor register (R353). -/
def waveOp (op : WaveOp) (c : BitVec 6) (b a : BitVec 5) (e : BitVec 4) (s : State) : Out :=
  let r := s.actor.ep e
  let x := s.g b
  let n := (s.actor.auxOf e).count.toNat + 1
  soundEp e s <|
  if r.pkind ≠ .collective ∨ r.status ≠ .opened then raise 0x180 x s
  else if waveBad op x then raise 0x181 x s
  else
    let root : Bool := waveRoot x = r.loop.setWidth 12
    let sl := waveSource op x n root
    let dl := waveDest op x n
    let src := (s.g a).toNat
    let dst := waveDaddr x
    let reads := op ≠ .bcast || root
    if (reads ∧ src % 128 ≠ 0) ∨ dst % 128 ≠ 0 then raise 0x182 x s
    else if (reads ∧ src + sl > 0x30000) ∨ dst + dl > 0x30000 then raise 0x183 x s
    else if s.actor.zonesBad then raise 0x1C7 0 s
    else if (reads ∧ ! linesAll (lineReadable s.actor) src sl) ∨ ! s.actor.inScratch dst dl ∨ (reads ∧ src < dst + dl ∧ dst < src + sl) then raise 0x184 x s
    else if (op = .rs ∨ op = .ag) ∧ waveLen x % (128 * n) ≠ 0 then raise 0x185 x s
    else if op = .bcast ∧ n ≤ (waveRoot x).toNat then raise 0x186 x s
    else outstanding e (some x) s (contribute e op x (s.g a) c (fun q => { q with sent := q.sent + 1 }) s)

/-- GJOIN (R296, R289): STATUS becomes connecting at issue. -/
def execGjoin (c : BitVec 6) (a : BitVec 5) (e : BitVec 4) (s : State) : Out :=
  let r := s.actor.ep e
  let x := s.g a
  soundEp e s <|
  if ! isIdle r then raise 0x180 x s
  else if x.toNat / 2 ^ 32 ≠ 0 then raise 0x181 x s
  else
    queueRequest e (fun key rule => .gjoin e x c key rule)
      (fun y => (y.setEp e { y.ep e with status := .connecting, pkind := .collective, pmod := 0, itin := 0,
                                         peer := x.extractLsb' 0 16 ++ x.extractLsb' 30 2 ++ x.extractLsb' 28 2 ++ 0#4 }).setAux e
        { y.auxOf e with old := r.status, cls := c, count := x.extractLsb' 16 12, broken := false, closeLeft := false, spawning := false, waves := 0 }) s

/-- GLEAVE (R291): the member's last wave; STATUS becomes closing at issue. -/
def execGleave (e : BitVec 4) (s : State) : Out :=
  let r := s.actor.ep e
  soundEp e s <|
  if r.pkind ≠ .collective ∨ r.status ≠ .opened then raiseOpen 0x180 s
  else if 4 ≤ r.waves then raiseOpen 0x187 s
  else contribute e .leave 0 0 0 (fun q => { q with status := .closing, ccause := 0, cbypeer := false }) s

/-- GWAIT (R298): checks 1, 8 and 9. -/
def execGwait (c : BitVec 6) (e : BitVec 4) (s : State) : Out :=
  let r := s.actor.ep e
  soundEp e s <|
  if r.pkind ≠ .collective ∨ r.status ≠ .opened then raiseOpen 0x180 s
  else outstanding e none s (contribute e .wait 0 0 c (fun q => { q with sent := q.sent + 1 }) s)

/-- GRED (R297). -/
def execGred (c : BitVec 6) (b a : BitVec 5) (e : BitVec 4) (s : State) : Out := waveOp .red c b a e s
/-- GBCAST (R297). -/
def execGbcast (c : BitVec 6) (b a : BitVec 5) (e : BitVec 4) (s : State) : Out := waveOp .bcast c b a e s
/-- GRS (R297). -/
def execGrs (c : BitVec 6) (b a : BitVec 5) (e : BitVec 4) (s : State) : Out := waveOp .rs c b a e s
/-- GAG (R297). -/
def execGag (c : BitVec 6) (b a : BitVec 5) (e : BitVec 4) (s : State) : Out := waveOp .ag c b a e s

end Sys2Proof.Machine
end

