-- ==== Sys2Proof/Machine/Handshake.lean ====
section
/-! DEFINITION. Handshakes (07_endpoint_registers.md R173, R174) with actors, host endpoints (08_system_registers.md R196 to R198) and the Depot (11_depot_and_residency.md R250 to R252), and the creation of a child (R184): CONNECT_REQUEST, CONNECT_ANSWER, CONNECT_CONFIRMATION, CONNECT_UNDO, SPAWN_REQUEST. -/

namespace Sys2Proof.Machine

/-! ## Numbers that the device chooses (log 8) -/

/-- The first number from a candidate on, around a range, that passes a test; `fuel` numbers are tried. -/
def firstFrom (free : Nat → Bool) (range : Nat) : Nat → Nat → Option Nat
  | 0, _ => none
  | fuel + 1, k => if free (k % range) then some (k % range) else firstFrom free range fuel (k + 1)

/-- A free value, and the state that has drawn it. -/
def State.drawNumber (s : State) : Nat × State := (Config.freeNumber s.tick, { s with tick := s.tick + 1 })

/-! ## Reports (R174) -/

/-- A report for an endpoint of an actor. -/
def reportMsg (who : AId) (e : BitVec 4) (cls : BitVec 6) (key : Key) (payload : Nat) : Msg :=
  { hdr := { key := key, dest := e.setWidth 20, cls := cls, len := 8, state := 0, join := false, ze := false, anti := false, close := false,
             label := false, deleg := false, colour := false, irrev := true, tenant := who.tenant, prio := 0, scope := 6, dmod := 0 },
    payload := leBytes payload 8, kind := .report, rcpt := who }

/-! ## The ends of a channel -/

/-- Check 4 or 5 and the binding of an actor's endpoint to a peer (R173). -/
def Actor.bindTo (a : Actor) (k : Core) (e : BitVec 4) (i : BitVec 7) (kind : PKind) (peer : BitVec 24) (pmod : BitVec 12) (peerId : BitVec 24)
    (status : EpStatus) : Except (BitVec 9) Actor :=
  if k.badItins.contains i.toNat then .error 0x1C4
  else match a.bind e (k.dirAt i).look (k.dirAt i).slot with
    | none => .error 0x0C1
    | some b =>
      .ok ((b.setEp e { b.ep e with status := status, itin := i, pkind := kind, peer := peer, pmod := pmod }).setAux e
        { b.auxOf e with peerId := peerId, spawning := false, holdDirect := false, forwardTo := none })

/-- The g[a] that names a connector (R173), as an accept's filter holds it. -/
def Conn.name (c : Conn) (here : BitVec 12) : Word :=
  BitVec.ofNat 64 ((if c.pmod = here then 0 else 5 * 2 ^ 61 + c.pmod.toNat * 2 ^ 28) + c.ep.toNat * 2 ^ 24 + c.actor.id.toNat)

/-- Checks 2 to 4 at an actor (R173): the actor with its endpoint connecting, or the cause; a directory entry that cannot be read fails them (R316). -/
def Actor.receiveConnect (a : Actor) (k : Core) (here : BitVec 12) (c : Conn) : Except (BitVec 9) Actor :=
  let e : BitVec 4 := c.peer.extractLsb' 24 4
  let r := a.ep e
  let x := a.auxOf e
  let d := k.dirAt r.itin
  if a.retired then .error 0x0C3
  else if r.status ≠ .armed ∨ (x.filter ≠ BitVec.allOnes 64 ∧ x.filter ≠ c.name here) then .error 0x0C2
  else if k.badItins.contains r.itin.toNat then .error 0x1C4
  else if c.fp ≠ d.dfp ∨ c.dfp ≠ d.fp then .error 0x0C0
  else a.bindTo k e r.itin (if c.pmod = here then .actor else .remote) (c.loc.peer c.ep) (if c.pmod = here then 0 else c.pmod) c.actor.id .connecting

/-! ## Host endpoints (R196 to R198) -/

def State.hostOf (s : State) (n : BitVec 17) : Option HostEp := s.hosts.find? fun h => h.num = n

def State.setHost (s : State) (h : HostEp) : State := { s with hosts := s.hosts.map fun x => if x.num = h.num then h else x }

/-- The function of a host endpoint: 17 functions a port, function 0 physical, function n for tenant n − 1 (R196). -/
def HostEp.fn (h : HostEp) : Nat := h.num.toNat / 65536 * 17 + h.tenant.toNat + 1

def State.ringOf (s : State) (h : HostEp) : Option Ring := s.rings.find? fun r => r.fn = h.fn && r.num = h.ring.toNat

/-- The slots of a ring (R198); a ring that is not set up has none. -/
def Ring.slots (r : Ring) : Nat := if 1 ≤ r.rsize.toNat ∧ r.rsize.toNat ≤ 12 then 2 ^ r.rsize.toNat else 0

/-- Whether a ring can hold one more endpoint's LOOK (R198). -/
def State.ringHolds (s : State) (h : HostEp) (look : Nat) : Bool :=
  let bound := (s.hosts.filter fun x => x.fn = h.fn && x.ring = h.ring && x.num ≠ h.num &&
    (x.record.status = .opened || x.record.status = .connecting || x.record.status = .closing)).map fun x => x.record.look.toNat
  decide (bound.sum + look ≤ ((s.ringOf h).map Ring.slots).getD 0)

/-- A host endpoint that takes the other side of a connector's itinerary (log 16): checks 1 to 4. -/
def State.admitHost (s : State) (h : HostEp) (states : List StateRec) (peer : BitVec 24) (peerId : BitVec 24) (itin : BitVec 7) : Except (BitVec 9) HostEp :=
  let look := lookOf states
  if h.record.status ≠ .free ∧ h.record.status ≠ .closed then .error 0x0C2
  else if ! s.ringHolds h look then .error 0x0C1
  else .ok { h with states := states, peerId := peerId,
                    record := { h.record with status := .connecting, pkind := .actor, look := BitVec.ofNat 8 look, itin := itin, state := 0, loop := 0,
                                              sent := 0, rcvd := 0, peer := peer, slot := BitVec.ofNat 13 (slotSize states) } }

/-! ## CONNECT_REQUEST -/

/-- The itinerary of a Depot service, as the connector writes it (R251). -/
def serviceRecs (v : Service) : List StateRec :=
  let (c, n) : BitVec 6 × Nat := match v with | .page => (40, 16) | .loader => (42, 8) | .checkpoint => (44, 32)
  [⟨2, c, 1, 1, 2, [1, 3], 4, 0⟩, ⟨0, c, 32, 32, 1, [2], 4, 0⟩, ⟨1, c + 1, n, n, 1, [0], 4, 0⟩, ⟨6, 0, 0, 0, 0, [], 4, 0⟩, ⟨7, 0, 0, 0, 0, [], 4, 0⟩]

/-- An answer on its way to the connector. -/
def State.answerTo (s : State) (st : Nat) (cause : BitVec 9) (c : Conn) (sender : BitVec 24) (kind : PKind) (peer : BitVec 24) (pmod : BitVec 12)
    (seq : BitVec 40) : State :=
  s.post st (satAdd c.key.vrt 1) (.answer ⟨cause, c, sender, kind, peer, pmod, seq⟩)

/-- A connect for the Depot (R250, R252). In minimal mode the page and checkpoint services are absent. -/
def State.connectDepot (s : State) (c : Conn) : State :=
  let v : Service := match (c.peer.extractLsb' 22 2).toNat with | 0 => .page | 1 => .loader | _ => .checkpoint
  let t := c.actor.tenant
  let l := serviceRecs v
  let refuse (cause : BitVec 9) : State :=
    let x := s.drawNumber
    x.2.answerTo depotStation cause c (BitVec.ofNat 24 (0xFD0000 + x.1 % 65536)) .depot 0 0 (BitVec.ofNat 40 x.1)
  if s.mgmt.minimal ∧ v ≠ .loader then refuse 0x0C3
  else if c.fp ≠ fingerprint l ∨ c.dfp ≠ fingerprint (dualRecs l) then refuse 0x0C0
  else if 4096 ≤ (s.chans.filter fun x => x.2.actor.tenant = t).length then refuse 0x0C1
  else
    let x := s.drawNumber
    match firstFrom (fun k => ! s.chans.any fun y => y.1 = k) 65536 65536 x.1 with
    | none => refuse 0x0C1
    | some n =>
      let u := { x.2 with chans := put n ⟨v, c.actor, c.loc, c.ep, 1, true⟩ x.2.chans }
      u.answerTo depotStation 0 c (BitVec.ofNat 24 (0xFD0000 + n)) .depot (c.peer.extractLsb' 22 2 ++ t ++ BitVec.ofNat 18 n) 0 0

/-- Whether an endpoint has taken a connect of a greater key in this cycle: of those that reach it in one cycle the lowest wins (R172). -/
def EpAux.askedLater (x : EpAux) (now : Nat) (key : Key) : Bool := x.asked.any fun y => y.1 = now && key.before y.2

/-- CONNECT_REQUEST (R172, R173): the acceptor checks a connect and allocates its buffer, or answers with a cause. -/
def execConnectRequest (n : Nat) (s : State) : Out :=
  let no := notEnabled "CONNECT_REQUEST"
  match s.packet n with
  | some (.connect d c) =>
    match d with
    | .home who =>
      match s.locOf who with
      | some l =>
        let e : BitVec 4 := c.peer.extractLsb' 24 4
        if s.halted l.core ∨ ((look Actor.zero l.slot.toNat (s.core l.core).actors).auxOf e).askedLater s.time c.key then no
        else
          let t := s.take n l.core.toNat
          .next (t.at l.core t.cx fun u =>
            let a := u.actorAt l.slot
            match a.receiveConnect u.hereCore u.coords c with
            | .ok b =>
              ((u.setActorAt l.slot (b.setAux e { b.auxOf e with asked := some (u.time, c.key) }).bump).answerTo u.here.toNat 0 c who.id (if c.pmod = u.coords then .actor else .remote)
                (l.peer e) u.coords a.seq)
            | .error x => (u.setActorAt l.slot a.bump).answerTo u.here.toNat x c who.id .actor 0 0 a.seq)
      | none =>
        let t := s.take n (baseStation (homeOf who))
        -- a request for an evicted actor waits at its home base
        if (s.savedOf who).isSome then
          let b := t.base (homeOf who)
          .next (t.setBase (homeOf who) { b with conns := b.conns ++ [c] })
        else
          let x := t.drawNumber
          .next (x.2.answerTo (baseStation (homeOf who)) 0x0C3 c who.id .actor 0 0 (BitVec.ofNat 40 x.1))
    | .depot _ => .next ((s.take n depotStation).connectDepot c)
    | .host num =>
      let st := hostStation (num.toNat / 65536)
      let t := s.take n st
      let sender (num : BitVec 17) : BitVec 24 := BitVec.ofNat 24 (0xFF0000 + num.toNat % 65536)
      match t.hostOf num with
      | none =>
        let x := t.drawNumber
        .next (x.2.answerTo st 0x0C3 c (sender num) .host 0 0 (BitVec.ofNat 40 x.1))
      | some h =>
        let k := t.core c.loc.core
        let i := ((look Actor.zero c.loc.slot.toNat k.actors).ep c.ep).itin
        let r : Except (BitVec 9) HostEp :=
          if h.tenant ≠ c.actor.tenant then .error 0x0C3
          else match k.findItin c.actor.tenant c.fp with
            | none => .error 0x0C0
            | some j => t.admitHost h (dualRecs (k.recsOf j)) (c.loc.peer c.ep) c.actor.id i
        match r with
        | .ok g => .next ((t.setHost { g with seq := g.seq + 1 }).answerTo st 0 c (sender num) .host (0#3 ++ num ++ 0#4) 0 h.seq)
        | .error e => .next ((t.setHost { h with seq := h.seq + 1 }).answerTo st e c (sender num) .host 0 0 h.seq)
    | .link _ _ _ => onLink "CONNECT_REQUEST" (s.toLink n (.connect (.home ⟨c.actor.tenant, c.peer.setWidth 24⟩) c))
    | _ => no
  | _ => no

/-! ## CONNECT_ANSWER -/

/-- Where an acceptor is told of the handshake's outcome. -/
def Answer.toAcceptor (x : Answer) : Dest :=
  match x.pkind with
  | .depot => .depot (x.peer.setWidth 18)
  | .host => .host (x.peer.extractLsb' 4 17)
  | .remote => .link x.pmod (peerLoc x.peer) (peerEp x.peer)
  | _ => .ep (peerLoc x.peer) (peerEp x.peer)

/-- The directory of the core whose tables an actor uses, with its counts as they stand (R313). -/
def State.syncFor (s : State) (who : AId) : State :=
  match s.locOf who with
  | some l => s.syncDir l.core
  | none => match s.savedOf who with
    | some x => s.syncDir x.last.core
    | none => s

/-- CONNECT_ANSWER (R173, R174): the connector makes check 5, opens and confirms, or undoes; its report is queued. A connector that has been killed answers the acceptor with 0x0CE. -/
def execConnectAnswer (n : Nat) (s : State) : Out :=
  match s.packet n with
  | some (.answer x) =>
    let c := x.conn
    if c.pmod ≠ s.coords then onLink "CONNECT_ANSWER" (s.toLink n (.answer x))
    else if s.halted c.loc.core then notEnabled "CONNECT_ANSWER"
    else
      let acceptor : AId := ⟨c.actor.tenant, x.acceptor⟩
      let here := (s.locOf c.actor).isSome || (s.savedOf c.actor).isSome
      let st := match s.locOf c.actor with | some l => l.core.toNat | none => baseStation (homeOf c.actor)
      let t := s.take n st
      if ! here then .next (if x.cause = 0 then t.post st (BitVec.allOnes 64) (.undo x.toAcceptor acceptor c.key 0x0CE) else t)
      else .next ((t.onActor c.actor fun core st _ t a =>
        let r := a.ep c.ep
        let y := a.auxOf c.ep
        let out : Except (BitVec 9) Actor :=
          if x.cause ≠ 0 then .error x.cause
          else if r.status ≠ .connecting then .error 0x0CE
          else a.bindTo (t.core core) c.ep r.itin x.pkind x.peer (if x.pkind = .remote then x.pmod else 0) x.acceptor .opened
        let key : Key := ⟨satAdd c.key.vrt 1, x.acceptor, x.seq⟩
        match out with
        | .ok b =>
          (t.post st (BitVec.allOnes 64) (.confirm x.toAcceptor acceptor c.key),
            b.await c.ep (reportMsg c.actor c.ep y.cls key 0) t.time)
        | .error e =>
          let b := if r.status = .connecting then a.setEp c.ep { r with status := y.old } else a
          (if x.cause = 0 then t.post st (BitVec.allOnes 64) (.undo x.toAcceptor acceptor c.key e) else t,
            b.await c.ep (reportMsg c.actor c.ep y.cls key e.toNat) t.time)).syncFor c.actor)
  | _ => notEnabled "CONNECT_ANSWER"

/-! ## CONNECT_CONFIRMATION and CONNECT_UNDO -/

/-- CONNECT_CONFIRMATION (R173, R174): the acceptor's endpoint opens; its report carries the connector's key. -/
def execConnectConfirmation (n : Nat) (s : State) : Out :=
  let no := notEnabled "CONNECT_CONFIRMATION"
  match s.packet n with
  | some (.confirm d who key) =>
    if s.barred d ∨ ! s.first n (.confirm d who key) then no
    else
      let t := s.take n d.station
      match d with
      | .link _ _ _ => onLink "CONNECT_CONFIRMATION" (s.toLink n (.confirm d who key))
      | .depot _ => .next t
      | .host num => .next (match t.hostOf num with
        | some h => if h.record.status = .connecting then t.setHost { h with record := { h.record with status := .opened } } else t
        | none => t)
      | _ =>
        let e := d.endpoint
        .next (t.onActor who fun _ _ _ t a =>
          let r := a.ep e
          if r.status = .connecting then
            (t, ((a.setEp e { r with status := .opened }).setAux e { a.auxOf e with asked := none }).await e (reportMsg who e (a.auxOf e).cls key 0) t.time)
          else (t, a))
  | _ => no

/-- CONNECT_UNDO (R173, R174): the acceptor's run is freed and its endpoint is armed again. -/
def execConnectUndo (n : Nat) (s : State) : Out :=
  let no := notEnabled "CONNECT_UNDO"
  match s.packet n with
  | some (.undo d who key cause) =>
    if s.barred d ∨ ! s.first n (.undo d who key cause) then no
    else
      let t := s.take n d.station
      match d with
      | .link _ _ _ => onLink "CONNECT_UNDO" (s.toLink n (.undo d who key cause))
      | .depot ch => .next { t with chans := drop (ch.toNat % 65536) t.chans }
      | .host num => .next (match t.hostOf num with
        | some h => if h.record.status = .connecting then t.setHost { h with record := { h.record with status := .closed } } else t
        | none => t)
      | _ =>
        let e := d.endpoint
        .next (t.onActor who fun _ _ _ t a =>
          let r := a.ep e
          if r.status = .connecting then
            (t, ((a.setEp e { r with status := .armed }).setAux e { a.auxOf e with run := none, asked := none }).await e (reportMsg who e (a.auxOf e).cls key cause.toNat) t.time)
          else (t, a))
  | _ => no

/-! ## SPAWN_REQUEST (R184) -/

/-- The identifiers that spawn assigns (R196, R252, R288, R327): below those of the homes' notices, the Depot, the groups and the hosts. -/
def spawnIds : Nat := 0xFC0000

/-- Whether an identifier of a tenant is in use. -/
def State.inUse (s : State) (a : AId) : Bool := (s.locOf a).isSome || (s.savedOf a).isSome

/-- The free slots of a core. -/
def Core.freeSlots (k : Core) : List Nat := (List.range 16).filter fun i => ! k.actors.any fun a => a.1 = i

/-- The bytes of an image's data records, read under a requester's rights (R303); none when a page may not be read. -/
def State.dataOf (s : State) (c : CoreId) (t : BitVec 4) (img : Image) : Option (List (Nat × Nat × List Byte)) :=
  img.data.foldr (fun r l => match l with
    | none => none
    | some l =>
      if (s.engineRefused c t false r.2.2.2 r.2.2.1).isSome then none else some ((r.1, r.2.1, s.engineBytes r.2.2.2 r.2.2.1) :: l)) (some [])

/-- The child of a spawn on its target core: its identifier, its slot and the core with it, or the cause that refuses it; a directory entry that cannot be read does (R316). -/
def State.child (s : State) (c : Conn) (arg : Word) (parent : Actor) (pi : BitVec 7) : Except (BitVec 9) (AId × Nat × Core × Actor) × State :=
  let t := c.actor.tenant
  let core : CoreId := arg.setWidth 12
  let k := s.core core
  let x := s.drawNumber
  let y := x.2.drawNumber
  match k.images.find? fun i => i.tenant = t && i.num = arg.extractLsb' 16 16 with
  | none => (.error 0x0CB, y.2)
  | some img =>
    let id := firstFrom (fun i => ! s.inUse ⟨t, BitVec.ofNat 24 i⟩) spawnIds spawnIds x.1
    match k.freeSlots[y.1 % max 1 k.freeSlots.length]?, id, s.dataOf c.loc.core t img with
    | some slot, some id, some data =>
      let who : AId := ⟨t, BitVec.ofNat 24 id⟩
      match (if k.zonesFit img.zones then newActor who img.num img.disc img.prio img.budget img.zones img.junction s.time else none) with
      | none => (.error 0x0CC, y.2)
      | some a =>
        if (s.core c.loc.core).badItins.contains pi.toNat ∨ k.findBad t c.dfp then (.error 0x1C4, y.2)
        else match k.findItin t c.dfp with
        | none => (.error 0x0C0, y.2)
        | some i =>
          let d := (s.core c.loc.core).dirAt pi
          match a.bindTo k 0 i .actor (c.loc.peer c.ep) 0 c.actor.id .opened, parent.bind c.ep d.look d.slot with
          | .ok b, some p => (.ok (who, slot, k.settleActor slot b data, p), y.2)
          | .error e, _ => (.error e, y.2)
          | _, none => (.error 0x0C1, y.2)
    | _, _, _ => (.error 0x0CC, y.2)

/-- Whether a packet is a message that a parent has sent its child before the child stands (R184). -/
def Flying.ahead (parent : AId) (e : BitVec 4) (f : Flying) : Bool :=
  match f.pkt with
  | .msg (.child a n) _ => a = parent && n = e
  | _ => false

/-- Those messages sent on to the child. -/
def sentAhead (parent : AId) (e : BitVec 4) (l : Loc) (who : AId) (fl : List Flying) : List Flying :=
  fl.map fun f => match f.pkt with
    | .msg (.child a n) x =>
      if a = parent ∧ n = e then { f with pkt := .msg (.ep l 0) { x with hdr := { x.hdr with dest := (l.peer 0).extractLsb' 4 20 }, rcpt := who } } else f
    | _ => f

/-- Those messages discarded and counted at a station, by their number; a delegation among them closes its channel (R183). -/
def State.dropAhead (parent : AId) (e : BitVec 4) (st : Nat) : Nat → State → State
  | 0, s => s
  | n + 1, s =>
    match s.flight.findIdx? (Flying.ahead parent e) with
    | some i => State.dropAhead parent e st n (match s.packet i with
      | some p => (s.take i st).losePacket st p
      | none => s)
    | none => s

/-- SPAWN_REQUEST (R184): the target core checks, creates the child and reports. The parent's endpoint opens with it. -/
def execSpawnRequest (n : Nat) (s : State) : Out :=
  let no := notEnabled "SPAWN_REQUEST"
  match s.packet n with
  | some (.spawn c arg pi _) =>
    let core : CoreId := arg.setWidth 12
    if s.halted core ∨ s.halted c.loc.core then no
    else
      let t := s.take n core.toNat
      if ! t.inUse c.actor then .next (State.dropAhead c.actor c.ep core.toNat t.flight.length t)
      else
        let parent : Actor := match t.locOf c.actor with
          | some l => look Actor.zero l.slot.toNat (t.core l.core).actors
          | none => ((t.savedOf c.actor).map fun x => x.actor).getD Actor.zero
        let y := parent.auxOf c.ep
        match t.child c arg parent pi with
        | (.ok (who, slot, k, p), u) =>
          let l : Loc := ⟨core, BitVec.ofNat 4 slot⟩
          let a := look Actor.zero slot k.actors
          let k := { k with actors := put slot { a with seq := 1 } k.actors }
          let u := (u.setCore core k).syncDir core
          let u := { u with flight := sentAhead c.actor c.ep l who u.flight }
          let q := (p.setEp c.ep { p.ep c.ep with status := .opened, sent := (parent.ep c.ep).sent, state := (parent.ep c.ep).state,
                                                  loop := (parent.ep c.ep).loop, peer := l.peer 0 }).setAux c.ep
            { p.auxOf c.ep with peerId := who.id, spawning := false }
          .next ((u.onActor c.actor fun _ _ _ t _ =>
            (t, q.await c.ep (reportMsg c.actor c.ep y.cls ⟨satAdd c.key.vrt 1, who.id, 0⟩ (who.id.toNat * 512)) t.time)).syncFor c.actor)
        | (.error e, u) =>
          let u := State.dropAhead c.actor c.ep core.toNat u.flight.length u
          let x := u.drawNumber
          .next ((x.2.onActor c.actor fun _ _ _ t a =>
            (t, (a.setEp c.ep { a.ep c.ep with status := y.old }).await c.ep
              (reportMsg c.actor c.ep y.cls ⟨satAdd c.key.vrt 1, BitVec.ofNat 24 x.1, BitVec.ofNat 40 x.1⟩ e.toNat) t.time)).syncFor c.actor)
  | _ => no

end Sys2Proof.Machine
end

