-- ==== Sys2Proof/Machine/Depot.lean ====
section
/-! DEFINITION. The Depot's page service, actor residency and checkpoints (11_depot_and_residency.md R246 to R267, R400): PAGE_OUT, PAGE_IN, DEPOSIT, DISCARD, PERSIST, EVICT_ACTOR, RELOAD_ACTOR, CHECKPOINT_TAKE, CHECKPOINT_RESTORE, CHECKPOINT_QUERY. -/

namespace Sys2Proof.Machine

/-! ## Taking a page out of DRAM (R243, R325) -/

/-- Steps 1 and 2 of R243 done: no walk of a page in progress, no request to it past translation or half done, no update, invalidation or acknowledgement of its lines on its way, and no held line that waits for one. -/
def State.quiet (s : State) (p : Nat) : Bool :=
  let mine (l : Nat) : Bool := l / 512 = p
  ! s.walking p &&
    ! (s.flight.any fun f => match f.pkt with
      | .mem r => (r.crossed || decide (0 < r.pos)) && r.lines.any mine
      | .inval _ l _ _ => mine l
      | .homeAck _ ls _ _ _ => ls.any mine
      | _ => false) &&
    ! (s.bases.any fun c => (c.2.parked.any fun x => x.page = p && (decide (0 < x.req.pos) || (x.req.isSc && x.req.crossed))) ||
      c.2.cache.any fun x => mine x.line && x.unacked ≠ 0)

/-- Step 3 of R243: the page's lines leave every crossing cache, its translation the cache of its home. -/
def State.dropLines (s : State) (p : Nat) : State :=
  let mine (l : Nat) : Bool := l / 512 = p
  let t : State := { s with bases := s.bases.map fun (c : Nat × Base) => (c.1, { c.2 with cache := c.2.cache.filter (fun x => ! mine x.line), badLines := c.2.badLines.filter fun l => ! mine l }) }
  let b := t.base (homePage p)
  t.setBase (homePage p) { b with presence := b.presence.filter (fun x => ! mine x.1), tcache := b.tcache.filter (· ≠ p) }

/-- A page's frame given up. -/
def State.dropFrame (s : State) (p : Nat) : State :=
  let l := s.leaf p
  if ! l.valid then s
  else
    let f := l.frame.toNat
    let b := s.base (homePage p)
    s.setBase (homePage p) { b with dram := b.dram.clear (f * 65536) ((f + 1) * 65536), taken := b.taken.filter (· ≠ f),
                                    badDram := b.badDram.filter fun w => ! (decide (f * 8192 ≤ w) && decide (w < (f + 1) * 8192)) }

/-- A page made invalid, neither in DRAM nor in the Depot (R253 OP 3); the generation of its place goes on (R249). -/
def State.discardPage (s : State) (p : Nat) : State :=
  let t := (s.dropLines p).dropFrame p
  { t.setLeaf p { s.leaf p with valid := false, depot := false, dirty := false, cow := false } with depot := put p ⟨(s.depotPage p).gen, [], false⟩ t.depot }

/-- A page's content wherever it is. -/
def State.pageContent (s : State) (p : Nat) : List Host.Cell := if (s.leaf p).valid then s.pageCells p else (s.depotPage p).cells

/-! ## Page requests (R253, R256, R257) -/

def DepotReq.pages (r : DepotReq) : List Nat := (List.range r.page.count).map (r.page.first + ·)

/-- The reply of the page service (R257). -/
def pageReply (status : BitVec 9) (n : Nat) (w : Nat) : List Byte := leBytes (n * 65536 + status.toNat) 8 ++ leBytes w 8

/-- Whether a page is allocated to a tenant. -/
def State.owns (s : State) (t : BitVec 4) (p : Nat) : Bool := ((s.leaf p).valid || (s.leaf p).depot) && (s.leaf p).tenant = t

/-- Whether the pages of a list that are not in DRAM find frames. -/
def State.framesFor (s : State) (ps : List Nat) : Bool :=
  let out := ps.filter fun p => ! (s.leaf p).valid
  (List.range 8).all fun h => decide ((out.filter fun p => homePage p = h).length ≤ (s.base h).freeFrames)

/-- Whether an operation on a page that the engine took before the request at a place is left (R255). -/
def State.pageTaken (s : State) (n : Nat) (r : DepotReq) : Bool :=
  ! r.pageBad && (List.range n).any fun i => match s.served i .page with
    | some (q, _) => q.page.op < 5 && ! q.pageBad && q.pages.any r.pages.contains
    | none => false

/-- The class of a page request in the order of R256, and whether it can go on now: after the earlier operations on its pages (R255), with its pages quiet or its frames free, and no walk in progress of a leaf that it changes (R325). -/
def DepotReq.rank (r : DepotReq) : Nat := if r.page.op = 1 ∨ r.page.op = 2 then 2 else 3

def State.readyPages (s : State) (n : Nat) (r : DepotReq) : Bool :=
  ! s.pageTaken n r && match r.page.op with
    | 0 => r.pages.all s.quiet
    | 1 => s.framesFor r.pages && ! r.pages.any s.walking
    | 2 => (match s.locOf r.actor with | some l => ! s.halted l.core | none => true)
    | 3 => r.pages.all s.quiet
    | 4 => ! r.pages.any s.walking
    | _ => true

/-- Whether no request of its class stands before the page request at a place (R256). -/
def State.firstOfClass (s : State) (n : Nat) (r : DepotReq) : Bool :=
  (List.range n).all fun i => match s.served i .page with
    | some (q, _) => 5 ≤ q.page.op || q.rank ≠ r.rank
    | none => true

/-- Whether a page request is the next by R256: no demand page-in can go on, it is the first of its class, and the first of the other class, where that comes before, cannot go on. -/
def State.nextPage (s : State) (n : Nat) (r : DepotReq) : Bool :=
  s.demands.isEmpty && s.readyPages n r && s.firstOfClass n r && (List.range s.depotQ.length).all fun i => match s.served i .page with
    | some (q, _) => 5 ≤ q.page.op || decide (r.rank ≤ q.rank) || ! s.firstOfClass i q || ! s.readyPages i q
    | none => true

/-- A page request that is next, of an operation, for the step with that name. -/
def withPages (name : String) (op : Nat → Bool) (n : Nat) (s : State) (k : DepotReq → DepotChan → Out) : Out :=
  match s.served n .page with
  | some (r, c) => if op r.page.op ∧ (r.page.op ≥ 5 ∨ s.nextPage n r) then k r c else notEnabled name
  | none => notEnabled name

/-- The pages of a request in rising order, up to the first that fails: what each does, the pages done, the sectors. -/
def eachPage (f : State → Nat → Except (BitVec 9) (State × Nat)) : List Nat → State → Nat → Nat → State × BitVec 9 × Nat × Nat
  | [], s, n, k => (s, 0, n, k)
  | p :: l, s, n, k =>
    match f s p with
    | .ok (t, m) => eachPage f l t (n + 1) (k + m)
    | .error c => (s, c, n, k)

/-- A multi-page request served and answered. -/
def servePages (sectors : Bool) (f : State → Nat → Except (BitVec 9) (State × Nat)) (r : DepotReq) (s : State) : Out :=
  if r.pageBad then .next (s.depotReply r (pageReply 0x1A6 0 0))
  else
    let x := eachPage (fun s p => if s.owns r.actor.tenant p then f s p else .error 0x1A6) r.pages s 0 0
    .next (x.1.depotReply r (pageReply x.2.1 x.2.2.1 (if sectors then x.2.2.2 else 0)))

/-- PAGE_OUT (R254). OP 7 to 15 are answered here. -/
def execPageOut (n : Nat) (s : State) : Out :=
  withPages "PAGE_OUT" (fun op => op = 0 || decide (7 ≤ op)) n s fun r _ =>
    servePages true (fun s p =>
      if ! (s.leaf p).valid then .ok (s, 0)
      else match s.persistPage p with
        | .error c => .error c
        | .ok (t, m) =>
          let u := (t.dropLines p).dropFrame p
          .ok (u.setLeaf p { t.leaf p with valid := false, depot := true }, m)) r s

/-- PAGE_IN (R253). It waits until frames are free (log 17); what it leaves without a frame is told to the pagers (R327). -/
def execPageIn (n : Nat) (s : State) : Out :=
  withPages "PAGE_IN" (fun op => op = 1) n s fun r _ =>
    servePages false (fun s p =>
      if (s.leaf p).valid then .ok (s, 0)
      else if (s.depotPage p).bad then .error 0x1C8
      else match (s.base (homePage p)).freeFrame with
        | some f => .ok (((s.pageInto p f).unpark p).noFrame (homePage p), 0)
        | none => .ok (s, 0)) r s

/-- DEPOSIT (R256): into one scratch zone of the requesting actor. -/
def execDeposit (n : Nat) (s : State) : Out :=
  withPages "DEPOSIT" (fun op => op = 2) n s fun r _ =>
    let p := r.page.first
    let len := r.word 2 / 2 ^ 32 % 2 ^ 18
    let la := r.word 2 % 2 ^ 18
    if r.pageBad then .next (s.depotReply r (pageReply 0x1A6 0 0))
    else if ! s.owns r.actor.tenant p then .next (s.depotReply r (pageReply 0x1A6 0 0))
    else match s.locOf r.actor with
      | none => .next (s.depotReply r (pageReply 0x1AF 0 0))
      | some l =>
        let a := look Actor.zero l.slot.toNat (s.core l.core).actors
        if ! a.inScratch la len then .next (s.depotReply r (pageReply 0x1AF 0 0))
        else
          let bad := if (s.leaf p).valid then
              (if (wordsOf (s.dramAddr (p * 65536)) len).any fun w => (s.base (homePage p)).badDram.contains w then some (0x1C5 : BitVec 9) else none)
            else if (s.depotPage p).bad then some 0x1C8 else none
          match bad with
          | some c => .next (s.depotReply r (pageReply c 0 0))
          | none =>
            let t := s.at l.core s.cx fun u => (u.setHere (u.hereCore.engineWrite la (u.engineBytes (p * 65536) len))).wakeHere
            .next (t.depotReply r (pageReply 0 1 0))

/-- DISCARD (R253). -/
def execDiscard (n : Nat) (s : State) : Out :=
  withPages "DISCARD" (fun op => op = 3) n s fun r _ => servePages false (fun s p => .ok (s.discardPage p, 0)) r s

/-- PERSIST (R253). -/
def execPersist (n : Nat) (s : State) : Out :=
  withPages "PERSIST" (fun op => op = 4) n s fun r _ => servePages true (fun s p => s.persistPage p) r s

/-! ## Residency (R258 to R260) -/

/-- Frames of a save pool in use (R400). -/
def Base.poolTaken (b : Base) : Nat := b.poolUsed.toNat + (b.spills.map fun x => (x.2 + 1023) / 1024).sum

/-- Whether an actor's activation, moves, copy commands and releases have ended (R258 step 1). -/
def State.still (s : State) (k : BitVec 4) : Bool :=
  let a := s.actorAt k
  (s.ctxOf k).isNone && (s.hereCore.called.all fun x => x.1 ≠ k) && (s.hereCore.fenced.all fun x => x.slot ≠ k) &&
    (s.hereCore.cq.all fun c => c.loc.slot ≠ k) && a.aux.toList.all fun x => x.forwardTo.isNone && ! x.holdDirect

/-- Whether an address lies in a zone that an eviction copies. -/
def Actor.copied (a : Actor) (addr : Nat) : Bool :=
  match a.zoneOf (addr / 64) with
  | some z => z.kind ≠ .scratch
  | none => false

/-- The actor in a slot of the core in focus saved at its home base (R258); the words that cannot be read make the area bad. -/
def State.evict (s : State) (k : BitVec 4) (toDepot : Bool) : State :=
  let a := s.actorAt k
  let c := s.hereCore
  let h := homeOf a.aid
  let full := c.full.filter fun w => a.copied (8 * w)
  let x : Saved :=
    { actor := a, pad := c.pad.cells.filter fun p => a.copied p.1, full := full,
      deferral := c.deferral.filter fun d => d.slot = k, antis := c.antis.filter fun y => y.1 = a.aid, last := ⟨s.here, k⟩,
      inDepot := toDepot, frames := if toDepot then 0 else 4, bad := false }
  let b := s.base h
  ((s.setBase h { b with saved := b.saved ++ [x], poolUsed := b.poolUsed + (if toDepot then 0 else 4) }).setHere (c.vacate k)).syncDir s.here

/-- Whether a request of an operation on an actor, taken before the one at a place, is left (R260). -/
def State.actorTaken (s : State) (n op : Nat) (who : AId) : Bool :=
  (List.range n).any fun i => match s.served i .page with
    | some (q, _) => q.page.op = op && ! q.pageBad && q.actor.tenant = who.tenant && q.word 0 = who.id.toNat
    | none => false

/-- Whether an earlier eviction on a core is left (R258, R260). -/
def State.evictsFirst (s : State) (n : Nat) (c : CoreId) : Bool :=
  (List.range n).any fun i => match s.evictionAt i with
    | some a => (s.locOf a).map (fun l => l.core) = some c
    | none => false

/-- EVICT_ACTOR (R258): once the actor is still, after an earlier eviction on its core and an earlier reload of it (R260). -/
def execEvictActor (n : Nat) (s : State) : Out :=
  withPages "EVICT_ACTOR" (fun op => op = 5) n s fun r _ =>
    let who : AId := ⟨r.actor.tenant, BitVec.ofNat 24 (r.word 0)⟩
    let answer (s : State) (c : BitVec 9) : Out := .next (s.depotReply r (pageReply c 0 0))
    if r.pageBad then answer s 0x1A6
    else if ! s.fromPager r.actor then answer s 0x1A9
    else if s.actorTaken n 6 who then notEnabled "EVICT_ACTOR"
    else match s.locOf who with
      | none => answer s 0x1AA
      | some l =>
        if s.evictsFirst n l.core then notEnabled "EVICT_ACTOR"
        else s.atOut l.core 0 fun t =>
          let b := t.base (homeOf who)
          let a := t.actorAt l.slot
          if a.retired then answer t 0x1AA
          else if ! t.still l.slot ∨ t.hereCore.stopped then notEnabled "EVICT_ACTOR"
          else if b.poolFrames.toNat < b.poolTaken + 4 then answer t 0x1AB
          else if ! a.bad.isEmpty ∨ t.hereCore.badPad.any (fun w => a.copied (8 * w)) then answer (t.killAt l.slot 0x1CD) 0x1CD
          else
            let toDepot := r.word 1 / 2 ^ 56 % 2 = 1
            if toDepot ∧ depotSectors < t.sectorsUsed + areaSectors who then answer (t.evict l.slot false) 0x1A7 else answer (t.evict l.slot toDepot) 0

/-- Whether an endpoint has a peer that sends to it (R259): it is open, delegated with its delegation still here, an acceptor whose handshake goes on, or closing with its close still to leave. -/
def Actor.hasPeer (a : Actor) (e : BitVec 4) : Bool :=
  let r := a.ep e
  r.pkind ≠ .collective && (r.status = .opened || r.status = .delegated || (r.status = .connecting && (a.auxOf e).asked.isSome) ||
    (r.status = .closing && ! (a.auxOf e).closeLeft))

/-- An endpoint whose channel moves with a reload: its peer is told, the home base being the old location (R182, R259). -/
def relocateAll (l old : Loc) (s : State) (a : Actor) : State × Actor :=
  (programEps.filter a.hasPeer).foldl (fun p e =>
    (p.1.post l.core.toNat (BitVec.allOnes 64) (.reloc (p.2.dest e) (p.2.peerOf e) ⟨s.coords, l, e, a.aid.id, s.coords, old, e, a.aid.id, true⟩),
      p.2.setAux e { p.2.auxOf e with holdDirect := true })) (s, a)

/-- The registry's record of a member that has moved. -/
def State.memberMoved (s : State) (who : AId) (l : Loc) : State :=
  { s with groups := s.groups.map fun g => (g.1, { g.2 with members := g.2.members.map fun m => if m.actor = who then { m with loc := l } else m }) }

/-- The rollbacks that what was held at the home base calls for (R260), wherever an anti-message stands now (R278); what waits for a slot calls for none yet (log 75). -/
def State.lateCalls (s : State) (k : BitVec 4) : State :=
  let a := s.actorAt k
  let t := (a.box.filter fun h => ! h.consumed && h.place ≠ .waiting).foldl (fun (t : State) h => if t.straggles k h.msg.hdr.key then t.call k h.msg.hdr.key false else t) s
  let stored := (t.hereCore.antis ++ (t.base (homeOf a.aid)).heldAntis).filterMap fun x => if x.1 = a.aid then some x.2.key else none
  let spilled := a.log.filterMap fun p => match p.entry with
    | .spilledAnti h => some h.key
    | _ => none
  (stored ++ spilled).foldl (fun (t : State) q =>
    match consumerIn q a.log false with
    | some key => t.call k key true
    | none => t) t

/-- The connects that have waited for an actor at its home base sent on (R173). -/
def State.postConns (s : State) (who : AId) : State :=
  let h := homeOf who
  let b := s.base h
  let mine := b.conns.filter fun c => c.names s.coords who
  mine.foldl (fun t c => t.post (baseStation h) c.key.vrt (.connect (.home who) c))
    (s.setBase h { b with conns := b.conns.filter fun c => ! c.names s.coords who })

/-- A save area copied into a slot of a core (R259 step 3): its zones, what is held beside it, its endpoints' relocations; held rollbacks and a held trap that is safe follow. -/
def State.reload (s : State) (x : Saved) (l : Loc) : State :=
  let who := x.actor.aid
  let h := homeOf who
  let b := s.base h
  let a := { x.actor with freedAt := s.time }
  let s := s.setBase h { b with saved := b.saved.filter (fun z => z.actor.aid ≠ who), poolUsed := b.poolUsed - BitVec.ofNat 24 x.frames }
  let k := (s.core l.core).clearZones (a.zones.toList.filter fun z => z.valid)
  let k := { k with pad := x.pad.foldl (fun m c => m.set c.1 c.2) k.pad, full := x.full.foldl (fun m w => insertNat w m) k.full,
                    deferral := k.deferral ++ x.deferral.map (fun d => { d with slot := l.slot }), actors := put l.slot.toNat a k.actors }
  let p := relocateAll l x.last (s.setCore l.core k) a
  let t := p.1.at l.core 0 fun u =>
    let u := (u.setActorAt l.slot p.2).scatter l.slot
    let u := x.antis.foldl (fun (u : State) y => u.storeAnti l.slot y.2) u
    let u := (u.lateCalls l.slot).settle l.slot
    let u := match (u.actorAt l.slot).pending, (u.actorAt l.slot).ended with
      | some q, [e] => if u.safeHere e.key.vrt then u.trapHeld l.slot q e.key else u
      | _, _ => u
    u.wakeHere
  (((t.memberMoved who l).postConns who).syncDir l.core).syncDir x.last.core

/-- RELOAD_ACTOR (R259): after the actor's eviction, if it is under way (R260), the area is paged in, the target is checked, and the area is copied into its scratchpad, in the lowest free slot (R398, log 104). -/
def execReloadActor (n : Nat) (s : State) : Out :=
  withPages "RELOAD_ACTOR" (fun op => op = 6) n s fun r _ =>
    let who : AId := ⟨r.actor.tenant, BitVec.ofNat 24 (r.word 0)⟩
    let answer (s : State) (c : BitVec 9) (w : Nat) : Out := .next (s.depotReply r (pageReply c 0 w))
    if r.pageBad then answer s 0x1A6 0
    else if ! s.fromPager r.actor then answer s 0x1A9 0
    else if s.actorTaken n 5 who then notEnabled "RELOAD_ACTOR"
    else match s.savedOf who with
      | none => answer s 0x1AA 0
      | some x =>
        let core : CoreId := BitVec.ofNat 12 (r.word 2)
        let b := s.base (homeOf who)
        if s.halted core then notEnabled "RELOAD_ACTOR"
        else if x.inDepot ∧ x.bad then answer s 0x1C8 0
        else if x.inDepot ∧ b.poolFrames.toNat < b.poolTaken + 4 then answer s 0x1AB 0
        else if x.bad then answer (s.killSaved x 0x1CD) 0x1CD 0
        else
          let x' := { x with inDepot := false, frames := 4 }
          let s := if x.inDepot then s.setBase (homeOf who) { b with poolUsed := b.poolUsed + 4, saved := b.saved.map fun z => if z.actor.aid = who then x' else z } else s
          let k := s.core core
          match k.freeSlots.head? with
          | none => answer s 0x1AC 0
          | some slot =>
            if ! k.zonesFit x.actor.zones ∨ ! (k.images.any fun i => i.tenant = who.tenant && i.num = x.actor.image) then answer s 0x1AC 0
            else
              let l : Loc := ⟨core, BitVec.ofNat 4 slot⟩
              answer (s.reload x' l) 0 ((l.peer 0).toNat * 2 ^ 13)

/-! ## Checkpoints (R262 to R265) -/

/-- Eight bytes of which the manual says nothing (log 8). -/
def freeWord (tag i : Nat) : Nat := leNat ((List.range 8).map fun j => Config.freeByte tag (8 * i + j))

/-- The reply of the checkpoint service: the status, and T for a query; the manual gives no other field. -/
def checkReply (tag : Nat) (status : BitVec 9) (t : Option Word) : List Byte :=
  leBytes (freeWord tag 0 / 512 * 512 + status.toNat) 8 ++ leBytes ((t.map fun x => x.toNat).getD (freeWord tag 1)) 8 ++
    leBytes (freeWord tag 2) 8 ++ leBytes (freeWord tag 3) 8

def State.checkAnswer (s : State) (r : DepotReq) (status : BitVec 9) (t : Option Word) : Out :=
  .next ({ s with tick := s.tick + 1 }.depotReply r (checkReply s.tick status t))

/-- Whether a page that a request names is not its tenant's (R253, 0x1A6); the Depot-control right is checked at the send. -/
def State.foreign (s : State) (r : DepotReq) (ps : List Nat) : Bool := ps.any fun p => ! s.owns r.actor.tenant p

/-- Why the engine cannot read a checkpoint's page list: a page of it is not the tenant's, DRAM or flash is in error (R228, R247). -/
def State.listRefused (s : State) (r : DepotReq) (va n : Nat) : Option (BitVec 9) :=
  (pagesOf (va, 8 * n)).findSome? fun p =>
    let l := s.leaf p
    let lo := max va (p * 65536)
    let m := min (va + 8 * n) ((p + 1) * 65536) - lo
    if ! s.owns r.actor.tenant p then some 0x1A6
    else if l.valid then (if (wordsOf (s.dramAddr lo) m).any fun w => (s.base (homePage p)).badDram.contains w then some 0x1C5 else none)
    else if (s.depotPage p).bad then some 0x1C8 else none

/-- f32 values of a page narrowed to bf16 and widened again (R264). -/
def narrowed (cells : List Host.Cell) : List Host.Cell :=
  let m : Mem := ⟨cells, []⟩
  (((cells.map fun c => c.1 / 4).eraseDups).foldl (fun (out : Mem) i =>
    let v := (convF bf16 0 0 (decodeF f32 (leNat (m.bytes (4 * i) 4)))).1
    out.setBytes (4 * i) (leBytes (v * 65536) 4)) Mem.empty).cells

/-- The snapshot of a page that a take made (R263). -/
def State.snapshot (s : State) (k : Take) (p : Nat) : List Host.Cell :=
  match (s.base (homePage p)).snaps.find? fun y => y.1 = k.key && y.2.1 = p with
  | some y => y.2.2
  | none => s.pageContent p

/-- A take's end (R265): the slot's header goes, the pages are written, the header comes last. -/
def State.takeEnds (s : State) (k : Take) : State × BitVec 9 :=
  let id := k.id.toNat
  let seq := s.nextCheckpoint id
  let pages := k.pages.map fun p => (p.1, p.2, if p.2 then narrowed (s.snapshot k p.1) else s.snapshot k p.1)
  let bad := k.pages.findSome? fun p =>
    let l := s.leaf p.1
    if ! l.valid ∧ (s.depotPage p.1).bad then some (0x1C8 : BitVec 9)
    else if l.valid ∧ (wordsOf (s.dramAddr (p.1 * 65536)) 65536).any (fun w => (s.base (homePage p.1)).badDram.contains w) then some 0x1C5 else none
  let slot : CkSlot := ⟨slotHeader seq k.t pages, pages, false⟩
  let t := (s.dropTake k).setCkSlot id seq CkSlot.zero
  match bad with
  | some c => (t, c)
  | none => if depotSectors < t.sectorsUsed + slot.sectors id then (t, 0x1A7) else (t.setCkSlot id seq slot, 0)

/-- The take that a request asks for, or the status that refuses it: fields outside their limits, a cut that had passed at its arrival, a list that cannot be read or names a page of another (R262, R263). Bits [59:16] of word 3, which R262 does not list, must be 0, and a restore or a query does not look at words 0 to 2: the model's choice (log 103). -/
def State.takeOf (s : State) (r : DepotReq) : Except (BitVec 9) Take :=
  let t : Word := BitVec.ofNat 64 (r.word 0)
  if 3 ≤ r.word 3 / 2 ^ 60 ∨ r.word 3 / 65536 % 2 ^ 44 ≠ 0 ∨ r.word 1 % 64 ≠ 0 ∨ r.word 2 = 0 ∨ 2 ^ 24 ≤ r.word 2 then .error 0x1A6
  else if ! r.milestone.ult t then .error 0x1AD
  else match s.listRefused r (r.word 1) (r.word 2), s.pageList (r.word 1) (r.word 2) with
    | some c, _ => .error c
    | none, none => .error 0x1A6
    | none, some ps => if s.foreign r (ps.map fun p => p.1) then .error 0x1A6 else .ok ⟨r, BitVec.ofNat 16 (r.word 3), t, ps⟩

/-- CHECKPOINT_TAKE (R263): the take is accepted; when a round has reported M > T it ends and is answered, with no walk of its pages, whose COW it clears, in progress (R325). -/
def execCheckpointTake (n : Nat) (s : State) : Out :=
  let no := notEnabled "CHECKPOINT_TAKE"
  match s.depotQ[n]? with
  | none => no
  | some q =>
    match s.takes.find? fun k => k.req = q with
    | some k =>
      if ! decide (k.t < s.lastM) ∨ ! (q.irrev ∨ safe s.lastM s.lastSettled q.key.vrt) ∨ k.pages.any (fun p => s.walking p.1) then no
      else let x := s.takeEnds k; x.1.checkAnswer q x.2 none
    | none =>
      match s.served n .checkpoint with
      | none => no
      | some (r, _) =>
        if r.word 3 / 2 ^ 60 = 1 ∨ r.word 3 / 2 ^ 60 = 2 then no
        else match s.takeOf r with
          | .error c => s.checkAnswer r c none
          | .ok k => .next { s with takes := s.takes ++ [k] }

/-- CHECKPOINT_RESTORE (R265): the pages of the valid slot are written into DRAM; it waits until frames are free and no update is on its way. -/
def execCheckpointRestore (n : Nat) (s : State) : Out :=
  let no := notEnabled "CHECKPOINT_RESTORE"
  match s.served n .checkpoint with
  | none => no
  | some (r, _) =>
    if r.word 3 / 2 ^ 60 ≠ 1 then no
    else if r.word 3 / 65536 % 2 ^ 44 ≠ 0 then s.checkAnswer r 0x1A6 none
    else match s.validSlot (r.word 3 % 65536) with
      | none => s.checkAnswer r 0x1AE none
      | some x =>
        let ps := x.pages.map fun p => p.1
        if s.foreign r ps then s.checkAnswer r 0x1A6 none
        else if x.bad then s.checkAnswer r 0x1C8 none
        else
          if ! s.framesFor ps.eraseDups ∨ ! ps.all s.quiet then no
          else
            let t := x.pages.foldl (fun (t : State) p =>
              let h := homePage p.1
              let t := t.dropLines p.1
              let f := if (t.leaf p.1).valid then some (t.leaf p.1).frame.toNat else (t.base h).freeFrame
              match f with
              | none => t
              | some f =>
                let t := (t.pageInto p.1 f)
                let b := t.base h
                ((t.setBase h { b with dram := b.dram.setPage f p.2.2 }).setLeaf p.1 { t.leaf p.1 with dirty := true }).unpark p.1) s
            let t := (List.range 8).foldl State.noFrame t
            t.checkAnswer r 0 none

/-- CHECKPOINT_QUERY (R265). -/
def execCheckpointQuery (n : Nat) (s : State) : Out :=
  match s.served n .checkpoint with
  | none => notEnabled "CHECKPOINT_QUERY"
  | some (r, _) =>
    if r.word 3 / 2 ^ 60 ≠ 2 then notEnabled "CHECKPOINT_QUERY"
    else if r.word 3 / 65536 % 2 ^ 44 ≠ 0 then s.checkAnswer r 0x1A6 none
    else s.checkAnswer r 0 (some (((s.validSlot (r.word 3 % 65536)).map fun x => x.t).getD (BitVec.allOnes 64)))

end Sys2Proof.Machine
end

