-- ==== Sys2Proof/Machine/Collect.lean ====
section
/-! DEFINITION. Groups at the registry and waves on the router adders (13_collective_queues.md R288 to R295, R299, R300, R393; 04_number_formats.md R108): GROUP_JOIN_AT_REGISTRY, COLLECTIVE_CHUNK, RESULT_CHUNK, MEMBER_DEATH. -/

namespace Sys2Proof.Machine

/-! ## The combining tree (R292) -/

/-- A combining tree over ranks. -/
inductive Tree where
  | leaf (rank : Nat)
  | node (a b : Tree)
  deriving DecidableEq, Repr

def Tree.leaves : Tree → List Nat
  | .leaf r => [r]
  | .node a b => a.leaves ++ b.leaves

/-- The rank at whose core a tree's result stands: that of the first operand. -/
def Tree.head : Tree → Nat
  | .leaf r => r
  | .node a _ => a.head

/-- One round of `pairs`: elements 2i and 2i + 1 combined, an odd last one passed up. -/
def pairTrees : List Tree → List Tree
  | a :: b :: l => .node a b :: pairTrees l
  | l => l

/-- `pairs(list)`, in at most as many rounds as the list is long. -/
def pairsOf : Nat → List Tree → List Tree
  | 0, l => l
  | n + 1, l => if l.length ≤ 1 then l else pairsOf n (pairTrees l)

def pairUpAll (l : List Tree) : List Tree := pairsOf l.length l

/-- Quadrant, row and column of a core by its virtual number. -/
def quadNum (c : CoreId) : Nat := c.toNat % 4
def virtRow (c : CoreId) : Nat := c.toNat / 128
def virtCol (c : CoreId) : Nat := c.toNat / 4 % 32

/-- The order of ranks: by quadrant, then virtual core (R290). -/
def rankOrder (c : CoreId) : Nat := c.toNat % 4 * 1024 + c.toNat / 4

/-- The tree over ranks in increasing order, each with its core; none when there is no rank. -/
def treeOf (ms : List (Nat × CoreId)) : Option Tree :=
  let row (q y : Nat) : List Tree := pairUpAll ((ms.filter fun m => quadNum m.2 = q && virtRow m.2 = y).map fun m => .leaf m.1)
  let quad (q : Nat) : List Tree := pairUpAll ((List.range 32).flatMap (row q))
  (pairUpAll (pairUpAll (quad 0 ++ quad 1) ++ pairUpAll (quad 2 ++ quad 3))).head?

/-- The edges of a tree: the ranks at whose cores the second and the first operand of each pairing stand. -/
def Tree.edges : Tree → List (Nat × Nat)
  | .leaf _ => []
  | .node a b => (b.head, a.head) :: a.edges ++ b.edges

/-- The other operand of the pairing of a node, given by its ranks, and whether it is the second. -/
def Tree.mate (rs : List Nat) : Tree → Option (List Nat × Bool)
  | .leaf _ => none
  | .node a b =>
    if a.leaves = rs then some (b.leaves, true)
    else if b.leaves = rs then some (a.leaves, false)
    else match a.mate rs with
      | some x => some x
      | none => b.mate rs

/-- Where a core's router stands in the module (R319), by the Detour map. -/
def State.meshRouter (s : State) (c : CoreId) : Nat × Nat :=
  let q := quadNum c
  let p := physical (s.fuses.toList.getD q []) (c.toNat / 4)
  (32 * (q % 2) + p.2, 34 * (q / 2) + p.1)

/-- The numbers from one to another, in either direction. -/
def between (x y : Nat) : List Nat := List.range' (min x y) (max x y + 1 - min x y)

/-- The routers of a route: along the row, then along the column (R319). -/
def route (a b : Nat × Nat) : List (Nat × Nat) := (between a.1 b.1).map (fun x => (x, a.2)) ++ (between a.2 b.2).map fun y => (b.1, y)

/-- A group's members by rank with the cores at which the tree holds them, but for those that have left before a wave (R291, R292). -/
def Group.ranks (g : Group) (wave : Nat) : List (Nat × CoreId) :=
  (g.members.zipIdx.filter fun m => match m.1.leftAt with | some k => decide (wave ≤ k) | none => true).map fun m => (m.2, m.1.spot)

/-- The routers that the edges of a tree over cores pass through (R290). -/
def State.routersOf (s : State) (ms : List (Nat × CoreId)) : List (Nat × Nat) :=
  match treeOf ms with
  | none => []
  | some t => t.edges.flatMap fun e => route (s.meshRouter (look 0 e.1 ms)) (s.meshRouter (look 0 e.2 ms))

/-- The routers of a formed group: those of its members that have not left. -/
def State.groupRouters (s : State) (g : Group) : List (Nat × Nat) :=
  s.routersOf ((g.members.zipIdx.filter fun m => ! m.1.gone).map fun m => (m.2, m.1.spot))

/-! ## Joining (R288, R290) -/

/-- The sender of a group's reports and completions. -/
def groupSender (gk : Nat) : BitVec 24 := BitVec.ofNat 24 (0xFE0000 + gk % 65536)

def groupStation (gk : Nat) : Nat := baseStation (homeGroup (BitVec.ofNat 16 gk))

def State.group (s : State) (gk : Nat) : Option Group := (s.groups.find? fun g => g.1 = gk).map fun g => g.2

def State.setGroup (s : State) (gk : Nat) (g : Group) : State := { s with groups := put gk g s.groups }

/-- A joined member's report: with rank 0 and a cause its endpoint returns to its old status and its run is freed; else the endpoint opens with its rank. -/
def State.joined (s : State) (gk : Nat) (m : Member) (v : Word) (cause : BitVec 9) (rank : Nat) : State :=
  s.onActor m.actor fun _ _ _ t a =>
    let r := a.ep m.ep
    let x := a.auxOf m.ep
    let rep := reportMsg m.actor m.ep m.cls ⟨satAdd v 1, groupSender gk, 0⟩ (rank * 512 + cause.toNat)
    let b := if cause = 0 then a.setEp m.ep { r with status := .opened, loop := BitVec.ofNat 16 rank }
      else (a.setEp m.ep { r with status := x.old }).freeRun m.ep
    (t, b.await m.ep rep t.time)

/-- The largest VRT of a list. -/
def maxVrt (l : List Word) : Word := l.foldl maxWord 0

/-- A member put at its place in rank order. -/
def rankMember (m : Member) : List Member → List Member
  | [] => [m]
  | x :: l => if rankOrder m.loc.core < rankOrder x.loc.core then m :: x :: l else x :: rankMember m l

/-- A full group forms, or its tree shares a router with a formed group of its channel (R290). -/
def State.form (s : State) (gk : Nat) (g : Group) : State :=
  let v := maxVrt (g.members.map fun m => m.key.vrt)
  let g := { g with members := g.members.foldl (fun (l : List Member) (m : Member) => rankMember { m with spot := m.loc.core } l) [] }
  let mine := s.routersOf (g.ranks 0)
  let clash := s.groups.any fun o => o.1 ≠ gk && o.2.formed && o.2.chan = g.chan && (s.groupRouters o.2).any mine.contains
  if clash then g.members.foldl (fun t m => t.joined gk m v 0x193 0) { s with groups := drop gk s.groups }
  else g.members.zipIdx.foldl (fun t m => t.joined gk m.1 v 0 m.2) (s.setGroup gk { g with formed := true })

/-- The cause that refuses a join at the registry (R290, second and third check). -/
def State.joinRefused (s : State) (gk : Nat) (chan prio : BitVec 2) (count : Nat) (c : CoreId) : Option (BitVec 9) :=
  match s.group gk with
  | none =>
    let here := homeGroup (BitVec.ofNat 16 gk)
    if 1024 ≤ (s.groups.filter fun g => homeGroup (BitVec.ofNat 16 g.1) = here).length then some 0x194 else none
  | some g =>
    if g.chan ≠ chan ∨ g.prio ≠ prio ∨ g.count ≠ count then some 0x190
    else if g.count ≤ g.members.length then some 0x191
    else if g.members.any fun m => m.loc.core = c then some 0x192
    else none

/-- GROUP_JOIN_AT_REGISTRY (R290): a join is refused, recorded, or forms the group. A join of an actor that is gone is dropped. -/
def execGroupJoinAtRegistry (n : Nat) (s : State) : Out :=
  let no := notEnabled "GROUP_JOIN_AT_REGISTRY"
  match s.packet n with
  | some (.join who loc e desc cls key) =>
    let gk := who.tenant.toNat * 65536 + (desc.setWidth 16).toNat
    let members := ((s.group gk).map fun g => g.members).getD []
    if s.halted loc.core ∨ members.any fun m => s.halted m.loc.core then no
    else
      let t := s.take n (groupStation gk)
      if ! t.inUse who then .next t
      else
        let chan : BitVec 2 := desc.extractLsb' 30 2
        let prio : BitVec 2 := desc.extractLsb' 28 2
        let count := (desc.extractLsb' 16 12).toNat + 1
        let m : Member := ⟨who, loc, loc.core, e, cls, key, none, false, false⟩
        match t.joinRefused gk chan prio count loc.core with
        | some c => .next (t.joined gk m key.vrt c 0)
        | none =>
          let g := (t.group gk).getD ⟨who.tenant, desc.setWidth 16, chan, prio, count, false, none, [], []⟩
          let g := { g with members := g.members ++ [m] }
          .next (if g.members.length = count then (t.setGroup gk g).form gk g else t.setGroup gk g)
  | _ => no

/-! ## Chunks (R293, R294, R393) -/

/-- The descriptor check: the operation, OP, TYPE, LEN and ROOT. -/
def Contrib.check (c : Contrib) : Word × WaveOp :=
  (BitVec.ofNat 64 ((waveRoot c.desc).toNat * 2 ^ 52 + waveRedOp c.desc * 2 ^ 50 + waveType c.desc * 2 ^ 48 + waveLen c.desc), c.op)

/-- The chunks of a wave of that LEN: of 32 blocks, at least one. -/
def chunkCount (len : Nat) : Nat := max 1 ((len + 4095) / 4096)

/-- The 128-byte blocks of bytes; one that is all zero is absent under ZE. -/
def blocksOf (ze : Bool) (data : List Byte) : List (Option (List Byte)) :=
  (List.range (data.length / 128)).map fun i =>
    let b := (data.drop (128 * i)).take 128
    if ze && b.all (· = 0) then none else some b

/-- What a rank's contribution puts into the wave's LEN bytes. -/
def Contrib.vector (c : Contrib) (rank : Nat) (data : List Byte) : List (Option (List Byte)) :=
  let n := waveLen c.desc / 128
  let mine := blocksOf (waveZe c.desc) data
  match c.op with
  | .leave => []
  | .wait => []
  | .bcast => if (waveRoot c.desc).toNat = rank then mine else List.replicate n none
  | .ag => (List.replicate (rank * mine.length) none ++ mine ++ List.replicate n none).take n
  | _ => mine

/-- A rank's chunks of a wave. -/
def leafChunks (c : Contrib) (rank : Nat) (data : List Byte) : List Chunk :=
  let v := c.vector rank data
  (List.range (chunkCount (waveLen c.desc))).map fun j => ⟨c.group, c.wave, j, [rank], c.check, (v.drop (32 * j)).take 32, false⟩

/-- A chunk of a rank that contributes nothing: every block absent; it matches every check. -/
def absentChunk (gk wave j : Nat) (rank : Nat) : Chunk := ⟨gk, wave, j, [rank], (0, .leave), [], false⟩

/-- The operator and type of a descriptor's combination (R297). -/
def waveComb (desc : Word) (a b : Nat) : Nat :=
  let op : RedOp := match (desc.extractLsb' 50 2).toNat with | 0 => .sum | 1 => .min | _ => .max
  let ty : ElemTy := match (desc.extractLsb' 48 2).toNat with | 0 => .float f32 | 1 => .float bf16 | _ => .int ⟨32, true⟩
  (op.op ty a b).1

/-- Two blocks combined element by element (R108); an absent one passes the other through. -/
def combineBlock (desc : Word) : Option (List Byte) → Option (List Byte) → Option (List Byte)
  | none, b => b
  | a, none => a
  | some a, some b =>
    let w := if (desc.extractLsb' 48 2).toNat = 1 then 2 else 4
    some ((List.range (128 / w)).flatMap fun i =>
      leBytes (waveComb desc (leNat ((a.drop (w * i)).take w)) (leNat ((b.drop (w * i)).take w))) w)

/-- The blocks of two chunks combined; those of a chunk without blocks are absent. -/
def combineBlocks (desc : Word) : List (Option (List Byte)) → List (Option (List Byte)) → List (Option (List Byte))
  | [], l => l
  | l, [] => l
  | a :: l, b :: m => combineBlock desc a b :: combineBlocks desc l m

/-- Two chunks of one number combined, the first operand first; different checks fail the wave. -/
def Chunk.combine (a b : Chunk) : Chunk :=
  { a with ranks := a.ranks ++ b.ranks, check := if a.check.2 = .leave then b.check else a.check,
           blocks := combineBlocks a.check.1 a.blocks b.blocks,
           failed := a.check.2 ≠ .leave && b.check.2 ≠ .leave && a.check ≠ b.check }

/-! ## Completions (R299, R300) -/

/-- The contributors of a wave but those that leave, by rank. -/
def Wave.givers (w : Wave) : List (Nat × Contrib) := w.contribs.filter fun c => c.2.op ≠ .leave

def Group.alive (g : Group) (rank : Nat) : Bool := (g.members[rank]?.map fun m => ! m.dead).getD false

/-- A completion's payload. -/
def completionBytes (status : BitVec 9) (part broken : Bool) (count : Nat) (mask : List Bool) : List Byte :=
  let gaps := mask.any (! ·)
  let w0 := status.toNat + (if part then 2 ^ 9 else 0) + (if broken then 2 ^ 10 else 0) + (if gaps then 2 ^ 11 else 0) + (count - 1) * 2 ^ 12
  let bits := bitsOf (fun i => mask.getD i false) count
  leBytes w0 8 ++ (if gaps then leBytes bits (8 * ((count + 63) / 64)) else [])

/-- A completion sent to a member's endpoint from a station. It is counted at the least VRT of the wave's contributions, which are in flight until it is delivered. -/
def State.complete (s : State) (st : Nat) (g : Group) (c : Contrib) (v low : Word) (payload : List Byte) : State :=
  let to_ : Dest := match s.locOf c.actor with | some l => .ep l c.ep | none => .home c.actor
  let dst : BitVec 20 := match s.locOf c.actor with | some l => (l.peer c.ep).extractLsb' 4 20 | none => c.ep.setWidth 20
  let key : Key := ⟨satAdd v 1, groupSender c.group, BitVec.ofNat 40 c.wave⟩
  let r := reportMsg c.actor c.ep c.cls key 0
  let h := { r.hdr with dest := dst, len := BitVec.ofNat 13 payload.length, prio := g.prio, colour := (s.station st).colour }
  s.post st low (.msg to_ { r with hdr := h, payload := payload, kind := .completion })

/-- Whether a group is broken for the completions that leave now: it is, or the notice of a member's death is on its way to the registry (R300). -/
def State.isBroken (s : State) (gk : Nat) (g : Group) : Bool :=
  g.broken.isSome || s.flight.any fun f => match f.pkt with
    | .death k who _ => k = gk && g.hasMember who
    | _ => false

/-- The completion of a wave for one rank. -/
def State.completeRank (s : State) (st : Nat) (g : Group) (w : Wave) (rank : Nat) : State :=
  match w.givers.find? fun c => c.1 = rank with
  | none => s
  | some c =>
    let vs := w.givers.map fun x => x.2.key.vrt
    let mask := (List.range g.count).map fun r => w.givers.any fun x => x.1 = r
    s.complete st g c.2 (maxVrt vs) (vs.foldl (fun m v => if v.ult m then v else m) (BitVec.allOnes 64))
      (completionBytes (w.failed.getD 0) (! w.absent.isEmpty) (s.isBroken c.2.group g) g.count mask)

/-- A member told that its gleave's wave has completed (R291). -/
def State.tellLeft (s : State) (who : AId) : State :=
  match s.locOf who with
  | some l => s.at l.core s.cx fun t => (t.reap l.slot).syncDir l.core
  | none => match s.savedOf who with
    | some x => s.setSaved { x with actor := s.closeLeft x.actor }
    | none => s

/-- A group with the members gone whose last wave and every wave before it have completed, and its entry freed when every member is gone or dead. -/
def State.settleGroup (s : State) (gk : Nat) : State :=
  match s.group gk with
  | none => s
  | some g =>
    let ended (m : Member) : Bool := match m.leftAt with
      | none => false
      | some k => g.waves.all (fun w => decide (k < w.num)) &&
          s.waiting.all fun x => x.1 ≠ gk || x.2.actor ≠ m.actor || x.2.op = .leave
    let fresh := g.members.filter fun m => ! m.gone && ended m
    let g := { g with members := g.members.map fun m => if ended m then { m with gone := true } else m }
    let t := if g.waves.isEmpty ∧ g.members.all (fun m => m.gone || m.dead) then { s with groups := drop gk s.groups } else s.setGroup gk g
    fresh.foldl (fun t m => t.tellLeft m.actor) t

/-- A wave put back, or removed when every live contributor's completion has left. -/
def State.setWave (s : State) (gk : Nat) (w : Wave) : State :=
  match s.group gk with
  | none => s
  | some g =>
    let rest := g.waves.filter fun x => x.num ≠ w.num
    let finished := w.started && w.givers.all fun c => ! g.alive c.1 || w.done.contains c.1
    (s.setGroup gk { g with waves := if finished then rest else rest ++ [w] }).settleGroup gk

/-- The destination of a contribution at its member made unspecified (R300): its bytes, and the full bits of its words. -/
def State.spoil (s : State) (count : Nat) (c : Contrib) : State :=
  match s.locOf c.actor, c.op with
  | _, .wait => s
  | some l, op =>
    let lo := waveDaddr c.desc
    let hi := lo + waveDest op c.desc count
    let k := s.core l.core
    { s.setCore l.core { k with pad := k.pad.forget lo hi s.tick, full := k.full.filter (fun w => ! (decide (lo ≤ 8 * w) && decide (8 * w < hi))),
                                fullFog := ⟨lo / 8, hi / 8, s.tick⟩ :: cutFog (lo / 8) (hi / 8) k.fullFog } with tick := s.tick + 1 }
  | none, _ => s

/-- A wave fails with every rank accounted for: every live member receives the cause and BROKEN (R299, R300). -/
def State.failWave (s : State) (gk : Nat) (g : Group) (w : Wave) : State :=
  let g := { g with broken := some (g.broken.getD (s.begun gk)) }
  let live := w.givers.filter fun c => g.alive c.1
  let t := if w.failed = some 0x197 then live.foldl (fun t c => t.spoil g.count c.2) s else s
  let t := live.foldl (fun t c => t.completeRank (groupStation gk) g w c.1) t
  (t.setGroup gk g).setWave gk { w with done := live.map fun c => c.1, chunks := [] }

/-- Whether a rank of a wave is accounted for: it has contributed, left before, or died without. -/
def Group.accounted (g : Group) (w : Wave) (rank : Nat) : Bool :=
  w.contribs.any (fun c => c.1 = rank) || w.absent.contains rank || ! (g.ranks w.num).any fun r => r.1 = rank

/-- A wave of which every rank is accounted for starts up the tree; the leaves of ranks that gave nothing inject absent chunks (R300). -/
def State.tryStart (s : State) (gk k : Nat) : State :=
  match s.group gk with
  | none => s
  | some g =>
    match g.waves.find? fun w => w.num = k with
    | none => s
    | some w =>
      if w.started ∨ ! (List.range g.count).all (g.accounted w) then s
      else
        let w := { w with started := true }
        match w.givers with
        | [] => (s.setGroup gk g).setWave gk w
        | c :: _ =>
          if w.failed.isSome then s.failWave gk g w
          else
            let n := chunkCount (waveLen c.2.desc)
            let empty := ((g.ranks k).filter fun r => ! w.givers.any fun x => x.1 = r.1).flatMap fun r => (List.range n).map fun j => absentChunk gk k j r.1
            let t := (w.chunks ++ empty).foldl (fun t x => t.post (groupStation gk) (BitVec.allOnes 64) (.chunk x)) s
            t.setWave gk { w with chunks := [] }

/-- A contribution of a rank to a wave that had not begun when the group broke completes with 0x196 (R300); which of the other live ranks its mask counts is a free value (log 8). Its key takes the contribution's own VRT as the largest of the wave, which never combines: the model's choice (log 28). -/
def State.refuseWave (s : State) (g : Group) (rank : Nat) (c : Contrib) : State :=
  if c.op = .leave ∨ ! g.alive rank then s
  else
    let x := s.drawNumber
    let mask := (List.range g.count).map fun r => r = rank || (g.alive r && (g.ranks c.wave).any (fun y => y.1 = r) && x.1.testBit r)
    x.2.complete (groupStation c.group) g c c.key.vrt c.key.vrt (completionBytes 0x196 (g.members.any fun m => m.dead) true g.count mask)

/-- A contribution at the registry. -/
def State.register (s : State) (c : Contrib) (data : List Byte) (bad : Bool) : State :=
  match s.group c.group with
  | none => s
  | some g =>
    match g.members.findIdx? fun m => m.actor = c.actor && ! m.gone with
    | none => s
    | some rank =>
      let g := if c.op = .leave then { g with members := g.members.modify rank fun m => { m with leftAt := some c.wave } } else g
      if (match g.broken with | some l => ! l.contains c.wave | none => false) then
        ((s.setGroup c.group g).refuseWave g rank c).settleGroup c.group
      else
        let w := (g.waves.find? fun w => w.num = c.wave).getD ⟨c.wave, [], [], [], none, false, [], []⟩
        let w := { w with contribs := w.contribs ++ [(rank, c)], failed := if bad then some 0x197 else w.failed,
                          chunks := if c.op = .leave then w.chunks else w.chunks ++ leafChunks c rank data }
        ((s.setGroup c.group g).setWave c.group w).tryStart c.group c.wave

/-! ## COLLECTIVE_CHUNK -/

/-- The chunks of a wave's result that a rank needs (R393). -/
def neededChunks (c : Contrib) (rank count : Nat) : List Nat :=
  match c.op with
  | .rs =>
    let n := waveDest .rs c.desc count
    List.range' (rank * n / 4096) ((rank * n + n - 1) / 4096 + 1 - rank * n / 4096)
  | _ => List.range (chunkCount (waveLen c.desc))

/-- A chunk at the adder of its pairing: it waits, combines, or passes down the tree as a result. -/
def State.addChunk (s : State) (g : Group) (w : Wave) (c : Chunk) : State :=
  match treeOf (g.ranks c.wave) with
  | none => s
  | some t =>
    match t.mate c.ranks with
    | none =>
      (w.givers.filter fun x => g.alive x.1 && (neededChunks x.2 x.1 g.count).contains c.num).foldl
        (fun s x => s.post (groupStation c.group) (BitVec.allOnes 64) (.result x.2.loc x.1 c)) s
    | some (other, second) =>
      match w.chunks.find? fun x => x.num = c.num && x.ranks = other with
      | none => s.setWave c.group { w with chunks := w.chunks ++ [c] }
      | some x =>
        let y := if second then c.combine x else x.combine c
        let w := { w with chunks := w.chunks.filter fun z => ! (z.num = c.num && z.ranks = other) }
        if y.failed then s.failWave c.group g { w with failed := some 0x195 }
        else (s.setWave c.group w).post (groupStation c.group) (BitVec.allOnes 64) (.chunk y)

/-- COLLECTIVE_CHUNK (R294, R299): a contribution whose chunks enter the tree at their leaf, or a chunk at a router adder. -/
def execCollectiveChunk (n : Nat) (s : State) : Out :=
  match s.packet n with
  | some (.contrib c data bad) => .next ((s.take n (groupStation c.group)).register c data bad)
  | some (.chunk c) =>
    let t := s.take n (groupStation c.group)
    match t.group c.group with
    | none => .next t
    | some g =>
      match g.waves.find? fun w => w.num = c.wave with
      | none => .next t
      | some w => .next (if w.failed.isSome then t else t.addChunk g w c)
  | _ => notEnabled "COLLECTIVE_CHUNK"

/-! ## RESULT_CHUNK -/

/-- The blocks of a result chunk for a rank: the local address and the bytes of each that is written. -/
def resultBlocks (g : Group) (w : Wave) (rank : Nat) (c : Chunk) (x : Contrib) : List (Nat × List Byte) :=
  let len := waveLen x.desc
  let share := len / g.count
  (List.range (min 32 (len / 128 - 32 * c.num))).filterMap fun i =>
    let off := 128 * (32 * c.num + i)
    let data := ((c.blocks.getD i none)).getD (List.replicate 128 0)
    match x.op with
    | .rs => if rank * share ≤ off ∧ off < (rank + 1) * share then some (waveDaddr x.desc + (off - rank * share), data) else none
    | .ag => if w.givers.any fun y => y.1 = off / share then some (waveDaddr x.desc + off, data) else none
    | .wait => none
    | _ => some (waveDaddr x.desc + off, data)

/-- RESULT_CHUNK (R299, R300): written at a member, whose last one brings its completion; at an evicted member nothing is written, at a dead one it is dropped. -/
def execResultChunk (n : Nat) (s : State) : Out :=
  let no := notEnabled "RESULT_CHUNK"
  match s.packet n with
  | some (.result _ rank c) =>
    match s.group c.group with
    | none => .next (s.take n (groupStation c.group))
    | some g =>
      match g.waves.find? (fun w => w.num = c.wave) with
      | none => .next (s.take n (groupStation c.group))
      | some w =>
        match w.givers.find? fun x => x.1 = rank with
        | none => .next (s.take n (groupStation c.group))
        | some x =>
          if w.failed.isSome ∨ ! g.alive rank then .next (s.take n (groupStation c.group))
          else
            let w' := { w with written := w.written ++ [(rank, c.num)] }
            let last := (neededChunks x.2 rank g.count).all fun j => w'.written.contains (rank, j)
            let w' := if last then { w' with done := w'.done ++ [rank] } else w'
            let finish (st : Nat) (t : State) : State := (if last then t.completeRank st g w rank else t).setWave c.group w'
            match s.locOf x.2.actor with
            | some l =>
              if s.halted l.core then no
              else
                let t := s.take n l.core.toNat
                let k := (resultBlocks g w rank c x.2).foldl (fun (k : Core) b => k.engineWrite b.1 b.2) (t.core l.core)
                .next ((finish l.core.toNat (t.setCore l.core k)).at l.core s.cx State.wakeHere)
            | none => .next (finish (groupStation c.group) (s.take n (groupStation c.group)))
  | _ => no

/-! ## MEMBER_DEATH -/

/-- Whether a rank's contribution to a wave has left its core. -/
def State.hasGiven (s : State) (gk : Nat) (g : Group) (rank k : Nat) : Bool :=
  (g.waves.any fun w => w.num = k && w.contribs.any fun c => c.1 = rank) ||
    match g.members[rank]? with
    | none => false
    | some m => s.flight.any fun f => match f.pkt with
      | .contrib c _ _ => c.group = gk && c.wave = k && c.actor = m.actor
      | _ => false

/-- A death in a formed group (R300): the waves that had begun without the member's contribution, and are still in progress, lose its rank; the group is broken for those that had not begun when it broke, and what has reached the registry for them is answered. -/
def State.settleDeath (s : State) (gk : Nat) (g : Group) (rank : Nat) (begun : List Nat) : State :=
  let broken := g.broken.getD begun
  let going := broken.filter (s.begun gk).contains
  let waves := going.foldl (fun (ws : List Wave) k =>
    if s.hasGiven gk g rank k || ! (g.ranks k).any (fun r => r.1 = rank) then ws
    else
      let w := (ws.find? fun w => w.num = k).getD ⟨k, [], [], [], none, false, [], []⟩
      ws.filter (fun w => w.num ≠ k) ++ [{ w with absent := insertNat rank w.absent }]) g.waves
  let g := { g with members := g.members.modify rank fun m => { m with dead := true }, broken := some broken,
                    waves := waves.filter fun w => broken.contains w.num }
  let late := (waves.filter fun w => ! broken.contains w.num).flatMap fun w => w.contribs
  let t := late.foldl (fun t c => t.refuseWave g c.1 c.2) (s.setGroup gk g)
  let t := going.foldl (fun t k => t.tryStart gk k) t
  ((t.group gk).map fun g => g.waves).getD [] |>.foldl (fun t w => t.setWave gk w) t |>.settleGroup gk

/-- MEMBER_DEATH (R300): the registry learns of a member's death; before the group forms the member is removed (R290). -/
def execMemberDeath (n : Nat) (s : State) : Out :=
  match s.packet n with
  | some (.death gk who begun) =>
    let t := s.take n (groupStation gk)
    match t.group gk with
    | none => .next t
    | some g =>
      match g.members.findIdx? fun m => m.actor = who && ! m.gone && ! m.dead with
      | none => .next t
      | some rank =>
        if g.formed then .next (t.settleDeath gk g rank begun)
        else
          let g := { g with members := g.members.eraseIdx rank }
          .next (if g.members.isEmpty then { t with groups := drop gk t.groups } else t.setGroup gk g)
  | _ => notEnabled "MEMBER_DEATH"

end Sys2Proof.Machine
end

