-- ==== Sys2Proof/Machine/Control.lean ====
section
/-! DEFINITION. Control transfer: majors 0x0A to 0x0E (03_general_registers.md R78 to R81) and their compact forms (02_instruction_formats.md R52, R53). -/

namespace Sys2Proof.Machine

/-- The running image of the actor that issues (R58, R302). -/
def State.image (s : State) : Option Image :=
  s.hereCore.images.find? fun i => i.num = s.actor.image && i.tenant = s.actor.aid.tenant

/-- Whether a run-time target is legal: even, inside the running image, and an instruction start (R58, R80). -/
def State.legalTarget (s : State) (t : Word) : Bool :=
  match s.image with
  | some i => ! t.getLsbD 0 && decide (i.base ≤ t.toNat) && decide (t.toNat < i.base + i.len) && s.hereCore.starts.contains (t.toNat / 2)
  | none => false

/-- A branch with an offset in parcels: to the target, or n bytes on (R44, R78). -/
def branch (n : Nat) (taken : Bool) (off : BitVec w) (s : State) : Out :=
  if taken then .next (s.goto (target s.ctx.pc off)) else .next (s.advance n)

/-- jalr (R80): the target is checked before g[d] is written; the link is PC + n. The detail is the target (R353). -/
def jumpLink (n : Nat) (off : BitVec w) (a d : BitVec 5) (s : State) : Out :=
  let t := s.g a + (immWord off <<< 1)
  if s.legalTarget t then .next ((s.setG d ((s.ctx.pc + BitVec.ofNat 16 n).setWidth 64)).goto (t.setWidth 16))
  else raise 0x1A1 t s

/-- dbnz (R81): the test is made on the decremented value. -/
def decBranch (n : Nat) (off : BitVec w) (a d : BitVec 5) (s : State) : Out :=
  let v := s.g a - 1
  let t := s.setG d v
  if v = 0 then .next (t.advance n) else .next (t.goto (target s.ctx.pc off))

/-- Bit bits(g[b], 5, 0) of g[a] (R78). -/
def bitOf (x y : Word) : Bool := x.getLsbD (amount y)

/-- B_EQ (R78). -/
def execBEq (o : BitVec 11) (b a : BitVec 5) (s : State) : Out := branch 4 (s.g a == s.g b) o s
/-- B_NE (R78). -/
def execBNe (o : BitVec 11) (b a : BitVec 5) (s : State) : Out := branch 4 (s.g a != s.g b) o s
/-- B_LT (R78). -/
def execBLt (o : BitVec 11) (b a : BitVec 5) (s : State) : Out := branch 4 ((s.g a).slt (s.g b)) o s
/-- B_GE (R78). -/
def execBGe (o : BitVec 11) (b a : BitVec 5) (s : State) : Out := branch 4 (!(s.g a).slt (s.g b)) o s
/-- B_LTN (R78). -/
def execBLtn (o : BitVec 11) (b a : BitVec 5) (s : State) : Out := branch 4 ((s.g a).ult (s.g b)) o s
/-- B_GEN (R78). -/
def execBGen (o : BitVec 11) (b a : BitVec 5) (s : State) : Out := branch 4 (!(s.g a).ult (s.g b)) o s
/-- B_BSET (R78). -/
def execBBset (o : BitVec 11) (b a : BitVec 5) (s : State) : Out := branch 4 (bitOf (s.g a) (s.g b)) o s
/-- B_BCLR (R78). -/
def execBBclr (o : BitVec 11) (b a : BitVec 5) (s : State) : Out := branch 4 (!bitOf (s.g a) (s.g b)) o s
/-- J (R79). -/
def execJ (o : BitVec 24) (s : State) : Out := .next (s.goto (target s.ctx.pc o))
/-- JAL (R79): g31 := PC + 4. -/
def execJal (o : BitVec 24) (s : State) : Out :=
  .next ((s.setG 31 ((s.ctx.pc + 4).setWidth 64)).goto (target s.ctx.pc o))
/-- JALR (R80). -/
def execJalr (i : BitVec 14) (a d : BitVec 5) (s : State) : Out := jumpLink 4 i a d s
/-- DBNZ (R81). -/
def execDbnz (o : BitVec 14) (a d : BitVec 5) (s : State) : Out := decBranch 4 o a d s

/-- C_BEQZ (R52). -/
def execCBeqz (o : BitVec 6) (a : BitVec 5) (s : State) : Out := branch 2 (s.g a == s.g 0) o s
/-- C_BNEZ (R52). -/
def execCBnez (o : BitVec 6) (a : BitVec 5) (s : State) : Out := branch 2 (s.g a != s.g 0) o s
/-- C_BLTZ (R52). -/
def execCBltz (o : BitVec 6) (a : BitVec 5) (s : State) : Out := branch 2 ((s.g a).slt (s.g 0)) o s
/-- C_BGEZ (R52). -/
def execCBgez (o : BitVec 6) (a : BitVec 5) (s : State) : Out := branch 2 (!(s.g a).slt (s.g 0)) o s
/-- C_J (R52). -/
def execCJ (o : BitVec 6) (s : State) : Out := .next (s.goto (target s.ctx.pc o))
/-- C_JR (R52): jalr g0, ga, #0. -/
def execCJr (a : BitVec 5) (s : State) : Out := jumpLink 2 (0 : BitVec 14) a 0 s
/-- C_DBNZ (R52): dbnz ga, ga, label. -/
def execCDbnz (o : BitVec 6) (a : BitVec 5) (s : State) : Out := decBranch 2 o a a s

end Sys2Proof.Machine
end

