-- ==== Sys2Proof/Machine/Float.lean ====
section
/-! DEFINITION. Scalar floating point: majors 0x10 and 0x11 (03_general_registers.md R83 to R89). -/

namespace Sys2Proof.Machine

/-- The value of f[r] as f32. -/
def State.fv (s : State) (r : BitVec 5) : FVal := decodeF f32 (s.f r).toNat

/-- The draw that an instruction in a mode would make (R83, R96). -/
def State.nextDraw (s : State) : Nat := (lfsrNext s.ctx.seed).toNat

/-- f[d] := a rounded result, with its flags and the draw of mode RS. -/
def roundInto (mode : BitVec 3) (d : BitVec 5) (v : Rounded) (s : State) : Out := writeF d v (s.draw mode)

/-- g[d] := a comparison, with its flags (R84). -/
def compareInto (k : FCmp) (b a d : BitVec 5) (s : State) : Out :=
  let (v, fl) := cmpF k (s.fv a) (s.fv b)
  .next (((s.setG d (flagWord v)).setFlags fl).advance 4)

/-- The integer type of c [24:23] (R86). -/
def intTyOf : BitVec 2 → IntTy
  | 0 => ⟨64, true⟩
  | 1 => ⟨64, false⟩
  | 2 => ⟨32, true⟩
  | _ => ⟨32, false⟩

/-- FADD (R84). -/
def execFadd (m : BitVec 3) (b a d : BitVec 5) (s : State) : Out := roundInto m d (addF f32 m s.nextDraw (s.fv a) (s.fv b)) s
/-- FSUB (R84). -/
def execFsub (m : BitVec 3) (b a d : BitVec 5) (s : State) : Out := roundInto m d (subF f32 m s.nextDraw (s.fv a) (s.fv b)) s
/-- FMUL (R84). -/
def execFmul (m : BitVec 3) (b a d : BitVec 5) (s : State) : Out := roundInto m d (mulF f32 m s.nextDraw (s.fv a) (s.fv b)) s
/-- FDIV (R84). -/
def execFdiv (m : BitVec 3) (b a d : BitVec 5) (s : State) : Out := roundInto m d (divF f32 m s.nextDraw (s.fv a) (s.fv b)) s
/-- FSQRT (R84). -/
def execFsqrt (m : BitVec 3) (a d : BitVec 5) (s : State) : Out := roundInto m d (sqrtF f32 m s.nextDraw (s.fv a)) s
/-- FMIN (R85). -/
def execFmin (b a d : BitVec 5) (s : State) : Out := writeF d (minmaxF f32 false (s.f a).toNat (s.f b).toNat) s
/-- FMAX (R85). -/
def execFmax (b a d : BitVec 5) (s : State) : Out := writeF d (minmaxF f32 true (s.f a).toNat (s.f b).toNat) s
/-- FABS (R84): bit [31] cleared. -/
def execFabs (a d : BitVec 5) (s : State) : Out := .next ((s.setF d (s.f a &&& 0x7FFFFFFF)).advance 4)
/-- FNEG (R84): bit [31] inverted. -/
def execFneg (a d : BitVec 5) (s : State) : Out := .next ((s.setF d (s.f a ^^^ 0x80000000)).advance 4)
/-- FSGNJ (R84): bits [30:0] of f[a], bit [31] of f[b]. -/
def execFsgnj (b a d : BitVec 5) (s : State) : Out :=
  .next ((s.setF d ((s.f a &&& 0x7FFFFFFF) ||| (s.f b &&& 0x80000000))).advance 4)
/-- FFMA (R84): RNE, one rounding. -/
def execFfma (c b a d : BitVec 5) (s : State) : Out := writeF d (fmaF f32 0 0 (s.fv a) (s.fv b) (s.fv c)) s
/-- FFMS (R84). -/
def execFfms (c b a d : BitVec 5) (s : State) : Out := writeF d (fmaF f32 0 0 (s.fv a) (s.fv b) (negF (s.fv c))) s
/-- FNFMA (R84): f[c] − f[a] × f[b]. -/
def execFnfma (c b a d : BitVec 5) (s : State) : Out := writeF d (fmaF f32 0 0 (negF (s.fv a)) (s.fv b) (s.fv c)) s
/-- FCMPEQ (R84). -/
def execFcmpeq (b a d : BitVec 5) (s : State) : Out := compareInto .eq b a d s
/-- FCMPLT (R84). -/
def execFcmplt (b a d : BitVec 5) (s : State) : Out := compareInto .lt b a d s
/-- FCMPLE (R84). -/
def execFcmple (b a d : BitVec 5) (s : State) : Out := compareInto .le b a d s

/-- FCVT_F_G (R86): the i32 and n32 types read bits [31:0]. -/
def execFcvtFG (m : BitVec 3) (t : BitVec 2) (a d : BitVec 5) (s : State) : Out :=
  roundInto m d (ofIntF f32 m s.nextDraw ((intTyOf t).read (s.g a).toNat)) s
/-- FCVT_G_F (R87): sign-extended for i32, zero-extended for n32. -/
def execFcvtGF (m : BitVec 3) (t : BitVec 2) (a d : BitVec 5) (s : State) : Out :=
  let (v, fl) := toIntF (intTyOf t) m s.nextDraw (s.fv a)
  .next ((((s.draw m).setG d (BitVec.ofInt 64 v)).setFlags fl).advance 4)
/-- FMV_F_G (R86). -/
def execFmvFG (a d : BitVec 5) (s : State) : Out := .next ((s.setF d ((s.g a).setWidth 32)).advance 4)
/-- FMV_G_F (R86). -/
def execFmvGF (a d : BitVec 5) (s : State) : Out := writeG 4 d ((s.f a).setWidth 64) s
/-- FCLS (R88). -/
def execFcls (a d : BitVec 5) (s : State) : Out := writeG 4 d (BitVec.ofNat 64 (classF f32 (s.f a).toNat)) s
/-- FROUND (R86). -/
def execFround (m : BitVec 3) (a d : BitVec 5) (s : State) : Out := roundInto m d (roundIntegral f32 m s.nextDraw (s.fv a)) s
/-- FCVT_F_BF16 (R86): bits [31:16] of f[a] are ignored (R66). -/
def execFcvtFBf16 (a d : BitVec 5) (s : State) : Out :=
  writeF d (convF f32 0 0 (decodeF bf16 ((s.f a).toNat % 65536))) s
/-- FCVT_BF16_F (R86): bits [31:16] of f[d] are zero (R66). -/
def execFcvtBf16F (m : BitVec 3) (a d : BitVec 5) (s : State) : Out := roundInto m d (convF bf16 m s.nextDraw (s.fv a)) s
/-- FCVT_F_HF (R86). -/
def execFcvtFHf (a d : BitVec 5) (s : State) : Out := writeF d (convF f32 0 0 (decodeF hf ((s.f a).toNat % 65536))) s
/-- FCVT_HF_F (R86). -/
def execFcvtHfF (m : BitVec 3) (a d : BitVec 5) (s : State) : Out := roundInto m d (convF hf m s.nextDraw (s.fv a)) s
/-- FSCAL (R86): n is g[b] clamped to ±512. -/
def execFscal (m : BitVec 3) (b a d : BitVec 5) (s : State) : Out :=
  roundInto m d (scaleF f32 m s.nextDraw (satInt (s.g b).toInt (-512) 512) (s.fv a)) s
/-- FRECIP (R89, R120). -/
def execFrecip (a d : BitVec 5) (s : State) : Out := writeF d (recipF f32 (s.fv a)) s
/-- FRSQ (R89, R121). -/
def execFrsq (a d : BitVec 5) (s : State) : Out := writeF d (rsqrtF f32 (s.fv a)) s

end Sys2Proof.Machine
end

