-- ==== Sys2Proof/Machine/Rounds.lean ====
section
/-! DEFINITION. The Milestone (17_virtual_time.md R361, R366, R371 to R374): MILESTONE_ROUND_START, TAKE_THE_CUT, MILESTONE_PASS, ROUND_COMPLETION, FABRIC_ROUND, and the commit of ended activations. -/

namespace Sys2Proof.Machine

/-! ## Stations (R371) -/

/-- The stations of a round: cores, logic bases, the Depot engine, host ports, link ports. A link port takes the cut without FABRIC as well: what passes it is sent or received by a station of the module (log 83). -/
def stationCount : Nat := 4119

/-! ## The minima (R372) -/

def minVrt (l : List Word) : Word := l.foldl (fun m v => if v.ult m then v else m) (BitVec.allOnes 64)

/-- The messages that an actor has not consumed. -/
def Actor.hereVrts (a : Actor) : List Word := (a.box.filter fun h => ! h.consumed).map fun h => h.msg.hdr.key.vrt

/-- The VRT that an item carries, when it is fixed (R28). -/
def Item.vrtOf : Item → Option Word
  | .msg _ m .fixed => some m.hdr.key.vrt
  | .close _ m .fixed => some m.hdr.key.vrt
  | .connect _ _ _ _ key .fixed => some key.vrt
  | .spawn _ _ _ _ key .fixed => some key.vrt
  | .mem r .fixed => some r.key.vrt
  | .copy c .fixed => some c.key.vrt
  | .gjoin _ _ _ key .fixed => some key.vrt
  | .contrib c .fixed => some c.key.vrt
  | _ => none

/-- LASTVRT of an endpoint as the undoing of the newest activation restores it (R159, R399). -/
def Actor.restoredLast (a : Actor) (e : BitVec 4) : Word :=
  ((segment a.log).1.findSome? fun p => match p.entry with
    | .endpoint n r _ => if n = e then some r.lastvrt else none
    | _ => none).getD (a.ep e).lastvrt

/-- The close notices that an actor's held trap will send (R399): of its refusal, and of the trigger's endpoint when the trap closes it (R179). -/
def State.trapNotices (s : State) (a : Actor) : List Word :=
  match a.pending with
  | none => []
  | some p =>
    let v := satAdd p.trec.key.vrt 1
    let own : Bool := match p.trigger with
      | some t => t.held.onChannel && (a.ep p.trec.endpt).pkind ≠ .collective && ((decide (0x1C0 ≤ p.trec.cause.toNat) && decide (p.trec.cause.toNat < 0x1E0)) || ! s.canDivert t.held.msg)
      | none => false
    (match p.close with | some c => [maxWord v (a.restoredLast c.1)] | none => []) ++ (if own then [maxWord v (a.restoredLast p.trec.endpt)] else [])

/-- The here minimum of a core: unconsumed messages and the triggers of activations in progress. -/
def Core.hereMin (k : Core) : Word :=
  minVrt ((k.actors.flatMap fun x => x.2.hereVrts) ++
    k.ctxs.toList.filterMap fun x => if x.phase = .free then none else x.trigger.map fun t => t.held.msg.hdr.key.vrt)

/-- What a core adds to its station's way minimum: deferred and held items, notices of held traps, replies of copy commands. -/
def State.wayOfCore (s : State) (k : Core) : List Word :=
  ((k.deferral ++ k.fenced).filterMap fun d => d.item.vrtOf) ++ (k.actors.flatMap fun x => s.trapNotices x.2) ++ k.cq.map fun c => c.key.vrt

/-- The here minimum of a logic base: what saved actors have not consumed, anti-messages, connects and messages that wait. -/
def Base.hereMin (b : Base) : Word :=
  minVrt ((b.conns.map fun c => c.key.vrt) ++ (b.waiting.map fun w => w.msg.hdr.key.vrt) ++ (b.saved.flatMap fun x => x.actor.hereVrts ++ x.antis.map fun y => y.2.key.vrt) ++ b.heldAntis.map fun x => x.2.key.vrt)

/-- What a logic base adds: the replies it owes, the items and traps of saved actors, the contributions of waves at its registry. -/
def State.wayOfBase (s : State) (n : Nat) (b : Base) : List Word :=
  (b.parked.map fun p => p.req.key.vrt) ++ (b.walkWait.map fun w => w.2.key.vrt) ++
    (b.saved.flatMap fun x => (x.deferral.filterMap fun d => d.item.vrtOf) ++ s.trapNotices x.actor) ++
    (s.groups.filter fun g => homeGroup (BitVec.ofNat 16 g.1) = n).flatMap fun g => g.2.waves.flatMap fun w => w.contribs.map fun c => c.2.key.vrt

/-- Whether the Depot serves a request already, and owes its reply. -/
def State.serving (s : State) (r : DepotReq) : Bool :=
  ((r.irrev || safe s.lastM s.lastSettled r.key.vrt) && s.takes.any fun t => t.req = r) || s.cores.any fun k => match k.2.scan with | some x => x.reply = r | none => false

/-- The here minimum of a station. -/
def State.hereMin (s : State) (n : Nat) : Word :=
  if n < 4096 then (s.core (BitVec.ofNat 12 n)).hereMin
  else if n < 4104 then (s.base (n - 4096)).hereMin
  else if n = depotStation then minVrt ((s.depotQ.filter fun r => ! s.serving r).map fun r => r.key.vrt)
  else BitVec.allOnes 64

/-- The way minimum of a station. -/
def State.wayMin (s : State) (n : Nat) : Word :=
  minVrt ((s.station n).way ::
    if n < 4096 then s.wayOfCore (s.core (BitVec.ofNat 12 n))
    else if n < 4104 then s.wayOfBase (n - 4096) (s.base (n - 4096))
    else if n = depotStation then (s.depotQ.filter s.serving).map fun r => satAdd r.key.vrt 1
    else [])

/-- The largest VRT of the ended activations that a station holds. -/
def State.topMax (s : State) (n : Nat) : Word :=
  maxVrt
    (if n < 4096 then (s.core (BitVec.ofNat 12 n)).actors.flatMap fun x => x.2.ended.map fun e => e.key.vrt
     else if n < 4104 then (s.base (n - 4096)).saved.flatMap fun x => x.actor.ended.map fun e => e.key.vrt
     else [])

/-- SENT − RCVD of a colour at a station. -/
def Station.inFlight (x : Station) (c : Bool) : BitVec 32 := if c then x.sent1 - x.rcvd1 else x.sent0 - x.rcvd0

/-- What a pass reduces over the stations, for the old colour. -/
def State.share (s : State) (old : Bool) : Share :=
  (List.range stationCount).foldl (fun x n =>
    { here := minVrt [x.here, s.hereMin n], way := minVrt [x.way, s.wayMin n], top := maxWord x.top (s.topMax n),
      count := x.count + (s.station n).inFlight old }) ⟨BitVec.allOnes 64, BitVec.allOnes 64, 0, 0⟩

def Share.join (x y : Share) : Share := ⟨minVrt [x.here, y.here], minVrt [x.way, y.way], maxWord x.top y.top, x.count + y.count⟩

/-- (M, settled) of a round that finds no old message on its way, after the round that reported `last`. -/
def Share.result (x : Share) (last : Word) : Word × Bool :=
  if x.here = BitVec.allOnes 64 ∧ x.way = BitVec.allOnes 64 then (maxWord last x.top, true)
  else
    let m := minVrt [x.here, x.way]
    (maxWord m last, m.ult x.way)

/-- The takes that wait in the Depot's queue at the round that first reaches their T begin with their marks (R263). -/
def State.beginTakes (s : State) (m : Word) : State :=
  s.depotQ.foldl (fun (t : State) r =>
    match (t.chan r.chan).map fun c => c.service, t.takeOf r with
    | some Service.checkpoint, .ok k =>
      if r.words ≠ [] ∧ r.word 3 / 2 ^ 60 = 0 ∧ ! m.ult k.t ∧ ! (t.takes.any fun x => x.key = k.key) then { t with takes := t.takes ++ [k] } else t
    | _, _ => t) s

/-- A result at the module: MNOW and MSTAT take it, and the Depot the requests that become safe. Labels and anti-messages that are safe end (R252, R278). -/
def State.takeResult (s : State) (r : Round) (y : Word × Bool) : State :=
  let old (v : Word) : Bool := safe y.1 y.2 v
  let s := s.beginTakes y.1
  { s with
    round := some { r with result := some y }, lastM := y.1, lastSettled := y.2,
    mgmt := { s.mgmt with mnow := y.1, mrounds := s.mgmt.mrounds + 1, msettled := y.2 },
    depotQ := s.depotQ.filter fun q => ! (q.words.isEmpty && old q.key.vrt),
    depotAntis := s.depotAntis.filter fun h => ! old h.key.vrt }

/-- The root's result. -/
def State.endRound (s : State) (r : Round) (x : Share) : State := s.takeResult r (x.result s.lastM)

/-! ## The steps of a round -/

/-- MILESTONE_ROUND_START (R373): PERIOD cycles after the previous start, FPERIOD at fabric scope (R374), once the previous round has ended. Stations that another module's messages have already made take this round's cut keep it (R371). -/
def execMilestoneRoundStart (s : State) : Out :=
  if s.round.isSome ∨ s.time < s.roundDue then notEnabled "MILESTONE_ROUND_START"
  else
    let p := if s.mgmt.fabric then s.mgmt.fperiod.toNat else s.mgmt.period.toNat
    .next { s with round := some ⟨s.roundNum + 1, s.early, none, false, none, []⟩, early := [], roundNum := s.roundNum + 1, roundDue := s.time + p, fabricOn := s.mgmt.fabric,
                    fabricIn := if s.mgmt.fabric then s.fabricIn else [], fabricDown := if s.mgmt.fabric then s.fabricDown else [] }

/-- TAKE_THE_CUT (R371): the colour, the counts of that colour and the way minimum of a station. -/
def execTakeTheCut (n : Nat) (s : State) : Out :=
  match s.round with
  | some r =>
    if stationCount ≤ n ∨ r.cut.contains n then notEnabled "TAKE_THE_CUT"
    else .next (s.cutAt n (r.num % 2 = 1))
  | none => notEnabled "TAKE_THE_CUT"

/-- MILESTONE_PASS (R372): every station has taken the cut and reports. A sum that is not zero makes another pass follow; at fabric scope the module gives its share to the fabric round. -/
def execMilestonePass (s : State) : Out :=
  match s.round with
  | some r =>
    if r.result.isSome ∨ r.given.isSome ∨ r.cut.length < stationCount then notEnabled "MILESTONE_PASS"
    else
      let x := s.share (! (r.num % 2 = 1))
      if s.fabricOn then .next { s with round := some { r with given := some x } }
      else if x.count = 0 then .next (s.endRound r x)
      else .next s
  | none => notEnabled "MILESTONE_PASS"

/-! ## The fabric reduction (R374, log 18) -/

/-- A coordinate of the module, and the size of a dimension less one. -/
def State.coordOf (s : State) (d : Nat) : Nat := (s.coords.extractLsb' (4 * d) 4).toNat
def State.lastOf (s : State) (d : Nat) : Nat := (s.torus.extractLsb' (4 * d) 4).toNat

/-- The dimension along which the module's share goes towards the root: the first whose coordinate is not 0; none at the root. -/
def State.upDim (s : State) : Option Nat := ([0, 1, 2] : List Nat).find? fun d => s.coordOf d ≠ 0

/-- The dimensions along which shares reach the module: those up to its own, where a module stands beyond it. -/
def State.childDims (s : State) : List Nat :=
  ([0, 1, 2] : List Nat).filter fun d => decide (d ≤ s.upDim.getD 2) && decide (s.coordOf d < s.lastOf d)

/-- A fabric word sent on a link port, on channel 3; none when its replay buffer is full (R269, R285). -/
def State.sendWord (s : State) (l : Nat) (w : FabricWord) : Option State :=
  let p := s.port l
  if 512 < p.replay.length + 1 then none
  else
    let f := Flit.of (freeData s.tick) p.txSeq 3 false none (some w)
    some ({ s with tick := s.tick + 1 }.setPort l { p with txSeq := p.txSeq + 1, replay := p.replay ++ [f], out := p.out ++ [f] })

/-- A word of the root sent on, away from it. -/
def State.sendDown (s : State) (w : Option (Word × Bool)) : Option State :=
  s.childDims.foldl (fun t d => t.bind fun t => t.sendWord (4 * d) (.down w)) (some s)

/-- The word of the root at the module: the result, or that the modules pass again. -/
def State.fabricWord (s : State) (r : Round) (w : Option (Word × Bool)) : Option State :=
  s.sendDown w |>.map fun t => match w with
    | some y => t.takeResult r y
    | none => { t with round := some { r with given := none, sentUp := false } }

/-- FABRIC_ROUND (R374): x before y before z, a module that has the shares of those behind it sends their reduction towards the root; the root's word goes back the same way. With messages on their way the modules pass again. -/
def execFabricRound (s : State) : Out :=
  let no := notEnabled "FABRIC_ROUND"
  let done (r : Option State) : Out := match r with
    | some t => .next t
    | none => no
  match s.round with
  | some r =>
    match r.given with
    | some x =>
      if r.result.isSome then no
      else if r.sentUp then
        match s.fabricDown with
        | w :: rest => done ({ s with fabricDown := rest }.fabricWord r w)
        | [] => no
      else if s.fabricIn.length < s.childDims.length then no
      else
        let y := s.fabricIn.foldl Share.join x
        let t := { s with fabricIn := [] }
        match s.upDim with
        | some d => done (({ t with round := some { r with sentUp := true } }.sendWord (4 * d + 2) (.up y)))
        | none => done (t.fabricWord r (if y.count = 0 then some (y.result s.lastM) else none))
    | none => no
  | none => no

/-! ## Commit (R366) -/

/-- The records of the oldest activation of a log freed (records oldest first): a returned message and an anti-message that is not safe stay, with fillers above them in the ring. -/
def freeOldest (m : Word) (st : Bool) : List Placed → Bool → List Placed
  | [], _ => []
  | p :: l, kept =>
    match p.entry with
    | .returned _ => p :: freeOldest m st l true
    | .spilledAnti h => if safe m st h.key.vrt then (if kept && ! p.spilled then { p with entry := .filler 1 } :: freeOldest m st l kept else freeOldest m st l kept)
                        else p :: freeOldest m st l true
    | _ => if kept && ! p.spilled then { p with entry := .filler p.entry.units } :: freeOldest m st l kept else freeOldest m st l kept

/-- A log, oldest first, split before its second marker: the oldest activation's records and the later ones. -/
def splitOldest : List Placed → Bool → List Placed × List Placed
  | [], _ => ([], [])
  | p :: l, seen =>
    if seen && p.entry.isMarker then ([], p :: l)
    else let r := splitOldest l (seen || p.entry.isMarker); (p :: r.1, r.2)

/-- An actor with its oldest ended activation committed: its records freed, and retired if it was a done.retire (R276). -/
def Actor.committed (a : Actor) (m : Word) (st : Bool) (e : Ended) : Actor :=
  let r := splitOldest a.log.reverse false
  { a with ended := a.ended.drop 1, retired := a.retired || e.retire, log := (freeOldest m st r.1 false ++ r.2).reverse }

/-- Whether the oldest ended activation of an actor commits now; a held trap belongs to the last one. -/
def Actor.commits (a : Actor) (m : Word) (st : Bool) : Option Ended :=
  match a.ended with
  | e :: _ => if safe m st e.key.vrt then some e else none
  | [] => none

/-- The committed items of the actor in a slot leave: those of no ended and no running activation (R277). -/
def State.releaseCommitted (s : State) (k : BitVec 4) : State :=
  let a := s.actorAt k
  let running : Option Key := (s.ctxOf k).map fun x => (s.ctxAt x).key
  let mine (d : Deferred) : Bool := d.slot = k && (a.ended.all fun e => e.key ≠ d.key) && running ≠ some d.key
  let items := s.hereCore.deferral.filter mine
  let t := s.setHere { s.hereCore with deferral := s.hereCore.deferral.filter fun d => ! mine d }
  items.foldl (fun t d => t.releaseAll k d.key [d.item]) t

/-- The lowest key among activations that commit. -/
def firstKey (l : List (α × Ended)) : Option (α × Ended) :=
  l.foldl (fun m x => match m with
    | none => some x
    | some y => if x.2.key.before y.2.key then some x else some y) none

/-- The safe ended activations of the core in focus committed, the lowest key first, so that what they release leaves in key order (R277); a held trap that is safe takes effect (R347). -/
def State.commitCore : Nat → State → State
  | 0, s => s
  | n + 1, s =>
    let k := s.hereCore
    match firstKey (k.actors.filterMap fun x => (x.2.commits k.vmile k.settled).map fun e => (BitVec.ofNat 4 x.1, e)) with
    | none => s
    | some (i, e) =>
      let a := s.actorAt i
      match a.pending, a.ended with
      | some p, [_] => State.commitCore n (s.trapHeld i p e.key)
      | _, _ =>
        let t := s.setLogged i (a.committed k.vmile k.settled e)
        let t := ((t.releaseCommitted i).fetchBack i).settle i
        State.commitCore n ((t.reap i).syncDir t.here)

/-- The spilled anti-messages of a log that are safe freed (R278). -/
def dropSpilledAntis (m : Word) (st : Bool) (l : List Placed) : List Placed := l.map fun p => match p.entry with
  | .spilledAnti h => if safe m st h.key.vrt then { p with entry := .filler 1 } else p
  | _ => p

/-- The anti-messages of a core that are safe freed (R278): a positive still absent was discarded. -/
def Core.dropSafeAntis (k : Core) : Core :=
  { k with
    antis := k.antis.filter fun x => ! safe k.vmile k.settled x.2.key.vrt,
    actors := k.actors.map fun x => (x.1, { x.2 with log := dropSpilledAntis k.vmile k.settled x.2.log }) }

/-- The messages that the new Milestone makes ripe are eligible from now on (R341). -/
def State.ripen (before s : State) : State :=
  s.setHere { s.hereCore with actors := s.hereCore.actors.map fun x =>
    (x.1, { x.2 with box := x.2.box.map fun h => if s.ripe x.2 h && ! before.ripe x.2 h then { h with since := s.time } else h }) }

/-- A round's result at the core in focus: the three fields change together, then rollbacks, then commits (R189, R366). -/
def State.coreRound (s : State) (m : Word) (st : Bool) : State :=
  let k := s.hereCore
  let t := State.ripen s (s.setHere { k with vmile := m, settled := st, rounds := k.rounds + 1 })
  let slots := t.hereCore.actors.map fun x => BitVec.ofNat 4 x.1
  let t := slots.foldl (fun t i => if (t.hereCore.called.any fun x => x.1 = i) && (t.ctxOf i).isNone then t.rollback i else t) t
  let t := slots.foldl (fun (t : State) i => if t.hasActor i then t.releaseCommitted i else t) t
  let t := State.commitCore (t.hereCore.actors.map fun x => x.2.ended.length).sum t
  (t.setHere t.hereCore.dropSafeAntis).wakeHere

/-! ## Commit at a home base (R259) -/

/-- The zones of a saved actor as an item that leaves reads them: its scratch zones are unspecified. -/
def Saved.mem (x : Saved) (tag : Nat) : Mem :=
  ⟨x.pad, (x.actor.zones.toList.filter fun z => z.valid && z.kind = .scratch).map fun z => ⟨64 * z.base.toNat, 64 * (z.base.toNat + z.len.toNat), tag⟩⟩

/-- One committed item of a saved actor released from its home base; none while a fence or its sequence holds it (R27, R235, R266), or where it writes the actor's zones. -/
def State.releaseSaved (s : State) (x : Saved) (it : Item) : Option State :=
  let a := x.actor
  let st := baseStation (homeOf a.aid)
  let m := (s.base (homeOf a.aid)).vmile
  let tag := s.tick
  let pad := x.mem tag
  let held := s.seqHeld a.aid it
  let s := { s with tick := s.tick + 1 }
  if held then none
  else match it with
  | .fence kind scope before pages =>
    if ! s.fenceMet a.aid kind scope before then none
    else if scope ≠ 10 then some s
    else if pages.any s.walking then none
    else
      let p := pages.eraseDups.foldl (fun (p : State × Actor) n =>
        match p.1.persistPage n with
        | .ok (u, _) => (u, p.2)
        | .error c => (p.1, p.2.durFailed c n p.1.time)) (s, a)
      some (p.1.setSaved { x with actor := p.2 })
  | .copy c rule =>
    if c.isRead then none
    else
    let e15 := a.ep 15
    let v := rule.value c.key.vrt m e15.lastvrt
    let c := { c with key := { c.key with vrt := v }, loc := x.last }
    let r := copyRequest c (copyWrites c fun b n => a.engineBytes pad tag b n) 0 none
    let b := a.setEp 15 { e15 with lastvrt := maxWord v e15.lastvrt }
    some ((s.post st v (match hostPort c.gaddr with | some p => .hostRead p r | none => .mem r)).setSaved { x with actor := b })
  | _ =>
    let p := leaveItem x.last st m pad [] it a s
    some (p.1.settleSaved x p.2)

/-- The committed items of a saved actor released in order as far as they may leave; `n` bounds their number. -/
def State.releaseSavedAll (who : AId) : Nat → State → State
  | 0, s => s
  | n + 1, s =>
    match s.savedOf who with
    | none => s
    | some x =>
      match x.deferral.find? fun d => x.actor.ended.all fun e => e.key ≠ d.key with
      | none => s
      | some d =>
        match (s.setSaved { x with deferral := x.deferral.erase d }).releaseSaved { x with deferral := x.deferral.erase d } d.item with
        | some t => State.releaseSavedAll who n t
        | none => s

/-- Whether the oldest ended activation of a saved actor commits now; a held trap waits for the reload. -/
def Saved.commits (x : Saved) (m : Word) (st : Bool) : Option Ended :=
  if x.actor.pending.isSome ∧ x.actor.ended.length = 1 then none else x.actor.commits m st

/-- The safe ended activations of the actors saved at a logic base committed, the lowest key first (R366). -/
def State.commitSaved (n : Nat) (m : Word) (st : Bool) : Nat → State → State
  | 0, s => s
  | k + 1, s =>
    match firstKey ((s.base n).saved.filterMap fun x => (x.commits m st).map fun e => (x, e)) with
    | none => s
    | some (x, e) =>
      let t := s.setSaved { x with actor := x.actor.committed m st e }
      State.commitSaved n m st k (State.releaseSavedAll x.actor.aid x.deferral.length t)

/-- A saved actor that has retired and whose endpoints have closed leaves its save area, and with it what waits for it (R38). -/
def State.reapSaved (s : State) (who : AId) : State :=
  match s.savedOf who with
  | none => s
  | some x =>
    let a := s.closeLeft x.actor
    if a.retired ∧ programEps.all fun e => (a.ep e).status ≠ .closing then
      let s := s.dropWaiting who
      let b := s.base (homeOf who)
      (s.setBase (homeOf who) { b with saved := b.saved.filter (fun y => y.actor.aid ≠ who), spills := b.spills.filter (fun y => y.1 ≠ who),
                                       poolUsed := b.poolUsed - BitVec.ofNat 24 x.frames }).syncDir x.last.core
    else s.setSaved { x with actor := a }

/-- The pages of a logic base that a checkpoint's cut marks copy-on-write when the Milestone first reaches its T (R263). -/
def State.markTakes (s : State) (n : Nat) (old new : Word) : State :=
  (s.takes.filter fun t => old.ult t.t && ! new.ult t.t).foldl (fun s t =>
    (t.pages.filter fun p => homePage p.1 = n && (s.leaf p.1).valid).foldl (fun s p => s.setLeaf p.1 { s.leaf p.1 with cow := true }) s) s

/-- A round's result at a logic base. -/
def State.baseRound (s : State) (n : Nat) (m : Word) (st : Bool) : State :=
  let b := s.base n
  let s := s.markTakes n b.vmile m
  let keep (x : AId × Header) : Bool := ! safe m st x.2.key.vrt
  let s := s.setBase n { b with vmile := m, settled := st, heldAntis := b.heldAntis.filter keep,
                                saved := b.saved.map fun x => { x with antis := x.antis.filter keep, actor := { x.actor with log := dropSpilledAntis m st x.actor.log } } }
  let all := b.saved.map fun x => x.actor.aid
  let s := all.foldl (fun s who => State.releaseSavedAll who (((s.savedOf who).map fun x => x.deferral.length).getD 0) s) s
  let s := State.commitSaved n m st (b.saved.map fun x => x.actor.ended.length).sum s
  all.foldl (fun s who => s.reapSaved who) s

/-- Whether a walk is in progress of a page that a checkpoint's cut marks at a logic base when the Milestone reaches `m` (R263, R325). -/
def State.markWaits (s : State) (n : Nat) (m : Word) : Bool :=
  s.takes.any fun t => (s.base n).vmile.ult t.t && ! m.ult t.t && t.pages.any fun p => homePage p.1 = n && (s.leaf p.1).valid && s.walking p.1

/-- ROUND_COMPLETION (R366, R372): the result reaches a station; a core or logic base commits. A base whose checkpoint marks wait for a walk takes it later (R325), and so does a core at which an anti-message has found the store full in this cycle (R268). -/
def execRoundCompletion (n : Nat) (s : State) : Out :=
  let no := notEnabled "ROUND_COMPLETION"
  match s.round with
  | none => no
  | some r =>
    match r.result with
    | none => no
    | some (m, st) =>
      if stationCount ≤ n ∨ r.reached.contains n then no
      else if n < 4096 ∧ (s.core (BitVec.ofNat 12 n)).antiFull = some s.time then no
      else if 4096 ≤ n ∧ n < 4104 ∧ s.markWaits (n - 4096) m then no
      else
        let seen := insertNat n r.reached
        let s := { s with round := if seen.length < stationCount then some { r with reached := seen } else none }
        .next (if n < 4096 then s.at (BitVec.ofNat 12 n) s.cx fun t => t.coreRound m st
          else if n < 4104 then s.baseRound (n - 4096) m st
          else s)

end Sys2Proof.Machine
end

