-- ==== Sys2Proof/Machine/Host.lean ====
section
/-! DEFINITION. The host (08_system_registers.md R192, R196 to R199), launch sets (02_instruction_formats.md R64, 19_program_itinerary_stream.md R385) and the receiving side of the Umzaow Link (12_queues.md R285 to R287): CTL_WRITE, HOST_MESSAGE_ENTRY, SEND_WINDOW_WRITE, HOST_RING_DELIVERY, HOST_REGISTER_WRITE, LAUNCH, LINK_FLIT_RECEIVE, LINK_ACKNOWLEDGEMENT, LINK_REPLAY. -/

namespace Sys2Proof.Machine

/-! ## Rings (R198, R199) -/

/-- A host address of a port, as its window shows it (R195); a bus address beyond the window lies above every window. -/
def hostAddr (port : Nat) (bus : Nat) : Nat :=
  if bus < 2 ^ 51 then 0x00F0000000000000 + port * 2 ^ 51 + bus else 2 ^ 64 + port * 2 ^ 64 + bus

def State.setRing (s : State) (r : Ring) : State :=
  { s with rings := s.rings.map fun x => if x.fn = r.fn ∧ x.num = r.num then r else x }

/-- The two words of a vector's MSI-X entry: address, then data in [31:0] and control in [63:32], whose bit [32] masks (log 11). -/
def State.msixEntry (s : State) (fn vec : Nat) : Word × Word := look (0, 0x100000000) (fn * 2048 + vec) s.msix

/-- The vectors of a function (R195). -/
def State.vectorsOf (s : State) (fn : Nat) : Nat := look 0 fn s.vectors

/-- An MSI-X vector of a function raised, or its pending bit set. -/
def State.raiseVector (s : State) (fn vec : Nat) : State :=
  if s.vectorsOf fn ≤ vec then s
  else if (s.msixEntry fn vec).2.getLsbD 32 then { s with msixPending := (s.msixPending ++ [(fn, vec)]).eraseDups }
  else { s with interrupts := s.interrupts ++ [(fn, vec)] }

/-- A word of a function's MSI-X table written; an unmasked vector whose pending bit is set is raised. A virtual function whose tenant has no host endpoint on the port is disabled (R196). -/
def State.writeMsix (s : State) (fn word : Nat) (v : Word) : State :=
  let n := word / 2
  if s.vectorsOf fn ≤ n then s
  else
    let e := s.msixEntry fn n
    let e := if word % 2 = 0 then (v, e.2) else (e.1, v)
    let t := { s with msix := put (fn * 2048 + n) e s.msix }
    if ! e.2.getLsbD 32 && t.msixPending.contains (fn, n) then
      { t with msixPending := t.msixPending.filter (· ≠ (fn, n)), interrupts := t.interrupts ++ [(fn, n)] }
    else t

/-! ## The functions of a port (R196) -/

/-- Whether a function answers: a physical function, or a virtual one whose tenant has a host endpoint on the port. -/
def State.fnOn (s : State) (fn : Nat) : Bool := decide (fn < 34) && (fn % 17 = 0 || s.hosts.any fun h => h.fn = fn)

/-- The i-th host endpoint of a function, in increasing endpoint number. -/
def State.endpointAt (s : State) (fn i : Nat) : Option HostEp :=
  s.hosts.find? fun h => h.fn = fn && (s.hosts.filter fun x => x.fn = fn && decide (x.num.toNat < h.num.toNat)).length = i

def HostEp.port (h : HostEp) : Nat := h.num.toNat / 65536

/-- A message written into the next slot of a host endpoint's ring, the status word last; then RTAIL advances and the vector is raised. Without a ring it is discarded, and the channel of a delegation with it (R183). -/
def State.toRing (s : State) (h : HostEp) (m : Msg) : State :=
  match s.ringOf h with
  | none => s.loseMsg (hostStation h.port) m
  | some r =>
    if r.slots = 0 then s.loseMsg (hostStation h.port) m
    else
      let x := s.drawNumber
      let slot := r.rtail.toNat % r.slots
      let va := hostAddr (r.fn / 17) (r.rbase.toNat + 4160 * slot)
      let status := x.1 * 2 + (if r.phase then 1 else 0)
      let mem := (x.2.hostMem.setBytes va (m.hdr.bytes ++ List.replicate 32 0)).setBytes (va + 64) m.payload
      let mem := mem.setBytes (va + 32) (leBytes status 8)
      let next := (slot + 1) % r.slots
      let t := { x.2 with hostMem := mem }.setRing { r with rtail := BitVec.ofNat 64 next, phase := if next = 0 then ! r.phase else r.phase }
      if r.rvec.getLsbD 15 then t.raiseVector r.fn (r.rvec.setWidth 11).toNat else t

/-! ## Messages from the host (R197) -/

/-- A header of a message that a host endpoint sends. -/
def HostEp.header (h : HostEp) (v : Word) (cls : BitVec 6) (len : Nat) : Header :=
  { key := ⟨v, BitVec.ofNat 24 (0xFF0000 + h.num.toNat % 65536), h.seq⟩, dest := h.record.peer.extractLsb' 4 20, cls := cls, len := BitVec.ofNat 13 len,
    state := h.record.state, join := false, ze := false, anti := false, close := false, label := false, deleg := false, colour := false, irrev := true,
    tenant := h.tenant, prio := 0, scope := 6, dmod := 0 }

/-- A VRT raised to the Milestone + 1 when it is not above the Milestone (R28). -/
def State.raised (s : State) (v : Word) : Word := if s.lastM.ult v then v else satAdd s.lastM 1

/-- Where a host endpoint's messages go. -/
def HostEp.dest (h : HostEp) : Dest := .ep (peerLoc h.record.peer) (peerEp h.record.peer)

/-- The next state and LOOP of a host endpoint by a label. -/
def HostEp.advance (h : HostEp) (label : Nat) : Option EpRec :=
  let v := viewsOf h.states
  match ((v.getD h.record.state.toNat View.none).next)[label]? with
  | none => none
  | some t => (stepLoop v h.record.state.toNat t.toNat h.record.loop.toNat).map fun x =>
      { h.record with state := BitVec.ofNat 6 x.1, loop := BitVec.ofNat 16 x.2 }

/-- A host endpoint's current state. -/
def HostEp.view (h : HostEp) : View := (viewsOf h.states).getD h.record.state.toNat View.none

/-- The cause that refuses a message which does not fit a host endpoint's state (R161, R178). -/
def HostEp.misfit (h : HostEp) (cls : BitVec 6) (len : Nat) : Option (BitVec 9) :=
  let v := h.view
  let cause (reason : BitVec 9) : BitVec 9 := 0x0A0 + v.kind.setWidth 9 * 4 + reason
  if v.kind ≠ 0 then some (cause 0)
  else if v.cls ≠ cls ∨ (h.advance 0).isNone then some (cause 1)
  else if len < v.min ∨ v.max < len then some (cause 2) else none

/-- A message that enters from an open host endpoint: it is sent, or refused with notices to the actor and to the host's ring. The manual does not say what the ring's notice holds: the model writes the actor's notice there too, whose sender is the host endpoint itself (log 106). -/
def State.enter (s : State) (h : HostEp) (cls : BitVec 6) (join : Bool) (vrt : Word) (payload : List Byte) : State :=
  let st := hostStation h.port
  let rcpt : AId := ⟨h.tenant, h.peerId⟩
  match h.misfit cls payload.length with
  | some cause =>
    let v := h.view
    let w := maxWord (satAdd s.lastM 1) h.record.lastvrt
    let m : Msg := ⟨{ h.header w 62 16 with close := true }, noticeBytes h.record.state v.close cause h.record.sent, .plain, rcpt⟩
    let r := { h.record.closed cause v.close with sent := h.record.sent + 1, lastvrt := w }
    ((s.setHost { h with record := r, seq := h.seq + 1 }).postMsg st h.dest m).toRing h m
  | none =>
    let v := s.raised vrt
    let m : Msg := ⟨{ h.header v cls payload.length with join := join }, payload, .plain, rcpt⟩
    let r := (h.advance 0).getD h.record
    (s.setHost { h with record := { r with sent := r.sent + 1, lastvrt := v }, seq := h.seq + 1 }).postMsg st h.dest m

/-- The first of the host writes that the ports have received, and the state without it. -/
def withWrite (name : String) (s : State) (k : HostWrite → State → Out) : Out :=
  match s.hostIn with
  | [] => notEnabled name
  | w :: l => k w { s with hostIn := l }

/-- A write to an endpoint that is BUSY, or of CTL to one that is not open, is discarded and counted. -/
def State.discardWrite (s : State) : State := s.count 0x30B8

/-- CTL_WRITE (R197, R284): BUSY becomes 1 when the endpoint is open and not busy; a write that finds it busy tells that BUSY is not cleared in this cycle (R268). Reserved bits of the word have no effect (log 84). -/
def execCtlWrite (s : State) : Out :=
  withWrite "CTL_WRITE" s fun w t =>
    match w with
    | .ctl fn i v =>
      match t.endpointAt fn i with
      | none => .next t
      | some h =>
        .next (if h.busy then (t.setHost { h with fullAt := some t.time }).discardWrite
          else if h.record.status ≠ .opened then t.discardWrite else t.setHost { h with ctl := v, busy := true })
    | _ => notEnabled "CTL_WRITE"

/-- The sender that a host endpoint is (R196). -/
def HostEp.sender (h : HostEp) : AId := ⟨h.tenant, BitVec.ofNat 24 (0xFF0000 + h.num.toNat % 65536)⟩

/-- HOST_MESSAGE_ENTRY (R197): LEN bytes and the two words are copied, the message enters or is refused, and BUSY is cleared. An endpoint that has closed meanwhile sends nothing. A sequence too far above a live one's is held (R27). A LEN above the 4 KiB of the send window takes zeros beyond it; no shape admits such a message, so it is refused with reason 2 where no check before fails (log 84). -/
def execHostMessageEntry (n : Nat) (s : State) : Out :=
  match s.hostOf (BitVec.ofNat 17 n) with
  | none => notEnabled "HOST_MESSAGE_ENTRY"
  | some h =>
    if ! h.busy ∨ h.fullAt = some s.time ∨ s.tooFar h.sender h.seq h.seq then notEnabled "HOST_MESSAGE_ENTRY"
    else
      let g := { h with busy := false }
      let t := s.setHost g
      if h.record.status ≠ .opened then .next t.discardWrite
      else .next (t.enter g (h.ctl.extractLsb' 24 6) (h.ctl.getLsbD 16) h.vrt (h.window.bytes 0 (h.ctl.setWidth 13).toNat))

/-- SEND_WINDOW_WRITE (R197): payload bytes stored, or discarded while BUSY. -/
def execSendWindowWrite (s : State) : Out :=
  withWrite "SEND_WINDOW_WRITE" s fun w t =>
    match w with
    | .window fn i off bytes =>
      match t.endpointAt fn i with
      | none => .next t
      | some h => .next (if h.busy ∨ 4096 < off + bytes.length then t.discardWrite else t.setHost { h with window := h.window.setBytes off bytes })
    | _ => notEnabled "SEND_WINDOW_WRITE"

/-- HOST_RING_DELIVERY (R198, R175, R176): the message at a place of `flight` for a host endpoint is written into its ring; a close notice closes the endpoint, or completes its close. What an absent or closed endpoint does not take is discarded (R177, R183). -/
def execHostRingDelivery (n : Nat) (s : State) : Out :=
  let no := notEnabled "HOST_RING_DELIVERY"
  match s.packet n with
  | some (.msg (.host num) m) =>
    if ! s.first n (.msg (.host num) m) then no
    else if m.hdr.fails then .next ((s.take n (hostStation (num.toNat / 65536))).loseMsg (hostStation (num.toNat / 65536)) m)
    else
      let st := hostStation (num.toNat / 65536)
      let t := s.take n st
      match t.hostOf num with
      | none => .next (t.loseMsg st m)
      | some h =>
        let r := h.record
        let v := h.view
        if r.status = .closing ∧ m.hdr.close then .next (t.setHost { h with record := { r with status := .closed } })
        else if r.status ≠ .opened then .next (t.loseMsg st m)
        else if m.hdr.close then
          let q := { r with status := .closed, state := v.close, cpoint := v.close, ccause := (payloadWord m.payload 0).setWidth 9, cbypeer := true }
          .next (((t.setHost { h with record := q }).toRing h m).post st (BitVec.allOnes 64) (.ack h.dest ⟨h.tenant, h.peerId⟩ false))
        else
          let l := if v.kind = 3 then (m.payload.headD 0).toNat else 0
          let q := (h.advance l).getD r
          .next ((t.setHost { h with record := { q with rcvd := q.rcvd + 1 } }).toRing h m)
  | _ => no

/-! ## Registers (R4, R192 and the maps of W0 and W2) -/

/-- A word of a vector of registers of one kind, 8 bytes apart from an offset. -/
def regIndex (base count off : Nat) : Option Nat := if base ≤ off ∧ off < base + 8 * count ∧ (off - base) % 8 = 0 then some ((off - base) / 8) else none

/-- Eight bytes put into a vector of bytes. -/
def putBytes (v : Vector Byte n) (at_ : Nat) (l : List Byte) : Vector Byte n :=
  l.zipIdx.foldl (fun v x => v.setIfInBounds (at_ + x.2) x.1) v

/-- A write of a word to a register of W0 under its access codes; none for the registers whose writes are steps of their own. -/
def Mgmt.write (m : Mgmt) (off : Nat) (v : Word) : Option Mgmt :=
  if off = 0x0018 then none
  else if (regIndex 0x6180 16 off).isSome ∨ (regIndex 0x6500 8 off).isSome then none
  else if off = 0x0008 then some { m with lcErr := m.lcErr &&& ~~~(v.extractLsb' 8 8) }
  else if off = 0x0010 then some { m with lcGo := m.lcGo || v.getLsbD 0 }
  else if off = 0x0100 then some (if 600 ≤ (v.setWidth 11).toNat ∧ (v.setWidth 11).toNat ≤ 1800 then { m with pwrCap := v.setWidth 11 } else m)
  else if off = 0x6020 then some { m with tblGo := m.tblGo || v.getLsbD 0 }
  else if off = 0x6280 then
    some { m with fabric := v.getLsbD 63, period := if (v.setWidth 24).toNat < 256 then m.period else v.setWidth 24 }
  else if off = 0x6288 then some (if (v.setWidth 24).toNat < 16384 then m else { m with fperiod := v.setWidth 24 })
  else if off = 0x6310 then some { m with cfgGo := m.cfgGo || v.getLsbD 0 }
  else if off = 0x7100 then some { m with rbSel := v.setWidth 12 }
  else if 0x8000 ≤ off ∧ off < 0x9000 ∧ off % 8 = 0 then
    let l := m.lcRequest ++ List.replicate (4096 - m.lcRequest.length) 0
    some { m with lcRequest := l.take (off - 0x8000) ++ leBytes v.toNat 8 ++ l.drop (off - 0x8000 + 8) }
  else match regIndex 0x6000 4 off, regIndex 0x6100 16 off, regIndex 0x6200 16 off, regIndex 0x6300 2 off with
    | some i, _, _, _ => some { m with tblReq := m.tblReq.setIfInBounds i v }
    | _, some t, _, _ => some (if v.setWidth 24 = (0 : BitVec 24) then m else { m with parkdl := m.parkdl.setIfInBounds t (v.setWidth 24) })
    | _, _, some t, _ => some { m with horizon := m.horizon.setIfInBounds t v }
    | _, _, _, some i => some { m with cfgReq := m.cfgReq.setIfInBounds i v }
    | _, _, _, _ =>
      match regIndex 0x6340 8 off, regIndex 0x6400 16 off, regIndex 0x7000 16 off with
      | some i, _, _ => some { m with cfgEntries := putBytes m.cfgEntries (8 * i) (leBytes v.toNat 8) }
      | _, some t, _ =>
        let old := (m.pager.toList.getD t (false, 0, 0)).2.1
        let cls : BitVec 6 := v.extractLsb' 24 6
        some { m with pager := m.pager.setIfInBounds t (v.getLsbD 63, if 62 ≤ cls.toNat then old else cls, v.setWidth 24) }
      | _, _, some p =>
        some { m with trapMask := m.trapMask.setIfInBounds p (v.extractLsb' 16 16), haltOk := m.haltOk.setIfInBounds p (v.getLsbD 3),
                      rbGo := m.rbGo.setIfInBounds p (m.rbGo.toList.getD p false || v.getLsbD 1),
                      rbStop := m.rbStop.setIfInBounds p (m.rbStop.toList.getD p false || v.getLsbD 0) }
      | _, _, _ => some m

/-- A word of a Roadblock record (R359); records read as zero unless the core's partition has stopped. -/
def State.rbWord (s : State) (off : Nat) : Word :=
  let k := s.core s.mgmt.rbSel
  if ! (k.arm.any fun p => s.mgmt.stopped[p.toNat]) then 0
  else if 0x7200 ≤ off ∧ off < 0x7280 then
    match k.rb[(off - 0x7200) / 32]? with
    | none => 0
    | some r => match (off - 0x7200) / 8 % 4 with | 0 => r.w0 | 1 => r.w1 | 2 => r.w2 | _ => r.w3
  else
    let i := (off - 0x7400) / 8
    match k.rbCounts.find? fun x => x.1.toNat = i / 16 && x.2.1.toNat = i % 16 with
    | some x => 0#16 ++ x.2.2.1 ++ x.2.2.2
    | none => 0

/-- A word of W0 of physical function 0 as the host reads it. -/
def State.w0 (s : State) (off : Nat) : Word :=
  let m := s.mgmt
  if off = 0x0000 then m.bootstat
  else if off = 0x0008 then 0#48 ++ m.lcErr ++ 0#5 ++ m.lcState
  else if off = 0x0010 then if m.lcGo then 1 else 0
  else if off = 0x0100 then m.pwrCap.setWidth 64
  else if off = 0x0108 then m.pwrNow.setWidth 64
  else if off = 0x0200 then m.inlet.setWidth 64
  else if 0x1000 ≤ off ∧ off < 0x3000 then
    -- four entries a word of the Detour map (R318)
    BitVec.ofNat 64 (((List.range 4).map fun i =>
      let n := (off - 0x1000) / 2 + i
      (detour (s.fuses.toList.getD (n / 1024) []) (n % 1024)).toNat * 2 ^ (16 * i)).sum)
  else if 0x3000 ≤ off ∧ off < 0x3200 then look 0 off m.counters
  else if off = 0x6020 then if m.tblGo then 1 else 0
  else if off = 0x6028 then m.tblStatus
  else if off = 0x6280 then bit m.fabric ++ 0#39 ++ m.period
  else if off = 0x6288 then m.fperiod.setWidth 64
  else if off = 0x6290 then m.mnow
  else if off = 0x6298 then m.mrounds ++ 0#31 ++ bit m.msettled
  else if off = 0x6310 then if m.cfgGo then 1 else 0
  else if off = 0x6318 then m.cfgStatus.setWidth 64
  else if off = 0x7100 then m.rbSel.setWidth 64
  else if (0x7200 ≤ off ∧ off < 0x7280) ∨ (0x7400 ≤ off ∧ off < 0x7C00) then s.rbWord off
  else
    let word (base count : Nat) (f : Nat → Word) : Option Word := (regIndex base count off).map f
    ([word 0x0110 4 fun i => (m.qgrant.toList.getD i 0).setWidth 64,
      word 0x6000 4 fun i => m.tblReq.toList.getD i 0,
      word 0x6100 16 fun t => (m.parkdl.toList.getD t 0).setWidth 64,
      word 0x6180 16 fun t => bit (m.layby.toList.getD t none).isSome ++ 0#39 ++ m.laybyId.toList.getD t 0,
      word 0x6200 16 fun t => m.horizon.toList.getD t 0,
      word 0x6300 2 fun i => m.cfgReq.toList.getD i 0,
      word 0x6340 8 fun i => BitVec.ofNat 64 (leNat ((m.cfgEntries.toList.drop (8 * i)).take 8)),
      word 0x6400 16 fun t => let p := m.pager.toList.getD t (false, 0, 0); bit p.1 ++ 0#33 ++ p.2.1 ++ p.2.2,
      word 0x6500 8 fun b => let x := s.base b; 0#16 ++ BitVec.ofNat 24 (x.poolUsed.toNat + (x.spills.map fun y => (y.2 + 1023) / 1024).sum) ++ x.poolFrames,
      word 0x7000 16 fun p => 0#32 ++ m.trapMask.toList.getD p 0 ++ 0#12 ++ bit (m.haltOk.toList.getD p false) ++ bit (m.stopped.toList.getD p false) ++
        bit (m.rbGo.toList.getD p false) ++ bit (m.rbStop.toList.getD p false)].findSome? id).getD 0

/-- The ring of a function, made when the host first writes one of its registers; the phase of its first pass is left open (R198). -/
def State.makeRing (s : State) (fn num : Nat) : State :=
  if s.rings.any fun r => r.fn = fn && r.num = num then s
  else let x := s.drawNumber; { x.2 with rings := x.2.rings ++ [⟨fn, num, 0, 0, 0, 0, 0, x.1 % 2 = 1⟩] }

/-- CTL as the host reads it (R197): CLOSED, OPEN, BUSY. -/
def HostEp.ctlWord (h : HostEp) : Word :=
  0#61 ++ bit (h.record.status = .closed) ++ bit (h.record.status = .opened) ++ bit h.busy

/-- A word of W0 of a function: virtual functions have a copy of BOOTSTAT and LCSTAT (R196). -/
def State.w0Of (s : State) (fn off : Nat) : Word :=
  if ! s.fnOn fn then 0
  else if fn % 17 = 0 ∨ off = 0x0000 ∨ off = 0x0008 then s.w0 off else 0

/-- A word of W2 of a function as the host reads it (R196): the VRT and CTL words of its endpoints, its rings, the ring bytes, its MSI-X table and pending bits. -/
def State.w2 (s : State) (fn off : Nat) : Word :=
  if ! s.fnOn fn then 0
  else if off < 0x80000 then
    match s.endpointAt fn (off / 16) with
    | some h => if off % 16 = 0 then h.vrt else h.ctlWord
    | none => 0
  else if off < 0x81000 then
    match s.rings.find? fun r => r.fn = fn && r.num = (off - 0x80000) / 64 with
    | some r => match (off - 0x80000) % 64 with
      | 0 => r.rbase
      | 8 => r.rsize.setWidth 64
      | 16 => r.rhead
      | 24 => r.rtail
      | 32 => r.rvec.setWidth 64
      | _ => 0
    | none => 0
  else if off < 0x90000 then
    BitVec.ofNat 64 (leNat ((List.range 8).map fun j => match s.endpointAt fn (off - 0x81000 + j) with | some h => h.ring | none => 0))
  else if off < 0x98000 then
    let n := (off - 0x90000) / 16
    if s.vectorsOf fn ≤ n then 0 else if off % 16 = 0 then (s.msixEntry fn n).1 else (s.msixEntry fn n).2
  else BitVec.ofNat 64 (((List.range 64).map fun j => if s.msixPending.contains (fn, (off - 0x98000) * 8 + j) then 2 ^ j else 0).sum)

/-- The messages that a new HORIZON makes ripe are eligible from now on (R341). -/
def State.ripenAll (before s : State) : State :=
  s.cores.foldl (fun t c => t.at (BitVec.ofNat 12 c.1) t.cx (State.ripen { before with here := BitVec.ofNat 12 c.1 })) s

/-- HOST_REGISTER_WRITE (R4): a write to a register of W0 or W2 that has no step of its own. RBASE takes all 64 bits of the write, aligned or not, RSIZE its low four and RVEC its low sixteen (log 85). -/
def execHostRegisterWrite (s : State) : Out :=
  let no := notEnabled "HOST_REGISTER_WRITE"
  withWrite "HOST_REGISTER_WRITE" s fun w t =>
    match w with
    | .w0 off v =>
      match t.mgmt.write off v with
      | some m => .next (State.ripenAll t { t with mgmt := m })
      | none => no
    | .vrt fn i v =>
      match t.endpointAt fn i with
      | none => .next t
      | some h => .next (if h.busy then t.discardWrite else t.setHost { h with vrt := v })
    | .ringByte fn i v =>
      match t.endpointAt fn i with
      | none => .next t
      | some h => .next (t.setHost { h with ring := v })
    | .ring fn num reg v =>
      if ! t.fnOn fn ∨ 64 ≤ num then .next t
      else
        let u := t.makeRing fn num
        match u.rings.find? fun r => r.fn = fn && r.num = num with
        | none => .next u
        | some r =>
          .next (match reg with
            | 0 => u.setRing { r with rbase := v }
            | 8 => u.setRing { r with rsize := v.setWidth 4 }
            | 16 => u.setRing { r with rhead := v }
            | 32 => u.setRing { r with rvec := v.setWidth 16 }
            | _ => u)
    | .msix fn word v => .next (if t.fnOn fn then t.writeMsix fn word v else t)
    | _ => no

/-! ## Launch (R64, R385) -/

/-- The lowest free code address of a tenant's partition with room for n bytes (R385): the partition's start or the end of an image. -/
def Core.codeRoom (k : Core) (t : BitVec 4) (n : Nat) : Option Nat :=
  match k.parts.find? fun p => p.1 = t.toNat with
  | none => none
  | some (_, b, len) =>
    let starts := 512 * b :: k.images.map fun i => i.base + i.len
    let fits := starts.filter fun a => decide (512 * b ≤ a) && decide (a + n ≤ 512 * (b + len)) &&
      k.images.all fun i => decide (a + n ≤ i.base) || decide (i.base + i.len ≤ a)
    fits.foldl (fun m b => match m with | none => some b | some x => some (min x b)) none

/-- Whether the fields of an image of a launch set are within the limits of R302 to R304 (0x1EC). -/
def Image.fieldsOk (img : Image) : Bool :=
  decide (1 ≤ img.budget.toNat) && decide (img.budget.toNat ≤ 16777216) && img.data.all (dataOk img.zones) &&
    (img.junction.toList.zipIdx.all fun x => junctionOk x.2 x.1) && img.zones.toList.all fun z => ! z.valid || decide (1 ≤ z.len.toNat)

/-- Phase 1: an image of the set loaded and scanned. -/
def State.launchImage (s : State) (x : LaunchImage) : Except (BitVec 9 × State) State :=
  let k := s.core x.core
  let img := { x.image with base := (k.codeRoom x.image.tenant x.code.length).getD 0, len := x.code.length }
  let refused : Option (BitVec 9) :=
    if x.code.length = 0 ∨ x.code.length % 2 = 1 then some 0x1E0
    else if (k.codeRoom x.image.tenant x.code.length).isNone then some 0x1E2
    else if ! img.fieldsOk then some 0x1EC else k.placeRefused img
  match refused with
  | some c => .error (c, s.countScan c)
  | none =>
    match (k.writeCode img.base x.code).accept img x.blocks with
    | .ok k => .ok ((s.setCore x.core k).syncDir x.core)
    | .error c => .error (c.1, s.countScan c.1)

/-- Phase 2: an actor created at its place. An identifier that is in use, for which R64 names no cause, is refused with 0x0CC as a slot that is taken (log 82). -/
def State.launchActor (s : State) (x : LaunchActor) : Except (BitVec 9 × State) State :=
  let k := s.core x.loc.core
  match k.images.find? fun i => i.tenant = x.aid.tenant && i.num = x.image with
  | none => .error (0x0CC, s)
  | some img =>
    if s.inUse x.aid ∨ ! k.freeSlots.contains x.loc.slot.toNat ∨ ! k.zonesFit x.zones then .error (0x0CC, s)
    else match newActor x.aid x.image x.disc x.prio x.budget x.zones img.junction s.time with
      | none => .error (0x0CC, s)
      | some a => .ok (s.setCore x.loc.core (k.settleActor x.loc.slot.toNat a x.data))

/-- The actor at a location. -/
def State.residentAt (s : State) (l : Loc) : Actor := look Actor.zero l.slot.toNat (s.core l.core).actors

def State.setResident (s : State) (l : Loc) (a : Actor) : State :=
  s.setCore l.core { s.core l.core with actors := put l.slot.toNat a (s.core l.core).actors }

/-- Whether an itinerary is loaded on a core for a tenant (R173). -/
def Core.loaded (k : Core) (t : BitVec 4) (i : BitVec 7) : Bool := (k.dirAt i).valid && (k.dirAt i).tenant = t

/-- Phase 3: a connect and accept pair, without reports, checked as the two instructions are (R161, R172) and then as the handshake is (R173): the status of each endpoint, the itinerary of each, then checks 1 to 5 (log 82). -/
def State.launchConnect (s : State) (x y : LaunchActor) (e : BitVec 4) (i : BitVec 7) (f : BitVec 4) (j : BitVec 7) : Except (BitVec 9 × State) State :=
  let kx := s.core x.loc.core
  let ky := s.core y.loc.core
  let idle (a : Actor) (e : BitVec 4) : Bool := (a.ep e).status = .free || (a.ep e).status = .closed
  if ! idle (s.residentAt x.loc) e ∨ ! idle (s.residentAt y.loc) f then .error (0x0C7, s)
  else if kx.badItins.contains i.toNat ∨ ky.badItins.contains j.toNat then .error (0x1C4, s)
  else if ! kx.loaded x.aid.tenant i ∨ ! ky.loaded y.aid.tenant j then .error (0x0C5, s)
  else if x.aid.tenant ≠ y.aid.tenant then .error (0x0C3, s)
  else if (kx.dirAt i).fp ≠ (ky.dirAt j).dfp ∨ (kx.dirAt i).dfp ≠ (ky.dirAt j).fp then .error (0x0C0, s)
  else match (s.residentAt y.loc).bindTo ky f j .actor (x.loc.peer e) 0 x.aid.id .opened with
    | .error c => .error (c, s)
    | .ok b =>
      let t := (s.setResident y.loc b).syncDir y.loc.core
      match (t.residentAt x.loc).bindTo (t.core x.loc.core) e i .actor (y.loc.peer f) 0 y.aid.id .opened with
      | .error c => .error (c, t)
      | .ok a => .ok ((t.setResident x.loc a).syncDir x.loc.core)

/-- The host endpoint that an `.inject` line's endpoint is connected to. -/
def State.injectorOf (s : State) (x : LaunchActor) (e : BitVec 4) : Option HostEp :=
  let r := (s.residentAt x.loc).ep e
  if r.status = .opened ∧ r.pkind = .host then s.hostOf (r.peer.extractLsb' 4 17) else none

/-- The end of phase 3: an endpoint of an `.inject` line connected to a free host endpoint (R385). -/
def State.launchHost (s : State) (x : LaunchActor) (e : BitVec 4) (cls : BitVec 6) (len : Nat) : Except (BitVec 9 × State) State :=
  if (s.injectorOf x e).isSome then .ok s
  else
    let k := s.core x.loc.core
    let itins := ((k.images.find? fun i => i.tenant = x.aid.tenant && i.num = x.image).map fun i => i.itins).getD []
    match (List.range 128).find? fun i => itins.contains (BitVec.ofNat 7 i) &&
        (let v := k.view (BitVec.ofNat 7 i) 0; v.kind = 1 && v.cls = cls && decide (v.min ≤ len) && decide (len ≤ v.max)) with
    | none => .error (0x0C0, s)
    | some n =>
      let i : BitVec 7 := BitVec.ofNat 7 n
      match s.hosts.find? fun h => h.tenant = x.aid.tenant && h.port = 0 && (h.record.status = .free || h.record.status = .closed) with
      | none => .error (0x0C3, s)
      | some h =>
        -- the core's records are of the actor's side; the host runs the other
        match (s.residentAt x.loc).bindTo k e i .host (0#3 ++ h.num ++ 0#4) 0 (BitVec.ofNat 24 (0xFF0000 + h.num.toNat % 65536)) .opened with
        | .error c => .error (c, s)
        | .ok a =>
          match s.admitHost h (dualRecs (k.recsOf i)) (x.loc.peer e) x.aid.id i with
          | .error c => .error (c, s)
          | .ok g => .ok (((s.setResident x.loc a).setHost { g with record := { g.record with status := .opened } }).syncDir x.loc.core)

/-- The management core connects a host endpoint to an endpoint of an actor that an accept has armed for it (R172): the host takes the other side of the armed itinerary and the actor has its report, with the key of a message of the host endpoint (R174, log 86). A pair that R173 refuses stays as it is. -/
def State.hostConnect (s : State) (n : BitVec 17) (l : Loc) (e : BitVec 4) : State :=
  match s.hostOf n with
  | none => s
  | some h =>
    let k := s.core l.core
    let a := s.residentAt l
    let r := a.ep e
    let x := a.auxOf e
    if a.retired ∨ r.status ≠ .armed ∨ x.filter ≠ 4#3 ++ 0#44 ++ n ∨ h.tenant ≠ a.aid.tenant then s
    else
      match s.admitHost h (dualRecs (k.recsOf r.itin)) (l.peer e) a.aid.id r.itin, a.bindTo k e r.itin .host (0#3 ++ n ++ 0#4) 0 h.sender.id .opened with
      | .ok g, .ok b =>
        let key : Key := ⟨s.raised h.vrt, h.sender.id, h.seq⟩
        let t := s.setHost { g with record := { g.record with status := .opened }, seq := h.seq + 1 }
        (t.onActor a.aid fun _ _ _ t _ => (t, b.await e (reportMsg a.aid e x.cls key 0) t.time)).syncDir l.core
      | _, _ => s

/-- Steps of a launch in order, up to the first that fails. -/
def launchAll (f : State → α → Except (BitVec 9 × State) State) : List α → State → Except (BitVec 9 × State) State
  | [], s => .ok s
  | x :: l, s => match f s x with
    | .ok t => launchAll f l t
    | .error e => .error e

/-- What phase 4 has to write: the message of each `.inject` line, in order, with its host endpoint. -/
def State.injectsOf (s : State) (actor : Nat → LaunchActor) (x : LaunchSet) : List Inject :=
  x.injects.filterMap fun c => (s.injectorOf (actor c.1) c.2.1).map fun h => ⟨h.num, c.2.2.1, c.2.2.2.1, c.2.2.2.2⟩

/-- Phases 1 to 3 of a launch set (R64); what phase 4 writes stands in `injects`. -/
def State.launchSet (s : State) (x : LaunchSet) : Except (BitVec 9 × State) State :=
  let actor (i : Nat) : LaunchActor := x.actors.getD i ⟨⟨0, 0⟩, 0, .untimed, 0, 0, ⟨0, 0⟩, Vector.replicate 8 Zone.none, []⟩
  match launchAll State.launchImage x.images s with
  | .error e => .error e
  | .ok s =>
  match launchAll State.launchActor x.actors s with
  | .error e => .error e
  | .ok s =>
  match launchAll (fun t c => t.launchConnect (actor c.1) (actor c.2.2.2.1) c.2.1 c.2.2.1 c.2.2.2.2.1 c.2.2.2.2.2) x.connects s with
  | .error e => .error e
  | .ok s =>
  match launchAll (fun t c => t.launchHost (actor c.1) c.2.1 c.2.2.1 c.2.2.2.2.length) x.injects s with
  | .error e => .error e
  | .ok s => .ok { s with injects := s.injectsOf actor x }

/-- A launch that has failed (R64): the actors that it created are killed, its images, those of a core that were not there `before`, are unloaded, and the cause is returned. -/
def State.launchFailed (s : State) (x : LaunchSet) (fresh : List LaunchActor) (before : CoreId → List Image) (c : BitVec 9) : State :=
  let t := fresh.foldl (fun t a => match t.locOf a.aid with
    | some l => t.at l.core t.cx fun u => u.killAt l.slot 0x1CB
    | none => t) s
  let t := x.images.foldl (fun t i =>
    let k := t.core i.core
    match k.images.reverse.find? fun y => y.tenant = i.image.tenant && y.num = i.image.num && ! (before i.core).contains y with
    | some y => (t.setCore i.core (k.unload y)).syncDir i.core
    | none => t) t
  { t with launches := t.launches.drop 1, injects := [], launchCause := c }

/-- A launch that goes on with what phase 4 has still to write; with nothing left it has succeeded. -/
def State.launchOn (s : State) (rest : List Inject) : State :=
  if rest.isEmpty then { s with launches := s.launches.drop 1, injects := [], launchCause := 0 } else { s with injects := rest }

/-- LAUNCH (R64, R385): the first launch set handed in. Its phases 1 to 3 are one step, once no core of its images scans another (R57) and, in minimal mode, only in Q0 (R384). Each further step is one message of phase 4, written into its host endpoint as R197 says once BUSY reads 0; one that the endpoint's state will refuse at its entry ends the launch with that cause (log 82). -/
def execLaunch (s : State) : Out :=
  let no := notEnabled "LAUNCH"
  match s.launches with
  | [] => no
  | x :: _ =>
    match s.injects with
    | m :: rest =>
      match s.hostOf m.num with
      | none => .next (s.launchOn rest)
      | some h =>
        if h.busy then no
        else
          let g := { h with window := h.window.setBytes 0 (m.data.take 4096), vrt := m.vrt }
          if h.record.status ≠ .opened then .next ((s.setHost g).discardWrite.launchOn rest)
          else
            let t := s.setHost { g with ctl := BitVec.ofNat 64 (m.cls.toNat * 2 ^ 24 + m.data.length), busy := true }
            match h.misfit m.cls m.data.length with
            | some c => .next (t.launchFailed x x.actors (fun _ => []) c)
            | none => .next (t.launchOn rest)
    | [] =>
      if (x.images.any fun i => (s.core i.core).scan.isSome) ∨
          (s.mgmt.minimal ∧ ((x.images.any fun i => quadOf i.core ≠ 0) ∨ x.actors.any fun a => quadOf a.loc.core ≠ 0)) then no
      else match s.launchSet x with
        | .ok t => .next (t.launchOn t.injects)
        | .error (c, t) => .next (t.launchFailed x (x.actors.filter fun a => ! s.inUse a.aid) (fun i => (s.core i).images) c)

/-! ## The receiving side of a link (R285 to R287) -/

/-- A destination on a link as this module's mesh names it. -/
def Dest.landed : Dest → Dest
  | .link _ l e => .ep l e
  | d => d

/-- A packet as it enters this module's mesh; the VRT of a message or connect is raised unless the fabric keeps the rounds (R28, R374). -/
def State.landing (s : State) (p : Packet) : Packet :=
  let up (v : Word) : Word := if s.fabricOn then v else s.raised v
  match p with
  | .msg d m => .msg d.landed { m with hdr := { m.hdr with key := { m.hdr.key with vrt := up m.hdr.key.vrt } } }
  | .connect d c => .connect d { c with key := { c.key with vrt := up c.key.vrt } }
  | .confirm d a k => .confirm d.landed a k
  | .undo d a k c => .undo d.landed a k c
  | .ack d a b => .ack d.landed a b
  | .reloc d a v => .reloc d.landed a v
  | .marker d a b p v => .marker d.landed a b p v
  | p => p

/-- A packet that a link port has received whole, with the colour of its flits: passed on to another module, or delivered into the mesh; a message whose head fails its checks is discarded (R2, R280). None while the replay buffer of the port on its way is full. -/
def State.fromLink (s : State) (l : Nat) (colour : Bool) (p : Packet) : Option State :=
  let st := linkStation l
  let s := if s.fabricOn then s.countIn st colour else s
  let q := s.landing p
  match q, p.module with
  | _, none => some s
  | .msg d m, some c =>
    if m.hdr.fails then some (s.loseMsg st m)
    else if c ≠ s.coords then s.putOut (s.linkPort c p.choice.1 p.choice.2) p.vrtOf p
    else some (s.postMsg st d m)
  | _, some c => if c ≠ s.coords then s.putOut (s.linkPort c p.choice.1 p.choice.2) p.vrtOf p else some (s.post st q.vrtOf q)

/-- LINK_FLIT_RECEIVE (R286): in sequence and with a good CRC a flit is accepted and acknowledged; a failure discards it and every later one until the replay, and asks for another replay when the replayed flit fails. -/
def execLinkFlitReceive (l : BitVec 4) (s : State) : Out :=
  let n := l.toNat
  let p := s.port n
  if 12 ≤ n then .fault .noSuchPart
  else match p.rx with
  | [] => notEnabled "LINK_FLIT_RECEIVE"
  | f :: rest =>
    let p := { p with rx := rest }
    if ! p.up then .next (s.setPort n p)
    else if ! f.crcOk ∨ f.seq ≠ p.rxSeq then
      .next (s.setPort n (if p.dropping ∧ f.seq ≠ p.rxSeq then p else { p with dropping := true, asks := p.asks ++ [(false, p.rxSeq)] }))
    else
      let t := s.setPort n { p with rxSeq := p.rxSeq + 1, dropping := false, asks := p.asks ++ [(true, f.seq)] }
      let t := match f.round with
        | some (.up x) => { t with fabricIn := t.fabricIn ++ [x] }
        | some (.down y) => { t with fabricDown := t.fabricDown ++ [y] }
        | none => t
      onLink "LINK_FLIT_RECEIVE" (match f.carries with
        | some q => t.fromLink n f.colour q
        | none => some t)

/-- The flits of a replay buffer after the one with a sequence; all of them when none has it. -/
def afterSeq (q : BitVec 12) (l : List Flit) : List Flit :=
  if l.any fun f => f.seq = q then (l.dropWhile fun f => f.seq ≠ q).drop 1 else l

/-- LINK_ACKNOWLEDGEMENT (R286): the flits up to a sequence leave the replay buffer. -/
def execLinkAcknowledgement (l : BitVec 4) (s : State) : Out :=
  let n := l.toNat
  let p := s.port n
  if 12 ≤ n then .fault .noSuchPart
  else match p.acks with
  | [] => notEnabled "LINK_ACKNOWLEDGEMENT"
  | q :: rest => .next (s.setPort n { p with acks := rest, replay := afterSeq q p.replay, fails := 0, retrains := 0 })

/-- LINK_REPLAY (R286): the flits from the failed sequence are sent again; `fails` counts the replays sent since the last acknowledgement. When 16 replays in a row have failed, the port retrains and replays, and after three retrainings it goes down; what its buffer holds is lost (R177, R183). -/
def execLinkReplay (l : BitVec 4) (s : State) : Out :=
  let n := l.toNat
  let p := s.port n
  if 12 ≤ n then .fault .noSuchPart
  else match p.replays with
  | [] => notEnabled "LINK_REPLAY"
  | q :: rest =>
    let p := { p with replays := rest }
    let again := p.out ++ p.replay.dropWhile fun f => f.seq ≠ q
    if p.fails < 16 then .next (s.setPort n { p with fails := p.fails + 1, out := again })
    else if p.retrains < 3 then .next (s.setPort n { p with fails := 1, retrains := p.retrains + 1, out := again })
    else
      let lost := p.replay.filterMap fun f => f.carries
      let t := s.setPort n { p with up := false, fails := 0, retrains := 0, replay := [] }
      .next ((lost.foldl (fun t q => t.losePacket (linkStation n) q) (t.count 0x30C0)).loseLink n)

end Sys2Proof.Machine
end

