-- ==== Sys2Proof/Machine/Hazards.lean ====
section
/-! DEFINITION. The fetch of a context's next instruction (02_instruction_formats.md R42, R58) and what keeps it from issuing (R69, R98, R105, R113, R139 to R141, R230, R274, R299). -/

namespace Sys2Proof.Machine

/-! ## Fetch (R42, R57, R58) -/

/-- What stands at a PC: an instruction's row and word, the end of the image, a word that cannot be corrected, or nothing that runs. -/
inductive Fetched where
  | ins (r : Row) (w : Nat)
  | past
  | bad
  | nothing
  deriving DecidableEq, Repr

/-- The bytes of the code store from an address on. -/
def Core.codeBytes (k : Core) (pc : BitVec 16) (n : Nat) : List Byte := k.code.bytes pc.toNat n

/-- The word at a PC, with whether it is a long instruction: its length stands in its first parcel (R42). -/
def Core.codeWord (k : Core) (pc : BitVec 16) : Bool × Nat :=
  let lo := leNat (k.codeBytes pc 2)
  if lengthOf lo = 4 then (true, leNat (k.codeBytes pc 4)) else (false, lo)

/-- The fetch of the context that issues: past the last parcel of its image it traps with 0x1A2, on an error that cannot be corrected with 0x1C2 (R58). -/
def State.fetch (s : State) : Fetched :=
  let pc := s.ctx.pc
  let k := s.hereCore
  match s.image with
  | none => .nothing
  | some i =>
    if i.base + i.len ≤ pc.toNat then .past
    else
      let x := k.codeWord pc
      if k.badCode.contains (pc.toNat / 8) ∨ (x.1 ∧ k.badCode.contains ((pc.toNat + 2) / 8)) then .bad
      else match scanWord x.1 x.2 with
        | .ok r => .ins r x.2
        | .error _ => .nothing

/-! ## What keeps an instruction from issuing -/

/-- What a row waits for beside its own unit. -/
inductive Hazard where
  /-- nothing but the g registers -/
  | free
  /-- the generator, when the word's mode is RS (R98) -/
  | rounding
  /-- vector registers and scratchpad rows that the matrix engine still writes (R141) -/
  | vector
  /-- vector registers read at issue (R132) -/
  | indexed
  /-- what the matrix engine reads at issue (R139, R140) -/
  | tileIn
  /-- vector registers and scratchpad rows that the vector engine still reads or writes -/
  | tileOut
  /-- a vector register (R161) -/
  | sendVector
  /-- FFLAGS and SEED (R98, R105) -/
  | special
  /-- the scratchpad, and what leaves the core (R113, R141) -/
  | pad
  deriving DecidableEq, Repr

/-- The hazard class of a row. -/
def hazardOf : Row → Hazard
  | .add | .sub | .and | .or | .xor | .andn | .orn | .sll | .srl | .sra | .rol | .ror | .slt | .sltn | .seq | .sne | .mul | .mulh | .mulhn 
  | .div | .divn | .rem | .remn | .min | .max | .minn | .maxn | .sel | .clz | .ctz | .pop | .rev8 | .bext | .bextn | .bins | .sxb | .sxh 
  | .sxw | .zxb | .zxh | .zxw | .slli | .srli | .srai | .addi | .andi | .ori | .xori | .slti | .lui | .lpc | .bEq | .bNe | .bLt | .bGe 
  | .bLtn | .bGen | .bBset | .bBclr | .j | .jal | .jalr | .dbnz | .fmin | .fmax | .fabs | .fneg | .fsgnj | .ffma | .ffms | .fnfma | .fcmpeq 
  | .fcmplt | .fcmple | .fmvFG | .fmvGF | .fcls | .fcvtFBf16 | .fcvtFHf | .frecip | .frsq | .badd | .bset | .bget | .tcfg | .trel | .tzero 
  | .twait | .vnow | .vset | .vmile | .prio | .budget | .done | .doneRetire | .cAdd | .cSub | .cAnd | .cOr | .cXor | .cMv | .cAddi | .cLi 
  | .cSlli | .cSrli | .cSrai | .cAndi | .cOri | .cXori | .cBeqz | .cBnez | .cBltz | .cBgez | .cJ | .cJr | .cDbnz | .cDone => .free
  | .fadd | .fsub | .fmul | .fdiv | .fsqrt | .fcvtFG | .fcvtGF | .fround | .fcvtBf16F | .fcvtHfF | .fscal => .rounding
  | .vadd | .vsub | .vmul | .vmulh | .vmulhn | .vmin | .vmax | .vminn | .vmaxn | .vand | .vor | .vxor | .vsll | .vsrl | .vsra | .vabs 
  | .vadds | .vaddsn | .vsubs | .vsubsn | .vavg | .vdot4 | .vcmpeq | .vcmplt | .vcmpltn | .vfadd | .vfsub | .vfmul | .vffma | .vffms 
  | .vfmin | .vfmax | .vfabs | .vfneg | .vfdiv | .vfsqrt | .vfrecip | .vfrsq | .vfexp2 | .vfcmpeq | .vfcmplt | .vfcmple | .vfclass 
  | .vfscale | .vcvt | .vcvtsc | .vsplat | .vsplatf | .vext | .vins | .vperm | .vslide | .vcompress | .vexpand | .vmerge | .vredsum 
  | .vredmax | .vredmin | .vtopk | .vtopkM | .vmand | .vmor | .vmnot | .vmpop | .vld | .vst | .vldbits => .vector
  | .vldx | .vstx => .indexed
  | .tldrow | .tldcol | .tload | .mmaBf16 | .mmaHf | .mmaE4e4 | .mmaE4e5 | .mmaE5e4 | .mmaE5e5 | .mmaBf16e4 | .mmaI8 | .mmaTi8 | .mmaTbf16 => .tileIn
  | .tstrow | .tstcol | .tstore => .tileOut
  | .sendv => .sendVector
  | .sysrd | .syswr | .sysbs | .sysbc => .special
  | .ldb | .ldbn | .ldh | .ldhn | .ldw | .ldwn | .ldd | .ldf | .ldsync | .ldpeek | .stb | .sth | .stw | .std | .stf | .stfill | .clrfull 
  | .aadd | .aswap | .acas | .ldbits | .stbits | .connect | .accept | .send | .sendt | .selLabel | .recv | .offer | .probe | .close 
  | .sendep | .recvep | .estate | .spawn | .mrd | .mwr | .mamo | .cpget | .cpput | .cpgath | .cpscat | .cpfill | .cpcvt | .cpwait | .gjoin 
  | .gleave | .gwait | .gred | .gbcast | .grs | .gag | .commit | .jarm | .jdis | .capgive | .capchk | .fenceAcq | .fenceRel | .fenceFull 
  | .fenceSc | .trap | .halt | .cLdd | .cStd => .pad

/-- Commands that write a g register (R70). -/
def Cmd.writesG (c : Cmd) : Bool :=
  match c.ins with
  | .vext .. => true
  | .vmpop .. => true
  | _ => false

/-- Commands of the matrix engine that write outside the tiles. -/
def Cmd.writesOut (c : Cmd) : Bool :=
  match c.ins with
  | .tstrow .. => true
  | .tstcol .. => true
  | .tstore .. => true
  | _ => false

/-- Commands of the vector engine that touch the scratchpad. -/
def Cmd.touchesPad (c : Cmd) : Bool :=
  match c.ins with
  | .vld .. => true
  | .vst .. => true
  | .vldx .. => true
  | .vstx .. => true
  | .vldbits .. => true
  | _ => false

/-- Whether nothing queued by the context that issues stands before an instruction of a class (R69, R70). -/
def State.unitsFree (s : State) (h : Hazard) (w : Nat) : Bool :=
  let vq := s.hereCore.vq.filter fun c => c.ctx = s.cx
  let mq := s.hereCore.mq.filter fun c => c.ctx = s.cx
  ! vq.any Cmd.writesG && match h with
    | .free => true
    | .rounding => (fld w 25 3).toNat ≠ 5 || vq.isEmpty
    | .vector => ! mq.any Cmd.writesOut
    | .indexed => vq.isEmpty && mq.isEmpty
    | .tileIn => vq.isEmpty && ! mq.any Cmd.writesOut
    | .tileOut => vq.isEmpty
    | .sendVector => vq.isEmpty && ! mq.any Cmd.writesOut
    | .special => vq.isEmpty && mq.isEmpty
    | .pad => ! vq.any Cmd.touchesPad && ! mq.any Cmd.writesOut

/-- The bytes of the scratchpad that a store would write, as runs. -/
def State.storeRuns (s : State) (r : Row) (w : Nat) : List (Nat × Nat) :=
  let at_ (k : Nat) : List (Nat × Nat) := [((localAddr s (fld w 18 10) (fld w 13 5) k).toNat, 2 ^ k)]
  let word (a : BitVec 5) : List (Nat × Nat) := [((s.g a).toNat, 8)]
  match r with
  | .stb => at_ 0
  | .sth => at_ 1
  | .stw => at_ 2
  | .stf => at_ 2
  | .std => at_ 3
  | .stfill => at_ 3
  | .cStd => word (fld w 5 5)
  | .aadd => word (fld w 13 5)
  | .aswap => word (fld w 13 5)
  | .acas => word (fld w 13 5)
  | .jarm => word (fld w 13 5)
  | .jdis => word (fld w 13 5)
  | .stbits => let b := (s.b (fld w 13 2)).toNat; [(b / 8, bitSpan b ((fld w 18 5).toNat + 1))]
  | .vst => [((vecAddr s (fld w 12 5) (fld w 20 4)).toNat, 128)]
  | .vstx =>
    let n := widthOf (fld w 21 2)
    (List.range (lanes n)).map fun i => ((gatherAddr (s.g (fld w 12 5)) n (s.v (fld w 17 4)) i).toNat, n / 8)
  | .tstore => tileRows (s.g (fld w 11 5)).toNat ((pitchOf (fld w 16 5) s).getD 0)
  | _ => []

/-- The bytes that a copy command still reads from the scratchpad (R230). -/
def CopyCmd.sources (c : CopyCmd) : List (Nat × Nat) :=
  if c.isRead then [] else [(c.laddr.toNat, copyLocal c.op c.len c.extra)]

/-- The bytes that an item of an actor still reads from the scratchpad once it leaves (R274, R299). -/
def Item.sources (a : Actor) : Item → List (Nat × Nat)
  | .copy c _ => c.sources
  | .contrib c _ => [(c.src.toNat, c.sourceLen a)]
  | _ => []

/-- The sources that a store of the context that issues must not touch: of every copy command in the queue, of the staged, held and deferred items of other activations. -/
def State.lockedRuns (s : State) : List (Nat × Nat) :=
  let k := s.hereCore
  let others := (([0, 1, 2, 3] : List (BitVec 2)).filter (· ≠ s.cx)).flatMap fun x =>
    (s.ctxAt x).staging.flatMap (Item.sources (s.actorAt (s.ctxAt x).slot))
  let late := (k.deferral ++ k.fenced).filter fun d => ! (d.slot = s.ctx.slot && d.key = s.ctx.key)
  k.cq.flatMap CopyCmd.sources ++ others ++ late.flatMap fun d => d.item.sources (s.actorAt d.slot)

/-- Whether two runs of bytes, each an address and a length, share a byte; an empty one shares none. -/
def meets (x y : Nat × Nat) : Bool := x.2 ≠ 0 && y.2 ≠ 0 && decide (x.1 < y.1 + y.2) && decide (y.1 < x.1 + x.2)

/-- Whether a word may issue now in the context in focus. -/
def State.clear (s : State) (r : Row) (w : Nat) : Bool :=
  s.unitsFree (hazardOf r) w && ! (s.storeRuns r w).any fun x => s.lockedRuns.any (meets x)

end Sys2Proof.Machine
end

