-- ==== Sys2Proof/Machine/Rows.lean ====
section
/-! DEFINITION. The instruction that a fetch has found and its effect (02_instruction_formats.md R42, R58), and the choice of the context that issues (16_scheduling_and_trap_tables.md R340). -/

namespace Sys2Proof.Machine

/-! ## The instruction that a fetch has found -/

/-- The effect of a row's word: that of the instruction it builds (`runRow_exec`). -/
def runRow (r : Row) (w : Nat) (s : State) : Out :=
  match r with
  | .add => execAdd (fld w 18 5) (fld w 13 5) (fld w 8 5) s
  | .sub => execSub (fld w 18 5) (fld w 13 5) (fld w 8 5) s
  | .and => execAnd (fld w 18 5) (fld w 13 5) (fld w 8 5) s
  | .or => execOr (fld w 18 5) (fld w 13 5) (fld w 8 5) s
  | .xor => execXor (fld w 18 5) (fld w 13 5) (fld w 8 5) s
  | .andn => execAndn (fld w 18 5) (fld w 13 5) (fld w 8 5) s
  | .orn => execOrn (fld w 18 5) (fld w 13 5) (fld w 8 5) s
  | .sll => execSll (fld w 18 5) (fld w 13 5) (fld w 8 5) s
  | .srl => execSrl (fld w 18 5) (fld w 13 5) (fld w 8 5) s
  | .sra => execSra (fld w 18 5) (fld w 13 5) (fld w 8 5) s
  | .rol => execRol (fld w 18 5) (fld w 13 5) (fld w 8 5) s
  | .ror => execRor (fld w 18 5) (fld w 13 5) (fld w 8 5) s
  | .slt => execSlt (fld w 18 5) (fld w 13 5) (fld w 8 5) s
  | .sltn => execSltn (fld w 18 5) (fld w 13 5) (fld w 8 5) s
  | .seq => execSeq (fld w 18 5) (fld w 13 5) (fld w 8 5) s
  | .sne => execSne (fld w 18 5) (fld w 13 5) (fld w 8 5) s
  | .mul => execMul (fld w 18 5) (fld w 13 5) (fld w 8 5) s
  | .mulh => execMulh (fld w 18 5) (fld w 13 5) (fld w 8 5) s
  | .mulhn => execMulhn (fld w 18 5) (fld w 13 5) (fld w 8 5) s
  | .div => execDiv (fld w 18 5) (fld w 13 5) (fld w 8 5) s
  | .divn => execDivn (fld w 18 5) (fld w 13 5) (fld w 8 5) s
  | .rem => execRem (fld w 18 5) (fld w 13 5) (fld w 8 5) s
  | .remn => execRemn (fld w 18 5) (fld w 13 5) (fld w 8 5) s
  | .min => execMin (fld w 18 5) (fld w 13 5) (fld w 8 5) s
  | .max => execMax (fld w 18 5) (fld w 13 5) (fld w 8 5) s
  | .minn => execMinn (fld w 18 5) (fld w 13 5) (fld w 8 5) s
  | .maxn => execMaxn (fld w 18 5) (fld w 13 5) (fld w 8 5) s
  | .sel => execSel (fld w 23 5) (fld w 18 5) (fld w 13 5) (fld w 8 5) s
  | .clz => execClz (fld w 13 5) (fld w 8 5) s
  | .ctz => execCtz (fld w 13 5) (fld w 8 5) s
  | .pop => execPop (fld w 13 5) (fld w 8 5) s
  | .rev8 => execRev8 (fld w 13 5) (fld w 8 5) s
  | .bext => execBext (fld w 18 5) (fld w 13 5) (fld w 8 5) s
  | .bextn => execBextn (fld w 18 5) (fld w 13 5) (fld w 8 5) s
  | .bins => execBins (fld w 23 5) (fld w 18 5) (fld w 13 5) (fld w 8 5) s
  | .sxb => execSxb (fld w 13 5) (fld w 8 5) s
  | .sxh => execSxh (fld w 13 5) (fld w 8 5) s
  | .sxw => execSxw (fld w 13 5) (fld w 8 5) s
  | .zxb => execZxb (fld w 13 5) (fld w 8 5) s
  | .zxh => execZxh (fld w 13 5) (fld w 8 5) s
  | .zxw => execZxw (fld w 13 5) (fld w 8 5) s
  | .slli => execSlli (fld w 18 6) (fld w 13 5) (fld w 8 5) s
  | .srli => execSrli (fld w 18 6) (fld w 13 5) (fld w 8 5) s
  | .srai => execSrai (fld w 18 6) (fld w 13 5) (fld w 8 5) s
  | .addi => execAddi (fld w 18 14) (fld w 13 5) (fld w 8 5) s
  | .andi => execAndi (fld w 18 14) (fld w 13 5) (fld w 8 5) s
  | .ori => execOri (fld w 18 14) (fld w 13 5) (fld w 8 5) s
  | .xori => execXori (fld w 18 14) (fld w 13 5) (fld w 8 5) s
  | .slti => execSlti (fld w 18 14) (fld w 13 5) (fld w 8 5) s
  | .lui => execLui (fld w 13 19) (fld w 8 5) s
  | .lpc => execLpc (fld w 13 19) (fld w 8 5) s
  | .bEq => execBEq (fld w 21 11) (fld w 13 5) (fld w 8 5) s
  | .bNe => execBNe (fld w 21 11) (fld w 13 5) (fld w 8 5) s
  | .bLt => execBLt (fld w 21 11) (fld w 13 5) (fld w 8 5) s
  | .bGe => execBGe (fld w 21 11) (fld w 13 5) (fld w 8 5) s
  | .bLtn => execBLtn (fld w 21 11) (fld w 13 5) (fld w 8 5) s
  | .bGen => execBGen (fld w 21 11) (fld w 13 5) (fld w 8 5) s
  | .bBset => execBBset (fld w 21 11) (fld w 13 5) (fld w 8 5) s
  | .bBclr => execBBclr (fld w 21 11) (fld w 13 5) (fld w 8 5) s
  | .j => execJ (fld w 8 24) s
  | .jal => execJal (fld w 8 24) s
  | .jalr => execJalr (fld w 18 14) (fld w 13 5) (fld w 8 5) s
  | .dbnz => execDbnz (fld w 18 14) (fld w 13 5) (fld w 8 5) s
  | .fadd => execFadd (fld w 25 3) (fld w 18 5) (fld w 13 5) (fld w 8 5) s
  | .fsub => execFsub (fld w 25 3) (fld w 18 5) (fld w 13 5) (fld w 8 5) s
  | .fmul => execFmul (fld w 25 3) (fld w 18 5) (fld w 13 5) (fld w 8 5) s
  | .fdiv => execFdiv (fld w 25 3) (fld w 18 5) (fld w 13 5) (fld w 8 5) s
  | .fsqrt => execFsqrt (fld w 25 3) (fld w 13 5) (fld w 8 5) s
  | .fmin => execFmin (fld w 18 5) (fld w 13 5) (fld w 8 5) s
  | .fmax => execFmax (fld w 18 5) (fld w 13 5) (fld w 8 5) s
  | .fabs => execFabs (fld w 13 5) (fld w 8 5) s
  | .fneg => execFneg (fld w 13 5) (fld w 8 5) s
  | .fsgnj => execFsgnj (fld w 18 5) (fld w 13 5) (fld w 8 5) s
  | .ffma => execFfma (fld w 23 5) (fld w 18 5) (fld w 13 5) (fld w 8 5) s
  | .ffms => execFfms (fld w 23 5) (fld w 18 5) (fld w 13 5) (fld w 8 5) s
  | .fnfma => execFnfma (fld w 23 5) (fld w 18 5) (fld w 13 5) (fld w 8 5) s
  | .fcmpeq => execFcmpeq (fld w 18 5) (fld w 13 5) (fld w 8 5) s
  | .fcmplt => execFcmplt (fld w 18 5) (fld w 13 5) (fld w 8 5) s
  | .fcmple => execFcmple (fld w 18 5) (fld w 13 5) (fld w 8 5) s
  | .fcvtFG => execFcvtFG (fld w 25 3) (fld w 23 2) (fld w 13 5) (fld w 8 5) s
  | .fcvtGF => execFcvtGF (fld w 25 3) (fld w 23 2) (fld w 13 5) (fld w 8 5) s
  | .fmvFG => execFmvFG (fld w 13 5) (fld w 8 5) s
  | .fmvGF => execFmvGF (fld w 13 5) (fld w 8 5) s
  | .fcls => execFcls (fld w 13 5) (fld w 8 5) s
  | .fround => execFround (fld w 25 3) (fld w 13 5) (fld w 8 5) s
  | .fcvtFBf16 => execFcvtFBf16 (fld w 13 5) (fld w 8 5) s
  | .fcvtBf16F => execFcvtBf16F (fld w 25 3) (fld w 13 5) (fld w 8 5) s
  | .fcvtFHf => execFcvtFHf (fld w 13 5) (fld w 8 5) s
  | .fcvtHfF => execFcvtHfF (fld w 25 3) (fld w 13 5) (fld w 8 5) s
  | .fscal => execFscal (fld w 25 3) (fld w 18 5) (fld w 13 5) (fld w 8 5) s
  | .frecip => execFrecip (fld w 13 5) (fld w 8 5) s
  | .frsq => execFrsq (fld w 13 5) (fld w 8 5) s
  | .ldb => execLdb (fld w 18 10) (fld w 13 5) (fld w 8 5) s
  | .ldbn => execLdbn (fld w 18 10) (fld w 13 5) (fld w 8 5) s
  | .ldh => execLdh (fld w 18 10) (fld w 13 5) (fld w 8 5) s
  | .ldhn => execLdhn (fld w 18 10) (fld w 13 5) (fld w 8 5) s
  | .ldw => execLdw (fld w 18 10) (fld w 13 5) (fld w 8 5) s
  | .ldwn => execLdwn (fld w 18 10) (fld w 13 5) (fld w 8 5) s
  | .ldd => execLdd (fld w 18 10) (fld w 13 5) (fld w 8 5) s
  | .ldf => execLdf (fld w 18 10) (fld w 13 5) (fld w 8 5) s
  | .ldsync => execLdsync (fld w 18 10) (fld w 13 5) (fld w 8 5) s
  | .ldpeek => execLdpeek (fld w 18 10) (fld w 13 5) (fld w 8 5) s
  | .stb => execStb (fld w 18 10) (fld w 13 5) (fld w 8 5) s
  | .sth => execSth (fld w 18 10) (fld w 13 5) (fld w 8 5) s
  | .stw => execStw (fld w 18 10) (fld w 13 5) (fld w 8 5) s
  | .std => execStd (fld w 18 10) (fld w 13 5) (fld w 8 5) s
  | .stf => execStf (fld w 18 10) (fld w 13 5) (fld w 8 5) s
  | .stfill => execStfill (fld w 18 10) (fld w 13 5) (fld w 8 5) s
  | .clrfull => execClrfull (fld w 18 10) (fld w 13 5) s
  | .aadd => execAadd (fld w 18 5) (fld w 13 5) (fld w 8 5) s
  | .aswap => execAswap (fld w 18 5) (fld w 13 5) (fld w 8 5) s
  | .acas => execAcas (fld w 23 5) (fld w 18 5) (fld w 13 5) (fld w 8 5) s
  | .ldbits => execLdbits (fld w 24 1) (fld w 23 1) (fld w 18 5) (fld w 13 5) (fld w 8 5) s
  | .stbits => execStbits (fld w 23 1) (fld w 18 5) (fld w 13 5) (fld w 8 5) s
  | .badd => execBadd (fld w 13 5) (fld w 8 5) s
  | .bset => execBset (fld w 13 5) (fld w 8 5) s
  | .bget => execBget (fld w 13 5) (fld w 8 5) s
  | .vadd => execVadd (fld w 24 3) (fld w 16 4) (fld w 12 4) (fld w 8 4) (fld w 2 2) s
  | .vsub => execVsub (fld w 24 3) (fld w 16 4) (fld w 12 4) (fld w 8 4) (fld w 2 2) s
  | .vmul => execVmul (fld w 24 3) (fld w 16 4) (fld w 12 4) (fld w 8 4) (fld w 2 2) s
  | .vmulh => execVmulh (fld w 24 3) (fld w 16 4) (fld w 12 4) (fld w 8 4) (fld w 2 2) s
  | .vmulhn => execVmulhn (fld w 24 3) (fld w 16 4) (fld w 12 4) (fld w 8 4) (fld w 2 2) s
  | .vmin => execVmin (fld w 24 3) (fld w 16 4) (fld w 12 4) (fld w 8 4) (fld w 2 2) s
  | .vmax => execVmax (fld w 24 3) (fld w 16 4) (fld w 12 4) (fld w 8 4) (fld w 2 2) s
  | .vminn => execVminn (fld w 24 3) (fld w 16 4) (fld w 12 4) (fld w 8 4) (fld w 2 2) s
  | .vmaxn => execVmaxn (fld w 24 3) (fld w 16 4) (fld w 12 4) (fld w 8 4) (fld w 2 2) s
  | .vand => execVand (fld w 24 3) (fld w 16 4) (fld w 12 4) (fld w 8 4) (fld w 2 2) s
  | .vor => execVor (fld w 24 3) (fld w 16 4) (fld w 12 4) (fld w 8 4) (fld w 2 2) s
  | .vxor => execVxor (fld w 24 3) (fld w 16 4) (fld w 12 4) (fld w 8 4) (fld w 2 2) s
  | .vsll => execVsll (fld w 24 3) (fld w 16 4) (fld w 12 4) (fld w 8 4) (fld w 2 2) s
  | .vsrl => execVsrl (fld w 24 3) (fld w 16 4) (fld w 12 4) (fld w 8 4) (fld w 2 2) s
  | .vsra => execVsra (fld w 24 3) (fld w 16 4) (fld w 12 4) (fld w 8 4) (fld w 2 2) s
  | .vabs => execVabs (fld w 24 3) (fld w 12 4) (fld w 8 4) (fld w 2 2) s
  | .vadds => execVadds (fld w 24 3) (fld w 16 4) (fld w 12 4) (fld w 8 4) (fld w 2 2) s
  | .vaddsn => execVaddsn (fld w 24 3) (fld w 16 4) (fld w 12 4) (fld w 8 4) (fld w 2 2) s
  | .vsubs => execVsubs (fld w 24 3) (fld w 16 4) (fld w 12 4) (fld w 8 4) (fld w 2 2) s
  | .vsubsn => execVsubsn (fld w 24 3) (fld w 16 4) (fld w 12 4) (fld w 8 4) (fld w 2 2) s
  | .vavg => execVavg (fld w 24 3) (fld w 16 4) (fld w 12 4) (fld w 8 4) (fld w 2 2) s
  | .vdot4 => execVdot4 (fld w 24 3) (fld w 20 4) (fld w 16 4) (fld w 12 4) (fld w 8 4) s
  | .vcmpeq => execVcmpeq (fld w 24 3) (fld w 16 4) (fld w 12 4) (fld w 8 4) (fld w 2 2) s
  | .vcmplt => execVcmplt (fld w 24 3) (fld w 16 4) (fld w 12 4) (fld w 8 4) (fld w 2 2) s
  | .vcmpltn => execVcmpltn (fld w 24 3) (fld w 16 4) (fld w 12 4) (fld w 8 4) (fld w 2 2) s
  | .vfadd => execVfadd (fld w 24 3) (fld w 16 4) (fld w 12 4) (fld w 8 4) (fld w 2 4) s
  | .vfsub => execVfsub (fld w 24 3) (fld w 16 4) (fld w 12 4) (fld w 8 4) (fld w 2 4) s
  | .vfmul => execVfmul (fld w 24 3) (fld w 16 4) (fld w 12 4) (fld w 8 4) (fld w 2 4) s
  | .vffma => execVffma (fld w 24 3) (fld w 20 4) (fld w 16 4) (fld w 12 4) (fld w 8 4) (fld w 2 4) s
  | .vffms => execVffms (fld w 24 3) (fld w 20 4) (fld w 16 4) (fld w 12 4) (fld w 8 4) (fld w 2 4) s
  | .vfmin => execVfmin (fld w 24 3) (fld w 16 4) (fld w 12 4) (fld w 8 4) (fld w 2 4) s
  | .vfmax => execVfmax (fld w 24 3) (fld w 16 4) (fld w 12 4) (fld w 8 4) (fld w 2 4) s
  | .vfabs => execVfabs (fld w 24 3) (fld w 12 4) (fld w 8 4) (fld w 2 4) s
  | .vfneg => execVfneg (fld w 24 3) (fld w 12 4) (fld w 8 4) (fld w 2 4) s
  | .vfdiv => execVfdiv (fld w 24 3) (fld w 16 4) (fld w 12 4) (fld w 8 4) s
  | .vfsqrt => execVfsqrt (fld w 24 3) (fld w 12 4) (fld w 8 4) s
  | .vfrecip => execVfrecip (fld w 24 3) (fld w 12 4) (fld w 8 4) (fld w 2 4) s
  | .vfrsq => execVfrsq (fld w 24 3) (fld w 12 4) (fld w 8 4) (fld w 2 4) s
  | .vfexp2 => execVfexp2 (fld w 24 3) (fld w 12 4) (fld w 8 4) (fld w 2 4) s
  | .vfcmpeq => execVfcmpeq (fld w 24 3) (fld w 16 4) (fld w 12 4) (fld w 8 4) (fld w 2 4) s
  | .vfcmplt => execVfcmplt (fld w 24 3) (fld w 16 4) (fld w 12 4) (fld w 8 4) (fld w 2 4) s
  | .vfcmple => execVfcmple (fld w 24 3) (fld w 16 4) (fld w 12 4) (fld w 8 4) (fld w 2 4) s
  | .vfclass => execVfclass (fld w 24 3) (fld w 12 4) (fld w 8 4) (fld w 2 4) s
  | .vfscale => execVfscale (fld w 24 3) (fld w 16 4) (fld w 12 4) (fld w 8 4) (fld w 2 4) s
  | .vcvt => execVcvt (fld w 24 3) (fld w 20 4) (fld w 16 4) (fld w 12 4) (fld w 8 4) s
  | .vcvtsc => execVcvtsc (fld w 20 4) (fld w 16 4) (fld w 12 4) (fld w 8 4) s
  | .vsplat => execVsplat (fld w 24 3) (fld w 17 3) (fld w 12 5) (fld w 8 4) s
  | .vsplatf => execVsplatf (fld w 24 3) (fld w 17 3) (fld w 12 5) (fld w 8 4) s
  | .vext => execVext (fld w 20 7) (fld w 16 4) (fld w 13 3) (fld w 8 5) s
  | .vins => execVins (fld w 20 7) (fld w 17 3) (fld w 12 5) (fld w 8 4) s
  | .vperm => execVperm (fld w 24 3) (fld w 20 2) (fld w 16 4) (fld w 12 4) (fld w 8 4) s
  | .vslide => execVslide (fld w 20 7) (fld w 16 4) (fld w 12 4) (fld w 8 4) s
  | .vcompress => execVcompress (fld w 24 3) (fld w 20 2) (fld w 12 4) (fld w 8 4) s
  | .vexpand => execVexpand (fld w 24 3) (fld w 20 2) (fld w 12 4) (fld w 8 4) s
  | .vmerge => execVmerge (fld w 24 3) (fld w 20 2) (fld w 16 4) (fld w 12 4) (fld w 8 4) s
  | .vredsum => execVredsum (fld w 24 3) (fld w 20 4) (fld w 12 4) (fld w 8 4) s
  | .vredmax => execVredmax (fld w 24 3) (fld w 20 4) (fld w 12 4) (fld w 8 4) s
  | .vredmin => execVredmin (fld w 24 3) (fld w 20 4) (fld w 12 4) (fld w 8 4) s
  | .vtopk => execVtopk (fld w 22 5) (fld w 20 1) (fld w 16 4) (fld w 12 4) (fld w 8 4) s
  | .vtopkM => execVtopkM (fld w 22 5) (fld w 20 1) (fld w 16 4) (fld w 12 4) (fld w 8 4) s
  | .vmand => execVmand (fld w 16 4) (fld w 12 4) (fld w 8 4) s
  | .vmor => execVmor (fld w 16 4) (fld w 12 4) (fld w 8 4) s
  | .vmnot => execVmnot (fld w 12 4) (fld w 8 4) s
  | .vmpop => execVmpop (fld w 16 4) (fld w 8 5) s
  | .vld => execVld (fld w 24 3) (fld w 20 4) (fld w 18 2) (fld w 12 5) (fld w 8 4) s
  | .vst => execVst (fld w 24 3) (fld w 20 4) (fld w 18 2) (fld w 12 5) (fld w 8 4) s
  | .vldx => execVldx (fld w 24 3) (fld w 21 2) (fld w 17 4) (fld w 12 5) (fld w 8 4) s
  | .vstx => execVstx (fld w 24 3) (fld w 21 2) (fld w 17 4) (fld w 12 5) (fld w 8 4) s
  | .vldbits => execVldbits (fld w 24 3) (fld w 22 1) (fld w 20 2) (fld w 16 4) (fld w 12 2) (fld w 8 4) s
  | .tcfg => execTcfg (fld w 11 5) (fld w 8 3) s
  | .trel => execTrel (fld w 8 3) s
  | .tzero => execTzero (fld w 8 3) s
  | .tldrow => execTldrow (fld w 16 5) (fld w 11 4) (fld w 8 3) s
  | .tldcol => execTldcol (fld w 16 5) (fld w 11 4) (fld w 8 3) s
  | .tstrow => execTstrow (fld w 16 5) (fld w 11 4) (fld w 8 3) s
  | .tstcol => execTstcol (fld w 16 5) (fld w 11 4) (fld w 8 3) s
  | .tload => execTload (fld w 16 5) (fld w 11 5) (fld w 8 3) s
  | .tstore => execTstore (fld w 16 5) (fld w 11 5) (fld w 8 3) s
  | .twait => execTwait s
  | .mmaBf16 => execMmaBf16 (fld w 21 5) (fld w 16 5) (fld w 11 5) (fld w 8 3) s
  | .mmaHf => execMmaHf (fld w 21 5) (fld w 16 5) (fld w 11 5) (fld w 8 3) s
  | .mmaE4e4 => execMmaE4e4 (fld w 21 5) (fld w 16 5) (fld w 11 5) (fld w 8 3) s
  | .mmaE4e5 => execMmaE4e5 (fld w 21 5) (fld w 16 5) (fld w 11 5) (fld w 8 3) s
  | .mmaE5e4 => execMmaE5e4 (fld w 21 5) (fld w 16 5) (fld w 11 5) (fld w 8 3) s
  | .mmaE5e5 => execMmaE5e5 (fld w 21 5) (fld w 16 5) (fld w 11 5) (fld w 8 3) s
  | .mmaBf16e4 => execMmaBf16e4 (fld w 21 5) (fld w 16 5) (fld w 11 5) (fld w 8 3) s
  | .mmaI8 => execMmaI8 (fld w 16 5) (fld w 11 5) (fld w 8 3) s
  | .mmaTi8 => execMmaTi8 (fld w 16 5) (fld w 11 5) (fld w 8 3) s
  | .mmaTbf16 => execMmaTbf16 (fld w 21 5) (fld w 16 5) (fld w 11 5) (fld w 8 3) s
  | .connect => execConnect (fld w 22 6) (fld w 17 5) (fld w 12 5) (fld w 8 4) s
  | .accept => execAccept (fld w 22 6) (fld w 17 5) (fld w 12 5) (fld w 8 4) s
  | .send => execSend (fld w 22 6) (fld w 17 5) (fld w 12 5) (fld w 8 4) s
  | .sendv => execSendv (fld w 22 6) (fld w 17 5) (fld w 12 4) (fld w 8 4) s
  | .sendt => execSendt (fld w 22 6) (fld w 17 5) (fld w 12 3) (fld w 8 4) s
  | .selLabel => execSelLabel (fld w 22 2) (fld w 8 4) s
  | .recv => execRecv (fld w 17 5) (fld w 12 5) (fld w 8 4) s
  | .offer => execOffer (fld w 12 5) (fld w 8 4) s
  | .probe => execProbe (fld w 12 5) (fld w 8 4) s
  | .close => execClose (fld w 22 5) (fld w 8 4) s
  | .sendep => execSendep (fld w 22 6) (fld w 12 4) (fld w 8 4) s
  | .recvep => execRecvep (fld w 12 4) (fld w 8 4) s
  | .estate => execEstate (fld w 22 2) (fld w 12 5) (fld w 8 4) s
  | .spawn => execSpawn (fld w 22 6) (fld w 17 5) (fld w 12 5) (fld w 8 4) s
  | .mrd => execMrd (fld w 22 6) (fld w 17 5) (fld w 12 5) s
  | .mwr => execMwr (fld w 22 6) (fld w 17 5) (fld w 12 5) s
  | .mamo => execMamo (fld w 22 6) (fld w 17 5) (fld w 12 5) s
  | .cpget => execCpget (fld w 22 6) (fld w 17 5) (fld w 12 5) s
  | .cpput => execCpput (fld w 22 6) (fld w 17 5) (fld w 12 5) s
  | .cpgath => execCpgath (fld w 22 6) (fld w 17 5) (fld w 12 5) s
  | .cpscat => execCpscat (fld w 22 6) (fld w 17 5) (fld w 12 5) s
  | .cpfill => execCpfill (fld w 22 6) (fld w 17 5) (fld w 12 5) s
  | .cpcvt => execCpcvt (fld w 22 6) (fld w 17 5) (fld w 12 5) s
  | .cpwait => execCpwait s
  | .gjoin => execGjoin (fld w 22 6) (fld w 12 5) (fld w 8 4) s
  | .gleave => execGleave (fld w 8 4) s
  | .gwait => execGwait (fld w 22 6) (fld w 8 4) s
  | .gred => execGred (fld w 22 6) (fld w 17 5) (fld w 12 5) (fld w 8 4) s
  | .gbcast => execGbcast (fld w 22 6) (fld w 17 5) (fld w 12 5) (fld w 8 4) s
  | .grs => execGrs (fld w 22 6) (fld w 17 5) (fld w 12 5) (fld w 8 4) s
  | .gag => execGag (fld w 22 6) (fld w 17 5) (fld w 12 5) (fld w 8 4) s
  | .vnow => execVnow (fld w 8 5) s
  | .vset => execVset (fld w 13 5) s
  | .vmile => execVmile (fld w 8 5) s
  | .prio => execPrio (fld w 13 5) s
  | .budget => execBudget (fld w 13 5) s
  | .commit => execCommit s
  | .done => execDone s
  | .doneRetire => execDoneRetire s
  | .jarm => execJarm (fld w 18 6) (fld w 13 5) (fld w 8 5) s
  | .jdis => execJdis (fld w 13 5) s
  | .capgive => execCapgive (fld w 13 5) (fld w 8 5) s
  | .capchk => execCapchk (fld w 13 5) (fld w 8 5) s
  | .sysrd => execSysrd (fld w 18 12) (fld w 8 5) s
  | .syswr => execSyswr (fld w 18 12) (fld w 13 5) s
  | .sysbs => execSysbs (fld w 18 12) (fld w 13 5) s
  | .sysbc => execSysbc (fld w 18 12) (fld w 13 5) s
  | .fenceAcq => execFenceAcq (fld w 18 4) s
  | .fenceRel => execFenceRel (fld w 18 4) s
  | .fenceFull => execFenceFull (fld w 18 4) s
  | .fenceSc => execFenceSc (fld w 18 4) s
  | .trap => execTrap (fld w 18 5) s
  | .halt => execHalt s
  | .cAdd => execCAdd (fld w 10 5) (fld w 5 5) s
  | .cSub => execCSub (fld w 10 5) (fld w 5 5) s
  | .cAnd => execCAnd (fld w 10 5) (fld w 5 5) s
  | .cOr => execCOr (fld w 10 5) (fld w 5 5) s
  | .cXor => execCXor (fld w 10 5) (fld w 5 5) s
  | .cMv => execCMv (fld w 10 5) (fld w 5 5) s
  | .cLdd => execCLdd (fld w 10 5) (fld w 5 5) s
  | .cStd => execCStd (fld w 10 5) (fld w 5 5) s
  | .cAddi => execCAddi (fld w 10 6) (fld w 5 5) s
  | .cLi => execCLi (fld w 10 6) (fld w 5 5) s
  | .cSlli => execCSlli (fld w 10 6) (fld w 5 5) s
  | .cSrli => execCSrli (fld w 10 6) (fld w 5 5) s
  | .cSrai => execCSrai (fld w 10 6) (fld w 5 5) s
  | .cAndi => execCAndi (fld w 10 6) (fld w 5 5) s
  | .cOri => execCOri (fld w 10 6) (fld w 5 5) s
  | .cXori => execCXori (fld w 10 6) (fld w 5 5) s
  | .cBeqz => execCBeqz (fld w 10 6) (fld w 5 5) s
  | .cBnez => execCBnez (fld w 10 6) (fld w 5 5) s
  | .cBltz => execCBltz (fld w 10 6) (fld w 5 5) s
  | .cBgez => execCBgez (fld w 10 6) (fld w 5 5) s
  | .cJ => execCJ (fld w 10 6) s
  | .cJr => execCJr (fld w 5 5) s
  | .cDbnz => execCDbnz (fld w 10 6) (fld w 5 5) s
  | .cDone => execCDone s

/-- What the context in focus issues: its instruction, or the trap of its fetch. -/
def State.issueOne (s : State) : Out :=
  match s.fetch with
  | .ins r w => runRow r w s
  | .past => raiseOpen 0x1A2 s
  | .bad => raise 0x1C2 (s.ctx.pc.setWidth 64) s
  | .nothing => .fault .noInstruction

/-! ## The choice of a context (R340) -/

/-- Whether nothing that shows before the attempt keeps the next instruction of the context in focus from issuing: it waits for nothing, and no hazard holds it. -/
def State.mayIssue (s : State) : Bool :=
  s.ctx.wait = .none && match s.fetch with
    | .ins r w => s.clear r w
    | _ => true

/-- A context may issue as far as it shows before the attempt: it runs, it was not given in this very cycle (R341), its budget is not spent (R381), it waits for nothing, and no hazard holds its next instruction. -/
def State.mayTry (s : State) (x : BitVec 2) : Bool :=
  let c := s.ctxAt x
  decide (c.phase = .running) && (s.hereCore.dispatched ≠ some s.time || c.started ≠ s.time) && c.budget ≠ 0 && { s with cx := x }.mayIssue

/-- What the attempt of a context's next instruction leaves when it stalls (R69, R340): its wait, and its place among those who wait. A capchk that waits for its answer has issued. -/
def State.stallOf (s : State) (x : BitVec 2) : Option State :=
  match { s with cx := x }.issueOne with
  | .next t => if t.ctx.wait = .none ∨ t.ctx.wait = .memory then none else some { t with cx := s.cx }
  | _ => none

/-- A context is ready: it may try, and its next instruction can issue in this cycle. -/
def State.ready (s : State) (x : BitVec 2) : Bool := s.mayTry x && (s.stallOf x).isNone

/-- Whether a context goes before another: the higher PRIO.EFF, then the earlier start, then the lower number. -/
def State.betterCtx (s : State) (x y : BitVec 2) : Bool :=
  let a := s.ctxAt x
  let b := s.ctxAt y
  b.prioEff.ult a.prioEff || (a.prioEff = b.prioEff && (decide (a.started < b.started) || (a.started = b.started && x.ult y)))

/-- The ready context of a tenant that issues. -/
def State.bestOf (s : State) (t : BitVec 4) : Option (BitVec 2) :=
  (([0, 1, 2, 3] : List (BitVec 2)).filter fun x => (s.actorAt (s.ctxAt x).slot).aid.tenant = t && s.ready x).foldl
    (fun m x => match m with
      | none => some x
      | some y => if s.betterCtx x y then some x else some y) none

/-- Whether the core in focus issues at all: not when it is stopped, nor, in minimal mode, outside Q0 (R357, R384). -/
def State.live (s : State) : Bool := ! s.halted s.here

/-- The context that issues in this cycle. -/
def State.issuer (s : State) : Option (BitVec 2) := if s.live then s.hereCore.walk s.bestOf else none

end Sys2Proof.Machine
end

