-- ==== Sys2Proof/Machine/Manage.lean ====
section
/-! DEFINITION. The management core: table requests (15_protection_and_translation_tables.md R334, R335), slot tables, throttling and debug partitions (16_scheduling_and_trap_tables.md R337 to R339, R355 to R360), power, coolant and life cycle (08_system_registers.md R192 to R194), the lay-by register (R348), the save pool (11_depot_and_residency.md R400), the scrubber (09_local_memory.md R202), boots and wipes (18_counters.md R383, R384; R213): ALLOCATE, FREE, SET_ORDERING, SET_HOLDER, WRITE_PROTECTION_ENTRY, CLEAR_PROTECTION_ENTRY, CORE_CONFIGURATION_REQUEST, SLOT_POINTER_WRAP, ARBITER_PERIOD, COOLANT_SAMPLE, LIFE_CYCLE_CHANGE, LAYBY_WRITE, SAVEPOOL_WRITE, ROADBLOCK_STOP, ROADBLOCK_RESUME, LEAVE_MINIMAL_MODE, RESET, SCRUB, LIFETIME_SECOND. -/

namespace Sys2Proof.Machine

/-! ## Table requests (R334, R335) -/

/-- A word of the request block. -/
def Mgmt.tbl (m : Mgmt) (i : Nat) : Word := m.tblReq.toList.getD i 0

def Mgmt.tblOp (m : Mgmt) : Nat := ((m.tbl 0).extractLsb' 60 4).toNat
def Mgmt.tblTenant (m : Mgmt) : BitVec 4 := (m.tbl 0).extractLsb' 56 4
def Mgmt.tblPage (m : Mgmt) : Nat := ((m.tbl 0).setWidth 40).toNat
def Mgmt.tblPages (m : Mgmt) : List Nat := List.range' m.tblPage (((m.tbl 1).setWidth 24).toNat + 1)
def Mgmt.tblHeld (m : Mgmt) : Bool := (m.tbl 1).getLsbD 54
def Mgmt.tblHolder (m : Mgmt) : BitVec 24 := (m.tbl 1).extractLsb' 24 24

/-- The end of a table request: GO cleared, STATUS with the index of the failing page. -/
def State.tableDone (s : State) (status index : Nat) : State :=
  { s with mgmt := { s.mgmt with tblGo := false, tblStatus := BitVec.ofNat 64 (index % 2 ^ 24 * 2 ^ 40 + status) } }

/-- A table request that GO has begun, of an operation, for the step with that name. -/
def withTable (name : String) (op : Nat → Bool) (s : State) (k : Mgmt → Out) : Out :=
  if s.mgmt.tblGo ∧ op s.mgmt.tblOp then k s.mgmt else notEnabled name

/-- Pages in order up to the first that fails, with its status and index. -/
def tablePages (f : State → Nat → Except Nat State) : List Nat → Nat → State → State
  | [], _, s => s.tableDone 0 0
  | p :: l, i, s =>
    match f s p with
    | .ok t => tablePages f l (i + 1) t
    | .error e => s.tableDone e i

/-- Whether a page lies in the global window. -/
def globalPage (p : Nat) : Bool := windowOf (p * 65536) = some 0

/-- A page of a request about allocated pages, or its status. -/
def ownPage (t : BitVec 4) (f : State → Nat → State) (s : State) (p : Nat) : Except Nat State :=
  if ! globalPage p then .error 2 else if s.owns t p then .ok (f s p) else .error 4

/-- A page allocated (R324, R331): in the Depot map, all zero; the blocks of its walk stand in its stack's table, which must have room for them (R323). -/
def allocatePage (m : Mgmt) (s : State) (p : Nat) : Except Nat State :=
  if ! globalPage p then .error 2
  else if (s.leaf p).valid ∨ (s.leaf p).depot then .error 3
  else if ! s.tableHolds p then .error 5
  else
    let t := (s.mapPage p).setLeaf p { Leaf.zero with depot := true, strong := (m.tbl 1).getLsbD 55, tenant := m.tblTenant }
    .ok (t.setCap p { s.cap p with held := m.tblHeld, holder := m.tblHolder })

/-- ALLOCATE (R335 OP 0), once no walk of its pages is in progress (R325). The reserved operations 6 to 15 are answered here with status 1. -/
def execAllocate (s : State) : Out :=
  withTable "ALLOCATE" (fun op => op = 0 || decide (6 ≤ op)) s fun m =>
    if 6 ≤ m.tblOp then .next (s.tableDone 1 0)
    else if m.tblPages.any s.walking then notEnabled "ALLOCATE"
    else .next (tablePages (allocatePage m) m.tblPages 0 s)

/-- FREE (R335 OP 1): once the pages' walks and lines are quiet (R325); each page is discarded, its leaf and capability entry cleared. -/
def execFree (s : State) : Out :=
  withTable "FREE" (· = 1) s fun m =>
    if ! m.tblPages.all s.quiet then notEnabled "FREE"
    else .next (tablePages (ownPage m.tblTenant fun s p =>
      let t := s.discardPage p
      { t with leaves := drop p t.leaves, caps := drop p t.caps }) m.tblPages 0 s)

/-- SET_ORDERING (R335 OP 2): a change of R325; the lines of a page that becomes strong leave the crossing caches, where strong pages are never held (R222). -/
def execSetOrdering (s : State) : Out :=
  withTable "SET_ORDERING" (· = 2) s fun m =>
    if ! m.tblPages.all s.quiet then notEnabled "SET_ORDERING"
    else .next (tablePages (ownPage m.tblTenant fun s p =>
      (s.dropLines p).setLeaf p { s.leaf p with strong := (m.tbl 1).getLsbD 55 }) m.tblPages 0 s)

/-- SET_HOLDER (R335 OP 3). -/
def execSetHolder (s : State) : Out :=
  withTable "SET_HOLDER" (· = 3) s fun m =>
    .next (tablePages (ownPage m.tblTenant fun s p => s.setCap p ⟨m.tblHeld, m.tblHolder, (s.cap p).gen + 1⟩) m.tblPages 0 s)

/-- The cores that a request names. -/
def namedCores (all : Bool) (c : CoreId) : List CoreId := if all then (List.range 4096).map (BitVec.ofNat 12) else [c]

/-- A change made on each of a list of cores. -/
def State.onCores (s : State) (l : List CoreId) (f : Core → Core) : State := l.foldl (fun t c => t.setCore c (f (t.core c))) s

/-- WRITE_PROTECTION_ENTRY (R335 OP 4, R320). -/
def execWriteProtectionEntry (s : State) : Out :=
  withTable "WRITE_PROTECTION_ENTRY" (· = 4) s fun m =>
    let dom : BitVec 5 := (m.tbl 2).extractLsb' 40 5
    let n := ((m.tbl 3).extractLsb' 16 6).toNat
    let e : ProtEntry := ⟨true, dom, (m.tbl 0).setWidth 40, (m.tbl 2).setWidth 40, (m.tbl 2).getLsbD 63, (m.tbl 2).getLsbD 62, (m.tbl 2).getLsbD 61, (m.tbl 2).getLsbD 60⟩
    if 16 < dom.toNat then .next (s.tableDone 1 0)
    else .next ((s.onCores (namedCores ((m.tbl 3).getLsbD 63) ((m.tbl 3).setWidth 12)) fun k => { k with prot := put n e k.prot }).tableDone 0 0)

def ProtEntry.zero : ProtEntry := ⟨false, 0, 0, 0, false, false, false, false⟩

/-- CLEAR_PROTECTION_ENTRY (R335 OP 5): VALID of the entry is cleared. -/
def execClearProtectionEntry (s : State) : Out :=
  withTable "CLEAR_PROTECTION_ENTRY" (· = 5) s fun m =>
    let n := ((m.tbl 3).extractLsb' 16 6).toNat
    .next ((s.onCores (namedCores ((m.tbl 3).getLsbD 63) ((m.tbl 3).setWidth 12)) fun k =>
      { k with prot := put n { look ProtEntry.zero n k.prot with valid := false } k.prot }).tableDone 0 0)

/-! ## Core configuration (R337, R339, R355) -/

/-- The slot table that a request carries. -/
def Mgmt.table (m : Mgmt) : List (Nat × SlotEntry) :=
  m.cfgEntries.toList.zipIdx.map fun x => (x.2, ⟨x.1.getLsbD 7, x.1.getLsbD 6, x.1.setWidth 4⟩)

/-- The tenants that a core's slot table names, the table that it waits for if any. -/
def Core.tenants (k : Core) : List (BitVec 4) := (((k.nextSlots.getD k.slots).filter fun x => x.2.valid).map fun x => x.2.tenant).eraseDups

/-- Whether every armed core of each partition names one tenant, the same (R355). -/
def State.partitionsOk (s : State) : Bool :=
  (List.range 16).all fun p =>
    decide (((s.cores.filter fun c => c.2.arm = some (BitVec.ofNat 4 p)).flatMap fun c => c.2.tenants).eraseDups.length ≤ 1)

/-- The end of a core configuration request. -/
def State.configDone (s : State) (status : BitVec 8) : State := { s with mgmt := { s.mgmt with cfgGo := false, cfgStatus := status } }

/-- CORE_CONFIGURATION_REQUEST (R339): the named cores take the table at their next wrap, and the partition with SETPART; a request that would break R355 is refused whole. -/
def execCoreConfigurationRequest (s : State) : Out :=
  if ! s.mgmt.cfgGo then notEnabled "CORE_CONFIGURATION_REQUEST"
  else
    let w0 := s.mgmt.cfgReq[0]
    let w1 := s.mgmt.cfgReq[1]
    let t := s.onCores (namedCores (w0.getLsbD 63) (w0.setWidth 12)) fun k =>
      { k with nextSlots := some s.mgmt.table, arm := if w1.getLsbD 5 then (if w1.getLsbD 4 then some (w1.setWidth 4) else none) else k.arm }
    .next (if t.partitionsOk then t.configDone 0 else s.configDone 2)

/-! ## Cycles and the slot pointer (R189, R337, R338, R381) -/

/-- The throttle level of a core's quadrant. -/
def State.levelOf (s : State) (c : CoreId) : BitVec 6 := s.mgmt.level[(quadOf c).toNat]

/-- The pointer moved on by one entry; at the wrap to entry 0 the new table and the new level take effect. -/
def Core.turn (k : Core) (level : BitVec 6) : Core :=
  if k.pointer = 63 then { k with pointer := 0, slots := k.nextSlots.getD k.slots, nextSlots := none, throttle := level }
  else { k with pointer := k.pointer + 1 }

/-- Whether a cycle counts against the budget of a context (R381): from the start of the activation until done has met its waits, outside a stopped partition (R357). -/
def State.budgeted (s : State) (x : BitVec 2) : Bool :=
  ! s.hereCore.stopped && match (s.ctxAt x).phase with
    | .running => true
    | .releasing _ => ! s.waitsMet x && ! (s.ctxAt x).leaving
    | _ => false

/-- A cycle of the core in focus passes: CYCLE counts, the budgets of its activations run down, the pointer moves on. -/
def State.pass (s : State) : State :=
  let t := ([0, 1, 2, 3] : List (BitVec 2)).foldl (fun t x =>
    if s.budgeted x then t.setCtxAt x { t.ctxAt x with budget := (t.ctxAt x).budget - (if (t.ctxAt x).budget = 0 then 0 else 1) } else t) s
  t.setHere ({ t.hereCore with cycle := t.hereCore.cycle + 1 }.turn (s.levelOf s.here))

/-- SLOT_POINTER_WRAP (R337 to R339): a cycle of a core in which no context can issue and its pointer wraps to entry 0. -/
def execSlotPointerWrap (c : BitVec 12) (s : State) : Out :=
  s.atOut c s.cx fun t => if t.hereCore.pointer = 63 ∧ t.issuer.isNone then .next t.pass else notEnabled "SLOT_POINTER_WRAP"

/-! ## The end of every actor -/

/-- The activation of a context made to end by a kill of its actor (R344, R345): its trap sequence follows, or goes on as that of a kill; once done has begun to release its items it has ended, and they leave first. -/
def State.stopFor (s : State) (x : BitVec 2) (cause : BitVec 9) : State :=
  let c := s.ctxAt x
  match c.phase with
  | .free => s
  | .trapping trec close killed => s.setCtxAt x { c with phase := .trapping trec close (some (killed.getD cause)) }
  | _ => if c.leaving then s else { trapWith none (some cause) cause 0 { s with cx := x } with cx := s.cx }

/-- The actor in a slot of the core in focus killed, its activation first. On a stopped core the kill waits until GO (R360), of an actor that is being evicted until its save area stands (R260). -/
def State.killHere (s : State) (k : BitVec 4) (cause : BitVec 9) : State :=
  if s.hereCore.stopped ∨ s.evicting (s.actorAt k).aid then s
  else match s.ctxOf k with
    | some x => s.stopFor x cause
    | none => s.killAt k cause

/-- Every actor of the module killed (R193, R194), as far as each kill may go at once. -/
def State.killAll (s : State) (cause : BitVec 9) : State :=
  let t := s.cores.foldl (fun t c => c.2.actors.foldl (fun t a =>
    t.at (BitVec.ofNat 12 c.1) t.cx fun u => if u.hasActor (BitVec.ofNat 4 a.1) then u.killHere (BitVec.ofNat 4 a.1) cause else u) t) s
  t.bases.foldl (fun t b => b.2.saved.foldl (fun t x => t.killSaved x cause) t) t

/-- Whether no actor is left, on a core or in a save area. -/
def State.empty (s : State) : Bool := s.cores.all (fun c => c.2.actors.isEmpty) && s.bases.all fun b => b.2.saved.isEmpty

/-! ## Power and coolant (R192, R194) -/

/-- The cap that the arbiter keeps to: 40 W less for each °C of the inlet above 40. -/
def Mgmt.cap (m : Mgmt) : Nat := m.pwrCap.toNat - 40 * (m.inlet.toNat - 40)

/-- The thermal stop: at 50 °C every actor is killed and READY cleared. -/
def State.thermalStop (s : State) : State :=
  if 50 ≤ s.mgmt.inlet.toNat then
    let t := s.killAll 0x1CA
    { t with mgmt := { t.mgmt with ready := false } }
  else s

/-- Watts divided among n parts, never more than there are (R194). -/
def wattShares (f : Nat → Nat) : Nat → Nat → List Nat
  | 0, _ => []
  | n + 1, b => let w := f n % (b + 1); w :: wattShares f n (b - w)

/-- The power of the stacks with their logic bases and of the I/O die with the flash (R13): what the quadrants' grants must leave. -/
def otherWatts : Nat := 224 + 140

/-- ARBITER_PERIOD (R194, R338): grants, levels and the power drawn are the arbiter's own, the quadrants' total within the cap less the other parts' power (log 87). -/
def execArbiterPeriod (s : State) : Out :=
  let f (i : Nat) : Nat := Config.freeNumber (s.tick + i)
  let t := { s with tick := s.tick + 9 }
  let grants : List (BitVec 16) := (wattShares f 4 (s.mgmt.cap - otherWatts)).map Config.grant
  let levels : List (BitVec 6) := (List.range 4).map fun i => BitVec.ofNat 6 (f (4 + i))
  .next ({ t with mgmt := { t.mgmt with
    qgrant := #v[grants.getD 0 0, grants.getD 1 0, grants.getD 2 0, grants.getD 3 0],
    level := #v[levels.getD 0 0, levels.getD 1 0, levels.getD 2 0, levels.getD 3 0],
    pwrNow := BitVec.ofNat 11 (f 8 % (s.mgmt.cap + 1)) } }).thermalStop

/-- COOLANT_SAMPLE (R194): the inlet temperature is read, and at 50 °C every quadrant stops. -/
def execCoolantSample (s : State) : Out :=
  .next ({ s with mgmt := { s.mgmt with inlet := s.sensor } }).thermalStop

/-! ## Wipes and the life cycle (R193, R213) -/

/-- A core wiped: its local memories and tables as after a reset; its counts, its Milestone and its partition stay. -/
def Core.wiped (k : Core) : Core :=
  { Core.reset with
    ctxs := k.ctxs.map fun x => { Ctx.reset with retired := x.retired }, pointer := k.pointer, throttle := k.throttle, cycle := k.cycle,
    vmile := k.vmile, rounds := k.rounds, settled := k.settled, arm := k.arm, stopped := k.stopped, rb := k.rb, rbCounts := k.rbCounts }

/-- A base with its crossing cache and its stack's DRAM wiped, the page table in it among the rest (R323). -/
def Base.wiped (b : Base) : Base :=
  { Base.reset with frames := b.frames, tables := b.tables, notices := b.notices, poolFrames := b.poolFrames, vmile := b.vmile, settled := b.settled }

/-- Scratchpads, code stores, crossing caches and DRAM wiped, a scan in progress abandoned (R213); the Depot's keys erased and its map cleared (R193, R249). -/
def State.wipe (s : State) : State :=
  let s := s.abandonScans
  { s with cores := s.cores.map fun c => (c.1, c.2.wiped), bases := s.bases.map fun b => (b.1, b.2.wiped), leaves := [], caps := [], depot := [],
           depotQ := [], depotAntis := [], ckpts := [], takes := [] }

/-- The changes of state allowed (R193). -/
def lifeAllowed (a b : Nat) : Bool := (a = 0 && b = 1) || (a = 1 && b = 2) || (a = 2 && b = 3) || (a = 3 && b = 2) || b = 4

/-- The first step of a change (R193): a bad signature or a change not in the list only sets ERR; else READY is cleared and every actor killed. -/
def State.beginChange (s : State) : State :=
  let m := s.mgmt
  let target := Config.lcTarget m.lcRequest
  let refuse (e : BitVec 8) : State := { s with mgmt := { m with lcGo := false, lcErr := e } }
  if ! Config.signatureOk m.lcRequest then refuse 1
  else if ! lifeAllowed m.lcState.toNat target then refuse 2
  else { s with mgmt := { m with ready := false, wiping := some (BitVec.ofNat 3 target) } }.killAll 0x1CC

/-- LIFE_CYCLE_CHANGE (R193): GO is served in steps, the kill of every actor first; once none is left the module is wiped, the state stored, GO cleared and READY set. -/
def execLifeCycleChange (s : State) : Out :=
  if ! s.mgmt.lcGo then notEnabled "LIFE_CYCLE_CHANGE"
  else match s.mgmt.wiping with
    | none => .next s.beginChange
    | some target =>
      if s.empty then
        let t := s.wipe
        .next { t with mgmt := { t.mgmt with lcState := target, lcGo := false, wiping := none, ready := true } }
      else .next (s.killAll 0x1CC)

/-! ## The lay-by register and the save pool (R348, R400) -/

/-- The run of a former lay-by actor freed, wherever it is, as soon as no diversion stands in it. -/
def State.releaseLayby (s : State) (a : AId) : State :=
  match s.locOf a with
  | some l => s.setResident l (s.freeDiversions (s.residentAt l))
  | none => match s.savedOf a with
    | some x => s.setSaved { x with actor := s.freeDiversions x.actor }
    | none => s

/-- An actor with a diversion buffer: one it still has, or a fresh run of 32 KiB. -/
def Actor.withLayby (a : Actor) : Option Actor :=
  if a.divertRun.isSome then some a
  else if a.disc ≠ .untimed ∨ a.retired then none
  else (a.alloc 32768).map fun b => { a with divertRun := some ⟨b, 32768⟩ }

/-- The actor that LAYBY names given its buffer, wherever it is; none when the write is refused. -/
def State.nameLayby (s : State) (a : AId) : Option State :=
  match s.locOf a with
  | some l => (s.residentAt l).withLayby.map fun x => s.setResident l x
  | none => match s.savedOf a with
    | some y => y.actor.withLayby.map fun x => s.setSaved { y with actor := x }
    | none => none

/-- A write of LAYBY of a tenant: a change of ID or a clear of VALID ends the old actor's part; the run of the actor named is allocated at once, unless it still has it. -/
def State.setLayby (s : State) (t : BitVec 4) (v : Word) : State :=
  let i : BitVec 24 := v.setWidth 24
  let old := s.mgmt.layby[t.toNat]
  let s := { s with mgmt := { s.mgmt with layby := s.mgmt.layby.set t.toNat none, laybyId := s.mgmt.laybyId.set t.toNat i } }
  let s := match old with
    | some j => if v.getLsbD 63 ∧ j = i then s else s.releaseLayby ⟨t, j⟩
    | none => s
  if v.getLsbD 63 then
    match s.nameLayby ⟨t, i⟩ with
    | some u => { u with mgmt := { u.mgmt with layby := u.mgmt.layby.set t.toNat (some i) } }
    | none => s
  else s

/-- LAYBY_WRITE (R348). -/
def execLaybyWrite (s : State) : Out :=
  withWrite "LAYBY_WRITE" s fun w t =>
    match w with
    | .w0 off v =>
      match regIndex 0x6180 16 off with
      | some i => .next (t.setLayby (BitVec.ofNat 4 i) v)
      | none => notEnabled "LAYBY_WRITE"
    | _ => notEnabled "LAYBY_WRITE"

/-- SAVEPOOL_WRITE (R400): a size below what is in use, or above what the stack can spare, leaves the pool as it is. -/
def execSavepoolWrite (s : State) : Out :=
  withWrite "SAVEPOOL_WRITE" s fun w t =>
    match w with
    | .w0 off v =>
      match regIndex 0x6500 8 off with
      | some i =>
        let b := t.base i
        let n : BitVec 24 := v.setWidth 24
        .next (if b.poolTaken ≤ n.toNat ∧ n.toNat + b.tables + b.taken.length ≤ b.frames then (t.setBase i { b with poolFrames := n }).noFrame i else t)
      | none => notEnabled "SAVEPOOL_WRITE"
    | _ => notEnabled "SAVEPOOL_WRITE"

/-! ## The Roadblock (R356 to R360) -/

/-- The record of a context (R359), with whether it stalls. -/
def Core.rbOf (k : Core) (x : Ctx) (stalls : Bool) : RbCtx :=
  let st : BitVec 2 := match x.phase with
    | .free => 0
    | .running => if stalls then 2 else 1
    | .releasing _ => 3
    | .trapping _ _ _ => 0
  let t : BitVec 4 := if x.phase = .free then 0 else (look Actor.zero x.slot.toNat k.actors).aid.tenant
  ⟨st ++ x.slot ++ t ++ 0#38 ++ x.pc, x.retired, x.vnow, x.key.sender ++ x.key.seq⟩

/-- The counts of a core's endpoints (R359). -/
def Core.rbEnds (k : Core) : List (BitVec 4 × BitVec 4 × BitVec 24 × BitVec 24) :=
  k.actors.flatMap fun a => (List.range 16).map fun e =>
    let r := a.2.ep (BitVec.ofNat 4 e)
    (BitVec.ofNat 4 a.1, BitVec.ofNat 4 e, r.sent, r.rcvd)

/-- The core in focus stopped, with its records. -/
def State.halt (s : State) : State :=
  let k := s.hereCore
  let recs := ([0, 1, 2, 3] : List (BitVec 2)).map fun x => k.rbOf (s.ctxAt x) (! { s with cx := x }.mayIssue || (s.stallOf x).isSome)
  s.setHere { k with stopped := true, rb := recs, rbCounts := k.rbEnds }

/-- Every core of a partition changed, each in focus in its turn. -/
def State.onPartition (s : State) (h : BitVec 4) (f : State → State) : State :=
  (s.cores.filter fun c => c.2.arm = some h).foldl (fun t c => t.at (BitVec.ofNat 12 c.1) t.cx f) s

/-- Whether a trap sequence of a partition is in progress: a stop lets it end (R357). -/
def State.trapsIn (s : State) (h : BitVec 4) : Bool :=
  s.cores.any fun c => c.2.arm = some h && c.2.ctxs.toList.any fun x => match x.phase with | .trapping _ _ _ => true | _ => false

/-- ROADBLOCK_STOP (R356, R357): a stop that the host, a halt or a trap has triggered. Once the trap sequences of the partition have ended, its cores stop and write their records. A partition that has stopped is unchanged. -/
def execRoadblockStop (h : BitVec 4) (s : State) : Out :=
  let n := h.toNat
  let m := { s.mgmt with rbStop := s.mgmt.rbStop.set n false, rbTrip := s.mgmt.rbTrip.set n false }
  if ! s.mgmt.rbStop[n] ∧ ! s.mgmt.rbTrip[n] then notEnabled "ROADBLOCK_STOP"
  else if s.mgmt.stopped[n] then .next { s with mgmt := m }
  else if s.trapsIn h then notEnabled "ROADBLOCK_STOP"
  else .next ({ s with mgmt := { m with stopped := m.stopped.set n true } }.onPartition h State.halt)

/-- ROADBLOCK_RESUME (R356, R360): every core of the partition goes on; the records stay. -/
def execRoadblockResume (h : BitVec 4) (s : State) : Out :=
  let n := h.toNat
  let m := { s.mgmt with rbGo := s.mgmt.rbGo.set n false, stopped := s.mgmt.stopped.set n false }
  if ! s.mgmt.rbGo[n] ∨ s.mgmt.rbStop[n] ∨ s.mgmt.rbTrip[n] then notEnabled "ROADBLOCK_RESUME"
  else .next ({ s with mgmt := m }.onPartition h fun t => t.setHere { t.hereCore with stopped := false })

/-! ## Boots (R213, R383, R384) -/

/-- The management registers after a boot of the module: what is stored stays, a boot begun after three failures is minimal. -/
def Mgmt.booted (m : Mgmt) (sensor : BitVec 8) : Mgmt :=
  let r := { Mgmt.reset with lcState := m.lcState, counters := m.counters, step := m.step, fwMaj := m.fwMaj, fwMin := m.fwMin, inlet := sensor, ready := true }
  if m.attempts = 3 then { r with minimal := true, attempts := 3, reason := m.reason } else { r with attempts := 0, reason := 0 }

/-- The module reset and booted, a full boot being counted (R384): everything on it as after reset; the host's memory, the environment, the division of the host endpoints and the place in the torus stay. A launch in its phase 4 is lost. -/
def State.restart (s : State) : State :=
  let t := if s.mgmt.attempts = 3 then s.abandonScans else s.abandonScans.count 0x30C8
  { State.reset with
    agenda := s.agenda, here := s.here, time := s.time, tick := s.tick, hostMem := s.hostMem, coords := s.coords, torus := s.torus, sensor := s.sensor, fuses := s.fuses,
    launches := if s.injects.isEmpty then s.launches else s.launches.drop 1, die := s.die, interrupts := s.interrupts, vectors := s.vectors,
    hosts := s.hosts.map fun h => { h with seq := 0, record := EpRec.zero, states := [], peerId := 0, vrt := 0, ctl := 0, busy := false, window := Mem.empty, ring := 0, fullAt := none },
    mgmt := t.mgmt.booted s.sensor }

/-- RESET (R213, R384): a wipe and a boot, full or after three failures minimal. -/
def execReset (s : State) : Out := .next s.restart

/-- LEAVE_MINIMAL_MODE (R384): a 1 written to BOOTCTL bit 0 clears ATTEMPTS and resets the module into a full boot. -/
def execLeaveMinimalMode (s : State) : Out :=
  withWrite "LEAVE_MINIMAL_MODE" s fun w t =>
    match w with
    | .w0 off v =>
      if off ≠ 0x0018 then notEnabled "LEAVE_MINIMAL_MODE"
      else if v.getLsbD 0 then .next { t with mgmt := { t.mgmt with attempts := 0 } }.restart
      else .next t
    | _ => notEnabled "LEAVE_MINIMAL_MODE"

/-- A boot that fails (R384), for a reason that can be stored: READY stays clear. A full boot stores the reason and raises ATTEMPTS; a minimal one keeps MINIMAL and REASON. -/
def State.bootFailed (s : State) (reason : BitVec 8) : Out :=
  if reason = 0 ∨ 0x0B < reason.toNat then notEnabled "BOOT"
  else
    let t := s.restart
    let m := { t.mgmt with ready := false }
    .next { t with mgmt := if s.mgmt.attempts = 3 then m else { m with reason := reason, attempts := s.mgmt.attempts + 1 } }

/-- A firmware update (R192): the version that BOOTSTAT shows. -/
def State.updateFirmware (s : State) (major : BitVec 8) (minor : BitVec 16) : State := { s with mgmt := { s.mgmt with fwMaj := major, fwMin := minor } }

/-! ## The scrubber and the lifetime of the part (R202, R383) -/

/-- SCRUB (R202): a word that cannot be corrected is counted and left in place. -/
def execScrub (c : BitVec 12) (a : BitVec 15) (s : State) : Out :=
  .next (if (s.core c).badPad.contains a.toNat then s.count 0x30B0 else s)

/-- The bucket of a die temperature in °C (R383). -/
def dieBucket (t : Int) : Nat := min ((t - 20) / 5).toNat 15

/-- LIFETIME_SECOND (R383): the bucket of the hottest die temperature counts one second. -/
def execLifetimeSecond (s : State) : Out := .next (s.count (0x3100 + 8 * dieBucket s.die))

end Sys2Proof.Machine
end

