-- ==== Sys2Proof/Machine/Dispatch.lean ====
section
/-! DEFINITION. One arm per constructor of Instr: one direct call of its meaning. -/

namespace Sys2Proof.Machine

/-- The meaning of an instruction or step at a state. -/
def exec (i : Instr) (s : State) : Host.Outcome State Fault Refusal :=
  match i with
  | .add b a d => Sys2Proof.Machine.execAdd b a d s
  | .sub b a d => Sys2Proof.Machine.execSub b a d s
  | .and b a d => Sys2Proof.Machine.execAnd b a d s
  | .or b a d => Sys2Proof.Machine.execOr b a d s
  | .xor b a d => Sys2Proof.Machine.execXor b a d s
  | .andn b a d => Sys2Proof.Machine.execAndn b a d s
  | .orn b a d => Sys2Proof.Machine.execOrn b a d s
  | .sll b a d => Sys2Proof.Machine.execSll b a d s
  | .srl b a d => Sys2Proof.Machine.execSrl b a d s
  | .sra b a d => Sys2Proof.Machine.execSra b a d s
  | .rol b a d => Sys2Proof.Machine.execRol b a d s
  | .ror b a d => Sys2Proof.Machine.execRor b a d s
  | .slt b a d => Sys2Proof.Machine.execSlt b a d s
  | .sltn b a d => Sys2Proof.Machine.execSltn b a d s
  | .seq b a d => Sys2Proof.Machine.execSeq b a d s
  | .sne b a d => Sys2Proof.Machine.execSne b a d s
  | .mul b a d => Sys2Proof.Machine.execMul b a d s
  | .mulh b a d => Sys2Proof.Machine.execMulh b a d s
  | .mulhn b a d => Sys2Proof.Machine.execMulhn b a d s
  | .div b a d => Sys2Proof.Machine.execDiv b a d s
  | .divn b a d => Sys2Proof.Machine.execDivn b a d s
  | .rem b a d => Sys2Proof.Machine.execRem b a d s
  | .remn b a d => Sys2Proof.Machine.execRemn b a d s
  | .min b a d => Sys2Proof.Machine.execMin b a d s
  | .max b a d => Sys2Proof.Machine.execMax b a d s
  | .minn b a d => Sys2Proof.Machine.execMinn b a d s
  | .maxn b a d => Sys2Proof.Machine.execMaxn b a d s
  | .sel c b a d => Sys2Proof.Machine.execSel c b a d s
  | .clz a d => Sys2Proof.Machine.execClz a d s
  | .ctz a d => Sys2Proof.Machine.execCtz a d s
  | .pop a d => Sys2Proof.Machine.execPop a d s
  | .rev8 a d => Sys2Proof.Machine.execRev8 a d s
  | .bext b a d => Sys2Proof.Machine.execBext b a d s
  | .bextn b a d => Sys2Proof.Machine.execBextn b a d s
  | .bins c b a d => Sys2Proof.Machine.execBins c b a d s
  | .sxb a d => Sys2Proof.Machine.execSxb a d s
  | .sxh a d => Sys2Proof.Machine.execSxh a d s
  | .sxw a d => Sys2Proof.Machine.execSxw a d s
  | .zxb a d => Sys2Proof.Machine.execZxb a d s
  | .zxh a d => Sys2Proof.Machine.execZxh a d s
  | .zxw a d => Sys2Proof.Machine.execZxw a d s
  | .slli sx a d => Sys2Proof.Machine.execSlli sx a d s
  | .srli sx a d => Sys2Proof.Machine.execSrli sx a d s
  | .srai sx a d => Sys2Proof.Machine.execSrai sx a d s
  | .addi im a d => Sys2Proof.Machine.execAddi im a d s
  | .andi im a d => Sys2Proof.Machine.execAndi im a d s
  | .ori im a d => Sys2Proof.Machine.execOri im a d s
  | .xori im a d => Sys2Proof.Machine.execXori im a d s
  | .slti im a d => Sys2Proof.Machine.execSlti im a d s
  | .lui im d => Sys2Proof.Machine.execLui im d s
  | .lpc im d => Sys2Proof.Machine.execLpc im d s
  | .bEq o b a => Sys2Proof.Machine.execBEq o b a s
  | .bNe o b a => Sys2Proof.Machine.execBNe o b a s
  | .bLt o b a => Sys2Proof.Machine.execBLt o b a s
  | .bGe o b a => Sys2Proof.Machine.execBGe o b a s
  | .bLtn o b a => Sys2Proof.Machine.execBLtn o b a s
  | .bGen o b a => Sys2Proof.Machine.execBGen o b a s
  | .bBset o b a => Sys2Proof.Machine.execBBset o b a s
  | .bBclr o b a => Sys2Proof.Machine.execBBclr o b a s
  | .j o => Sys2Proof.Machine.execJ o s
  | .jal o => Sys2Proof.Machine.execJal o s
  | .jalr im a d => Sys2Proof.Machine.execJalr im a d s
  | .dbnz o a d => Sys2Proof.Machine.execDbnz o a d s
  | .fadd m b a d => Sys2Proof.Machine.execFadd m b a d s
  | .fsub m b a d => Sys2Proof.Machine.execFsub m b a d s
  | .fmul m b a d => Sys2Proof.Machine.execFmul m b a d s
  | .fdiv m b a d => Sys2Proof.Machine.execFdiv m b a d s
  | .fsqrt m a d => Sys2Proof.Machine.execFsqrt m a d s
  | .fmin b a d => Sys2Proof.Machine.execFmin b a d s
  | .fmax b a d => Sys2Proof.Machine.execFmax b a d s
  | .fabs a d => Sys2Proof.Machine.execFabs a d s
  | .fneg a d => Sys2Proof.Machine.execFneg a d s
  | .fsgnj b a d => Sys2Proof.Machine.execFsgnj b a d s
  | .ffma c b a d => Sys2Proof.Machine.execFfma c b a d s
  | .ffms c b a d => Sys2Proof.Machine.execFfms c b a d s
  | .fnfma c b a d => Sys2Proof.Machine.execFnfma c b a d s
  | .fcmpeq b a d => Sys2Proof.Machine.execFcmpeq b a d s
  | .fcmplt b a d => Sys2Proof.Machine.execFcmplt b a d s
  | .fcmple b a d => Sys2Proof.Machine.execFcmple b a d s
  | .fcvtFG m t a d => Sys2Proof.Machine.execFcvtFG m t a d s
  | .fcvtGF m t a d => Sys2Proof.Machine.execFcvtGF m t a d s
  | .fmvFG a d => Sys2Proof.Machine.execFmvFG a d s
  | .fmvGF a d => Sys2Proof.Machine.execFmvGF a d s
  | .fcls a d => Sys2Proof.Machine.execFcls a d s
  | .fround m a d => Sys2Proof.Machine.execFround m a d s
  | .fcvtFBf16 a d => Sys2Proof.Machine.execFcvtFBf16 a d s
  | .fcvtBf16F m a d => Sys2Proof.Machine.execFcvtBf16F m a d s
  | .fcvtFHf a d => Sys2Proof.Machine.execFcvtFHf a d s
  | .fcvtHfF m a d => Sys2Proof.Machine.execFcvtHfF m a d s
  | .fscal m b a d => Sys2Proof.Machine.execFscal m b a d s
  | .frecip a d => Sys2Proof.Machine.execFrecip a d s
  | .frsq a d => Sys2Proof.Machine.execFrsq a d s
  | .ldb im a d => Sys2Proof.Machine.execLdb im a d s
  | .ldbn im a d => Sys2Proof.Machine.execLdbn im a d s
  | .ldh im a d => Sys2Proof.Machine.execLdh im a d s
  | .ldhn im a d => Sys2Proof.Machine.execLdhn im a d s
  | .ldw im a d => Sys2Proof.Machine.execLdw im a d s
  | .ldwn im a d => Sys2Proof.Machine.execLdwn im a d s
  | .ldd im a d => Sys2Proof.Machine.execLdd im a d s
  | .ldf im a d => Sys2Proof.Machine.execLdf im a d s
  | .ldsync im a d => Sys2Proof.Machine.execLdsync im a d s
  | .ldpeek im a d => Sys2Proof.Machine.execLdpeek im a d s
  | .stb im a d => Sys2Proof.Machine.execStb im a d s
  | .sth im a d => Sys2Proof.Machine.execSth im a d s
  | .stw im a d => Sys2Proof.Machine.execStw im a d s
  | .std im a d => Sys2Proof.Machine.execStd im a d s
  | .stf im a d => Sys2Proof.Machine.execStf im a d s
  | .stfill im a d => Sys2Proof.Machine.execStfill im a d s
  | .clrfull im a => Sys2Proof.Machine.execClrfull im a s
  | .aadd b a d => Sys2Proof.Machine.execAadd b a d s
  | .aswap b a d => Sys2Proof.Machine.execAswap b a d s
  | .acas c b a d => Sys2Proof.Machine.execAcas c b a d s
  | .ldbits sx n w a d => Sys2Proof.Machine.execLdbits sx n w a d s
  | .stbits n w a d => Sys2Proof.Machine.execStbits n w a d s
  | .badd a d => Sys2Proof.Machine.execBadd a d s
  | .bset a d => Sys2Proof.Machine.execBset a d s
  | .bget a d => Sys2Proof.Machine.execBget a d s
  | .vadd p b a d t => Sys2Proof.Machine.execVadd p b a d t s
  | .vsub p b a d t => Sys2Proof.Machine.execVsub p b a d t s
  | .vmul p b a d t => Sys2Proof.Machine.execVmul p b a d t s
  | .vmulh p b a d t => Sys2Proof.Machine.execVmulh p b a d t s
  | .vmulhn p b a d t => Sys2Proof.Machine.execVmulhn p b a d t s
  | .vmin p b a d t => Sys2Proof.Machine.execVmin p b a d t s
  | .vmax p b a d t => Sys2Proof.Machine.execVmax p b a d t s
  | .vminn p b a d t => Sys2Proof.Machine.execVminn p b a d t s
  | .vmaxn p b a d t => Sys2Proof.Machine.execVmaxn p b a d t s
  | .vand p b a d t => Sys2Proof.Machine.execVand p b a d t s
  | .vor p b a d t => Sys2Proof.Machine.execVor p b a d t s
  | .vxor p b a d t => Sys2Proof.Machine.execVxor p b a d t s
  | .vsll p b a d t => Sys2Proof.Machine.execVsll p b a d t s
  | .vsrl p b a d t => Sys2Proof.Machine.execVsrl p b a d t s
  | .vsra p b a d t => Sys2Proof.Machine.execVsra p b a d t s
  | .vabs p a d t => Sys2Proof.Machine.execVabs p a d t s
  | .vadds p b a d t => Sys2Proof.Machine.execVadds p b a d t s
  | .vaddsn p b a d t => Sys2Proof.Machine.execVaddsn p b a d t s
  | .vsubs p b a d t => Sys2Proof.Machine.execVsubs p b a d t s
  | .vsubsn p b a d t => Sys2Proof.Machine.execVsubsn p b a d t s
  | .vavg p b a d t => Sys2Proof.Machine.execVavg p b a d t s
  | .vdot4 p c b a d => Sys2Proof.Machine.execVdot4 p c b a d s
  | .vcmpeq p b a d t => Sys2Proof.Machine.execVcmpeq p b a d t s
  | .vcmplt p b a d t => Sys2Proof.Machine.execVcmplt p b a d t s
  | .vcmpltn p b a d t => Sys2Proof.Machine.execVcmpltn p b a d t s
  | .vfadd p b a d t => Sys2Proof.Machine.execVfadd p b a d t s
  | .vfsub p b a d t => Sys2Proof.Machine.execVfsub p b a d t s
  | .vfmul p b a d t => Sys2Proof.Machine.execVfmul p b a d t s
  | .vffma p c b a d t => Sys2Proof.Machine.execVffma p c b a d t s
  | .vffms p c b a d t => Sys2Proof.Machine.execVffms p c b a d t s
  | .vfmin p b a d t => Sys2Proof.Machine.execVfmin p b a d t s
  | .vfmax p b a d t => Sys2Proof.Machine.execVfmax p b a d t s
  | .vfabs p a d t => Sys2Proof.Machine.execVfabs p a d t s
  | .vfneg p a d t => Sys2Proof.Machine.execVfneg p a d t s
  | .vfdiv p b a d => Sys2Proof.Machine.execVfdiv p b a d s
  | .vfsqrt p a d => Sys2Proof.Machine.execVfsqrt p a d s
  | .vfrecip p a d t => Sys2Proof.Machine.execVfrecip p a d t s
  | .vfrsq p a d t => Sys2Proof.Machine.execVfrsq p a d t s
  | .vfexp2 p a d t => Sys2Proof.Machine.execVfexp2 p a d t s
  | .vfcmpeq p b a d t => Sys2Proof.Machine.execVfcmpeq p b a d t s
  | .vfcmplt p b a d t => Sys2Proof.Machine.execVfcmplt p b a d t s
  | .vfcmple p b a d t => Sys2Proof.Machine.execVfcmple p b a d t s
  | .vfclass p a d t => Sys2Proof.Machine.execVfclass p a d t s
  | .vfscale p b a d t => Sys2Proof.Machine.execVfscale p b a d t s
  | .vcvt p t sx a d => Sys2Proof.Machine.execVcvt p t sx a d s
  | .vcvtsc c k a d => Sys2Proof.Machine.execVcvtsc c k a d s
  | .vsplat p w g d => Sys2Proof.Machine.execVsplat p w g d s
  | .vsplatf p w f d => Sys2Proof.Machine.execVsplatf p w f d s
  | .vext im b x g => Sys2Proof.Machine.execVext im b x g s
  | .vins im w g d => Sys2Proof.Machine.execVins im w g d s
  | .vperm p w b a d => Sys2Proof.Machine.execVperm p w b a d s
  | .vslide k b a d => Sys2Proof.Machine.execVslide k b a d s
  | .vcompress p w a d => Sys2Proof.Machine.execVcompress p w a d s
  | .vexpand p w a d => Sys2Proof.Machine.execVexpand p w a d s
  | .vmerge p w b a d => Sys2Proof.Machine.execVmerge p w b a d s
  | .vredsum p t a d => Sys2Proof.Machine.execVredsum p t a d s
  | .vredmax p t a d => Sys2Proof.Machine.execVredmax p t a d s
  | .vredmin p t a d => Sys2Proof.Machine.execVredmin p t a d s
  | .vtopk k y b a d => Sys2Proof.Machine.execVtopk k y b a d s
  | .vtopkM k y b a d => Sys2Proof.Machine.execVtopkM k y b a d s
  | .vmand b a d => Sys2Proof.Machine.execVmand b a d s
  | .vmor b a d => Sys2Proof.Machine.execVmor b a d s
  | .vmnot a d => Sys2Proof.Machine.execVmnot a d s
  | .vmpop b g => Sys2Proof.Machine.execVmpop b g s
  | .vld p o w g d => Sys2Proof.Machine.execVld p o w g d s
  | .vst p o w g d => Sys2Proof.Machine.execVst p o w g d s
  | .vldx p w x g d => Sys2Proof.Machine.execVldx p w x g d s
  | .vstx p w x g d => Sys2Proof.Machine.execVstx p w x g d s
  | .vldbits p n m w b d => Sys2Proof.Machine.execVldbits p n m w b d s
  | .tcfg a t => Sys2Proof.Machine.execTcfg a t s
  | .trel t => Sys2Proof.Machine.execTrel t s
  | .tzero t => Sys2Proof.Machine.execTzero t s
  | .tldrow b v t => Sys2Proof.Machine.execTldrow b v t s
  | .tldcol b v t => Sys2Proof.Machine.execTldcol b v t s
  | .tstrow b v t => Sys2Proof.Machine.execTstrow b v t s
  | .tstcol b v t => Sys2Proof.Machine.execTstcol b v t s
  | .tload b a t => Sys2Proof.Machine.execTload b a t s
  | .tstore b a t => Sys2Proof.Machine.execTstore b a t s
  | .twait => Sys2Proof.Machine.execTwait s
  | .mmaBf16 c b a t => Sys2Proof.Machine.execMmaBf16 c b a t s
  | .mmaHf c b a t => Sys2Proof.Machine.execMmaHf c b a t s
  | .mmaE4e4 c b a t => Sys2Proof.Machine.execMmaE4e4 c b a t s
  | .mmaE4e5 c b a t => Sys2Proof.Machine.execMmaE4e5 c b a t s
  | .mmaE5e4 c b a t => Sys2Proof.Machine.execMmaE5e4 c b a t s
  | .mmaE5e5 c b a t => Sys2Proof.Machine.execMmaE5e5 c b a t s
  | .mmaBf16e4 c b a t => Sys2Proof.Machine.execMmaBf16e4 c b a t s
  | .mmaI8 b a t => Sys2Proof.Machine.execMmaI8 b a t s
  | .mmaTi8 b a t => Sys2Proof.Machine.execMmaTi8 b a t s
  | .mmaTbf16 c b a t => Sys2Proof.Machine.execMmaTbf16 c b a t s
  | .connect c b a e => Sys2Proof.Machine.execConnect c b a e s
  | .accept c b a e => Sys2Proof.Machine.execAccept c b a e s
  | .send c b a e => Sys2Proof.Machine.execSend c b a e s
  | .sendv c b v e => Sys2Proof.Machine.execSendv c b v e s
  | .sendt c b t e => Sys2Proof.Machine.execSendt c b t e s
  | .selLabel l e => Sys2Proof.Machine.execSelLabel l e s
  | .recv b a e => Sys2Proof.Machine.execRecv b a e s
  | .offer a e => Sys2Proof.Machine.execOffer a e s
  | .probe a e => Sys2Proof.Machine.execProbe a e s
  | .close k e => Sys2Proof.Machine.execClose k e s
  | .sendep c m e => Sys2Proof.Machine.execSendep c m e s
  | .recvep m e => Sys2Proof.Machine.execRecvep m e s
  | .estate w a e => Sys2Proof.Machine.execEstate w a e s
  | .spawn c b a e => Sys2Proof.Machine.execSpawn c b a e s
  | .mrd c b a => Sys2Proof.Machine.execMrd c b a s
  | .mwr c b a => Sys2Proof.Machine.execMwr c b a s
  | .mamo c b a => Sys2Proof.Machine.execMamo c b a s
  | .cpget c b a => Sys2Proof.Machine.execCpget c b a s
  | .cpput c b a => Sys2Proof.Machine.execCpput c b a s
  | .cpgath c b a => Sys2Proof.Machine.execCpgath c b a s
  | .cpscat c b a => Sys2Proof.Machine.execCpscat c b a s
  | .cpfill c b a => Sys2Proof.Machine.execCpfill c b a s
  | .cpcvt c b a => Sys2Proof.Machine.execCpcvt c b a s
  | .cpwait => Sys2Proof.Machine.execCpwait s
  | .gjoin c a e => Sys2Proof.Machine.execGjoin c a e s
  | .gleave e => Sys2Proof.Machine.execGleave e s
  | .gwait c e => Sys2Proof.Machine.execGwait c e s
  | .gred c b a e => Sys2Proof.Machine.execGred c b a e s
  | .gbcast c b a e => Sys2Proof.Machine.execGbcast c b a e s
  | .grs c b a e => Sys2Proof.Machine.execGrs c b a e s
  | .gag c b a e => Sys2Proof.Machine.execGag c b a e s
  | .vnow d => Sys2Proof.Machine.execVnow d s
  | .vset a => Sys2Proof.Machine.execVset a s
  | .vmile d => Sys2Proof.Machine.execVmile d s
  | .prio a => Sys2Proof.Machine.execPrio a s
  | .budget a => Sys2Proof.Machine.execBudget a s
  | .commit => Sys2Proof.Machine.execCommit s
  | .done => Sys2Proof.Machine.execDone s
  | .doneRetire => Sys2Proof.Machine.execDoneRetire s
  | .jarm c a d => Sys2Proof.Machine.execJarm c a d s
  | .jdis a => Sys2Proof.Machine.execJdis a s
  | .capgive a d => Sys2Proof.Machine.execCapgive a d s
  | .capchk a d => Sys2Proof.Machine.execCapchk a d s
  | .sysrd sx d => Sys2Proof.Machine.execSysrd sx d s
  | .syswr sx a => Sys2Proof.Machine.execSyswr sx a s
  | .sysbs sx a => Sys2Proof.Machine.execSysbs sx a s
  | .sysbc sx a => Sys2Proof.Machine.execSysbc sx a s
  | .fenceAcq sx => Sys2Proof.Machine.execFenceAcq sx s
  | .fenceRel sx => Sys2Proof.Machine.execFenceRel sx s
  | .fenceFull sx => Sys2Proof.Machine.execFenceFull sx s
  | .fenceSc sx => Sys2Proof.Machine.execFenceSc sx s
  | .trap d => Sys2Proof.Machine.execTrap d s
  | .halt => Sys2Proof.Machine.execHalt s
  | .cAdd b d => Sys2Proof.Machine.execCAdd b d s
  | .cSub b d => Sys2Proof.Machine.execCSub b d s
  | .cAnd b d => Sys2Proof.Machine.execCAnd b d s
  | .cOr b d => Sys2Proof.Machine.execCOr b d s
  | .cXor b d => Sys2Proof.Machine.execCXor b d s
  | .cMv b d => Sys2Proof.Machine.execCMv b d s
  | .cLdd b d => Sys2Proof.Machine.execCLdd b d s
  | .cStd b a => Sys2Proof.Machine.execCStd b a s
  | .cAddi im d => Sys2Proof.Machine.execCAddi im d s
  | .cLi im d => Sys2Proof.Machine.execCLi im d s
  | .cSlli sx d => Sys2Proof.Machine.execCSlli sx d s
  | .cSrli sx d => Sys2Proof.Machine.execCSrli sx d s
  | .cSrai sx d => Sys2Proof.Machine.execCSrai sx d s
  | .cAndi im d => Sys2Proof.Machine.execCAndi im d s
  | .cOri im d => Sys2Proof.Machine.execCOri im d s
  | .cXori im d => Sys2Proof.Machine.execCXori im d s
  | .cBeqz o a => Sys2Proof.Machine.execCBeqz o a s
  | .cBnez o a => Sys2Proof.Machine.execCBnez o a s
  | .cBltz o a => Sys2Proof.Machine.execCBltz o a s
  | .cBgez o a => Sys2Proof.Machine.execCBgez o a s
  | .cJ o => Sys2Proof.Machine.execCJ o s
  | .cJr a => Sys2Proof.Machine.execCJr a s
  | .cDbnz o a => Sys2Proof.Machine.execCDbnz o a s
  | .cDone => Sys2Proof.Machine.execCDone s
  | .vectorCommandExecution c => Sys2Proof.Machine.execVectorCommandExecution c s
  | .matrixCommandExecution c => Sys2Proof.Machine.execMatrixCommandExecution c s
  | .copyCommandExecution c => Sys2Proof.Machine.execCopyCommandExecution c s
  | .doneRelease c x => Sys2Proof.Machine.execDoneRelease c x s
  | .fenceConditionMet c k => Sys2Proof.Machine.execFenceConditionMet c k s
  | .messageArrival n => Sys2Proof.Machine.execMessageArrival n s
  | .antiMessage n => Sys2Proof.Machine.execAntiMessage n s
  | .activationDispatch c => Sys2Proof.Machine.execActivationDispatch c s
  | .countedMessage c k => Sys2Proof.Machine.execCountedMessage c k s
  | .rollback c k => Sys2Proof.Machine.execRollback c k s
  | .trapSequence c x => Sys2Proof.Machine.execTrapSequence c x s
  | .budgetExhausted c x => Sys2Proof.Machine.execBudgetExhausted c x s
  | .kill t im => Sys2Proof.Machine.execKill t im s
  | .connectRequest n => Sys2Proof.Machine.execConnectRequest n s
  | .connectAnswer n => Sys2Proof.Machine.execConnectAnswer n s
  | .connectConfirmation n => Sys2Proof.Machine.execConnectConfirmation n s
  | .connectUndo n => Sys2Proof.Machine.execConnectUndo n s
  | .spawnRequest n => Sys2Proof.Machine.execSpawnRequest n s
  | .closeNotice c k e => Sys2Proof.Machine.execCloseNotice c k e s
  | .acknowledgement n => Sys2Proof.Machine.execAcknowledgement n s
  | .relocationNotice n => Sys2Proof.Machine.execRelocationNotice n s
  | .forwardingRequest n => Sys2Proof.Machine.execForwardingRequest n s
  | .forwardingEndMarker n => Sys2Proof.Machine.execForwardingEndMarker n s
  | .memoryPeerRequest n => Sys2Proof.Machine.execMemoryPeerRequest n s
  | .pageWalk sx n => Sys2Proof.Machine.execPageWalk sx n s
  | .invalidation n => Sys2Proof.Machine.execInvalidation n s
  | .homeAcknowledgement n => Sys2Proof.Machine.execHomeAcknowledgement n s
  | .parkDeadline n => Sys2Proof.Machine.execParkDeadline n s
  | .capabilityHandOver n => Sys2Proof.Machine.execCapabilityHandOver n s
  | .pageOut n => Sys2Proof.Machine.execPageOut n s
  | .pageIn n => Sys2Proof.Machine.execPageIn n s
  | .deposit n => Sys2Proof.Machine.execDeposit n s
  | .discard n => Sys2Proof.Machine.execDiscard n s
  | .persist n => Sys2Proof.Machine.execPersist n s
  | .evictActor n => Sys2Proof.Machine.execEvictActor n s
  | .reloadActor n => Sys2Proof.Machine.execReloadActor n s
  | .demandPageIn g => Sys2Proof.Machine.execDemandPageIn g s
  | .checkpointTake n => Sys2Proof.Machine.execCheckpointTake n s
  | .checkpointRestore n => Sys2Proof.Machine.execCheckpointRestore n s
  | .checkpointQuery n => Sys2Proof.Machine.execCheckpointQuery n s
  | .codeLoad n => Sys2Proof.Machine.execCodeLoad n s
  | .codeUnload n => Sys2Proof.Machine.execCodeUnload n s
  | .codeScan c => Sys2Proof.Machine.execCodeScan c s
  | .groupJoinAtRegistry n => Sys2Proof.Machine.execGroupJoinAtRegistry n s
  | .collectiveChunk n => Sys2Proof.Machine.execCollectiveChunk n s
  | .resultChunk n => Sys2Proof.Machine.execResultChunk n s
  | .memberDeath n => Sys2Proof.Machine.execMemberDeath n s
  | .priorityLoan c k => Sys2Proof.Machine.execPriorityLoan c k s
  | .milestoneRoundStart => Sys2Proof.Machine.execMilestoneRoundStart s
  | .takeTheCut n => Sys2Proof.Machine.execTakeTheCut n s
  | .milestonePass => Sys2Proof.Machine.execMilestonePass s
  | .roundCompletion n => Sys2Proof.Machine.execRoundCompletion n s
  | .fabricRound => Sys2Proof.Machine.execFabricRound s
  | .ctlWrite => Sys2Proof.Machine.execCtlWrite s
  | .hostRingDelivery n => Sys2Proof.Machine.execHostRingDelivery n s
  | .linkFlitReceive l => Sys2Proof.Machine.execLinkFlitReceive l s
  | .linkAcknowledgement l => Sys2Proof.Machine.execLinkAcknowledgement l s
  | .linkReplay l => Sys2Proof.Machine.execLinkReplay l s
  | .allocate => Sys2Proof.Machine.execAllocate s
  | .free => Sys2Proof.Machine.execFree s
  | .setOrdering => Sys2Proof.Machine.execSetOrdering s
  | .setHolder => Sys2Proof.Machine.execSetHolder s
  | .writeProtectionEntry => Sys2Proof.Machine.execWriteProtectionEntry s
  | .clearProtectionEntry => Sys2Proof.Machine.execClearProtectionEntry s
  | .coreConfigurationRequest => Sys2Proof.Machine.execCoreConfigurationRequest s
  | .slotPointerWrap c => Sys2Proof.Machine.execSlotPointerWrap c s
  | .arbiterPeriod => Sys2Proof.Machine.execArbiterPeriod s
  | .coolantSample => Sys2Proof.Machine.execCoolantSample s
  | .lifeCycleChange => Sys2Proof.Machine.execLifeCycleChange s
  | .laybyWrite => Sys2Proof.Machine.execLaybyWrite s
  | .savepoolWrite => Sys2Proof.Machine.execSavepoolWrite s
  | .roadblockStop h => Sys2Proof.Machine.execRoadblockStop h s
  | .roadblockResume h => Sys2Proof.Machine.execRoadblockResume h s
  | .leaveMinimalMode => Sys2Proof.Machine.execLeaveMinimalMode s
  | .hostRegisterWrite => Sys2Proof.Machine.execHostRegisterWrite s
  | .launch => Sys2Proof.Machine.execLaunch s
  | .reset => Sys2Proof.Machine.execReset s
  | .scrub c a => Sys2Proof.Machine.execScrub c a s
  | .lifetimeSecond => Sys2Proof.Machine.execLifetimeSecond s
  | .hostMessageEntry n => Sys2Proof.Machine.execHostMessageEntry n s
  | .sendWindowWrite => Sys2Proof.Machine.execSendWindowWrite s
  | .hostReadCompletion n => Sys2Proof.Machine.execHostReadCompletion n s
  | .capchkAnswer n => Sys2Proof.Machine.execCapchkAnswer n s

end Sys2Proof.Machine
end

