-- ==== Sys2Proof/Machine/Issue.lean ====
section
/-! DEFINITION. An issue cycle of the core in focus (16_scheduling_and_trap_tables.md R340): the instruction of the context chosen, and the cycle's end. -/

namespace Sys2Proof.Machine

/-- A row's word has the effect of the instruction that it builds. -/
theorem runRow_exec (r : Row) (w : Nat) (s : State) : runRow r w s = exec (r.build w) s := by
  cases r <;> rfl

/-! ## The cycle -/

/-- The wait of a context whose next instruction cannot issue noted: a stalled context stands in the order in which it stalled (R138) and shows as stalled (R359). -/
def State.noteStall (s : State) (x : BitVec 2) : State := if s.mayTry x then (s.stallOf x).getD s else s

/-- The waits of a core's contexts noted. -/
def State.noteStalls (s : State) : State := if s.live then ([0, 1, 2, 3] : List (BitVec 2)).foldl State.noteStall s else s

/-- The end of a cycle of the core in focus. -/
def State.cycleEnd (s : State) : State :=
  let t := s.pass.noteStalls
  { t with time := t.time + 1 }

/-- An outcome followed by the end of the cycle. -/
def thenCycle : Out → Out
  | .next t => .next t.cycleEnd
  | .fault r => .fault r
  | .refused r => .refused r

/-- An issue cycle of the core in focus. -/
def State.issue (s : State) : Out :=
  match s.issuer with
  | none => .next s.cycleEnd
  | some x => thenCycle { s with cx := x }.issueOne

end Sys2Proof.Machine
end

