-- ==== Sys2Proof/Machine/Turns.lean ====
section
/-! DEFINITION. What one turn of the agenda does (log 1): an issue cycle, a step of the part, a change of focus, time that passes, and what comes from outside the module: soft errors (09_local_memory.md R202, 16_scheduling_and_trap_tables.md R354), the inlet's temperature, host writes, link flits, launch sets, the division of code stores and host endpoints (R15, R210) and the place in the torus (R12). -/

namespace Sys2Proof.Machine

/-- A step with no encoding. -/
def isStep (i : Instr) : Bool := (encode i).isNone

/-- A soft error (R142, R202, R316, R354, R383). -/
def State.upset (s : State) : Upset → Out
  | .pad c w =>
    let k := s.core c
    if 24576 ≤ w then .fault .noSuchPart else .next (s.setCore c { k with badPad := insertNat w k.badPad })
  | .code c w =>
    let k := s.core c
    if 4096 ≤ w then .fault .noSuchPart else .next (s.setCore c { k with badCode := insertNat w k.badCode })
  | .tile c w =>
    let k := s.core c
    if 2048 ≤ w then .fault .noSuchPart else .next (s.setCore c { k with badTiles := insertNat w k.badTiles })
  | .dram b w =>
    let k := s.base b.toNat
    if 2 ^ 33 ≤ w then .fault .noSuchPart else .next (s.setBase b.toNat { k with badDram := insertNat w k.badDram })
  | .flash p => .next { s with depot := put p { s.depotPage p with bad := true } s.depot }
  | .slot id odd =>
    let x := look (CkSlot.zero, CkSlot.zero) id.toNat s.ckpts
    .next { s with ckpts := put id.toNat (if odd then (x.1, { x.2 with bad := true }) else ({ x.1 with bad := true }, x.2)) s.ckpts }
  | .head n bits =>
    match s.flight[n]? with
    | some f =>
      match f.pkt with
      | .msg d m => .next { s with flight := s.flight.set n { f with pkt := .msg d { m with hdr := { m.hdr with crcErr := m.hdr.crcErr ^^^ bits } } } }
      | _ => notEnabled "UPSET"
    | none => notEnabled "UPSET"
  | .itinerary c i =>
    let k := s.core c
    .next (s.setCore c { k with badItins := insertNat i.toNat k.badItins })
  | .record c n part =>
    let k := s.core c
    if k.actors.any fun a => a.1 = n.toNat then
      .next (s.setCore c { k with actors := k.actors.map fun a => if a.1 = n.toNat then (a.1, { a.2 with bad := (part :: a.2.bad).eraseDups }) else a })
    else notEnabled "UPSET"
  | .line b n =>
    let k := s.base b.toNat
    if k.cache.any fun x => x.line = n then .next (s.setBase b.toNat { k with badLines := insertNat n k.badLines }) else notEnabled "UPSET"
  | .leaf p =>
    let k := s.base (homePage p)
    .next (s.setBase (homePage p) { k with badLeaves := insertNat p k.badLeaves })
  | .saved a =>
    match s.savedOf a with
    | some x => .next (s.setSaved { x with bad := true })
    | none => notEnabled "UPSET"
  | .corrected k => if 4 ≤ k then .fault .noSuchPart else .next (s.count (0x3090 + 8 * k))

/-- A crossing cache gives up a line; one with an unacknowledged update is never chosen (R222). -/
def State.replace (s : State) (b : BitVec 3) (n : Nat) : Out :=
  let k := s.base b.toNat
  if k.cache.any fun x => x.line = n && x.unacked = 0 then
    .next (s.setBase b.toNat { k with cache := k.cache.filter (fun x => x.line ≠ n), badLines := k.badLines.filter (· ≠ n) })
  else notEnabled "REPLACE"

/-- Units of a code store given to a tenant (R210): partitions do not overlap, and an image in the old partition stays until it is unloaded. -/
def State.partition (s : State) (c : CoreId) (t : BitVec 4) (first count : Nat) : Out :=
  let k := s.core c
  let others := k.parts.filter fun p => p.1 ≠ t.toNat
  if 64 ≤ first ∨ 64 < first + count ∨ k.images.any fun i => i.tenant = t then notEnabled "PARTITION"
  else if others.any fun p => decide (first < p.2.1 + p.2.2) && decide (p.2.1 < first + count) then notEnabled "PARTITION"
  else .next (s.setCore c { k with parts := (t.toNat, first, count) :: others })

/-- A host endpoint given to a tenant on a port (R15, R196): the ports and the tenants divide 65,536 numbers among them. -/
def State.addHost (s : State) (n : BitVec 17) (t : BitVec 4) : Out :=
  if s.hosts.any fun h => h.num.setWidth 16 = (n.setWidth 16 : BitVec 16) then notEnabled "HOST_ENDPOINT"
  else .next { s with hosts := s.hosts ++ [{ num := n, tenant := t, seq := 0, record := EpRec.zero, states := [], peerId := 0, vrt := 0, ctl := 0,
                                             busy := false, window := Mem.empty, ring := 0, fullAt := none }] }

/-- MSI-X vectors given to a function: at most 2,048 for the functions of a port together (R195). -/
def State.giveVectors (s : State) (fn count : Nat) : Out :=
  let others := (s.vectors.filter fun x => x.1 / 17 = fn / 17 && x.1 ≠ fn).map fun x => x.2
  if 34 ≤ fn then .fault .noSuchPart
  else if 2048 < others.sum + count then notEnabled "VECTORS"
  else .next { s with vectors := put fn count s.vectors }

/-- Whether a host write comes by port 1, which does not train in minimal mode (R384). -/
def HostWrite.second : HostWrite → Bool
  | .w0 _ _ => false
  | .window fn _ _ _ => decide (17 ≤ fn)
  | .vrt fn _ _ => decide (17 ≤ fn)
  | .ctl fn _ _ => decide (17 ≤ fn)
  | .ring fn _ _ _ => decide (17 ≤ fn)
  | .ringByte fn _ _ => decide (17 ≤ fn)
  | .msix fn _ _ => decide (17 ≤ fn)

/-- A turn taken. -/
def State.takeTurn (s : State) : Turn → Out
  | .cycle => s.issue
  | .event i => if isStep i then exec i s else notEnabled "EVENT"
  | .focus c => .next { s with here := c }
  | .elapse n => .next { s with time := s.time + n }
  | .upset u => s.upset u
  | .sensor c => .next { s with sensor := c }
  | .die t => .next { s with die := t }
  | .replace b n => s.replace b n
  | .hostWrite w => if s.mgmt.minimal ∧ w.second then notEnabled "HOST_WRITE" else .next { s with hostIn := s.hostIn ++ [w] }
  | .flitIn l f => if 12 ≤ l then .fault .noSuchPart else .next (s.setPort l { s.port l with rx := (s.port l).rx ++ [f] })
  | .ackIn l q => if 12 ≤ l then .fault .noSuchPart else .next (s.setPort l { s.port l with acks := (s.port l).acks ++ [q] })
  | .replayIn l q => if 12 ≤ l then .fault .noSuchPart else .next (s.setPort l { s.port l with replays := (s.port l).replays ++ [q] })
  | .request x => .next { s with launches := s.launches ++ [x] }
  | .partition c t first count => s.partition c t first count
  | .hostEnd n t => s.addHost n t
  | .hostConnect n l e => .next (s.hostConnect n l e)
  | .vectors fn count => s.giveVectors fn count
  | .firmware x y => .next (s.updateFirmware x y)
  | .torus c n => .next { s with coords := c, torus := n }
  | .bootFails r => s.bootFailed r

/-! ## The first instruction (log 4) -/

/-- A context that runs at the head of an executable image of its actor, with a slot-table entry at the pointer: what an image load, a launch and a dispatch leave. What the core has already is kept where it serves. -/
def Core.staged (k : Core) (x : BitVec 2) : Core :=
  let c := k.ctxs[x.toNat]
  let a := look Actor.zero c.slot.toNat k.actors
  let t := a.aid.tenant
  let image : Image := ⟨a.image, t, 0, 32768, a.disc, a.prio, a.budget, a.junction, a.zones, [], []⟩
  let images := if k.images.any fun i => i.num = a.image && i.tenant = t then k.images else k.images ++ [image]
  let base := ((images.find? fun i => i.num = a.image && i.tenant = t).map fun i => (i.base, i.len)).getD (0, 0)
  let pc := if c.pc.toNat % 2 = 0 ∧ base.1 ≤ c.pc.toNat ∧ c.pc.toNat < base.1 + base.2 then c.pc else BitVec.ofNat 16 base.1
  let rival (y : Ctx) : Bool := (look Actor.zero y.slot.toNat k.actors).aid.tenant = t
  { k with
    ctxs := (k.ctxs.map fun y => if rival y then { y with wait := .operand } else y).set x.toNat
      { c with phase := .running, wait := .none, pc := pc, budget := if c.budget = 0 then a.budget else c.budget },
    actors := put c.slot.toNat a k.actors, images := images, starts := insertNat (pc.toNat / 2) k.starts,
    slots := put k.pointer.toNat ⟨true, false, t⟩ k.slots, throttle := 0, stopped := false,
    dispatched := none, badCode := k.badCode.filter fun w => w ≠ pc.toNat / 8 && w ≠ (pc.toNat + 2) / 8,
    vq := k.vq.filter fun y => y.ctx ≠ x, mq := k.mq.filter fun y => y.ctx ≠ x }

end Sys2Proof.Machine
end

