-- ==== Sys2Proof/Machine/Step.lean ====
section
/-! DEFINITION. One step of the module, and the placing of an instruction where the next step fetches it. -/

namespace Sys2Proof.Machine

/-- One step: the next turn of the agenda, or, when the agenda is empty, an issue cycle of the core in focus (log 1). -/
def step (s : State) : Host.Outcome State Fault Refusal :=
  match s.agenda with
  | [] => s.issue
  | t :: rest => { s with agenda := rest }.takeTurn t

/-- The state with an instruction at the PC of a context that issues next (log 4): the four bytes of the word, its bits above `nbits` zero. -/
def State.withFetchWord (s : State) (nbits w : Nat) : State :=
  let k := (s.core s.here).staged s.cx
  let pc := k.ctxs[s.cx.toNat].pc.toNat
  let t := { s with agenda := [], mgmt := { s.mgmt with minimal := false } }
  t.setCore s.here { k with code := k.code.setBytes pc (wordBytes 4 (w % 2 ^ nbits)) }

end Sys2Proof.Machine
end

