-- ==== Sys2Proof/Safety.lean ====
section
/-! DEFINITION. What counts as a safe run, and the words in which the statements speak of one step: what an instruction writes, what it leaves, where it traps. -/

namespace Sys2Proof.Safety

open Sys2Proof.Machine

/-- A state that steps reach from another. -/
inductive Reaches : State → State → Prop where
  | refl (s : State) : Reaches s s
  | step (s t u : State) (h : Reaches s t) (n : Machine.step t = .next u) : Reaches s u

/-- No run from a state ends in a fault; it may end in a refusal, which names a turn that the hardware could not take (log 3). -/
def NoFault (s : State) : Prop := ∀ t f, Reaches s t → Machine.step t ≠ .fault f

/-- A property that every step keeps. -/
def Kept (p : State → Prop) : Prop := ∀ s t, p s → Machine.step s = .next t → p t

/-- The management registers whose values the manual bounds: a life-cycle state that is stored or about to be (R193), the power cap (R192). -/
def Governed (s : State) : Prop := s.mgmt.lcState.toNat ≤ 4 ∧ (s.mgmt.wiping.getD 0).toNat ≤ 4 ∧ 600 ≤ s.mgmt.pwrCap.toNat ∧ s.mgmt.pwrCap.toNat ≤ 1800

/-- Every memory of the module is in its canonical form. -/
def Canonical (s : State) : Prop :=
  (∀ c ∈ s.cores, c.2.pad.wf ∧ c.2.code.wf) ∧ (∀ b ∈ s.bases, b.2.dram.wf) ∧ s.hostMem.wf ∧ ∀ h ∈ s.hosts, h.window.wf

/-! ## Register results -/

/-- t is s after an instruction that writes v to g[d] and goes on at pc: nothing but g[d], the PC and the count of instructions of the context in focus has changed, and a write to g0 is discarded (R65). -/
def WroteG (s : State) (d : BitVec 5) (v : Word) (pc : BitVec 16) (t : State) : Prop :=
  t = s.setCtx { s.ctx with g := t.ctx.g, pc := pc, retired := s.ctx.retired + 1 } ∧ ∀ r, t.g r = if r = d ∧ d ≠ 0 then v else s.g r

/-- An instruction of n bytes completes and writes v to g[d] alone. -/
def Computes (i : Instr) (n : Nat) (s : State) (d : BitVec 5) (v : Word) : Prop :=
  ∃ t, exec i s = .next t ∧ WroteG s d v (s.ctx.pc + BitVec.ofNat 16 n) t

/-- t is s with the context in focus going on at pc and counting one instruction: no register, no memory, nothing else has changed. -/
def Went (s : State) (pc : BitVec 16) (t : State) : Prop := t = s.setCtx { s.ctx with pc := pc, retired := s.ctx.retired + 1 }

/-- An instruction completes and continues at pc. -/
def Continues (i : Instr) (s : State) (pc : BitVec 16) : Prop := ∃ t, exec i s = .next t ∧ Went s pc t

/-- A floating-point instruction completes: it writes v to f[d] alone, merges flags into FFLAGS and leaves SEED at a value (R83, R104). -/
def ComputesF (i : Instr) (s : State) (d : BitVec 5) (v : Nat) (fl : BitVec 7) (seed : BitVec 32) : Prop :=
  ∃ t, exec i s = .next t ∧
    t = s.setCtx { s.ctx with f := t.ctx.f, fflags := s.ctx.fflags ||| fl, seed := seed, pc := s.ctx.pc + 4, retired := s.ctx.retired + 1 } ∧
    ∀ r, t.f r = if r = d then BitVec.ofNat 32 v else s.f r

/-- As `ComputesF`, with the result in a g register. -/
def ComputesGF (i : Instr) (s : State) (d : BitVec 5) (v : Word) (fl : BitVec 7) (seed : BitVec 32) : Prop :=
  ∃ t, exec i s = .next t ∧
    t = s.setCtx { s.ctx with g := t.ctx.g, fflags := s.ctx.fflags ||| fl, seed := seed, pc := s.ctx.pc + 4, retired := s.ctx.retired + 1 } ∧
    ∀ r, t.g r = if r = d ∧ d ≠ 0 then v else s.g r

/-- The instruction takes the trap with a cause and a detail (R345 step 1, R346; `TrapTaken` says what that leaves). -/
def Traps (i : Instr) (s : State) (cause : BitVec 9) (detail : Word) : Prop := exec i s = .next (trapWith none none cause detail s)

/-- A run-time target that R58 and R80 allow: even, inside the running image, an instruction start. -/
def LegalTarget (s : State) (x : Word) : Prop :=
  ∃ m, s.image = some m ∧ x.getLsbD 0 = false ∧ m.base ≤ x.toNat ∧ x.toNat < m.base + m.len ∧ x.toNat / 2 ∈ s.hereCore.starts

/-! ## The scratchpad -/

/-- The lines of n bytes from an address. -/
def OnLines (a n : Nat) (p : Nat → Prop) : Prop := ∀ l, a / 64 ≤ l → l ≤ (a + n - 1) / 64 → p l

/-- A local access of n bytes, aligned to `align`, passes the checks of R201 for a read, the zone descriptors being sound (R354). -/
def Readable (s : State) (a : Word) (n align : Nat) : Prop :=
  s.actor.zonesBad = false ∧ a.toNat % align = 0 ∧ a.toNat + n ≤ 0x30000 ∧ OnLines a.toNat n fun l => lineReadable s.actor l = true

/-- The same for a write. -/
def Writable (s : State) (a : Word) (n align : Nat) : Prop :=
  s.actor.zonesBad = false ∧ a.toNat % align = 0 ∧ a.toNat + n ≤ 0x30000 ∧ OnLines a.toNat n fun l => lineWritable s.actor s.ctx l = true

/-- No word that n bytes from an address touch has an uncorrectable error (R202). -/
def Sound (s : State) (a n : Nat) : Prop := ∀ w ∈ s.hereCore.badPad, 8 * w + 8 ≤ a ∨ a + n ≤ 8 * w

/-- The same for a store, which reads no word that it wholly overwrites (R202). -/
def SoundStore (s : State) (a n : Nat) : Prop := ∀ w ∈ s.hereCore.badPad, 8 * w + 8 ≤ a ∨ a + n ≤ 8 * w ∨ (a ≤ 8 * w ∧ 8 * w + 8 ≤ a + n)

/-- The logs have room for the kept lines of n bytes (R206, R365). -/
def Saves (s : State) (a n : Nat) : Prop := (s.saveLines s.ctx.slot (linesOf a n)).isSome = true

/-- Nothing outside the core in focus and the logs of its actors has changed: other cores' scratchpads and contexts, every memory of the module, what is on its way, the management registers. -/
def ElsewhereSame (s t : State) : Prop :=
  (∀ c, c ≠ s.here → t.core c = s.core c) ∧ (∀ b, (t.base b).dram = (s.base b).dram) ∧ t.hostMem = s.hostMem ∧ t.depot = s.depot ∧
    t.flight = s.flight ∧ t.leaves = s.leaves ∧ t.caps = s.caps ∧ t.groups = s.groups ∧ t.mgmt = s.mgmt

/-- Of the scratchpad of the core in focus, no byte outside n bytes from an address has changed. -/
def PadKept (s t : State) (a n : Nat) : Prop := ∀ x, (x < a ∨ a + n ≤ x) → t.hereCore.pad.byte x = s.hereCore.pad.byte x

/-- The full bits, the code store, the tiles and the engine queues of the core in focus are unchanged. -/
def CoreKept (s t : State) : Prop :=
  (∀ w, t.hereCore.isFull w = s.hereCore.isFull w) ∧ t.hereCore.code = s.hereCore.code ∧ t.hereCore.tiles = s.hereCore.tiles ∧
    t.hereCore.vq = s.hereCore.vq ∧ t.hereCore.mq = s.hereCore.mq ∧ t.hereCore.cq = s.hereCore.cq

/-- The context in focus of t is x, and the other contexts of the core are as they were. -/
def OnlyCtx (s : State) (x : Ctx) (t : State) : Prop := t.here = s.here ∧ t.cx = s.cx ∧ ∀ y, t.ctxAt y = if y = s.cx then x else s.ctxAt y

/-- A store of n bytes of a value completes: the bytes stand from the address on, the context goes on m bytes further with its registers as they were, and every other byte of memory is as it was. -/
def Stores (i : Instr) (m : Nat) (s : State) (a : Word) (n : Nat) (v : Nat) : Prop :=
  ∃ t, exec i s = .next t ∧ (∀ j < n, t.hereCore.pad.byte (a.toNat + j) = BitVec.ofNat 8 (v / 256 ^ j)) ∧
    PadKept s t a.toNat n ∧ CoreKept s t ∧ ElsewhereSame s t ∧
    OnlyCtx s { s.ctx with pc := s.ctx.pc + BitVec.ofNat 16 m, retired := s.ctx.retired + 1 } t

/-! ## What waits to leave, and what leaves -/

/-- The queue of the running activation takes one more item: 64 items and 256 units staged, with what a commit has left behind a fence, or 256 and 512 deferred on the core (R235, R273, R277). -/
def HasRoom (s : State) (it : Item) : Prop :=
  if s.actor.disc = .timed then
    s.hereCore.deferral.length < 256 ∧ itemUnits (s.hereCore.deferral.map fun x => x.item) + it.units ≤ 512
  else s.staged.length < 64 ∧ itemUnits s.staged + it.units ≤ 256

/-- An item has been put at the end of the queue of the activation's discipline, and of no other (R163, R273, R277). -/
def Queued (s t : State) (it : Item) : Prop :=
  if s.actor.disc = .timed then t.hereCore.deferral = s.hereCore.deferral ++ [⟨s.ctx.slot, s.ctx.key, it⟩] ∧ t.ctx.staging = s.ctx.staging
  else t.ctx.staging = s.ctx.staging ++ [it] ∧ t.hereCore.deferral = s.hereCore.deferral

/-- The endpoint's record can be saved in the backtrack log (R159, R365). -/
def SavesEp (s : State) (e : BitVec 4) : Prop := (s.saveEp s.ctx.slot e).isSome = true

/-- Every register of the context in focus is as it was, and it goes on at PC + 4; only its staging queue may have grown, and the other contexts are as they were. -/
def NextAlone (s t : State) : Prop := OnlyCtx s { s.ctx with staging := t.ctx.staging, pc := s.ctx.pc + 4, retired := s.ctx.retired + 1 } t

/-- Of the running actor's endpoints only one has changed. -/
def OtherEpsKept (s t : State) (e : BitVec 4) : Prop := ∀ k, k ≠ e → t.actor.ep k = s.actor.ep k

/-- The endpoint is in a status that the instruction takes, its tables and record are sound, and its state has a kind (R161, R316). -/
def InState (s : State) (e : BitVec 4) (kind : BitVec 3) (v : View) : Prop :=
  .endpoint e ∉ s.actor.bad ∧ (s.actor.ep e).pkind ≠ .collective ∧ ((s.actor.ep e).status = .opened ∨ (s.actor.ep e).status = .connecting → (s.actor.ep e).itin.toNat ∉ s.hereCore.badItins) ∧ v = s.epView e ∧ v.kind = kind

/-- A message that the running actor sends on an endpoint: its class, flags, payload, state and key (R162, R165, R279). -/
def Carries (s : State) (m : Msg) (e : BitVec 4) (cls : BitVec 6) (label deleg join : Bool) (payload : List Byte) : Prop :=
  m.payload = payload ∧ m.hdr.cls = cls ∧ m.hdr.label = label ∧ m.hdr.deleg = deleg ∧ m.hdr.join = join ∧ m.hdr.close = false ∧ m.hdr.anti = false ∧
    m.hdr.state = (s.actor.ep e).state ∧ m.hdr.len = BitVec.ofNat 13 payload.length ∧ m.hdr.key.sender = s.actor.aid.id ∧
    m.hdr.key.seq = s.actor.seq ∧ m.hdr.tenant = s.actor.aid.tenant

/-- The endpoint has advanced to a state with one message more sent, and the actor's sequence by one (R162, R26). -/
def Advanced (s t : State) (e : BitVec 4) (nx : BitVec 6) : Prop :=
  (t.actor.ep e).state = nx ∧ (t.actor.ep e).loop = s.hereCore.nextLoop (s.actor.ep e).itin (s.actor.ep e).state nx (s.actor.ep e).loop ∧
    (t.actor.ep e).sent = (s.actor.ep e).sent + 1 ∧ (t.actor.ep e).rcvd = (s.actor.ep e).rcvd ∧ (t.actor.ep e).status = (s.actor.ep e).status ∧
    t.actor.seq = s.actor.seq + 1

/-- What the running actor sends next stands less than 2^39 ahead of every live message of it (R27). -/
def InSpan (s : State) : Prop := s.tooFar s.actor.aid s.actor.seq s.actor.seq = false ∧ s.nextSeq s.actor.aid = s.actor.seq

/-- A message of an endpoint leaves at once: by the actor's discipline and the fences, within the span of live sequences, and behind no message of the endpoint that has stayed (R27, R163, R235). -/
def LeavesNow (s : State) (e : BitVec 4) : Prop :=
  s.sendsNow (s.actor.ep e) = true ∧ s.tooFar s.actor.aid s.actor.seq s.actor.seq = false ∧ s.stayed e = false

/-- A read or a read-type copy command leaves at once: no fence before it holds it, and its sequence is within the span (R27, R224, R235). -/
def ReadLeaves (s : State) : Prop :=
  (if s.actor.disc = .timed then s.ctx.relFence = false else s.fencedOff false = false) ∧ s.tooFar s.actor.aid s.actor.seq s.actor.seq = false

/-- The state after the log records of a message that the running activation takes on an endpoint: its history in a timed activation, then the endpoint's record (R159, R365). -/
def loggedTaking (s : State) (e : BitVec 4) (h : Held) : Option State :=
  (if s.actor.disc = .timed then (s.logHeld s.ctx.slot (.history { h with byRecv := true }) h.msg.payload).map (fun x => x.1) else some s).bind
    fun t => t.saveEp t.ctx.slot e

/-- The endpoint's oldest message can be taken: it is held for the activation, arrived in an earlier cycle, its payload stands in the mailbox or the log zone, and the log has room for its records (R167, R268, R365, R367). -/
def Takable (s : State) (e : BitVec 4) (h : Held) : Prop :=
  (s.actor.buffer e).head? = some h ∧ s.mayTake h = true ∧ h.arrived < s.time ∧ s.actor.fetched h = true ∧ (loggedTaking s e h).isSome = true

/-- A message as the activation holds it once it has taken it (R170). -/
def takenOf (h : Held) : Held := { h with consumed := true, byRecv := true }

/-- A send completes: the message is queued or, where it leaves at once, it is on its way with the VRT that R28 gives it; the endpoint advances; no register but the PC and no byte of memory has changed (R162, R163, R165). -/
def Sends (i : Instr) (s : State) (e : BitVec 4) (cls : BitVec 6) (label join : Bool) (payload : List Byte) (nx : BitVec 6) (v : Word) : Prop :=
  ∃ t, exec i s = .next t ∧ NextAlone s t ∧ OtherEpsKept s t e ∧ Advanced s t e nx ∧
    (¬ LeavesNow s e → PadKept s t 0 0 ∧ ElsewhereSame s t ∧ ∃ m rule, Queued s t (.msg e m rule) ∧ Carries s m e cls label false join payload) ∧
    (LeavesNow s e → (∀ x ∈ s.hereCore.fenced, x.slot ≠ s.ctx.slot) → t.ctx.staging = s.ctx.staging ∧
      ∃ f d m, t.flight = s.flight ++ [⟨f, v, .msg d m⟩] ∧ d = s.actor.dest e ∧ m.hdr.key.vrt = v ∧ Carries s m e cls label false join payload)

/-- A request of e15 completes at issue: it is queued, e15 counts it and holds a slot for it, the actor's sequence advances; no register but the PC and no byte of memory has changed (R224, R225). `pages` are those that a write touches (R266). -/
def Requests (i : Instr) (s : State) (pages : List Nat) (ok : Item → Prop) : Prop :=
  ∃ t it, exec i s = .next t ∧ ok it ∧ Queued s t it ∧
    OnlyCtx s { s.ctx with staging := t.ctx.staging, wpages := s.ctx.wpages ++ pages, pc := s.ctx.pc + 4, retired := s.ctx.retired + 1 } t ∧
    OtherEpsKept s t 15 ∧ (t.actor.ep 15).sent = (s.actor.ep 15).sent + 1 ∧ t.actor.seq = s.actor.seq + 1 ∧
    t.actor.e15used = s.actor.e15used ++ [s.actor.seq] ∧ PadKept s t 0 0 ∧ ElsewhereSame s t

/-- What a request needs at issue beside its own checks: a sound record of e15, fewer than 32 slots of e15 in use, a VRT, room in the log and in the queue (R225, R28, R354). -/
def CanRequest (s : State) : Prop := .endpoint 15 ∉ s.actor.bad ∧ s.actor.e15Count < 32 ∧ (∃ r, s.sendVrt (s.actor.ep 15).lastvrt = .ok r) ∧ SavesEp s 15

/-! ## Engine commands -/

/-- A vector instruction at issue: the command stands at the end of the engine's queue with the operand it read, or the context waits while two stand there; no register but the PC and no memory changes (R112, R113). -/
def IssuesV (s : State) (i : Instr) (x : Word) : Prop :=
  (s.hereCore.vq.length < 2 → ∃ t, exec i s = .next t ∧ t.hereCore.vq = s.hereCore.vq ++ [{ s.cmd i with x := x }] ∧
    OnlyCtx s { s.ctx with pc := s.ctx.pc + 4, retired := s.ctx.retired + 1 } t ∧ PadKept s t 0 0 ∧ ElsewhereSame s t) ∧
  (2 ≤ s.hereCore.vq.length → ∃ t, exec i s = .next t ∧ t = s.setCtx { s.ctx with wait := .queueFull })

/-- What is left of an engine's queue when a command has been taken: the rest of it, without the context's own commands where it traps (R345). -/
def QueueLeft (s u : State) (rest q : List Cmd) : Prop :=
  u.ctx.phase = s.ctx.phase ∧ q = rest ∨ (∃ r, u.ctx.phase = .trapping r none none) ∧ q = rest.filter fun k => k.ctx ≠ s.cx

/-- The engine takes the instruction's command from the head of its queue, for the context in focus: the effect follows. -/
def TakesV (s : State) (i : Instr) (eff : Cmd → State → Prop) : Prop :=
  ∀ k rest, s.hereCore.vq = k :: rest → k.ins = i → k.ctx = s.cx → s.hereCore.stopped = false →
    ∃ u, exec (.vectorCommandExecution s.here) s = .next u ∧ QueueLeft s u rest u.hereCore.vq ∧ eff k u

/-- The same for the matrix engine. -/
def TakesM (s : State) (i : Instr) (eff : Cmd → State → Prop) : Prop :=
  ∀ k rest, s.hereCore.mq = k :: rest → k.ins = i → k.ctx = s.cx → s.hereCore.stopped = false →
    ∃ u, exec (.matrixCommandExecution s.here) s = .next u ∧ QueueLeft s u rest u.hereCore.mq ∧ eff k u

/-- A context that may try its next instruction again, unless it waits for the home (R69, R333). -/
def woken (x : Ctx) : Ctx := { x with wait := if x.wait = .memory then .memory else .none }

/-- What an engine's command leaves: the context of the command is x, the others as they were, all of them woken; no byte of memory has changed. -/
def EngineLeaves (s : State) (x : Ctx) (u : State) : Prop :=
  u.here = s.here ∧ u.cx = s.cx ∧ (∀ y, u.ctxAt y = woken (if y = s.cx then x else s.ctxAt y)) ∧ PadKept s u 0 0 ∧ ElsewhereSame s u

/-- The flags of the active lanes, and no others, are merged into FFLAGS (R104, R111). -/
def FlagsMerged (s u : State) (n : Nat) (active : Nat → Bool) (f : Nat → Rounded) : Prop :=
  ∀ b, u.ctx.fflags.getLsbD b = true ↔ s.ctx.fflags.getLsbD b = true ∨ ∃ i < n, active i = true ∧ (f i).2.getLsbD b = true

/-- A masked write of the lanes of v[d] (R110, R111): the active lanes take their values, the others keep theirs; no other register but FFLAGS and SEED changes. -/
def LanesWritten (s : State) (w : Nat) (p : BitVec 3) (d : BitVec 4) (f : Nat → Rounded) (seed : BitVec 32) (u : State) : Prop :=
  (∀ i < lanes w, elem w i (u.v d) = if activeAt p (s.p p) w i then (f i).1 % 2 ^ w else elem w i (s.v d)) ∧ (∀ r, r ≠ d → u.v r = s.v r) ∧
    FlagsMerged s u (lanes w) (activeAt p (s.p p) w) f ∧ EngineLeaves s { s.ctx with v := u.ctx.v, fflags := u.ctx.fflags, seed := seed } u

/-- The whole of v[d] written with elements, the rest of it zero; no other register changes. -/
def VectorWritten (s : State) (w : Nat) (d : BitVec 4) (l : List Nat) (u : State) : Prop :=
  (∀ i < lanes w, elem w i (u.v d) = l.getD i 0 % 2 ^ w) ∧ (∀ r, r ≠ d → u.v r = s.v r) ∧ EngineLeaves s { s.ctx with v := u.ctx.v } u

/-- A mask register written bit by bit; no other register but FFLAGS changes. -/
def MaskWritten (s : State) (d : BitVec 3) (m : Nat → Bool) (u : State) : Prop :=
  (∀ b < 64, (u.p d).getLsbD b = m b) ∧ (∀ r, r ≠ d → u.p r = s.p r) ∧ EngineLeaves s { s.ctx with p := u.ctx.p, fflags := u.ctx.fflags } u

/-- Bit b of a compare's mask: the result of its element where active, and the old bit elsewhere and beyond the elements; for bytes a bit holds for two elements together (R67, R117). -/
def compareBit (s : State) (w : Nat) (p d : BitVec 3) (res : Nat → Bool) (b : Nat) : Bool :=
  if w = 32 ∧ 32 ≤ b then (s.p d).getLsbD b
  else if w = 8 then (if activeAt p (s.p p) 8 (2 * b) then res (2 * b) && res (2 * b + 1) else (s.p d).getLsbD b)
  else if activeAt p (s.p p) w b then res b else (s.p d).getLsbD b

/-- Byte y of the scratchpad after stores made one after another. -/
def afterStores (s : State) (ws : List (Nat × Byte)) (y : Nat) : Byte :=
  ((ws.filter fun x => x.1 = y).getLast?.map Prod.snd).getD (s.hereCore.pad.byte y)

/-! ## Steps of the part -/

/-- A step of the part takes place: exec answers a next state, of which p holds. -/
def Happens (i : Instr) (s : State) (p : State → Prop) : Prop := ∃ t, exec i s = .next t ∧ p t

/-- A context of a core. -/
def ctxOn (s : State) (c : CoreId) (x : BitVec 2) : Ctx := State.ctxAt { s with here := c } x

/-- A packet is on its way. -/
def OnWay (t : State) (p : Packet) : Prop := ∃ f ∈ t.flight, f.pkt = p

/-- Every core but one is as it was. -/
def OtherCores (s t : State) (c : CoreId) : Prop := ∀ d, d ≠ c → t.core d = s.core d

/-- No register of any context has changed: a context may only be awake again. -/
def RegsKept (s t : State) : Prop := ∀ c x, ctxOn t c x = { ctxOn s c x with wait := (ctxOn t c x).wait }

/-- No byte of any scratchpad has changed, and no full bit. -/
def PadsKept (s t : State) : Prop := ∀ c, (t.core c).pad = (s.core c).pad ∧ (t.core c).full = (s.core c).full

/-- No byte of DRAM, of the host's memory or of the Depot has changed, and no page table. -/
def StoreKept (s t : State) : Prop :=
  (∀ b, (t.base b).dram = (s.base b).dram) ∧ t.hostMem = s.hostMem ∧ t.depot = s.depot ∧ t.leaves = s.leaves ∧ t.caps = s.caps

/-- A message waits at an actor, unconsumed. -/
def Awaits (a : Actor) (m : Msg) : Prop := ∃ h ∈ a.box, h.msg = m ∧ h.consumed = false

/-- Nothing waits for room at an actor: no message for a slot of it, there or at its home base, and no returned message in a record that has spilled (R329, R348, R367). -/
def AtRest (s : State) (a : Actor) : Prop :=
  (∀ h ∈ a.box, h.place ≠ .waiting) ∧ (∀ w ∈ (s.base (homeOf a.aid)).waiting, w.who ≠ a.aid) ∧ ∀ p ∈ a.log, p.spilled = true → ∀ h, p.entry ≠ .returned h

/-- The entries of a map have distinct keys, rising. -/
def RisingKeys (l : List (Nat × α)) : Prop := l.Pairwise fun x y => x.1 < y.1

/-- The counter at an offset of W0 has been raised by one; it saturates (R383). -/
def Counted (s t : State) (off : Nat) : Prop := look 0 off t.mgmt.counters = (let v := look 0 off s.mgmt.counters; if v = BitVec.allOnes 64 then v else v + 1)

end Sys2Proof.Safety
end

