-- ==== Sys2Proof/Certificates/Slice0/Obligations.lean ====
section
/-! DEFINITION. The statements about the model that the provers are to prove. -/

section

open Sys2Proof Sys2Proof.Machine Sys2Proof.Safety

/-! ## Encoding and the step -/

/-- Words written out from the encodings of the manual decode to the instructions they stand for (R42, R52, and the encoding examples of R75, R77, R78, R214, R217, R218). -/
def Obligations.WordsDecode : Prop :=
  decodeTableWord 32 0x12344523 = some (.lui 0x91A2 5) ∧ decodeTableWord 32 0x59E0A50F = some (.addi 0x1678 5 5) ∧
    decodeTableWord 32 0xFF88832B = some (.bLt 0x7FC 4 3) ∧ decodeTableWord 32 0x6000284B = some (.ldd 0 1 8) ∧
    decodeTableWord 32 0x800CC54B = some (.ldsync 3 6 5) ∧ decodeTableWord 32 0x200C434F = some (.stw 3 2 3) ∧
    decodeTableWord 32 0x5004C94F = some (.stfill 1 6 9) ∧ decodeTableWord 32 0x6000C04F = some (.clrfull 0 6) ∧
    decodeTableWord 32 0x241CC453 = some (.acas 8 7 6 4) ∧ decodeTableWord 32 0x01AC2457 = some (.ldbits 1 1 11 1 4)

/-- Every well-formed instruction with an encoding decodes from its own words, with every operand as it was (R42 to R56). -/
def Obligations.DecodeOfEncode : Prop :=
  ∀ (i : Instr) (n w : Nat), i.wellFormed = true → encode i = some (n, w) → decodeTableWord (8 * n) w = some i

/-- A word decodes to well-formed instructions only, and to no instruction with other words: the decoder accepts exactly what the encoder gives (R54, R55). -/
def Obligations.EncodeOfDecode : Prop :=
  ∀ (nbits w : Nat) (i : Instr), nbits = 16 ∨ nbits = 32 → w < 2 ^ nbits → decodeTableWord nbits w = some i →
    i.wellFormed = true ∧ ∃ n, encode i = some (n, w % 2 ^ (8 * n))

/-- A step runs the decoded instruction: when the context that issues has a PC inside its running image, no uncorrectable word there, and the bytes at the PC decode to i, the step is exec of i in that context followed by the end of the cycle; a turn of the agenda that is an issue cycle does the same, and one that is a step of the part is exec of it (R43, R54, R58, R340; the agenda is the model's choice, log 1). -/
def Obligations.StepRunsDecoded : Prop :=
  (∀ (s : State) (x : BitVec 2) (m : Image) (i : Instr) (rest : List Byte) (pc : Nat),
    s.issuer = some x → State.image { s with cx := x } = some m → pc = (s.ctxAt x).pc.toNat → pc < m.base + m.len →
    decodeBytes (s.hereCore.code.bytes pc 4) = .ok (i, rest) →
    (∀ w ∈ s.hereCore.badCode, 8 * w + 8 ≤ pc ∨ pc + (4 - rest.length) ≤ 8 * w) → s.agenda = [] →
      step s = thenCycle (exec i { s with cx := x })) ∧
  (∀ (s : State) (l : List Turn), s.agenda = .cycle :: l → step s = State.issue { s with agenda := l }) ∧
  (∀ (s : State) (i : Instr) (l : List Turn), s.agenda = .event i :: l → encode i = none → step s = exec i { s with agenda := l })

/-- Execution past the last parcel of the running image traps with cause 0x1A2, and an uncorrectable error on the fetch with cause 0x1C2 (R58, R354). That the DETAIL of 0x1C2 is the PC is the model's choice (log 19). -/
def Obligations.FetchTraps : Prop :=
  ∀ (s : State) (m : Image), s.image = some m →
    (m.base + m.len ≤ s.ctx.pc.toNat →
      ∃ t d, s.issueOne = .next t ∧ t.ctx.phase = .trapping (trapRecord s.ctx 0x1A2 d) none none) ∧
    (s.ctx.pc.toNat < m.base + m.len → s.ctx.pc.toNat / 8 ∈ s.hereCore.badCode →
      ∃ t, s.issueOne = .next t ∧ t.ctx.phase = .trapping (trapRecord s.ctx 0x1C2 (s.ctx.pc.setWidth 64)) none none)

/-! ## Invariants -/

/-- Every step keeps the life-cycle state and the power cap within the bounds of R192 and R193. -/
def Obligations.GovernedKept : Prop := Kept Governed

/-- Every step keeps every memory in its canonical form: addresses strictly rising, and no byte listed that reads the same unlisted (the form is the model's own, of the memories of R43, R200 and R221). -/
def Obligations.CanonicalKept : Prop := Kept Canonical

/-- Nothing changes the Detour map: whatever a step does, the map and what a read of its registers answers stay (R318). -/
def Obligations.DetourFixed : Prop :=
  ∀ s t, step s = .next t → t.fuses = s.fuses ∧ ∀ off, 0x1000 ≤ off → off < 0x3000 → t.w0 off = s.w0 off

/-- The map itself: with at most 64 failed cores, each of the 1,024 virtual numbers has an enabled core, in increasing order of row and column, and without a failure it is row v / 32 and column v mod 32; an entry holds the column in [10:6] and the row in [5:0] (R317, R318). -/
def Obligations.DetourMap : Prop :=
  (∀ v < 1024, physical [] v = (v / 32, v % 32)) ∧
  ∀ (failed : List (Nat × Nat)), failed.length ≤ 64 →
    (∀ v < 1024, physical failed v ∉ failed ∧ (physical failed v).1 < 34 ∧ (physical failed v).2 < 32 ∧
      (detour failed v).toNat = 64 * (physical failed v).2 + (physical failed v).1) ∧
    ∀ v w, v < w → w < 1024 → 32 * (physical failed v).1 + (physical failed v).2 < 32 * (physical failed w).1 + (physical failed w).2

/-- What reset leaves: the bounds of the management registers, every memory in its canonical form, no instruction running, each context's VOUT at 1, the boot step at 0xB0, the power cap at 1,800 W, the horizons and the periods (R189, R192, R208, R213, R362, R373). SEED and VNOW of a context that has run nothing are the model's choice (log 6), so are the zero bytes of DRAM (log 7) and the life-cycle state (log 11). -/
def Obligations.ResetState : Prop :=
  Governed State.reset ∧ Canonical State.reset ∧ State.reset.mgmt.step = 0xB0 ∧ State.reset.mgmt.lcState = 2 ∧ State.reset.mgmt.pwrCap = 1800 ∧
    State.reset.mgmt.horizon = Vector.replicate 16 0x100000 ∧ State.reset.mgmt.period = 2048 ∧ State.reset.mgmt.fperiod = 65536 ∧
    (∀ n, State.reset.station n = Station.reset) ∧
    ∀ (c : CoreId) (x : Fin 4), (State.reset.core c).ctxs[x].phase = .free ∧ (State.reset.core c).ctxs[x].vout = 1 ∧
      (State.reset.core c).ctxs[x].seed = 1 ∧ (State.reset.core c).ctxs[x].vnow = 0 ∧ (State.reset.core c).ctxs[x].fflags = 0 ∧
      (State.reset.core c).full = [] ∧ (State.reset.core c).pad = Mem.empty

/-! ## The integer registers -/

/-- Major 0x00: sums and logic wrap to 64 bits, a shift takes its amount from bits [5:0] of g[b], comparisons give 1 or 0; nothing else changes and nothing traps (R72). -/
def Obligations.IntegerMajor00 : Prop :=
  ∀ (s : State) (b a d : BitVec 5) (n : Nat), n = (s.g b).toNat % 64 →
    Computes (.add b a d) 4 s d (BitVec.ofNat 64 ((s.g a).toNat + (s.g b).toNat)) ∧
    Computes (.sub b a d) 4 s d (BitVec.ofInt 64 ((s.g a).toInt - (s.g b).toInt)) ∧
    Computes (.and b a d) 4 s d (s.g a &&& s.g b) ∧ Computes (.or b a d) 4 s d (s.g a ||| s.g b) ∧
    Computes (.xor b a d) 4 s d (s.g a ^^^ s.g b) ∧ Computes (.andn b a d) 4 s d (s.g a &&& ~~~ s.g b) ∧
    Computes (.orn b a d) 4 s d (s.g a ||| ~~~ s.g b) ∧
    Computes (.sll b a d) 4 s d (BitVec.ofNat 64 ((s.g a).toNat * 2 ^ n)) ∧
    Computes (.srl b a d) 4 s d (BitVec.ofNat 64 ((s.g a).toNat / 2 ^ n)) ∧
    Computes (.sra b a d) 4 s d (BitVec.ofInt 64 ((s.g a).toInt / 2 ^ n)) ∧
    Computes (.rol b a d) 4 s d (s.g a <<< n ||| s.g a >>> (64 - n)) ∧
    Computes (.ror b a d) 4 s d (s.g a >>> n ||| s.g a <<< (64 - n)) ∧
    Computes (.slt b a d) 4 s d (if (s.g a).toInt < (s.g b).toInt then 1 else 0) ∧
    Computes (.sltn b a d) 4 s d (if (s.g a).toNat < (s.g b).toNat then 1 else 0) ∧
    Computes (.seq b a d) 4 s d (if s.g a = s.g b then 1 else 0) ∧
    Computes (.sne b a d) 4 s d (if s.g a = s.g b then 0 else 1)

/-- Major 0x01: products, truncated quotients and remainders with the sign of the dividend, or for a zero divisor the trap 0x020 to 0x023 with the dividend as detail and no register written, the smaller and the larger, the selection, the counts of leading, trailing and one bits, the bytes in reverse order (R73, R74, R353). -/
def Obligations.IntegerMajor01 : Prop :=
  ∀ (s : State) (c b a d : BitVec 5),
    Computes (.mul b a d) 4 s d (BitVec.ofNat 64 ((s.g a).toNat * (s.g b).toNat)) ∧
    Computes (.mulh b a d) 4 s d (BitVec.ofInt 64 ((s.g a).toInt * (s.g b).toInt / 2 ^ 64)) ∧
    Computes (.mulhn b a d) 4 s d (BitVec.ofNat 64 ((s.g a).toNat * (s.g b).toNat / 2 ^ 64)) ∧
    (s.g b ≠ 0 →
      Computes (.div b a d) 4 s d (BitVec.ofInt 64 (Int.tdiv (s.g a).toInt (s.g b).toInt)) ∧
      Computes (.divn b a d) 4 s d (BitVec.ofNat 64 ((s.g a).toNat / (s.g b).toNat)) ∧
      Computes (.rem b a d) 4 s d (BitVec.ofInt 64 ((s.g a).toInt - Int.tdiv (s.g a).toInt (s.g b).toInt * (s.g b).toInt)) ∧
      Computes (.remn b a d) 4 s d (BitVec.ofNat 64 ((s.g a).toNat % (s.g b).toNat))) ∧
    (s.g b = 0 → Traps (.div b a d) s 0x020 (s.g a) ∧ Traps (.divn b a d) s 0x021 (s.g a) ∧ Traps (.rem b a d) s 0x022 (s.g a) ∧
      Traps (.remn b a d) s 0x023 (s.g a)) ∧
    Computes (.min b a d) 4 s d (BitVec.ofInt 64 (min (s.g a).toInt (s.g b).toInt)) ∧
    Computes (.max b a d) 4 s d (BitVec.ofInt 64 (max (s.g a).toInt (s.g b).toInt)) ∧
    Computes (.minn b a d) 4 s d (BitVec.ofNat 64 (min (s.g a).toNat (s.g b).toNat)) ∧
    Computes (.maxn b a d) 4 s d (BitVec.ofNat 64 (max (s.g a).toNat (s.g b).toNat)) ∧
    Computes (.sel c b a d) 4 s d (if s.g c ≠ 0 then s.g a else s.g b) ∧
    (∃ n ≤ 64, (∀ k, 64 - n ≤ k → k < 64 → (s.g a).getLsbD k = false) ∧ (n < 64 → (s.g a).getLsbD (63 - n) = true) ∧
      Computes (.clz a d) 4 s d (BitVec.ofNat 64 n)) ∧
    (∃ n ≤ 64, (∀ k < n, (s.g a).getLsbD k = false) ∧ (n < 64 → (s.g a).getLsbD n = true) ∧ Computes (.ctz a d) 4 s d (BitVec.ofNat 64 n)) ∧
    Computes (.pop a d) 4 s d (BitVec.ofNat 64 ((List.range 64).countP fun k => (s.g a).getLsbD k)) ∧
    ∃ v : Word, (∀ k < 8, v.extractLsb' (8 * k) 8 = (s.g a).extractLsb' (56 - 8 * k) 8) ∧ Computes (.rev8 a d) 4 s d v

/-- Major 0x02: the field at pos of width w of g[a] sign- or zero-extended, or replaced by low bits of g[c]; the extensions of bytes, halves and words; the shifts by an immediate (R75). -/
def Obligations.IntegerMajor02 : Prop :=
  ∀ (s : State) (c b a d : BitVec 5) (i : BitVec 6) (pos w : Nat), pos = (s.g b).toNat % 64 → w = (s.g b).toNat / 256 % 64 + 1 →
    (∃ v : Word, (∀ k < 64, v.getLsbD k = (s.g a).getLsbD (pos + min k (w - 1))) ∧ Computes (.bext b a d) 4 s d v) ∧
    (∃ v : Word, (∀ k < 64, v.getLsbD k = (decide (k < w) && (s.g a).getLsbD (pos + k))) ∧ Computes (.bextn b a d) 4 s d v) ∧
    (∃ v : Word, (∀ k < 64, v.getLsbD k = if pos ≤ k ∧ k < pos + w then (s.g c).getLsbD (k - pos) else (s.g a).getLsbD k) ∧
      Computes (.bins c b a d) 4 s d v) ∧
    Computes (.sxb a d) 4 s d (((s.g a).setWidth 8).signExtend 64) ∧ Computes (.sxh a d) 4 s d (((s.g a).setWidth 16).signExtend 64) ∧
    Computes (.sxw a d) 4 s d (((s.g a).setWidth 32).signExtend 64) ∧ Computes (.zxb a d) 4 s d (BitVec.ofNat 64 ((s.g a).toNat % 2 ^ 8)) ∧
    Computes (.zxh a d) 4 s d (BitVec.ofNat 64 ((s.g a).toNat % 2 ^ 16)) ∧ Computes (.zxw a d) 4 s d (BitVec.ofNat 64 ((s.g a).toNat % 2 ^ 32)) ∧
    Computes (.slli i a d) 4 s d (BitVec.ofNat 64 ((s.g a).toNat * 2 ^ i.toNat)) ∧
    Computes (.srli i a d) 4 s d (BitVec.ofNat 64 ((s.g a).toNat / 2 ^ i.toNat)) ∧
    Computes (.srai i a d) 4 s d (BitVec.ofInt 64 ((s.g a).toInt / 2 ^ i.toNat))

/-- The immediate majors, lui and lpc (R76, R77), and the compact forms, which compute as their expansions and go on two bytes further (R52, R53). -/
def Obligations.ImmediatesAndCompact : Prop :=
  ∀ (s : State) (b a d : BitVec 5) (i : BitVec 14) (l : BitVec 19) (j : BitVec 6) (x : Word), x = i.signExtend 64 →
    Computes (.addi i a d) 4 s d (s.g a + x) ∧ Computes (.andi i a d) 4 s d (s.g a &&& x) ∧ Computes (.ori i a d) 4 s d (s.g a ||| x) ∧
    Computes (.xori i a d) 4 s d (s.g a ^^^ x) ∧ Computes (.slti i a d) 4 s d (if (s.g a).toInt < i.toInt then 1 else 0) ∧
    Computes (.lui l d) 4 s d (BitVec.ofInt 64 (l.toInt * 2 ^ 13)) ∧ Computes (.lpc l d) 4 s d (BitVec.ofInt 64 (s.ctx.pc.toNat + 2 * l.toInt)) ∧
    Computes (.cAdd b d) 2 s d (s.g d + s.g b) ∧ Computes (.cSub b d) 2 s d (s.g d - s.g b) ∧ Computes (.cAnd b d) 2 s d (s.g d &&& s.g b) ∧
    Computes (.cOr b d) 2 s d (s.g d ||| s.g b) ∧ Computes (.cXor b d) 2 s d (s.g d ^^^ s.g b) ∧ Computes (.cMv b d) 2 s d (s.g b) ∧
    Computes (.cAddi j d) 2 s d (s.g d + j.signExtend 64) ∧ Computes (.cLi j d) 2 s d (j.signExtend 64) ∧
    Computes (.cSlli j d) 2 s d (BitVec.ofNat 64 ((s.g d).toNat * 2 ^ j.toNat)) ∧
    Computes (.cSrli j d) 2 s d (BitVec.ofNat 64 ((s.g d).toNat / 2 ^ j.toNat)) ∧
    Computes (.cSrai j d) 2 s d (BitVec.ofInt 64 ((s.g d).toInt / 2 ^ j.toNat)) ∧
    Computes (.cAndi j d) 2 s d (s.g d &&& j.signExtend 64) ∧ Computes (.cOri j d) 2 s d (s.g d ||| j.signExtend 64) ∧
    Computes (.cXori j d) 2 s d (s.g d ^^^ j.signExtend 64)

/-! ## Control transfer -/

/-- Where execution goes on: at the target when the condition holds, else after the instruction (R78, R79, R81, R52). A branch writes no register, jal writes PC + 4 to g31, dbnz writes the decremented value and tests it. -/
def Obligations.Branches : Prop :=
  ∀ (s : State) (o : BitVec 11) (j : BitVec 24) (i : BitVec 14) (k : BitVec 6) (b a d : BitVec 5) (go : BitVec 11 → Bool → BitVec 16)
    (near : Bool → BitVec 16) (tgt : Int → BitVec 16) (v : Word),
    (∀ n, tgt n = BitVec.ofInt 16 (s.ctx.pc.toNat + 2 * n)) → (∀ o c, go o c = if c then tgt o.toInt else s.ctx.pc + 4) →
    (∀ c, near c = if c then tgt k.toInt else s.ctx.pc + 2) → v = s.g a - 1 →
    Continues (.bEq o b a) s (go o (s.g a = s.g b)) ∧ Continues (.bNe o b a) s (go o (s.g a ≠ s.g b)) ∧
    Continues (.bLt o b a) s (go o ((s.g a).toInt < (s.g b).toInt)) ∧ Continues (.bGe o b a) s (go o ((s.g b).toInt ≤ (s.g a).toInt)) ∧
    Continues (.bLtn o b a) s (go o ((s.g a).toNat < (s.g b).toNat)) ∧ Continues (.bGen o b a) s (go o ((s.g b).toNat ≤ (s.g a).toNat)) ∧
    Continues (.bBset o b a) s (go o ((s.g a).getLsbD ((s.g b).toNat % 64))) ∧
    Continues (.bBclr o b a) s (go o (! (s.g a).getLsbD ((s.g b).toNat % 64))) ∧
    Continues (.j j) s (tgt j.toInt) ∧
    (∃ t, exec (.jal j) s = .next t ∧ WroteG s 31 ((s.ctx.pc + 4).setWidth 64) (tgt j.toInt) t) ∧
    (∃ t, exec (.dbnz i a d) s = .next t ∧ WroteG s d v (if v = 0 then s.ctx.pc + 4 else tgt i.toInt) t) ∧
    Continues (.cBeqz k a) s (near (s.g a = 0)) ∧ Continues (.cBnez k a) s (near (s.g a ≠ 0)) ∧
    Continues (.cBltz k a) s (near ((s.g a).toInt < 0)) ∧ Continues (.cBgez k a) s (near (0 ≤ (s.g a).toInt)) ∧
    Continues (.cJ k) s (tgt k.toInt) ∧
    ∃ t, exec (.cDbnz k a) s = .next t ∧ WroteG s a v (if v = 0 then s.ctx.pc + 2 else tgt k.toInt) t

/-- jalr and c.jr: a target that is even, inside the running image and an instruction start is taken, and the link is written after g[a] is read; any other target traps with 0x1A1 and writes nothing (R80, R58). -/
def Obligations.JumpAndLink : Prop :=
  ∀ (s : State) (i : BitVec 14) (a d : BitVec 5) (x : Word), x = BitVec.ofInt 64 ((s.g a).toNat + 2 * i.toInt) →
    (LegalTarget s x → ∃ t, exec (.jalr i a d) s = .next t ∧ WroteG s d ((s.ctx.pc + 4).setWidth 64) (x.setWidth 16) t) ∧
    (¬ LegalTarget s x → Traps (.jalr i a d) s 0x1A1 x) ∧
    (LegalTarget s (s.g a) → Continues (.cJr a) s ((s.g a).setWidth 16)) ∧
    (¬ LegalTarget s (s.g a) → Traps (.cJr a) s 0x1A1 (s.g a))

/-! ## Floating point -/

/-- The arithmetic of major 0x10 rounds the exact result once, in the mode of the instruction or in RNE for the fused forms, and so do the forms of major 0x11 that compute: fround to an integral value, fscal by a power of two, frecip and frsq; flags are merged into FFLAGS, and the generator is advanced once in mode RS and in no other (R83, R84, R86, R89, R96). -/
def Obligations.FloatArithmetic : Prop :=
  ∀ (s : State) (m : BitVec 3) (c b a d : BitVec 5) (x y z : FVal) (draw : Nat) (seed : BitVec 32),
    x = s.fv a → y = s.fv b → z = s.fv c → draw = (lfsrNext s.ctx.seed).toNat → seed = (if m = 5 then lfsrNext s.ctx.seed else s.ctx.seed) →
    (∀ r, r = addF f32 m draw x y → ComputesF (.fadd m b a d) s d r.1 r.2 seed) ∧
    (∀ r, r = addF f32 m draw x (negF y) → ComputesF (.fsub m b a d) s d r.1 r.2 seed) ∧
    (∀ r, r = mulF f32 m draw x y → ComputesF (.fmul m b a d) s d r.1 r.2 seed) ∧
    (∀ r, r = divF f32 m draw x y → ComputesF (.fdiv m b a d) s d r.1 r.2 seed) ∧
    (∀ r, r = sqrtF f32 m draw x → ComputesF (.fsqrt m a d) s d r.1 r.2 seed) ∧
    (∀ r, r = fmaF f32 0 0 x y z → ComputesF (.ffma c b a d) s d r.1 r.2 s.ctx.seed) ∧
    (∀ r, r = fmaF f32 0 0 x y (negF z) → ComputesF (.ffms c b a d) s d r.1 r.2 s.ctx.seed) ∧
    (∀ r, r = fmaF f32 0 0 (negF x) y z → ComputesF (.fnfma c b a d) s d r.1 r.2 s.ctx.seed) ∧
    (∀ r, r = roundIntegral f32 m draw x → ComputesF (.fround m a d) s d r.1 r.2 seed) ∧
    (∀ r, r = scaleF f32 m draw (max (-512) (min 512 (s.g b).toInt)) x → ComputesF (.fscal m b a d) s d r.1 r.2 seed) ∧
    (∀ r, r = recipF f32 x → ComputesF (.frecip a d) s d r.1 r.2 s.ctx.seed) ∧
    ∀ r, r = rsqrtF f32 x → ComputesF (.frsq a d) s d r.1 r.2 s.ctx.seed

/-- The special results of R84 and R95: infinities of opposite sign, zero by infinity, zero by zero and the root of a negative number give the canonical NaN with NV; a finite number by zero an infinity with DZ; x − x is +0, but −0 in mode RDN; a NaN operand gives the canonical NaN, with NV when it is signalling. And every finite encoding of f32, bf16 and hf is the rounding of its own value, in every mode, with no flag (R92, R95). -/
def Obligations.FloatSpecials : Prop :=
  (∀ (F : FloatFmt) (mode : BitVec 3) (draw bits : Nat) (u : Bool) (n : Nat) (e : Int),
    F = f32 ∨ F = bf16 ∨ F = hf → bits < 2 ^ F.width → decodeF F bits = .fin u n e → roundTo F mode draw u n e = (bits, 0)) ∧
  ∀ (s : State) (m : BitVec 3) (b a d : BitVec 5) (u : Bool) (n : Nat) (e : Int) (seed : BitVec 32),
    seed = (if m = 5 then lfsrNext s.ctx.seed else s.ctx.seed) →
    (s.fv a = .inf u → s.fv b = .inf (! u) → ComputesF (.fadd m b a d) s d 0x7FC00000 16 seed) ∧
    (s.fv a = .inf u → s.fv b = .inf u → ComputesF (.fsub m b a d) s d 0x7FC00000 16 seed ∧ ComputesF (.fdiv m b a d) s d 0x7FC00000 16 seed) ∧
    (s.fv a = .fin u 0 e → (∃ v, s.fv b = .inf v) → ComputesF (.fmul m b a d) s d 0x7FC00000 16 seed) ∧
    (s.fv a = .fin u 0 e → (∃ v f, s.fv b = .fin v 0 f) → ComputesF (.fdiv m b a d) s d 0x7FC00000 16 seed) ∧
    (s.fv a = .fin u n e → n ≠ 0 → (∀ v f, s.fv b = .fin v 0 f →
      ComputesF (.fdiv m b a d) s d (if u = v then 0x7F800000 else 0xFF800000) 8 seed)) ∧
    (s.fv a = .fin true n e → n ≠ 0 → ComputesF (.fsqrt m a d) s d 0x7FC00000 16 seed) ∧
    (s.fv a = .fin true 0 e → ComputesF (.fsqrt m a d) s d 0x80000000 0 seed) ∧
    (s.fv a = .fin u n e → ComputesF (.fsub m a a d) s d (if m = 3 then 0x80000000 else 0) 0 seed) ∧
    (∀ q, s.fv a = .nan q → (∀ q', s.fv b ≠ .nan q') →
      ComputesF (.fadd m b a d) s d 0x7FC00000 (if q then 16 else 0) seed ∧ ComputesF (.fmul m b a d) s d 0x7FC00000 (if q then 16 else 0) seed)

/-- fmin and fmax, the sign operations, the moves and the comparisons: a NaN beside a number gives the number, two NaNs the canonical NaN, sign operations touch bit [31] alone, a comparison with a NaN gives 0 (R84, R85, R86, R88). -/
def Obligations.FloatSelections : Prop :=
  ∀ (s : State) (b a d : BitVec 5) (x y : FVal), x = s.fv a → y = s.fv b →
    (∀ r, r = minmaxF f32 false (s.f a).toNat (s.f b).toNat → ComputesF (.fmin b a d) s d r.1 r.2 s.ctx.seed) ∧
    (∀ r, r = minmaxF f32 true (s.f a).toNat (s.f b).toNat → ComputesF (.fmax b a d) s d r.1 r.2 s.ctx.seed) ∧
    (isNan x = true → isNan y = false → ComputesF (.fmin b a d) s d (s.f b).toNat (if isSig x then 16 else 0) s.ctx.seed ∧
      ComputesF (.fmax b a d) s d (s.f b).toNat (if isSig x then 16 else 0) s.ctx.seed) ∧
    (isNan x = true → isNan y = true → ComputesF (.fmin b a d) s d 0x7FC00000 (if isSig x || isSig y then 16 else 0) s.ctx.seed) ∧
    ComputesF (.fabs a d) s d ((s.f a).toNat % 2 ^ 31) 0 s.ctx.seed ∧
    ComputesF (.fneg a d) s d (((s.f a).toNat + 2 ^ 31) % 2 ^ 32) 0 s.ctx.seed ∧
    ComputesF (.fsgnj b a d) s d ((s.f a).toNat % 2 ^ 31 + (s.f b).toNat / 2 ^ 31 * 2 ^ 31) 0 s.ctx.seed ∧
    ComputesF (.fmvFG a d) s d ((s.g a).toNat % 2 ^ 32) 0 s.ctx.seed ∧ Computes (.fmvGF a d) 4 s d (BitVec.ofNat 64 (s.f a).toNat) ∧
    (∃ k : Nat, (k = match x with | .fin _ n _ => if n = 0 then 0 else if n < 2 ^ 23 then 1 else 2 | .inf _ => 3 | .nan false => 4 | .nan true => 5) ∧
      Computes (.fcls a d) 4 s d (BitVec.ofNat 64 ((s.f a).toNat / 2 ^ 31 * 128 + k))) ∧
    (isNan x = false → isNan y = false →
      ComputesGF (.fcmpeq b a d) s d (if eqF x y then 1 else 0) 0 s.ctx.seed ∧ ComputesGF (.fcmplt b a d) s d (if ltF x y then 1 else 0) 0 s.ctx.seed ∧
      ComputesGF (.fcmple b a d) s d (if ltF x y || eqF x y then 1 else 0) 0 s.ctx.seed) ∧
    (isNan x = true ∨ isNan y = true →
      ComputesGF (.fcmpeq b a d) s d 0 (if isSig x || isSig y then 16 else 0) s.ctx.seed ∧ ComputesGF (.fcmplt b a d) s d 0 16 s.ctx.seed ∧
      ComputesGF (.fcmple b a d) s d 0 16 s.ctx.seed)

/-- Conversions: an integer type to f32 by one rounding; f32 to an integer type, clamped with NV and without NX, a NaN giving 0; bf16 and hf to and from f32, a bf16 widening exactly by 16 zero bits below; the high half of a narrowed result is zero (R66, R86, R87). -/
def Obligations.FloatConversions : Prop :=
  ∀ (s : State) (m : BitVec 3) (k : BitVec 2) (a d : BitVec 5) (x : FVal) (draw : Nat) (seed : BitVec 32) (lo hi : Int),
    x = s.fv a → draw = (lfsrNext s.ctx.seed).toNat → seed = (if m = 5 then lfsrNext s.ctx.seed else s.ctx.seed) →
    (lo, hi) = (if k = 0 then (-(2 ^ 63 : Int), (2 ^ 63 : Int) - 1) else if k = 1 then (0, (2 ^ 64 : Int) - 1) else if k = 2 then (-(2 ^ 31 : Int), (2 ^ 31 : Int) - 1) else (0, (2 ^ 32 : Int) - 1)) →
    (∀ v : Int, v = (if k = 0 then (s.g a).toInt else if k = 1 then ((s.g a).toNat : Int) else if k = 2 then ((s.g a).setWidth 32).toInt
        else (((s.g a).setWidth 32).toNat : Int)) →
      ∀ r, r = roundTo f32 m draw (decide (v < 0)) v.natAbs 0 → ComputesF (.fcvtFG m k a d) s d r.1 r.2 seed) ∧
    (∀ q, x = .nan q → ComputesGF (.fcvtGF m k a d) s d 0 16 seed) ∧
    (∀ u, x = .inf u → ComputesGF (.fcvtGF m k a d) s d (BitVec.ofInt 64 (if u then lo else hi)) 16 seed) ∧
    (∀ u n e (v : Int), x = .fin u n e → v = (if u then -((roundUnits m u draw n e 0).1 : Int) else (roundUnits m u draw n e 0).1) →
      (v < lo → ComputesGF (.fcvtGF m k a d) s d (BitVec.ofInt 64 lo) 16 seed) ∧ (hi < v → ComputesGF (.fcvtGF m k a d) s d (BitVec.ofInt 64 hi) 16 seed) ∧
      (lo ≤ v → v ≤ hi → ComputesGF (.fcvtGF m k a d) s d (BitVec.ofInt 64 v) (if (roundUnits m u draw n e 0).2 then 1 else 0) seed)) ∧
    (∀ h, h = decodeF bf16 ((s.f a).toNat % 65536) →
      (isNan h = false → ComputesF (.fcvtFBf16 a d) s d ((s.f a).toNat % 65536 * 65536) 0 s.ctx.seed) ∧
      (isNan h = true → ComputesF (.fcvtFBf16 a d) s d 0x7FC00000 (if isSig h then 16 else 0) s.ctx.seed)) ∧
    (∀ r, r = convF f32 0 0 (decodeF hf ((s.f a).toNat % 65536)) → ComputesF (.fcvtFHf a d) s d r.1 r.2 s.ctx.seed) ∧
    (∀ r, r = convF bf16 m draw x → r.1 < 65536 ∧ ComputesF (.fcvtBf16F m a d) s d r.1 r.2 seed) ∧
    ∀ r, r = convF hf m draw x → r.1 < 65536 ∧ ComputesF (.fcvtHfF m a d) s d r.1 r.2 seed

/-! ## The scratchpad -/

/-- Loads: when the address is aligned, inside the window and the zones, and no word read is uncorrectable, the bytes from the address up are read least significant first and extended; the load writes its destination alone and changes no memory (R200, R201, R202, R214). A byte read is the scratchpad's, but in a log zone outside the units of a message that the activation has taken, where it is unspecified (R204; the model's free value, log 8). -/
def Obligations.Loads : Prop :=
  ∀ (s : State) (i : BitVec 10) (a b d : BitVec 5) (addr : Nat → Word) (val : Nat → Nat) (ok : Nat → Prop),
    (∀ k, addr k = BitVec.ofNat 64 ((s.g a).toNat + i.toNat * 2 ^ k)) → (∀ k, val k = leNat (s.readBytes (addr k).toNat (2 ^ k))) →
    (∀ k, ok k ↔ Readable s (addr k) (2 ^ k) (2 ^ k) ∧ Sound s (addr k).toNat (2 ^ k)) →
    (ok 0 → Computes (.ldb i a d) 4 s d ((BitVec.ofNat 8 (val 0)).signExtend 64) ∧ Computes (.ldbn i a d) 4 s d (BitVec.ofNat 64 (val 0))) ∧
    (ok 1 → Computes (.ldh i a d) 4 s d ((BitVec.ofNat 16 (val 1)).signExtend 64) ∧ Computes (.ldhn i a d) 4 s d (BitVec.ofNat 64 (val 1))) ∧
    (ok 2 → Computes (.ldw i a d) 4 s d ((BitVec.ofNat 32 (val 2)).signExtend 64) ∧ Computes (.ldwn i a d) 4 s d (BitVec.ofNat 64 (val 2)) ∧
      ComputesF (.ldf i a d) s d (val 2) 0 s.ctx.seed) ∧
    (ok 3 → Computes (.ldd i a d) 4 s d (BitVec.ofNat 64 (val 3))) ∧
    (Readable s (s.g b) 8 8 → Sound s (s.g b).toNat 8 → Computes (.cLdd b d) 2 s d (BitVec.ofNat 64 (leNat (s.readBytes (s.g b).toNat 8)))) ∧
    (∀ x n j, j < n → (s.readBytes x n)[j]? = some (s.readByte (x + j))) ∧
    ∀ x z, s.actor.zoneOf (x / 64) = some z → z.kind ≠ .log ∨ lineWritable s.actor s.ctx (x / 64) = true → s.readByte x = s.hereCore.pad.byte x

/-- Stores: when the checks of a write hold, no partly overwritten word is uncorrectable and the logs have room, the low bytes of the source stand from the address up, and every other byte, full bit, register and memory is as it was (R200, R201, R202, R206, R214). -/
def Obligations.StoreBytes : Prop :=
  ∀ (s : State) (i : BitVec 10) (a b d : BitVec 5) (addr : Nat → Word) (ok : Word → Nat → Prop),
    (∀ k, addr k = BitVec.ofNat 64 ((s.g a).toNat + i.toNat * 2 ^ k)) →
    (∀ x n, ok x n ↔ Writable s x n n ∧ SoundStore s x.toNat n ∧ Saves s x.toNat n) →
    (ok (addr 0) 1 → Stores (.stb i a d) 4 s (addr 0) 1 (s.g d).toNat) ∧ (ok (addr 1) 2 → Stores (.sth i a d) 4 s (addr 1) 2 (s.g d).toNat) ∧
    (ok (addr 2) 4 → Stores (.stw i a d) 4 s (addr 2) 4 (s.g d).toNat ∧ Stores (.stf i a d) 4 s (addr 2) 4 (s.f d).toNat) ∧
    (ok (addr 3) 8 → Stores (.std i a d) 4 s (addr 3) 8 (s.g d).toNat) ∧
    (ok (s.g a) 8 → Stores (.cStd b a) 2 s (s.g a) 8 (s.g b).toNat)

/-- The causes of every load, store and atomic of the scratchpad, in the order of the checks: misaligned, beyond the window, a zone descriptor in error, outside the zones (R201, R204, R220, R354); then a word that is uncorrectable, for a load, a full word at ldsync or ldpeek, a store of part of a word, or an atomic (R202, R215). That the zone check meets any descriptor in error, and that 0x1C7 has DETAIL 0, are the model's readings (log 100). -/
def Obligations.LocalTraps : Prop :=
  ∀ (s : State) (i : BitVec 10) (c b a d : BitVec 5) (ins : Instr) (x : Word) (n : Nat) (base : BitVec 9) (at_ : Nat → Word) (loads parts wholes atomics : List (Instr × Word × Nat)),
    (∀ k, at_ k = BitVec.ofNat 64 ((s.g a).toNat + i.toNat * 2 ^ k)) →
    loads = [(.ldb i a d, at_ 0, 1), (.ldbn i a d, at_ 0, 1), (.ldh i a d, at_ 1, 2), (.ldhn i a d, at_ 1, 2), (.ldw i a d, at_ 2, 4), (.ldwn i a d, at_ 2, 4),
      (.ldf i a d, at_ 2, 4), (.ldd i a d, at_ 3, 8), (.ldsync i a d, at_ 3, 8), (.ldpeek i a d, at_ 3, 8), (.cLdd a d, s.g a, 8)] →
    parts = [(.stb i a d, at_ 0, 1), (.sth i a d, at_ 1, 2), (.stw i a d, at_ 2, 4), (.stf i a d, at_ 2, 4)] →
    wholes = [(.std i a d, at_ 3, 8), (.stfill i a d, at_ 3, 8), (.clrfull i a, at_ 3, 8), (.cStd b a, s.g a, 8)] →
    atomics = [(.aadd b a d, s.g a, 8), (.aswap b a d, s.g a, 8), (.acas c b a d, s.g a, 8)] →
    ((ins, x, n) ∈ loads ∧ base = 0x040 ∨ (ins, x, n) ∈ parts ++ wholes ∧ base = 0x048 ∨ (ins, x, n) ∈ atomics ∧ base = 0x050) →
    (x.toNat % n ≠ 0 → Traps ins s base x) ∧
    (x.toNat % n = 0 → 0x30000 < x.toNat + n → Traps ins s (base + 1) x) ∧
    (x.toNat % n = 0 → x.toNat + n ≤ 0x30000 →
      (s.actor.zonesBad = true → Traps ins s 0x1C7 0) ∧
      (s.actor.zonesBad = false → (if base = 0x040 then lineReadable s.actor (x.toNat / 64) else lineWritable s.actor s.ctx (x.toNat / 64)) = false →
        Traps ins s (base + 2) x)) ∧
    (x.toNat / 8 ∈ s.hereCore.badPad →
      ((ins, x, n) ∈ loads → Readable s x n n → (ins = .ldsync i a d ∨ ins = .ldpeek i a d → s.hereCore.isFull (x.toNat / 8) = true) → Traps ins s 0x1C0 x) ∧
      ((ins, x, n) ∈ parts ++ atomics → Writable s x n n → Traps ins s 0x1C0 x))

/-- The full bits: ldsync takes a full word and leaves it empty, ldpeek leaves it full, both wait while it is empty, whatever its error bits; stfill stores and leaves the word full, clrfull leaves it empty with its data unchanged (R208, R214, R215). -/
def Obligations.FullBits : Prop :=
  ∀ (s : State) (i : BitVec 10) (a d : BitVec 5) (x : Word) (w : Nat), x = BitVec.ofNat 64 ((s.g a).toNat + i.toNat * 8) → w = x.toNat / 8 →
    (Readable s x 8 8 →
      (s.hereCore.isFull w = true → Sound s x.toNat 8 →
        Computes (.ldpeek i a d) 4 s d (BitVec.ofNat 64 (leNat (s.readBytes x.toNat 8))) ∧
        (Saves s x.toNat 8 → ∃ t, exec (.ldsync i a d) s = .next t ∧ (∀ r, t.g r = if r = d ∧ d ≠ 0 then BitVec.ofNat 64 (leNat (s.readBytes x.toNat 8)) else s.g r) ∧
          (∀ v, t.hereCore.isFull v = if v = w then false else s.hereCore.isFull v) ∧ PadKept s t 0 0 ∧ ElsewhereSame s t ∧
          OnlyCtx s { s.ctx with g := t.ctx.g, pc := s.ctx.pc + 4, retired := s.ctx.retired + 1 } t)) ∧
      (s.hereCore.isFull w = false → ∀ t, t = s.setCtx { s.ctx with wait := .word } → exec (.ldsync i a d) s = .next t ∧ exec (.ldpeek i a d) s = .next t)) ∧
    (Writable s x 8 8 → Saves s x.toNat 8 →
      (∃ t, exec (.stfill i a d) s = .next t ∧ (∀ j < 8, t.hereCore.pad.byte (x.toNat + j) = BitVec.ofNat 8 ((s.g d).toNat / 256 ^ j)) ∧ PadKept s t x.toNat 8 ∧
        (∀ v, t.hereCore.isFull v = if v = w then true else s.hereCore.isFull v) ∧ ElsewhereSame s t ∧
        OnlyCtx s { s.ctx with pc := s.ctx.pc + 4, retired := s.ctx.retired + 1 } t) ∧
      ∃ t, exec (.clrfull i a) s = .next t ∧ PadKept s t 0 0 ∧ (∀ v, t.hereCore.isFull v = if v = w then false else s.hereCore.isFull v) ∧ ElsewhereSame s t ∧
        OnlyCtx s { s.ctx with pc := s.ctx.pc + 4, retired := s.ctx.retired + 1 } t)

/-- The local atomics read the aligned doubleword at g[a], write the new one and give the old one in g[d]; an acas that fails writes nothing (R217). -/
def Obligations.LocalAtomics : Prop :=
  ∀ (s : State) (c b a d : BitVec 5) (old : Word), Writable s (s.g a) 8 8 → Sound s (s.g a).toNat 8 →
    old = BitVec.ofNat 64 (leNat (s.readBytes (s.g a).toNat 8)) →
    (Saves s (s.g a).toNat 8 → ∀ (i : Instr) (new : Word),
      i = .aadd b a d ∧ new = old + s.g b ∨ i = .aswap b a d ∧ new = s.g b ∨ i = .acas c b a d ∧ old = s.g c ∧ new = s.g b →
      ∃ t, exec i s = .next t ∧ (∀ j < 8, t.hereCore.pad.byte ((s.g a).toNat + j) = BitVec.ofNat 8 (new.toNat / 256 ^ j)) ∧
        (∀ r, t.g r = if r = d ∧ d ≠ 0 then old else s.g r) ∧ PadKept s t (s.g a).toNat 8 ∧ CoreKept s t ∧ ElsewhereSame s t ∧
        OnlyCtx s { s.ctx with g := t.ctx.g, pc := s.ctx.pc + 4, retired := s.ctx.retired + 1 } t) ∧
    (old ≠ s.g c → Computes (.acas c b a d) 4 s d old)

/-- Bit-granular access: a field of w bits at a bit address is read, bit b as bit 0, and extended; stbits replaces those bits and no other; with .inc the bit-address register moves on by w; a field beyond the window traps with 0x059, one outside the zones with 0x05A. badd, bset and bget on the bit-address registers (R68, R90, R204, R218, R220). -/
def Obligations.BitAccess : Prop :=
  ∀ (s : State) (sg n : BitVec 1) (w a d : BitVec 5) (b k : Nat) (r : BitVec 2) (bump : BitVec 32), r = a.setWidth 2 → b = (s.b r).toNat → k = w.toNat + 1 →
    bump = (if n = 1 then BitVec.ofNat 32 (b + k) else s.b r) →
    (b + k - 1 ≤ 0x17FFFF → s.actor.zonesBad = false → OnLines (b / 8) ((b + k - 1) / 8 + 1 - b / 8) (fun l => lineReadable s.actor l = true) → Sound s (b / 8) ((b + k - 1) / 8 + 1 - b / 8) →
      ∃ t v, exec (.ldbits sg n w a d) s = .next t ∧
        v = leNat (s.readBytes (b / 8) ((b + k - 1) / 8 + 1 - b / 8)) / 2 ^ (b % 8) % 2 ^ k ∧
        (∀ q, t.g q = if q = d ∧ d ≠ 0 then (if sg = 1 ∧ 2 ^ (k - 1) ≤ v then BitVec.ofInt 64 ((v : Int) - 2 ^ k) else BitVec.ofNat 64 v) else s.g q) ∧
        (∀ q, t.b q = if q = r then bump else s.b q) ∧
        t = s.setCtx { s.ctx with g := t.ctx.g, b := t.ctx.b, pc := s.ctx.pc + 4, retired := s.ctx.retired + 1 }) ∧
    (0x17FFFF < b + k - 1 → Traps (.ldbits sg n w a d) s 0x059 ((s.b r).setWidth 64) ∧ Traps (.stbits n w a d) s 0x059 ((s.b r).setWidth 64)) ∧
    (b + k - 1 ≤ 0x17FFFF → s.actor.zonesBad = false → ∀ l, b / 8 / 64 ≤ l → l ≤ (b + k - 1) / 8 / 64 →
      (lineReadable s.actor l = false → Traps (.ldbits sg n w a d) s 0x05A ((s.b r).setWidth 64)) ∧
      (lineWritable s.actor s.ctx l = false → Traps (.stbits n w a d) s 0x05A ((s.b r).setWidth 64))) ∧
    (b + k - 1 ≤ 0x17FFFF → s.actor.zonesBad = false → OnLines (b / 8) ((b + k - 1) / 8 + 1 - b / 8) (fun l => lineWritable s.actor s.ctx l = true) →
      Sound s (b / 8) ((b + k - 1) / 8 + 1 - b / 8) → Saves s (b / 8) ((b + k - 1) / 8 + 1 - b / 8) →
      ∃ t, exec (.stbits n w a d) s = .next t ∧
        (∀ q,
          (t.hereCore.pad.byte (q / 8)).getLsbD (q % 8) = if b ≤ q ∧ q < b + k then (s.g d).getLsbD (q - b) else (s.hereCore.pad.byte (q / 8)).getLsbD (q % 8)) ∧
        (∀ q, t.b q = if q = r then bump else s.b q) ∧ CoreKept s t ∧ ElsewhereSame s t ∧
        OnlyCtx s { s.ctx with b := t.ctx.b, pc := s.ctx.pc + 4, retired := s.ctx.retired + 1 } t) ∧
    (∃ t, exec (.badd a d) s = .next t ∧ t = s.setCtx { s.ctx with b := t.ctx.b, pc := s.ctx.pc + 4, retired := s.ctx.retired + 1 } ∧
      ∀ q, t.b q = if q = d.setWidth 2 then BitVec.ofNat 32 ((s.b q).toNat + (s.g a).toNat) else s.b q) ∧
    (∃ t, exec (.bset a d) s = .next t ∧ t = s.setCtx { s.ctx with b := t.ctx.b, pc := s.ctx.pc + 4, retired := s.ctx.retired + 1 } ∧
      ∀ q, t.b q = if q = d.setWidth 2 then (s.g a).setWidth 32 else s.b q) ∧
    Computes (.bget a d) 4 s d (BitVec.ofNat 64 (s.b r).toNat)

/-! ## System registers, virtual time, traps, endings -/

/-- System registers: sysrd gives the register's value; syswr, sysbs and sysbc write the RW fields, a SEED of zero becomes 1, a VRND mode of 6 or 7 changes nothing; a write to a register of the hardware traps with 0x1A3, whose detail is the register's number; sysbs and syswr of a one clear DURSTAT.FAIL, but a failure of the same cycle stays with its CAUSE and PAGE (R188, R189, R190, R97, R112, R267). -/
def Obligations.SystemRegisters : Prop :=
  ∀ (s : State) (n : BitVec 12) (a d : BitVec 5) (next : BitVec 16) (one : Word),
    next = s.ctx.pc + 4 → one = s.ctx.retired + 1 →
    (∀ v, (n, v) ∈ ([(0x000, s.ctx.vnow), (0x001, s.ctx.vout), (0x002, s.hereCore.vmile), (0x008, s.ctx.fflags.setWidth 64), (0x009, s.ctx.vrnd.setWidth 64),
        (0x00A, s.ctx.seed.setWidth 64), (0x010, s.ctx.jstat), (0x011, s.ctx.trapinfo[0]), (0x012, s.ctx.trapinfo[1]), (0x013, s.ctx.trapinfo[2]),
        (0x014, s.ctx.trapinfo[3]), (0x018, s.ctx.budget.setWidth 64), (0x100, s.hereCore.cycle),
        (0x019, BitVec.ofNat 64 (4 * s.ctx.prioEff.toNat + s.ctx.prioBase.toNat)),
        (0x003, BitVec.ofNat 64 (2 ^ 32 * s.hereCore.rounds.toNat + if s.hereCore.settled then 1 else 0)),
        (0x00C, BitVec.ofNat 64 ((if s.actor.durstat.fail then 2 ^ 63 else 0) + 2 ^ 40 * s.actor.durstat.cause.toNat + s.actor.durstat.page.toNat)),
        (0x00B, s.mxhold), (0x01A, s.selfWord), (0x200, s.mgmt.bootstat)] : List (BitVec 12 × Word)) → Computes (.sysrd n d) 4 s d v) ∧
    ∀ (i : Instr) (f : Word → Word), i = .syswr n a ∧ f = (fun _ => s.g a) ∨ i = .sysbs n a ∧ f = (fun x => x ||| s.g a) ∨ i = .sysbc n a ∧ f = (fun x => x &&& ~~~ s.g a) →
      (n.toNat ∈ [0x000, 0x002, 0x003, 0x010, 0x011, 0x012, 0x013, 0x014, 0x018, 0x019, 0x01A, 0x100] → Traps i s 0x1A3 (n.setWidth 64)) ∧
      (n = 0x001 → ∃ t, exec i s = .next t ∧ t = s.setCtx { s.ctx with vout := f s.ctx.vout, pc := next, retired := one }) ∧
      (n = 0x008 → ∃ t, exec i s = .next t ∧ t = s.setCtx { s.ctx with fflags := (f (s.ctx.fflags.setWidth 64)).setWidth 7, pc := next, retired := one }) ∧
      (n = 0x009 → ∀ m : BitVec 3, m = (f (s.ctx.vrnd.setWidth 64)).setWidth 3 →
        ∃ t, exec i s = .next t ∧ t = s.setCtx { s.ctx with vrnd := if m.toNat < 6 then m else s.ctx.vrnd, pc := next, retired := one }) ∧
      (n = 0x00A → ∀ v : BitVec 32, v = (f (s.ctx.seed.setWidth 64)).setWidth 32 →
        ∃ t, exec i s = .next t ∧ t = s.setCtx { s.ctx with seed := if v = 0 then 1 else v, pc := next, retired := one }) ∧
      (n = 0x00B ∨ n = 0x200 → Continues i s next) ∧
      (n = 0x00C → ∃ t, exec i s = .next t ∧ OnlyCtx s { s.ctx with pc := next, retired := one } t ∧ PadKept s t 0 0 ∧ CoreKept s t ∧ ElsewhereSame s t ∧
        ∃ v, t.actor = { s.actor with durstat := v } ∧ ((s.g a).getLsbD 63 = false ∨ i = .sysbc n a → v = s.actor.durstat) ∧
          ((s.g a).getLsbD 63 = true → i ≠ .sysbc n a → (∀ x, s.actor.durFail = some (s.time, x) → v = x) ∧
            ((∀ x, s.actor.durFail ≠ some (s.time, x)) → v = { s.actor.durstat with fail := false })))

/-- vnow and vmile give VNOW and the Milestone; vset sets VOUT by the discipline; prio sets the class, or traps with 0x1A0 above the declared one; budget only shortens, or traps with 0x161 outside 1 to 2^24 (R343, R376, R382). -/
def Obligations.TimePriorityBudget : Prop :=
  ∀ (s : State) (a d : BitVec 5) (next : BitVec 16) (one : Word), next = s.ctx.pc + 4 → one = s.ctx.retired + 1 →
    Computes (.vnow d) 4 s d s.ctx.vnow ∧ Computes (.vmile d) 4 s d s.hereCore.vmile ∧
    (∃ t, exec (.vset a) s = .next t ∧ t = s.setCtx { s.ctx with
      pc := next, retired := one,
      vout := if s.actor.disc = .untimed then s.g a else if s.ctx.vnow.toNat < (s.g a).toNat then s.g a - s.ctx.vnow else 0 }) ∧
    ((s.g a).toNat ≤ s.actor.prio.toNat → ∃ t, exec (.prio a) s = .next t ∧
      t = s.setCtx { s.ctx with pc := next, retired := one, prioBase := (s.g a).setWidth 2, prioEff := BitVec.ofNat 2 (max (s.g a).toNat s.actor.lent.toNat) }) ∧
    (s.actor.prio.toNat < (s.g a).toNat → Traps (.prio a) s 0x1A0 (s.g a)) ∧
    (1 ≤ (s.g a).toNat → (s.g a).toNat ≤ 2 ^ 24 → ∃ t, exec (.budget a) s = .next t ∧
      t = s.setCtx { s.ctx with pc := next, retired := one, budget := BitVec.ofNat 25 (min s.ctx.budget.toNat (s.g a).toNat) }) ∧
    ((s.g a).toNat = 0 ∨ 2 ^ 24 < (s.g a).toNat → Traps (.budget a) s 0x161 (s.g a))

/-- Taking a trap: the context issues nothing more and holds the record of R346; its engine commands that have not executed are discarded and its tiles released and zeroed, those of other contexts stay; no register, no byte of memory and nothing outside the core changes before the trap sequence runs, and a context that waited for a unit may try again. trap #d takes cause d; halt on a core that is not armed, or whose partition does not allow it, takes 0x1A0, and elsewhere triggers a stop of the partition, unless it has stopped; trap #31 in an activation started by a diversion marks it for reinjection (R345, R346, R349, R350, R351, R356). -/
def Obligations.TrapTaken : Prop :=
  ∀ (s : State),
    (∀ (close : Option (BitVec 4 × BitVec 6 × BitVec 6)) (killed : Option (BitVec 9)) (cause : BitVec 9) (detail : Word) (r : TrapRec) (t : State),
      r = ⟨s.ctx.pc, s.ctx.g3, s.ctx.g4, cause, s.ctx.key, detail⟩ → t = trapWith close killed cause detail s →
      t.here = s.here ∧ t.cx = s.cx ∧ (∀ y, t.ctxAt y = woken (if y = s.cx then { s.ctx with phase := .trapping r close killed, wait := .none } else s.ctxAt y)) ∧
      t.hereCore.vq = s.hereCore.vq.filter (fun c => c.ctx ≠ s.cx) ∧ t.hereCore.mq = s.hereCore.mq.filter (fun c => c.ctx ≠ s.cx) ∧
      (∀ k : Fin 8, (s.hereCore.tiles[k].holder = some s.cx → t.hereCore.tiles[k].holder = none ∧ t.hereCore.tiles[k].data = 0) ∧
        (s.hereCore.tiles[k].holder ≠ some s.cx → t.hereCore.tiles[k] = s.hereCore.tiles[k])) ∧
      PadKept s t 0 0 ∧ ElsewhereSame s t) ∧
    (∀ d : BitVec 5, d ≠ 31 ∨ s.ctx.diverted = false → Traps (.trap d) s (d.setWidth 9) 0) ∧
    (s.ctx.diverted = true → ∃ t, exec (.trap 31) s = .next t ∧ t = s.setCtx { s.ctx with reinject := true, pc := s.ctx.pc + 4, retired := s.ctx.retired + 1 }) ∧
    (s.hereCore.arm = none → Traps .halt s 0x1A0 0) ∧
    ∀ p, s.hereCore.arm = some p →
      (s.mgmt.haltOk[p.toNat] = false → Traps .halt s 0x1A0 0) ∧
      (s.mgmt.haltOk[p.toNat] = true → ∃ t, exec .halt s = .next t ∧
        t = State.setCtx (if s.mgmt.stopped[p.toNat] then s else { s with mgmt := { s.mgmt with rbTrip := s.mgmt.rbTrip.set p.toNat true } })
          { s.ctx with pc := s.ctx.pc + 4, retired := s.ctx.retired + 1 })

/-- done, done.retire and c.done end the activation: the context is to be released, its staged items with it, and of a lay-by activation that marked its diversion the reinjected message as the last item; a retiring one whose actor has an endpoint armed, connecting, open or delegated traps with 0x0CD; that its DETAIL names the lowest such endpoint is the model's reading of R353 (log 25). commit is without effect in a timed activation; else the staged items leave, the restore point moves here, and PRIO.EFF returns to the base raised by loans (R38, R275, R276, R349, R52). -/
def Obligations.Endings : Prop :=
  ∀ (s : State) (live : BitVec 4 → Prop) (ended : Bool → BitVec 16 → List Item → Ctx),
    (∀ e, live e ↔ e ≠ 15 ∧ (s.actor.ep e).status ∈ [EpStatus.armed, .connecting, .opened, .delegated]) →
    (∀ r n l, ended r n l = { s.ctx with phase := .releasing r, staging := s.ctx.staging ++ l, pc := s.ctx.pc + n, retired := s.ctx.retired + 1 }) →
    (s.ctx.marked = none → (∀ i n, i = .done ∧ n = 4 ∨ i = .cDone ∧ n = 2 → ∃ t, exec i s = .next t ∧ t = s.setCtx (ended false n [])) ∧
      ((∀ e, ¬ live e) → ∃ t, exec .doneRetire s = .next t ∧ t = s.setCtx (ended true 4 []))) ∧
    (∀ h o w k it, s.ctx.marked = some (h, o, w, k) → s.actor.disc = .untimed → Sound s h.addr.toNat h.msg.payload.length →
      it = .reinject ⟨o, s.hereCore.pad.bytes h.addr.toNat h.msg.payload.length, k.anew, w⟩ → HasRoom s it →
      ∀ i n, i = .done ∧ n = 4 ∨ i = .cDone ∧ n = 2 → ∃ t, exec i s = .next t ∧ t = s.setCtx (ended false n [it])) ∧
    (∀ e, live e → (∀ k, live k → e.toNat ≤ k.toNat) → Traps .doneRetire s 0x0CD (s.epDetail e)) ∧
    (s.actor.disc = .timed → Continues .commit s (s.ctx.pc + 4)) ∧
    (s.actor.disc ≠ .timed → ∃ t, exec .commit s = .next t ∧
      t.ctx = { s.ctx with staging := [], committed := true, kept := s.ctx.consumed.length, prioEff := t.ctx.prioEff,
                           pc := s.ctx.pc + 4, retired := s.ctx.retired + 1 } ∧
      (∀ y, y ≠ s.cx → t.ctxAt y = { s.ctxAt y with prioEff := (t.ctxAt y).prioEff }) ∧
      t.ctx.prioEff = (if s.ctx.prioBase.toNat < t.actor.lent.toNat then t.actor.lent else s.ctx.prioBase) ∧
      t.actor.log = sinceMarker s.actor.log ∧
      (s.ctx.staging = [] → t.flight = s.flight) ∧
      ∀ e m rule, s.ctx.staging = [.msg e m rule] → (∀ x ∈ s.hereCore.fenced, x.slot ≠ s.ctx.slot) → s.seqHeld s.actor.aid (.msg e m rule) = false →
        ∃ f, t.flight = s.flight ++ [f] ∧ f.vrt = rule.value m.hdr.key.vrt s.hereCore.vmile (s.actor.ep e).lastvrt)

/-- jarm arms a counter: bit 63 with the class and the count stand in the doubleword and JREG names it; an earlier counter is disarmed first; a count of zero disarms. jdis clears bit 63 and JREG if it names the word. The counter must lie in a kept zone (R377, R379). -/
def Obligations.JoinCounters : Prop :=
  ∀ (s u : State) (c : BitVec 6) (a d : BitVec 5) (w : Nat) (n : BitVec 16) (at_ : State → Word → Prop) (after : State → Prop) (old : Word), w = (s.g a).toNat / 8 → n = (s.g d).setWidth 16 →
    (∀ t v, at_ t v ↔ ∀ j < 8, t.hereCore.pad.byte (8 * w + j) = BitVec.ofNat 8 (v.toNat / 256 ^ j)) →
    (∀ t, after t ↔ CoreKept s t ∧ ElsewhereSame s t ∧ OnlyCtx s { s.ctx with pc := s.ctx.pc + 4, retired := s.ctx.retired + 1 } t) →
    old = BitVec.ofNat 64 (leNat (s.hereCore.pad.bytes (8 * w) 8)) →
    Writable s (s.g a) 8 8 → (∀ z, s.actor.zoneOf ((s.g a).toNat / 64) = some z → z.kind = .kept) → s.saveJreg s.ctx.slot = some u →
    (s.actor.jreg.valid = false ∨ s.actor.jreg.word.toNat = w → Saves u (s.g a).toNat 8 →
      (n ≠ 0 → ∃ t, exec (.jarm c a d) s = .next t ∧ at_ t (BitVec.ofNat 64 (2 ^ 63 + 2 ^ 56 * c.toNat + 2 ^ 32 * n.toNat)) ∧
        t.actor.jreg = ⟨true, 0, BitVec.ofNat 15 w⟩ ∧ PadKept s t (8 * w) 8 ∧ after t) ∧
      (n = 0 → w ∉ s.hereCore.badPad → ∃ t, exec (.jarm c a d) s = .next t ∧ at_ t (BitVec.ofNat 64 (old.toNat % 2 ^ 63)) ∧
        t.actor.jreg = (if s.actor.jreg.word.toNat = w then JReg.zero else s.actor.jreg) ∧ PadKept s t (8 * w) 8 ∧ after t)) ∧
    (Saves u (s.g a).toNat 8 → w ∉ s.hereCore.badPad → ∃ t, exec (.jdis a) s = .next t ∧ at_ t (BitVec.ofNat 64 (old.toNat % 2 ^ 63)) ∧
      t.actor.jreg = (if s.actor.jreg.word.toNat = w then JReg.zero else s.actor.jreg) ∧ PadKept s t (8 * w) 8 ∧ after t) ∧
    (∀ (o : Nat) (x : State) (was : Word), s.actor.jreg.valid = true → o = s.actor.jreg.word.toNat → o ≠ w → o ∉ s.hereCore.badPad → n ≠ 0 →
      was = BitVec.ofNat 64 (leNat (s.hereCore.pad.bytes (8 * o) 8)) →
      u.store s.ctx.slot (8 * o) (leBytes (was.toNat % 2 ^ 63) 8) = some x → Saves x (s.g a).toNat 8 →
      ∃ t, exec (.jarm c a d) s = .next t ∧ at_ t (BitVec.ofNat 64 (2 ^ 63 + 2 ^ 56 * c.toNat + 2 ^ 32 * n.toNat)) ∧
        (∀ j < 8, t.hereCore.pad.byte (8 * o + j) = BitVec.ofNat 8 (was.toNat % 2 ^ 63 / 256 ^ j)) ∧
        (∀ x, ¬ (8 * w ≤ x ∧ x < 8 * w + 8) → ¬ (8 * o ≤ x ∧ x < 8 * o + 8) → t.hereCore.pad.byte x = s.hereCore.pad.byte x) ∧
        t.actor.jreg = ⟨true, 0, BitVec.ofNat 15 w⟩ ∧ after t)

/-- Fences at issue: an untimed or conservative activation stages them; a timed one defers them with its deferred writes, and else passes them at once when what they wait for is performed, or leaves them waiting; a fence.sc at scope module or wider makes the activation's next writes sc. A fence neither traps nor stalls (R235, R239, R266; that it takes its place in a queue that is full is log 74). -/
def Obligations.Fences : Prop :=
  ∀ (s : State) (sc : BitVec 4) (i : Instr) (k : FenceKind) (it : Item),
    i = .fenceAcq sc ∧ k = .acq ∨ i = .fenceRel sc ∧ k = .rel ∨ i = .fenceFull sc ∧ k = .full ∨ i = .fenceSc sc ∧ k = .sc →
    it = .fence k sc s.actor.seq (if sc = 10 then s.ctx.wpages else []) →
    ∃ t later, exec i s = .next t ∧ (later = true ↔ s.ctx.relFence = true ∨ (k ≠ .acq ∨ sc = 10) ∧ s.ctx.wpages ≠ []) ∧
      OnlyCtx s { s.ctx with scFence := decide (k = .sc ∧ 6 ≤ sc.toNat), staging := t.ctx.staging, relFence := if s.actor.disc = .timed ∧ later = true then true else s.ctx.relFence,
                             pc := s.ctx.pc + 4, retired := s.ctx.retired + 1 } t ∧
      (s.actor.disc ≠ .timed ∨ later = true → Queued s t it ∧ t.hereCore.fenced = s.hereCore.fenced ∧ PadKept s t 0 0 ∧ ElsewhereSame s t) ∧
      (s.actor.disc = .timed → later = false → t.ctx.staging = s.ctx.staging ∧
        t.hereCore.fenced = if (∃ x ∈ s.hereCore.fenced, x.slot = s.ctx.slot) ∨ s.mayLeave s.actor.aid it = false then
          s.hereCore.fenced ++ [⟨s.ctx.slot, s.ctx.key, it⟩] else s.hereCore.fenced)

/-! ## Channels -/

/-- Sends: with the endpoint in a send state of the class, the length within its shape and the payload readable, send, sendv and sendt send the bytes of the scratchpad, of a vector register or of a tile, and sel sends a label and takes the state at it; without a VRT they trap with 0x140, a label out of range is refused with 0x0A9 (R28, R161, R162, R165, R166, R178). -/
def Obligations.Sending : Prop :=
  ∀ (s : State) (c : BitVec 6) (b a : BitVec 5) (q : BitVec 4) (ti : BitVec 3) (l : BitVec 2) (e : BitVec 4) (v : View) (x v0 : Word) (n : Nat) (rule : VrtRule) (len : Nat → Prop),
    x = s.g b → n = (s.g b).toNat % 2 ^ 13 → canSend s.actor e (s.actor.ep e) = true → SavesEp s e →
    (∀ lim, len lim ↔ x.toNat < 2 ^ 17 ∧ x.toNat / 2 ^ 13 % 8 = 0 ∧ n ≤ lim ∧ v.min ≤ n ∧ n ≤ v.max) →
    (∀ u, s.saveEp s.ctx.slot e = some u → ∀ h w d, (u.log s.ctx.slot (.output h w d)).isSome = true) →
    (¬ LeavesNow s e → ∀ m, m.payload.length ≤ 4096 → HasRoom s (.msg e m rule)) →
    (InState s e 0 v → v.cls = c → s.hereCore.bounded (s.actor.ep e).itin v.then0 (s.actor.ep e).loop = false →
      s.sendVrt (s.actor.ep e).lastvrt = .ok (rule, v0) →
      (∀ p, p = (if n = 0 then [] else s.readBytes (s.g a).toNat n) → s.depotRefused (s.actor.ep e) p = none → len 4096 →
        n = 0 ∨ Readable s (s.g a) n 8 ∧ Sound s (s.g a).toNat n → Sends (.send c b a e) s e c false (x.getLsbD 16) p v.then0 v0) ∧
      (∀ p, p = leBytes (s.v q).toNat n → s.depotRefused (s.actor.ep e) p = none → len 128 → Sends (.sendv c b q e) s e c false (x.getLsbD 16) p v.then0 v0) ∧
      (∀ p, p = leBytes (s.hereCore.tile ti).data.toNat n → s.depotRefused (s.actor.ep e) p = none → len 2048 → s.holds ti = true →
        (∀ m ∈ s.hereCore.mq, m.ctx ≠ s.cx) → s.hereCore.tileBad ti (0, n) = false → Sends (.sendt c b ti e) s e c false (x.getLsbD 16) p v.then0 v0)) ∧
    (InState s e 2 v → ∀ nx, v.next[l.toNat]? = some nx → s.hereCore.bounded (s.actor.ep e).itin nx (s.actor.ep e).loop = false →
      s.sendVrt (s.actor.ep e).lastvrt = .ok (rule, v0) → Sends (.selLabel l e) s e v.cls true false [BitVec.ofNat 8 l.toNat] nx v0) ∧
    (InState s e 2 v → v.next[l.toNat]? = none → exec (.selLabel l e) s = .next (trapWith (some (e, v.close, (s.actor.ep e).state)) none 0x0A9 (s.epDetail e) s)) ∧
    (InState s e 2 v → ∀ nx, v.next[l.toNat]? = some nx → s.hereCore.bounded (s.actor.ep e).itin nx (s.actor.ep e).loop = false → s.ctx.vout = 0 →
      Traps (.selLabel l e) s 0x140 (if s.actor.disc = .untimed then s.hereCore.vmile else s.ctx.vnow))

/-- Receives: recv gives the address and the length of the oldest message of the state's class and advances the endpoint; offer gives the label and takes the state at it; a message of another class or state is refused; an empty buffer makes an untimed activation wait and refuses the others. probe describes the oldest message, estate gives a word of the record (R157, R167, R168, R169, R171, R178, R185). -/
def Obligations.Receiving : Prop :=
  (∀ (s : State) (a : BitVec 5) (f : BitVec 4) (w : BitVec 2), ∃ t x, exec (.estate w a f) s = .next t ∧ WroteG s a x (s.ctx.pc + 4) t ∧
    (w = 0 → x.extractLsb' 61 3 = BitVec.ofNat 3 (s.actor.ep f).status.code ∧ x.extractLsb' 58 3 = BitVec.ofNat 3 (s.actor.ep f).pkind.code ∧
      x.extractLsb' 50 8 = (s.actor.ep f).look ∧ x.extractLsb' 43 7 = (s.actor.ep f).itin ∧ x.extractLsb' 37 6 = (s.actor.ep f).state ∧
      x.extractLsb' 13 24 = (s.actor.ep f).peer ∧ x.extractLsb' 1 12 = (s.actor.ep f).pmod) ∧
    (w = 1 → x = (s.actor.ep f).lastvrt) ∧
    (w = 2 → x.extractLsb' 48 16 = (s.actor.ep f).loop ∧ x.extractLsb' 24 24 = (s.actor.ep f).sent ∧ x.extractLsb' 0 24 = (s.actor.ep f).rcvd) ∧
    (w = 3 → x.extractLsb' 55 9 = (s.actor.ep f).ccause ∧ x.extractLsb' 49 6 = (s.actor.ep f).cpoint ∧ x.getLsbD 48 = (s.actor.ep f).cbypeer ∧
      x.extractLsb' 30 18 = (s.actor.ep f).bufbase ∧ x.extractLsb' 16 8 = BitVec.ofNat 8 (min (s.actor.queued f) 255) ∧ x.extractLsb' 0 13 = (s.actor.ep f).slot)) ∧
  ∀ (s : State) (b a : BitVec 5) (e : BitVec 4) (v : View) (k : BitVec 3), InState s e k v → (s.actor.ep e).status = .opened →
    (∀ h, Takable s e h → h.msg.hdr.cls = v.cls → h.msg.hdr.state = (s.actor.ep e).state → h.msg.hdr.deleg = false →
      (k = 1 → h.msg.hdr.label = false → s.hereCore.bounded (s.actor.ep e).itin v.then0 (s.actor.ep e).loop = false →
        ∃ t, exec (.recv b a e) s = .next t ∧
          (∀ r, t.g r = if r = b ∧ b ≠ 0 then BitVec.ofNat 64 h.msg.payload.length else if r = a ∧ a ≠ 0 then BitVec.ofNat 64 h.addr.toNat else s.g r) ∧
          OnlyCtx s { s.ctx with g := t.ctx.g, consumed := s.ctx.consumed ++ [takenOf h], pc := s.ctx.pc + 4, retired := s.ctx.retired + 1 } t ∧
          (t.actor.ep e).state = v.then0 ∧ (t.actor.ep e).rcvd = (s.actor.ep e).rcvd + 1 ∧ (t.actor.ep e).sent = (s.actor.ep e).sent ∧
          h ∉ t.actor.buffer e ∧ OtherEpsKept s t e ∧ (s.actor.disc ≠ .timed → PadKept s t 0 0) ∧ ElsewhereSame s t) ∧
      ∀ nx l, l = (h.msg.payload.headD 0).toNat → v.next[l]? = some nx → k = 3 → h.msg.hdr.label = true →
        s.hereCore.bounded (s.actor.ep e).itin nx (s.actor.ep e).loop = false →
        ∃ t, exec (.offer a e) s = .next t ∧ (∀ r, t.g r = if r = a ∧ a ≠ 0 then BitVec.ofNat 64 l else s.g r) ∧
          OnlyCtx s { s.ctx with g := t.ctx.g, consumed := s.ctx.consumed ++ [takenOf h], pc := s.ctx.pc + 4, retired := s.ctx.retired + 1 } t ∧
          (t.actor.ep e).state = nx ∧ (t.actor.ep e).rcvd = (s.actor.ep e).rcvd + 1 ∧ h ∉ t.actor.buffer e ∧ OtherEpsKept s t e ∧ ElsewhereSame s t) ∧
    (k = 1 → (s.actor.buffer e).head? = none →
      (s.actor.disc = .untimed → ∃ t, exec (.recv b a e) s = .next t ∧ t = s.setCtx { s.ctx with wait := .message }) ∧
      (s.actor.disc ≠ .untimed → exec (.recv b a e) s = .next (trapWith none none 0x0A7 (s.epDetail e) s))) ∧
    (k = 1 → ∀ h, Takable s e h → h.msg.hdr.cls ≠ v.cls →
      exec (.recv b a e) s = .next (trapWith (some (e, v.close, (s.actor.ep e).state)) none 0x0A5 (s.epDetail e) s)) ∧
    ∃ t x, exec (.probe a e) s = .next t ∧ WroteG s a (BitVec.ofNat 64 x) (s.ctx.pc + 4) t ∧ ((s.actor.buffer e).head? = none → x = 0) ∧
      ∀ h, (s.actor.buffer e).head? = some h → x / 256 = 256 * h.msg.hdr.deleg.toNat + 128 * h.msg.hdr.close.toNat + 64 * h.msg.hdr.label.toNat + h.msg.hdr.cls.toNat ∧
        x % 256 = min 255 ((s.actor.buffer e).countP fun y => s.mayTake y && ! y.msg.hdr.deleg)

/-- Opening: connect and spawn leave their endpoint connecting and queue their request with the actor's next key; accept queues and changes no endpoint; gjoin leaves its endpoint connecting on the collective service; each needs an endpoint that is free or closed, a closed group endpoint too (R163, R172, R173, R184, R289, R291, R296). That spawn sets PKIND and PMOD at issue is the model's choice (log 22), and so is the sequence that numbers a group request as it numbers messages (log 24, R299). -/
def Obligations.Opening : Prop :=
  ∀ (s : State) (c : BitVec 6) (b a : BitVec 5) (e : BitVec 4) (i : BitVec 7) (rule : VrtRule) (v : Word) (key : Key),
    .endpoint e ∉ s.actor.bad → (s.actor.ep e).status = .free ∨ (s.actor.ep e).status = .closed → key = ⟨v, s.actor.aid.id, s.actor.seq⟩ →
    ((s.g b).toNat = i.toNat → (s.hereCore.dirAt i).valid = true → (s.hereCore.dirAt i).tenant = s.actor.aid.tenant → i.toNat ∉ s.hereCore.badItins →
      (peerOk s (s.g a) = true → SavesEp s e → s.sendVrt (s.actor.ep e).lastvrt = .ok (rule, v) → HasRoom s (.connect e (s.g a) i c key rule) →
        ∃ t, exec (.connect c b a e) s = .next t ∧ NextAlone s t ∧ Queued s t (.connect e (s.g a) i c key rule) ∧ OtherEpsKept s t e ∧
          (t.actor.ep e).status = .connecting ∧ (t.actor.ep e).itin = i ∧ t.actor.seq = s.actor.seq + 1 ∧ PadKept s t 0 0 ∧ ElsewhereSame s t) ∧
      (s.g a = BitVec.allOnes 64 ∨ (s.g a).extractLsb' 61 3 ≠ 2 ∧ peerOk s (s.g a) = true → HasRoom s (.accept e (s.g a) i c) →
        ∃ t, exec (.accept c b a e) s = .next t ∧ NextAlone s t ∧ Queued s t (.accept e (s.g a) i c) ∧ t.actor = s.actor ∧ PadKept s t 0 0 ∧ ElsewhereSame s t) ∧
      ((s.g a).toNat < 2 ^ 32 → (s.g a).extractLsb' 12 4 = 0 → SavesEp s e → s.sendVrt (s.actor.ep e).lastvrt = .ok (rule, v) → HasRoom s (.spawn e (s.g a) i c key rule) →
        ∃ t, exec (.spawn c b a e) s = .next t ∧ NextAlone s t ∧ Queued s t (.spawn e (s.g a) i c key rule) ∧ OtherEpsKept s t e ∧
          (t.actor.ep e).status = .connecting ∧ (t.actor.ep e).pkind = .actor ∧ (t.actor.ep e).pmod = 0 ∧ (t.actor.ep e).itin = i ∧ (t.actor.ep e).state = 0 ∧
          t.actor.seq = s.actor.seq + 1 ∧ PadKept s t 0 0 ∧ ElsewhereSame s t)) ∧
    ((s.g a).toNat < 2 ^ 32 → SavesEp s e → s.sendVrt (s.actor.ep e).lastvrt = .ok (rule, v) → HasRoom s (.gjoin e (s.g a) c key rule) →
      ∃ t, exec (.gjoin c a e) s = .next t ∧ NextAlone s t ∧ Queued s t (.gjoin e (s.g a) c key rule) ∧ OtherEpsKept s t e ∧
        (t.actor.ep e).status = .connecting ∧ (t.actor.ep e).pkind = .collective ∧ t.actor.seq = s.actor.seq + 1 ∧ PadKept s t 0 0 ∧ ElsewhereSame s t)

/-- close of an open endpoint leaves it closing at the close-point of its state with the given cause and queues the notice; of an armed one it only disarms. sendep moves an open, idle endpoint: a delegation with the five words of its record is queued, and it becomes delegated. recvep takes a delegation and binds the endpoint it names, connecting, with the carried state, counts and LASTVRT. An endpoint in no such status traps with 0x0C7 (R161, R172, R175, R180, R181). -/
def Obligations.ClosingAndDelegating : Prop :=
  ∀ (s : State) (k : BitVec 5) (c : BitVec 6) (m e : BitVec 4) (v : View) (kind : BitVec 3), InState s e kind v →
    ((s.actor.ep e).status = .opened → SavesEp s e → (∀ h rule, h.payload.length = 16 → HasRoom s (.close e h rule)) →
      ∃ t h rule cp, exec (.close k e) s = .next t ∧ NextAlone s t ∧ Queued s t (.close e h rule) ∧ OtherEpsKept s t e ∧
        cp = (if 6 ≤ kind.toNat then (s.actor.ep e).state else v.close) ∧ h.hdr.close = true ∧ h.hdr.key.seq = s.actor.seq ∧
        (t.actor.ep e).status = .closing ∧ (t.actor.ep e).state = cp ∧ (t.actor.ep e).cpoint = cp ∧ (t.actor.ep e).ccause = BitVec.ofNat 9 k.toNat ∧
        (t.actor.ep e).cbypeer = false ∧ (t.actor.ep e).sent = (s.actor.ep e).sent + 1 ∧ t.actor.seq = s.actor.seq + 1 ∧ PadKept s t 0 0 ∧ ElsewhereSame s t) ∧
    ((s.actor.ep e).status = .armed → SavesEp s e → ∃ t, exec (.close k e) s = .next t ∧ NextAlone s t ∧ t.ctx.staging = s.ctx.staging ∧ OtherEpsKept s t e ∧
      t.actor.ep e = { s.actor.ep e with status := .closed } ∧ PadKept s t 0 0 ∧ ElsewhereSame s t) ∧
    ((s.actor.ep e).status ∉ [EpStatus.opened, .armed] → Traps (.close k e) s 0x0C7 (s.epDetail e)) ∧
    ((s.actor.ep e).status = .opened → kind = 4 → v.cls = c → s.hereCore.bounded (s.actor.ep e).itin v.then0 (s.actor.ep e).loop = false →
      (s.actor.ep m).status = .opened → (s.actor.ep m).pkind ≠ .collective → (s.actor.auxOf m).holdDirect = false → s.actor.queued m = 0 → .endpoint m ∉ s.actor.bad → (s.actor.ep m).itin.toNat ∉ s.hereCore.badItins →
      (∃ r, s.sendVrt (s.actor.ep e).lastvrt = .ok r) → (∀ x rule, x.payload.length = 40 → HasRoom s (.msg e x rule)) → (∀ u, s.saveEp s.ctx.slot e = some u → SavesEp u m) → SavesEp s e →
      ∃ t x rule, exec (.sendep c m e) s = .next t ∧ NextAlone s t ∧ Queued s t (.msg e x rule) ∧ x.payload.length = 40 ∧ x.hdr.deleg = true ∧ x.hdr.cls = c ∧
        payloadWord x.payload 0 = (s.hereCore.dirAt (s.actor.ep m).itin).fp ∧ payloadWord x.payload 2 = (s.actor.ep m).lastvrt ∧
        (t.actor.ep m).status = .delegated ∧ (m ≠ e → (t.actor.ep m).state = (s.actor.ep m).state) ∧ (t.actor.ep e).state = v.then0 ∧
        (t.actor.ep e).sent = (s.actor.ep e).sent + 1 ∧ PadKept s t 0 0 ∧ ElsewhereSame s t) ∧
    ((s.actor.ep e).status = .opened → .endpoint m ∉ s.actor.bad → (s.actor.ep m).pkind = .collective ∨ (s.actor.ep m).status ≠ .opened → Traps (.sendep c m e) s 0x0E0 (s.epDetail e)) ∧
    ∀ (h : Held) (p : BitVec 24) (from_ : BitVec 12) (w : Nat → Word) (i : BitVec 7) (it : Item),
      (s.actor.ep e).status = .opened → .endpoint m ∉ s.actor.bad → h.msg.kind = .delegation p from_ → kind = 5 → Takable s e h → h.msg.hdr.cls = v.cls →
      h.msg.hdr.state = (s.actor.ep e).state → h.msg.hdr.deleg = true → h.msg.hdr.label = false → w = payloadWord h.msg.payload →
      s.hereCore.bounded (s.actor.ep e).itin v.then0 (s.actor.ep e).loop = false → (s.actor.ep m).status = .free ∨ (s.actor.ep m).status = .closed →
      s.hereCore.findBad s.actor.aid.tenant (w 0) = false → s.hereCore.findItin s.actor.aid.tenant (w 0) = some i →
      (s.actor.bind m (s.hereCore.dirAt i).look (s.hereCore.dirAt i).slot).isSome = true →
      it = .relocate m from_ (peerLoc ((w 4).extractLsb' 13 24)) (peerEp ((w 4).extractLsb' 13 24)) h.msg.hdr.key.sender →
      HasRoom s it → (∀ u, loggedTaking s e h = some u → SavesEp u m) →
      ∃ t, exec (.recvep m e) s = .next t ∧ Queued s t it ∧ t.ctx.g = s.ctx.g ∧ t.ctx.pc = s.ctx.pc + 4 ∧ (t.actor.ep e).state = v.then0 ∧
        (t.actor.ep e).rcvd = (s.actor.ep e).rcvd + 1 ∧ h ∉ t.actor.buffer e ∧ (t.actor.ep m).status = .connecting ∧ (t.actor.ep m).itin = i ∧
        (t.actor.ep m).state = (w 1).extractLsb' 37 6 ∧ (t.actor.ep m).lastvrt = w 2 ∧ (t.actor.ep m).sent = (w 3).extractLsb' 24 24 ∧
        (t.actor.ep m).rcvd = (w 3).extractLsb' 0 24 ∧ (t.actor.ep m).peer = (w 1).extractLsb' 13 24 ∧ (t.actor.auxOf m).peerId = p ∧ ElsewhereSame s t

/-! ## Memory requests, copies, capabilities, groups -/

/-- Memory requests: with the descriptor within its limits, the range in one window and page, the payload readable and the rights there, a read leaves at once, where no fence before it and no sequence holds it, and a write or an atomic is queued; e15 counts each and holds a slot for its reply (R224, R225, R227, R228, R229). A descriptor outside its limits traps with 0x103, a range outside the windows with 0x101, across pages with 0x102, a page without the right with 0x106, a misaligned atomic with 0x100, a 33rd slot with 0x108 (R353). -/
def Obligations.MemoryRequests : Prop :=
  (∀ (s : State) (c : BitVec 6) (b a : BitVec 5) (va d : Word) (len laddr : Nat) (rule : VrtRule) (v : Word), va = s.g a → d = s.g b →
    .endpoint 15 ∉ s.actor.bad → s.actor.e15Count < 32 → s.sendVrt (s.actor.ep 15).lastvrt = .ok (rule, v) → SavesEp s 15 →
    len = d.toNat % 2 ^ 9 → laddr = d.toNat / 2 ^ 32 →
    (1 ≤ len → len ≤ 256 → inWindow (va.toNat, len) = true → va.toNat / 65536 = (va.toNat + len - 1) / 65536 →
      (d.toNat = len → s.noRight false [(va.toNat, len)] = none →
        (ReadLeaves s → InSpan s → (∀ x ∈ s.hereCore.fenced, x.slot ≠ s.ctx.slot) →
          ∃ t f r, exec (.mrd c b a) s = .next t ∧ NextAlone s t ∧ t.ctx.staging = s.ctx.staging ∧ t.flight = s.flight ++ [f] ∧
            f.vrt = rule.value v s.hereCore.vmile (s.actor.ep 15).lastvrt ∧ f.pkt = (match hostPort va with | some p => .hostRead p r | none => .mem r) ∧
            r.op = .read ∧ r.addr = va ∧ r.len = len ∧ r.cls = c ∧ r.actor = s.actor.aid ∧ r.key = ⟨f.vrt, s.actor.aid.id, s.actor.seq⟩ ∧
            (t.actor.ep 15).sent = (s.actor.ep 15).sent + 1 ∧ t.actor.seq = s.actor.seq + 1 ∧ t.actor.e15used = s.actor.e15used ++ [s.actor.seq]) ∧
        (¬ ReadLeaves s → (∀ r : MemReq, HasRoom s (.mem { r with op := .read } rule)) →
          Requests (.mrd c b a) s [] fun it => ∃ r, it = .mem r rule ∧ r.op = .read ∧ r.addr = va ∧ r.len = len ∧ r.cls = c)) ∧
      (d.toNat / 2 ^ 50 = 0 → d.toNat / 2 ^ 17 % 2 ^ 15 = 0 → d.toNat / 2 ^ 9 % 2 ^ 7 = 0 → laddr + len ≤ 0x30000 → s.actor.zonesBad = false →
        OnLines laddr len (fun l => lineReadable s.actor l = true) → Sound s laddr len → s.noRight true [(va.toNat, len)] = none →
        (∀ (r : MemReq) (l : List Byte), l.length = len → HasRoom s (.mem { r with op := .write l } rule)) →
        Requests (.mwr c b a) s [va.toNat / 65536] fun it => ∃ r, it = .mem r rule ∧ r.op = .write (s.readBytes laddr len) ∧ r.addr = va ∧ r.len = len ∧
          r.cls = c ∧ r.ack = d.getLsbD 16)) ∧
    (∀ n, n = (if d.getLsbD 4 then 4 else 8) → d.toNat < 64 → d.toNat % 16 < 8 → d.getLsbD 5 = false ∨ d.toNat % 16 = 4 ∨ d.toNat % 16 = 5 → va.toNat % n = 0 →
      inWindow (va.toNat, n) = true → s.noRight true [(va.toNat, n)] = none → (∀ (r : MemReq) (x y : Word), HasRoom s (.mem { r with op := .amo d x y } rule)) →
      Requests (.mamo c b a) s [va.toNat / 65536] fun it => ∃ r, it = .mem r rule ∧ r.op = .amo d (s.g (b + 1)) (s.g (b + 2)) ∧ r.addr = va ∧ r.len = n ∧
        r.cls = c ∧ r.sc = true)) ∧
  ∀ (s : State) (c : BitVec 6) (b a : BitVec 5) (va d : Word) (len : Nat), va = s.g a → d = s.g b → len = d.toNat % 2 ^ 9 →
    (len = 0 ∨ 256 < len → Traps (.mrd c b a) s 0x103 va ∧ Traps (.mwr c b a) s 0x103 va) ∧
    (1 ≤ len → len ≤ 256 → d.toNat = len →
      (inWindow (va.toNat, len) = false → Traps (.mrd c b a) s 0x101 va ∧ Traps (.mwr c b a) s 0x101 va) ∧
      (inWindow (va.toNat, len) = true → va.toNat / 65536 ≠ (va.toNat + len - 1) / 65536 → Traps (.mrd c b a) s 0x102 va ∧ Traps (.mwr c b a) s 0x102 va) ∧
      (inWindow (va.toNat, len) = true → va.toNat / 65536 = (va.toNat + len - 1) / 65536 →
        (s.hereCore.rights s.actor.aid.tenant (va.toNat / 65536)).1 = false → Traps (.mrd c b a) s 0x106 va) ∧
      (inWindow (va.toNat, len) = true → va.toNat / 65536 = (va.toNat + len - 1) / 65536 →
        (s.hereCore.rights s.actor.aid.tenant (va.toNat / 65536)).1 = true → s.actor.e15Count ≥ 32 → .endpoint 15 ∉ s.actor.bad → Traps (.mrd c b a) s 0x108 va)) ∧
    (64 ≤ d.toNat → Traps (.mamo c b a) s 0x103 va) ∧ (d.toNat = 0 → va.toNat % 8 ≠ 0 → Traps (.mamo c b a) s 0x100 va)

/-- Copy commands: with the descriptor within its limits and the ranges in their window, zones and rights, a command that reads global memory takes an entry of the copy command queue at once, or waits while both are taken; one that writes is queued; cpwait waits until the context's copies have completed (R230, R231, R232, R233). -/
def Obligations.CopyCommands : Prop :=
  ∀ (s : State) (c : BitVec 6) (b a : BitVec 5) (i : Instr) (op : CopyOp) (d x : Word) (len : Nat) (la : BitVec 18) (read : Bool) (rs : List (Nat × Nat)) (rule : VrtRule) (v : Word) (is_ : CopyCmd → Prop),
    i = .cpget c b a ∧ op = .get ∨ i = .cpput c b a ∧ op = .put ∨ i = .cpgath c b a ∧ op = .gath ∨ i = .cpscat c b a ∧ op = .scat ∨
      i = .cpfill c b a ∧ op = .fill ∨ i = .cpcvt c b a ∧ op = .cvt →
    d = s.g b → x = s.g (b + 1) → len = d.toNat % 2 ^ 17 → la = d.extractLsb' 32 18 →
    (read = true ↔ op = .get ∨ op = .gath ∨ op = .cvt ∧ x.toNat % 8 ∈ [0, 1, 4]) → rs = copyRanges op (s.g a).toNat len x →
    (∀ k, is_ k ↔ k.op = op ∧ k.gaddr = s.g a ∧ k.laddr = la ∧ k.len = len ∧ k.extra = x ∧ k.msg = d.getLsbD 63 ∧ k.cls = c ∧ k.actor = s.actor.aid ∧ k.ctx = s.cx) →
    (copyBad op d x read = true → Traps i s 0x124 (s.g a)) ∧
    (copyBad op d x read = false →
      (copyMisaligned op (s.g a) d x = true → Traps i s 0x120 (s.g a)) ∧
      (copyMisaligned op (s.g a) d x = false → rangesOk op (s.g a).toNat len x = false → Traps i s 0x121 (s.g a)) ∧
      (copyMisaligned op (s.g a) d x = false → rangesOk op (s.g a).toNat len x = true → s.localRefused read la.toNat (copyLocal op len x) 0x122 0x123 (s.g a) = none →
        s.noRight (! read) rs = none → .endpoint 15 ∉ s.actor.bad → s.actor.e15Count < 32 → s.sendVrt (s.actor.ep 15).lastvrt = .ok (rule, v) → SavesEp s 15 →
        (read = true → ReadLeaves s → InSpan s → (∀ y ∈ s.hereCore.fenced, y.slot ≠ s.ctx.slot) →
          (s.hereCore.cq.length < 2 → ∃ t k, exec i s = .next t ∧ NextAlone s t ∧ t.hereCore.cq = s.hereCore.cq ++ [k] ∧ is_ k ∧
            (t.actor.ep 15).sent = (s.actor.ep 15).sent + 1 ∧ t.actor.e15used = s.actor.e15used ++ [s.actor.seq]) ∧
          (2 ≤ s.hereCore.cq.length → ∃ t, exec i s = .next t ∧ t = s.setCtx { s.ctx with wait := .queueFull })) ∧
        (read = false ∨ ¬ ReadLeaves s → (∀ k, HasRoom s (.copy k rule)) →
          Requests i s (if read then [] else rs.flatMap pagesOf) fun it => ∃ k, it = .copy k rule ∧ is_ k))) ∧
    (s.copying s.cx s.ctx.slot = false → Continues .cpwait s (s.ctx.pc + 4)) ∧
    (s.copying s.cx s.ctx.slot = true → ∃ t, exec .cpwait s = .next t ∧ t = s.setCtx { s.ctx with wait := .engine })

/-- Capabilities: capgive queues the hand-over to the page's home and holds an e15 slot for its reply, capchk asks at once and waits for the answer; an address outside the global window traps with 0x1BA, an operand outside its limits with 0x1BB, a page without the right with 0x107 or 0x106 (R332, R333). -/
def Obligations.Capabilities : Prop :=
  ∀ (s : State) (a d : BitVec 5) (va x : Word) (inside ok : Prop), va = s.g a → x = s.g d →
    (inside ↔ 0x100000000 ≤ va.toNat ∧ va.toNat < 0x00F0000000000000) →
    (ok ↔ x.toNat / 2 ^ 36 = 0 ∧ x.toNat / 2 ^ 30 % 64 < 62 ∧ x.toNat / 2 ^ 24 % 64 < 62) →
    (¬ inside → Traps (.capgive a d) s 0x1BA va ∧ Traps (.capchk a d) s 0x1BA va) ∧
    (inside → ¬ ok → Traps (.capgive a d) s 0x1BB x) ∧
    (inside → ok → (s.hereCore.rights s.actor.aid.tenant (va.toNat / 65536)).2.1 = false → Traps (.capgive a d) s 0x107 va) ∧
    (inside → (s.hereCore.rights s.actor.aid.tenant (va.toNat / 65536)).1 = false → Traps (.capchk a d) s 0x106 va) ∧
    (inside → ok → (s.hereCore.rights s.actor.aid.tenant (va.toNat / 65536)).2.1 = true → CanRequest s → (∀ (r : MemReq) (k : VrtRule), HasRoom s (.mem { r with op := .capgive s.actor.aid.id x } k)) →
      Requests (.capgive a d) s [] fun it => ∃ r k, it = .mem r k ∧ r.op = .capgive s.actor.aid.id x ∧ r.addr = va ∧ r.cls = x.extractLsb' 30 6) ∧
    (inside → (s.hereCore.rights s.actor.aid.tenant (va.toNat / 65536)).1 = true →
      ∃ t f r, exec (.capchk a d) s = .next t ∧ OnlyCtx s { s.ctx with wait := .memory, pc := s.ctx.pc + 4, retired := s.ctx.retired + 1 } t ∧
        t.flight = s.flight ++ [⟨f, BitVec.allOnes 64, .mem r⟩] ∧ r.op = .capchk d s.cx ∧ r.addr = va ∧ r.actor = s.actor.aid ∧ PadKept s t 0 0 ∧ CoreKept s t)

/-- Group operations on an open group endpoint: with the descriptor within its limits, the source and the destination where R298 wants them and fewer than four waves outstanding, the contribution to the member's next wave, numbered by its operations, is queued and SENT counts it; gwait contributes nothing but its presence; gleave is the last wave and closes the endpoint. Outside an open group endpoint they trap with 0x180, a bad descriptor with 0x181, a fifth outstanding wave with 0x187, a broken group with 0x188, an endpoint record in error before all of these with 0x1C7 (R291, R296, R297, R298, R299, R354). -/
def Obligations.GroupOperations : Prop :=
  ∀ (s : State) (c : BitVec 6) (b a : BitVec 5) (e : BitVec 4) (i : Instr) (op : WaveOp) (x : Word) (n : Nat) (v : Word) (rule : VrtRule) (root isOpen : Bool) (reads : Prop) (src dst sl dl : Nat)
      (done : State → (Contrib → Prop) → Prop),
    i = .gred c b a e ∧ op = .red ∨ i = .gbcast c b a e ∧ op = .bcast ∨ i = .grs c b a e ∧ op = .rs ∨ i = .gag c b a e ∧ op = .ag →
    x = s.g b → n = (s.actor.auxOf e).count.toNat + 1 → (isOpen = true ↔ (s.actor.ep e).pkind = .collective ∧ (s.actor.ep e).status = .opened) →
    (root = true ↔ x.extractLsb' 52 12 = (s.actor.ep e).loop.setWidth 12) → (reads ↔ op ≠ .bcast ∨ root = true) → src = (s.g a).toNat → dst = waveDaddr x →
    sl = waveSource op x n root → dl = waveDest op x n →
    (∀ t p, done t p ↔ ∃ y, p y ∧ y.ep = e ∧ y.wave = (s.actor.auxOf e).waves + 1 ∧ y.actor = s.actor.aid ∧ Queued s t (.contrib y rule) ∧ NextAlone s t ∧
      OtherEpsKept s t e ∧ t.actor.seq = s.actor.seq + 1 ∧ PadKept s t 0 0 ∧ ElsewhereSame s t) →
    (.endpoint e ∈ s.actor.bad → Traps i s 0x1C7 0 ∧ Traps (.gwait c e) s 0x1C7 0 ∧ Traps (.gleave e) s 0x1C7 0) ∧ (.endpoint e ∉ s.actor.bad →
    (isOpen = false → Traps i s 0x180 x) ∧ (isOpen = true → waveBad op x = true → Traps i s 0x181 x) ∧
    (isOpen = true → s.sendVrt (s.actor.ep e).lastvrt = .ok (rule, v) → SavesEp s e → (∀ y, HasRoom s (.contrib y rule)) →
      ((s.actor.ep e).waves < 4 → (s.actor.auxOf e).broken = false →
        (waveBad op x = false → dst % 128 = 0 → dst + dl ≤ 0x30000 → s.actor.zonesBad = false → s.actor.inScratch dst dl = true →
          (reads → src % 128 = 0 ∧ src + sl ≤ 0x30000 ∧ linesAll (lineReadable s.actor) src sl = true ∧ (src + sl ≤ dst ∨ dst + dl ≤ src)) →
          (op = .rs ∨ op = .ag → waveLen x % (128 * n) = 0) → (op = .bcast → (waveRoot x).toNat < n) →
          ∃ t, exec i s = .next t ∧ done t (fun y => y.op = op ∧ y.desc = x ∧ y.src = s.g a ∧ y.cls = c) ∧ (t.actor.ep e).sent = (s.actor.ep e).sent + 1 ∧
            (t.actor.ep e).status = .opened) ∧
        ∃ t, exec (.gwait c e) s = .next t ∧ done t (fun y => y.op = .wait ∧ y.cls = c) ∧ (t.actor.ep e).sent = (s.actor.ep e).sent + 1) ∧
      ((s.actor.ep e).waves < 4 → ∃ t, exec (.gleave e) s = .next t ∧ done t (fun y => y.op = .leave) ∧ (t.actor.ep e).status = .closing)) ∧
    (isOpen = true → waveBad op x = false → dst % 128 = 0 → dst + dl ≤ 0x30000 → s.actor.zonesBad = false → s.actor.inScratch dst dl = true →
      (reads → src % 128 = 0 ∧ src + sl ≤ 0x30000 ∧ linesAll (lineReadable s.actor) src sl = true ∧ (src + sl ≤ dst ∨ dst + dl ≤ src)) →
      (op = .rs ∨ op = .ag → waveLen x % (128 * n) = 0) → (op = .bcast → (waveRoot x).toNat < n) →
      (4 ≤ (s.actor.ep e).waves → Traps i s 0x187 x) ∧ ((s.actor.ep e).waves < 4 → (s.actor.auxOf e).broken = true → Traps i s 0x188 x)))

/-! ## Vector instructions -/

/-- Integer lanes: each instruction enters the engine's queue, and when the engine takes it each active lane of v[d] gets the sum, product, extreme, logic, shift or saturated result of the lanes of v[a] and v[b], the others keep theirs; SA is set by a clamp alone. A command runs for its own context whichever core and context the focus is on (R110, R111, R112, R113, R115, R116). -/
def Obligations.IntegerLanes : Prop :=
  (∀ (s : State) (p : BitVec 3) (c b a d : BitVec 4) (t : BitVec 2) (w : Nat) (clamp : Int → Int → Int → Rounded), t.toNat < 3 → w = 8 * 2 ^ t.toNat →
    (∀ x lo hi, clamp x lo hi = (((max lo (min hi x)) % (2 ^ w : Nat)).toNat, if x < lo ∨ hi < x then 64 else 0)) →
    (∀ e ∈ ([(.vadd p b a d t, fun x y => ((x + y) % 2 ^ w, 0)), (.vsub p b a d t, fun x y => ((x + 2 ^ w - y) % 2 ^ w, 0)),
        (.vmul p b a d t, fun x y => (x * y % 2 ^ w, 0)), (.vmulh p b a d t, fun x y => ((sx w x * sx w y / (2 ^ w : Nat) % (2 ^ w : Nat)).toNat, 0)),
        (.vmulhn p b a d t, fun x y => (x * y / 2 ^ w, 0)), (.vmin p b a d t, fun x y => (if sx w x ≤ sx w y then x else y, 0)),
        (.vmax p b a d t, fun x y => (if sx w x ≤ sx w y then y else x, 0)), (.vminn p b a d t, fun x y => (min x y, 0)),
        (.vmaxn p b a d t, fun x y => (max x y, 0)), (.vand p b a d t, fun x y => (x &&& y, 0)), (.vor p b a d t, fun x y => (x ||| y, 0)),
        (.vxor p b a d t, fun x y => (x ^^^ y, 0)), (.vsll p b a d t, fun x y => (x * 2 ^ (y % w), 0)), (.vsrl p b a d t, fun x y => (x / 2 ^ (y % w), 0)),
        (.vsra p b a d t, fun x y => ((sx w x / (2 ^ (y % w) : Nat) % (2 ^ w : Nat)).toNat, 0)),
        (.vadds p b a d t, fun x y => clamp (sx w x + sx w y) (-(2 ^ (w - 1) : Nat)) ((2 ^ (w - 1) : Nat) - 1)),
        (.vaddsn p b a d t, fun x y => clamp ((x : Int) + y) 0 ((2 ^ w : Nat) - 1)),
        (.vsubs p b a d t, fun x y => clamp (sx w x - sx w y) (-(2 ^ (w - 1) : Nat)) ((2 ^ (w - 1) : Nat) - 1)),
        (.vsubsn p b a d t, fun x y => clamp ((x : Int) - y) 0 ((2 ^ w : Nat) - 1)),
        (.vavg p b a d t, fun x y => (((sx w x + sx w y + 1) / 2 % (2 ^ w : Nat)).toNat, 0)),
        (.vabs p a d t, fun x _ => ((sx w x).natAbs, 0))] : List (Instr × (Nat → Nat → Rounded))),
      IssuesV s e.1 0 ∧ TakesV s e.1 fun _ u => LanesWritten s w p d (fun j => e.2 (elem w j (s.v a)) (elem w j (s.v b))) s.ctx.seed u) ∧
    IssuesV s (.vdot4 p c b a d) 0 ∧
    TakesV s (.vdot4 p c b a d) fun _ u => LanesWritten s 32 p d (fun j =>
      (((sx 32 (elem 32 j (s.v c)) + ((List.range 4).map fun k => sx 8 (elem 8 (4 * j + k) (s.v a)) * sx 8 (elem 8 (4 * j + k) (s.v b))).sum) % (2 ^ 32 : Nat)).toNat, 0)) s.ctx.seed u) ∧
  ∀ (s : State) (c : CoreId) (k : Cmd) (rest : List Cmd), (s.core c).vq = k :: rest → (s.core c).stopped = false →
    ∃ u, exec (.vectorCommandExecution c) { s with here := c, cx := k.ctx } = .next u ∧ exec (.vectorCommandExecution c) s = .next { u with here := s.here, cx := s.cx }

/-- Floating lanes: each active lane of v[d] gets the operation on the lanes of its operands in the format of the major; add, subtract, multiply, the fused forms, divide, root and scale round by the VRND of issue, and in mode RS draw once a lane, active or not, in lane order; the others use no mode (R98, R104, R111, R112, R118, R119). -/
def Obligations.FloatLanes : Prop :=
  ∀ (s : State) (p : BitVec 3) (c b a d t : BitVec 4) (F : FloatFmt) (w : Nat) (draw : BitVec 3 → Nat → Nat), F = floatTy t → w = F.width →
    (∀ m j, draw m j = if m = 5 then (lfsrSkip (j + 1) s.ctx.seed).toNat else 0) →
    (∀ e ∈ ([(.vfadd p b a d t, FOp.add), (.vfsub p b a d t, .sub), (.vfmul p b a d t, .mul), (.vfscale p b a d t, .scale), (.vffma p c b a d t, .fma),
        (.vffms p c b a d t, .fms)] : List (Instr × FOp)),
      IssuesV s e.1 0 ∧ TakesV s e.1 fun k u => LanesWritten s w p d
        (fun j => e.2.run F k.mode (draw k.mode j) (elem w j (s.v a)) (elem w j (s.v b)) (if e.2 = .fma ∨ e.2 = .fms then elem w j (s.v c) else 0))
        (if k.mode = 5 then lfsrSkip (lanes w) s.ctx.seed else s.ctx.seed) u) ∧
    (∀ e ∈ ([(.vfdiv p b a d, FOp.div), (.vfsqrt p a d, .sqrt)] : List (Instr × FOp)),
      IssuesV s e.1 0 ∧ TakesV s e.1 fun k u => LanesWritten s 32 p d (fun j => e.2.run f32 k.mode (draw k.mode j) (elem 32 j (s.v a)) (elem 32 j (s.v b)) 0)
        (if k.mode = 5 then lfsrSkip 32 s.ctx.seed else s.ctx.seed) u) ∧
    ∀ e ∈ ([(.vfmin p b a d t, FOp.min), (.vfmax p b a d t, .max), (.vfabs p a d t, .abs), (.vfneg p a d t, .neg), (.vfrecip p a d t, .recip),
        (.vfrsq p a d t, .rsq), (.vfexp2 p a d t, .exp2), (.vfclass p a d t, .cls)] : List (Instr × FOp)),
      IssuesV s e.1 0 ∧ TakesV s e.1 fun _ u => LanesWritten s w p d (fun j => e.2.run F 0 0 (elem w j (s.v a)) (elem w j (s.v b)) 0) s.ctx.seed u

/-- Mask registers: a comparison writes the bits of its active elements and keeps the others; for bytes a bit is set when both its elements compare true; vmand, vmor and vmnot work on all 64 bits of the masks, p0 among them; vmpop counts the ones into g[d] (R67, R84, R117, R119, R130). -/
def Obligations.Masks : Prop :=
  ∀ (s : State) (p : BitVec 3) (b a d t : BitVec 4) (u2 : BitVec 2) (g : BitVec 5) (w : Nat) (F : FloatFmt) (q x y : BitVec 3), u2.toNat < 3 → w = 8 * 2 ^ u2.toNat →
    F = floatTy t → q = d.setWidth 3 → x = a.setWidth 3 → y = b.setWidth 3 →
    (∀ e ∈ ([(.vcmpeq p b a d u2, fun i j => decide (i = j)), (.vcmplt p b a d u2, fun i j => decide (sx w i < sx w j)), (.vcmpltn p b a d u2, fun i j => decide (i < j))] :
        List (Instr × (Nat → Nat → Bool))),
      IssuesV s e.1 0 ∧ TakesV s e.1 fun _ u => u.ctx.fflags = s.ctx.fflags ∧
        MaskWritten s q (compareBit s w p q fun j => e.2 (elem w j (s.v a)) (elem w j (s.v b))) u) ∧
    (∀ e ∈ ([(.vfcmpeq p b a d t, FCmp.eq), (.vfcmplt p b a d t, .lt), (.vfcmple p b a d t, .le)] : List (Instr × FCmp)), ∀ (r : Nat → Bool × Flags),
      (∀ j, r j = cmpF e.2 (decodeF F (elem F.width j (s.v a))) (decodeF F (elem F.width j (s.v b)))) →
      IssuesV s e.1 0 ∧ TakesV s e.1 fun _ u => MaskWritten s q (compareBit s F.width p q fun j => (r j).1) u ∧
        FlagsMerged s u (lanes F.width) (activeAt p (s.p p) F.width) fun j => (0, (r j).2)) ∧
    (∀ e ∈ ([(.vmand b a d, fun j => (s.p x).getLsbD j && (s.p y).getLsbD j), (.vmor b a d, fun j => (s.p x).getLsbD j || (s.p y).getLsbD j),
        (.vmnot a d, fun j => ! (s.p x).getLsbD j)] : List (Instr × (Nat → Bool))),
      IssuesV s e.1 0 ∧ TakesV s e.1 fun _ u => u.ctx.fflags = s.ctx.fflags ∧ MaskWritten s q e.2 u) ∧
    IssuesV s (.vmpop b g) 0 ∧ TakesV s (.vmpop b g) fun _ u => EngineLeaves s { s.ctx with g := u.ctx.g } u ∧
      ∀ r, u.g r = if r = g ∧ g ≠ 0 then BitVec.ofNat 64 ((List.range 64).countP fun j => (s.p y).getLsbD j) else s.g r

/-- Conversions and moves of lanes: vcvt at the wider width, vcvtsc to and from scaled e4m3 blocks of 32, broadcasts, one lane out and in, permutation by index, byte slide across two registers, compression to the front, expansion from it, and the merge by mask (R111, R123, R124, R125, R126, R127). -/
def Obligations.LaneMoves : Prop :=
  ∀ (s : State) (p w3 : BitVec 3) (c b a d st ty : BitVec 4) (w2 : BitVec 2) (im : BitVec 7) (g : BitVec 5) (n : Nat) (on : Nat → Bool), w2.toNat < 3 → n = 8 * 2 ^ w2.toNat →
    w3.toNat = w2.toNat → (∀ i, on i = activeAt p (s.p p) n i) →
    (∀ (T S : ElemTy) (wide : Nat) (draw : BitVec 3 → Nat → Nat) (f : BitVec 3 → Nat → Rounded), T = elemTy ty → S = elemTy st → wide = max S.width T.width →
      (∀ m j, draw m j = if m = 5 then (lfsrSkip (j + 1) s.ctx.seed).toNat else 0) → (∀ m j, f m j = convElem S T m (draw m j) (elem S.width j (s.v a))) →
      IssuesV s (.vcvt p ty st a d) 0 ∧ TakesV s (.vcvt p ty st a d) fun k u =>
        (∀ j < lanes T.width, elem T.width j (u.v d) = if lanes wide ≤ j then 0 else if activeAt p (s.p p) wide j then (f k.mode j).1 % 2 ^ T.width else elem T.width j (s.v d)) ∧
        (∀ r, r ≠ d → u.v r = s.v r) ∧ FlagsMerged s u (lanes wide) (activeAt p (s.p p) wide) (f k.mode) ∧
        EngineLeaves s { s.ctx with v := u.ctx.v, fflags := u.ctx.fflags, seed := if k.mode = 5 then lfsrSkip (lanes T.width) s.ctx.seed else s.ctx.seed } u) ∧
    (∀ (F : FloatFmt) (l : Nat) (val : Nat → FVal) (sc : Nat → Nat), st.toNat < 4 → F = (if st.toNat < 2 then bf16 else f32) → l = lanes F.width →
      (∀ j, val j = decodeF F (elem F.width j (s.v a))) → (∀ k, sc k = kc8Scale ((List.range 32).map fun j => val (32 * k + j))) →
      IssuesV s (.vcvtsc c st a d) 0 ∧ TakesV s (.vcvtsc c st a d) fun _ u => EngineLeaves s { s.ctx with v := u.ctx.v, fflags := u.ctx.fflags } u ∧
        (st.toNat % 2 = 0 → (c ≠ d → ∀ j < l, elem 8 j (u.v d) = (quantPow e4m3 ((sc (j / 32) : Int) - 127) (val j)).1 % 256) ∧
          (∀ k < l / 32, elem 8 k (u.v c) = sc k % 256) ∧ (c ≠ d → ∀ k, l / 32 ≤ k → k < 128 → elem 8 k (u.v c) = elem 8 k (s.v c)) ∧ ∀ r, r ≠ c → r ≠ d → u.v r = s.v r) ∧
        (st.toNat % 2 = 1 → (∀ j < l, elem F.width j (u.v d) = (kc8Decode F (elem 8 (j / 32) (s.v c)) (elem 8 j (s.v a))).1 % 2 ^ F.width) ∧ ∀ r, r ≠ d → u.v r = s.v r)) ∧
    (IssuesV s (.vsplat p w3 g d) (s.g g) ∧ TakesV s (.vsplat p w3 g d) fun k u => LanesWritten s n p d (fun _ => (k.x.toNat, 0)) s.ctx.seed u) ∧
    (IssuesV s (.vsplatf p w3 g d) ((s.f g).setWidth 64) ∧ TakesV s (.vsplatf p w3 g d) fun k u => LanesWritten s n p d (fun _ => (k.x.toNat, 0)) s.ctx.seed u) ∧
    (∀ (x : BitVec 3) (T : IntTy), elemTy (x.setWidth 4) = .int T → IssuesV s (.vext im b x g) 0 ∧ TakesV s (.vext im b x g) fun _ u =>
      EngineLeaves s { s.ctx with g := u.ctx.g } u ∧ ∀ r, u.g r = if r = g ∧ g ≠ 0 then BitVec.ofInt 64 (T.read (elem T.w im.toNat (s.v b))) else s.g r) ∧
    (im.toNat < lanes n → IssuesV s (.vins im w3 g d) (s.g g) ∧ TakesV s (.vins im w3 g d) fun k u =>
      VectorWritten s n d ((List.range (lanes n)).map fun j => if j = im.toNat then k.x.toNat else elem n j (s.v d)) u) ∧
    (IssuesV s (.vperm p w2 b a d) 0 ∧ TakesV s (.vperm p w2 b a d) fun _ u => LanesWritten s n p d (fun j => (elem n (elem n j (s.v b) % lanes n) (s.v a), 0)) s.ctx.seed u) ∧
    (IssuesV s (.vslide im b a d) 0 ∧ TakesV s (.vslide im b a d) fun _ u =>
      VectorWritten s 8 d ((List.range 128).map fun j => if im.toNat + j < 128 then elem 8 (im.toNat + j) (s.v a) else elem 8 (im.toNat + j - 128) (s.v b)) u) ∧
    (IssuesV s (.vcompress p w2 a d) 0 ∧ TakesV s (.vcompress p w2 a d) fun _ u => VectorWritten s n d (((List.range (lanes n)).filter on).map fun j => elem n j (s.v a)) u) ∧
    (IssuesV s (.vexpand p w2 a d) 0 ∧ TakesV s (.vexpand p w2 a d) fun _ u =>
      VectorWritten s n d ((List.range (lanes n)).map fun j => if on j then elem n ((List.range j).countP on) (s.v a) else 0) u) ∧
    IssuesV s (.vmerge p w2 b a d) 0 ∧ TakesV s (.vmerge p w2 b a d) fun _ u =>
      VectorWritten s n d ((List.range (lanes n)).map fun j => if on j then elem n j (s.v a) else elem n j (s.v b)) u

/-- Reductions and top-k: element 0 of v[d] takes the adjacent-pair tree over all lanes, a masked-off lane counting as the identity, the other lanes zero; vtopk writes the k best values with their indices into v[d] and v[d + 1], NaNs last, equal values by index, and fills up with −∞ and index −1 (R107, R128, R129). -/
def Obligations.Reductions : Prop :=
  (∀ (s : State) (p : BitVec 3) (ty a d : BitVec 4) (T : ElemTy) (w : Nat) (r : RedOp → Rounded), T = elemTy ty → w = T.width →
    (∀ k, r k = treeReduce (k.op T) (Nat.log2 (lanes w)) ((List.range (lanes w)).map fun j => if activeAt p (s.p p) w j then elem w j (s.v a) else k.identity T)) →
    ∀ e ∈ ([(.vredsum p ty a d, RedOp.sum), (.vredmax p ty a d, .max), (.vredmin p ty a d, .min)] : List (Instr × RedOp)),
      IssuesV s e.1 0 ∧ TakesV s e.1 fun _ u => u.v d = BitVec.ofNat 1024 ((r e.2).1 % 2 ^ w) ∧ (∀ q, q ≠ d → u.v q = s.v q) ∧
        EngineLeaves s { s.ctx with v := u.ctx.v, fflags := s.ctx.fflags ||| (r e.2).2 } u) ∧
  (∀ (op : Nat → Nat → Rounded) (w x y z : Nat), (treeReduce op 2 [w, x, y, z]).1 = (op (op w x).1 (op y z).1).1) ∧
  (∀ (s : State) (k : BitVec 5) (y : BitVec 1) (b a d : BitVec 4) (F : FloatFmt) (w : Nat) (half : BitVec 4 → List (Nat × Nat)), F = (if y = 0 then bf16 else f32) → w = F.width →
    (∀ r, half r = (List.range 32).map fun j => (elem w j (s.v r), elem 32 j (s.v (r + 1)))) →
    ∀ e ∈ ([(.vtopk k y b a d, (List.range (lanes w)).map fun j => (elem w j (s.v a), ((s.v b).toNat + j) % 2 ^ 32)), (.vtopkM k y b a d, half a ++ half b)] :
        List (Instr × List (Nat × Nat))),
      IssuesV s e.1 0 ∧ TakesV s e.1 fun _ u =>
        (∀ j < lanes w, elem w j (u.v d) = if j ≤ k.toNat then ((ranked F e.2).getD j (0, 0)).1 % 2 ^ w else if y = 0 then 0xFF80 else 0xFF800000) ∧
        (∀ j < 32, elem 32 j (u.v (d + 1)) = if j ≤ k.toNat then ((ranked F e.2).getD j (0, 0)).2 % 2 ^ 32 else 0xFFFFFFFF) ∧
        (∀ r, r ≠ d → r ≠ d + 1 → u.v r = s.v r) ∧ EngineLeaves s { s.ctx with v := u.ctx.v } u) ∧
  ∀ (F : FloatFmt) (l : List (Nat × Nat)), F = bf16 ∨ F = f32 → (ranked F l).Perm l ∧ (ranked F l).Pairwise fun x y => ranksBefore F y x = false

/-- Vector memory: vld and vst move up to 128 bytes at g[a] + 128 × offset, vldx and vstx elements at indices, vldbits fields of the bit stream; all checks come before anything is read or written, and a later element's bytes stand over an earlier one's; the checks trap with the causes of R134 at issue, an uncorrectable word with 0x1C1 at the instruction's PC (R113, R131, R132, R133, R134). That vld reads, and traps on, any of its 128 bytes whatever the mask is the model's reading (log 73), and so is the DETAIL 0x30000 of a range that begins inside the window and ends beyond it (log 26). -/
def Obligations.VectorMemory : Prop :=
  ∀ (s : State) (p : BitVec 3) (o x d : BitVec 4) (w : BitVec 2) (g : BitVec 5) (n : Nat) (addr : Word) (on : List Nat) (reads : List (Nat × Nat) → Prop) (stores : List (Nat × Byte) → State → Prop)
      (room : List (Nat × Byte) → Prop), w.toNat < 3 → n = 8 * 2 ^ w.toNat →
    addr = BitVec.ofNat 64 ((s.g g).toNat + 128 * o.toNat) → on = (List.range (lanes n)).filter (fun j => activeAt p (s.p p) n j) →
    (∀ l, reads l ↔ ∀ r ∈ l, Sound s r.1 r.2) →
    (∀ ws, room ws ↔ (s.saveLines s.ctx.slot ((ws.map fun y => y.1 / 64).eraseDups)).isSome = true ∧
      ∀ v ∈ s.hereCore.badPad, (∀ y ∈ ws, y.1 / 8 ≠ v) ∨ ∀ q < 8, ∃ y ∈ ws, y.1 = 8 * v + q) →
    (∀ ws u, stores ws u ↔ (∀ y, u.hereCore.pad.byte y = afterStores s ws y) ∧ (∀ v, u.hereCore.isFull v = s.hereCore.isFull v) ∧ ElsewhereSame s u ∧
      ∀ y, u.ctxAt y = woken (s.ctxAt y)) →
    (Readable s addr 128 8 → IssuesV s (.vld p o w g d) addr) ∧
    (Writable s addr 128 8 → IssuesV s (.vst p o w g d) addr) ∧
    (addr.toNat % 8 ≠ 0 → Traps (.vld p o w g d) s 0x080 addr ∧ Traps (.vst p o w g d) s 0x088 addr) ∧
    (addr.toNat % 8 = 0 → 0x30000 < addr.toNat + 128 → Traps (.vld p o w g d) s 0x081 (if addr.toNat < 0x30000 then 0x30000 else addr) ∧
      Traps (.vst p o w g d) s 0x089 (if addr.toNat < 0x30000 then 0x30000 else addr)) ∧
    (TakesV s (.vld p o w g d) fun k u => reads [(k.x.toNat, 128)] → LanesWritten s n p d (fun j => (leNat (s.readBytes (k.x.toNat + j * (n / 8)) (n / 8)), 0)) s.ctx.seed u) ∧
    (TakesV s (.vst p o w g d) fun k u => ∀ ws, ws = on.flatMap (fun j => elemBytes (s.v d) n j (k.x.toNat + j * (n / 8))) → room ws → stores ws u) ∧
    (∀ at_ : Word → Nat → Word, (∀ b j, at_ b j = BitVec.ofNat 64 (b.toNat + elem n j (s.v x) * (n / 8))) →
      ((s.g g).toNat % (n / 8) = 0 → (∀ j ∈ on, Readable s (at_ (s.g g) j) (n / 8) 1) → IssuesV s (.vldx p w x g d) (s.g g)) ∧
      ((s.g g).toNat % (n / 8) = 0 → (∀ j ∈ on, Writable s (at_ (s.g g) j) (n / 8) 1) → IssuesV s (.vstx p w x g d) (s.g g)) ∧
      ((s.g g).toNat % (n / 8) ≠ 0 → Traps (.vldx p w x g d) s 0x090 (s.g g) ∧ Traps (.vstx p w x g d) s 0x098 (s.g g)) ∧
      (TakesV s (.vldx p w x g d) fun k u => reads (on.map fun j => ((at_ k.x j).toNat, n / 8)) →
        LanesWritten s n p d (fun j => (leNat (s.readBytes (at_ k.x j).toNat (n / 8)), 0)) s.ctx.seed u) ∧
      (TakesV s (.vstx p w x g d) fun k u => ∀ ws, ws = on.flatMap (fun j => elemBytes (s.v d) n j (at_ k.x j).toNat) → room ws → stores ws u)) ∧
    (TakesV s (.vld p o w g d) fun k u => ∀ v ∈ s.hereCore.badPad, k.x.toNat ≤ 8 * v → 8 * v + 8 ≤ k.x.toNat + 128 →
      ∃ r, u.ctx.phase = .trapping r none none ∧ r.cause = 0x1C1 ∧ r.pc = k.pc) ∧
    ∀ (inc : BitVec 1) (m : BitVec 2) (f : BitVec 4) (b : BitVec 2) (k span : Nat) (fld : Word → Nat → Nat), k = f.toNat + 1 → span = ((s.b b).toNat + 64 * k - 1) / 8 + 1 - (s.b b).toNat / 8 →
      (∀ v j, fld v j = leNat (s.readBytes ((v.toNat + j * k) / 8) (((v.toNat + j * k) + k - 1) / 8 + 1 - (v.toNat + j * k) / 8)) / 2 ^ ((v.toNat + j * k) % 8) % 2 ^ k) →
      ((s.b b).toNat + 64 * k - 1 ≤ 0x17FFFF → s.actor.zonesBad = false → OnLines ((s.b b).toNat / 8) span (fun l => lineReadable s.actor l = true) → s.hereCore.vq.length < 2 →
        ∃ t, exec (.vldbits p inc m f b d) s = .next t ∧ (∃ y, t.hereCore.vq = s.hereCore.vq ++ [y] ∧ y.ins = .vldbits p inc m f b d ∧ y.x = (s.b b).setWidth 64 ∧ y.ctx = s.cx) ∧
          (∀ q, t.b q = if q = b ∧ inc = 1 then BitVec.ofNat 32 ((s.b b).toNat + 64 * k) else s.b q) ∧
          OnlyCtx s { s.ctx with b := t.ctx.b, pc := s.ctx.pc + 4, retired := s.ctx.retired + 1 } t ∧ PadKept s t 0 0 ∧ ElsewhereSame s t) ∧
      (0x17FFFF < (s.b b).toNat + 64 * k - 1 → Traps (.vldbits p inc m f b d) s 0x059 ((s.b b).setWidth 64)) ∧
      TakesV s (.vldbits p inc m f b d) fun y u => Sound s (y.x.toNat / 8) ((y.x.toNat + 64 * k - 1) / 8 + 1 - y.x.toNat / 8) →
        LanesWritten s 16 p d (fun j =>
          if m = 0 then (fld y.x j, 0) else if m = 1 then ((sx k (fld y.x j) % (2 ^ 16 : Nat)).toNat, 0)
          else convF (if m = 2 then bf16 else hf) 0 0 (decodeF e3m2 (fld y.x j))) s.ctx.seed u

/-! ## Tiles and the matrix engine -/

/-- Tile registers: tcfg takes a free tile in increasing order and the engine clears it, or waits while another holds it; trel gives it back, tzero clears it; slice moves put a vector register into a row or a column and read one out; tload and tstore move sixteen rows at a pitch, tstore leaving its words full; twait waits for the context's earlier commands; a tile that is not held traps with 0x060, a broken order with 0x061, a bad configuration with 0x062, an index out of range with 0x066 (R135 to R142, R147 to R151, R155). -/
def Obligations.TileRegisters : Prop :=
  ∀ (s : State) (b a : BitVec 5) (v : BitVec 4) (t : BitVec 3) (c : BitVec 13) (n w : Nat) (issued : Instr → Cmd → Prop) (data : State → Nat → Nat → Nat) (only : State → Prop), c = (s.hereCore.tile t).cfg →
    w = (if cfgType c < 2 then 32 else if cfgType c < 4 then 16 else 8) → n = 1024 / w →
    (∀ i k, issued i k ↔ ∃ u, exec i s = .next u ∧ u.hereCore.mq = s.hereCore.mq ++ [k] ∧ OnlyCtx s { s.ctx with pc := s.ctx.pc + 4, retired := s.ctx.retired + 1 } u ∧
      PadKept s u 0 0 ∧ ElsewhereSame s u) →
    (∀ u e j, data u e j = elem e j (u.hereCore.tile t).data) →
    (∀ u, only u ↔ (∀ x, x ≠ t → u.hereCore.tile x = s.hereCore.tile x) ∧ EngineLeaves s s.ctx u) →
    (s.holds t = false → ∀ i ∈ [Instr.trel t, .tzero t, .tldrow b v t, .tldcol b v t, .tstrow b v t, .tstcol b v t, .tload b a t, .tstore b a t], Traps i s 0x060 (t.setWidth 64)) ∧
    (s.holds t = false → (∃ x : BitVec 3, t.toNat < x.toNat ∧ s.holds x = true) → Traps (.tcfg a t) s 0x061 (t.setWidth 64)) ∧
    ((s.holds t = true ∨ ∀ x : BitVec 3, t.toNat < x.toNat → s.holds x = false) →
      (cfgOk (s.g a) = false → Traps (.tcfg a t) s 0x062 (t.setWidth 64)) ∧
      (cfgOk (s.g a) = true → s.hereCore.mq.length < 2 → s.holds t = true ∨ (s.hereCore.tile t).holder = none ∧ (∀ x ∈ s.hereCore.tileWait, x.2 ≠ t) →
        ∃ u k, exec (.tcfg a t) s = .next u ∧ u.hereCore.tile t = ⟨(s.hereCore.tile t).data, some s.cx, (s.g a).setWidth 13⟩ ∧ (∀ x, x ≠ t → u.hereCore.tile x = s.hereCore.tile x) ∧
          u.hereCore.mq = s.hereCore.mq ++ [k] ∧ k.ins = .tcfg a t ∧ OnlyCtx s { s.ctx with pc := s.ctx.pc + 4, retired := s.ctx.retired + 1 } u ∧ ElsewhereSame s u) ∧
      (cfgOk (s.g a) = true → s.holds t = false → (s.hereCore.tile t).holder ≠ none → ∃ u, exec (.tcfg a t) s = .next u ∧ u.ctx = { s.ctx with wait := .tile t } ∧
        ∀ x, u.hereCore.tile x = s.hereCore.tile x)) ∧
    (s.holds t = true → s.hereCore.mq.length < 2 →
      issued (.trel t) { s.cmd (.trel t) with cfg := c } ∧ issued (.tzero t) { s.cmd (.tzero t) with cfg := c } ∧
      ((s.g b).toNat < 16 → issued (.tldrow b v t) { s.cmd (.tldrow b v t) with x := s.g b, vec := s.v v, cfg := c } ∧ issued (.tstrow b v t) { s.cmd (.tstrow b v t) with x := s.g b, cfg := c }) ∧
      (cfgType c ≠ 7 → (s.g b).toNat < n → issued (.tldcol b v t) { s.cmd (.tldcol b v t) with x := s.g b, vec := s.v v, cfg := c } ∧
        issued (.tstcol b v t) { s.cmd (.tstcol b v t) with x := s.g b, cfg := c }) ∧
      (16 ≤ (s.g b).toNat → Traps (.tldrow b v t) s 0x066 (t.setWidth 64)) ∧
      (n ≤ (s.g b).toNat → cfgType c ≠ 7 → Traps (.tldcol b v t) s 0x066 (t.setWidth 64)) ∧ ((s.g b).toNat < 32 → cfgType c = 7 → Traps (.tstcol b v t) s 0x067 (t.setWidth 64)) ∧
      ∀ p, p = (if b = 0 then 128 else (s.g b).toNat) → p < 65536 → p % 8 = 0 → (s.g a).toNat % 8 = 0 → (s.g a).toNat + 15 * p + 128 ≤ 0x30000 →
        (s.actor.zonesBad = false → (∀ r < 16, OnLines ((s.g a).toNat + r * p) 128 (fun l => lineReadable s.actor l = true) ∧ Sound s ((s.g a).toNat + r * p) 128) →
          issued (.tload b a t) { s.cmd (.tload b a t) with x := s.g a, cfg := c, opA := (List.range 16).flatMap fun r => s.readBytes ((s.g a).toNat + r * p) 128 }) ∧
        (s.actor.zonesBad = false → (∀ r < 16, OnLines ((s.g a).toNat + r * p) 128 (fun l => lineWritable s.actor s.ctx l = true)) →
          (s.saveLines s.ctx.slot ((List.range 16).flatMap fun r => linesOf ((s.g a).toNat + r * p) 128)).isSome = true →
          issued (.tstore b a t) { s.cmd (.tstore b a t) with x := s.g a, y := BitVec.ofNat 64 p, cfg := c })) ∧
    (TakesM s (.tcfg a t) fun _ u => (u.hereCore.tile t).data = 0 ∧ (u.hereCore.tile t).holder = (s.hereCore.tile t).holder ∧ only u) ∧
    (TakesM s (.tzero t) fun _ u => (u.hereCore.tile t).data = 0 ∧ (u.hereCore.tile t).holder = (s.hereCore.tile t).holder ∧ only u) ∧
    (TakesM s (.trel t) fun _ u => (u.hereCore.tile t).data = 0 ∧ (u.hereCore.tile t).holder = none ∧ only u) ∧
    (TakesM s (.tldrow b v t) fun k u => k.x.toNat < 16 → (∀ j < 16, data u 1024 j = if j = k.x.toNat then k.vec.toNat else data s 1024 j) ∧ only u) ∧
    (TakesM s (.tload b a t) fun k u => k.opA.length = 2048 → (∀ j < 2048, data u 8 j = (k.opA.getD j 0).toNat) ∧ only u) ∧
    ((∀ y ∈ s.hereCore.badTiles, y / 256 ≠ t.toNat) →
      (TakesM s (.tldcol b v t) fun k u => k.cfg = c → k.x.toNat < n → (∀ j < 16 * n, data u w j = if j % n = k.x.toNat then elem w (j / n) k.vec else data s w j) ∧ only u) ∧
      (TakesM s (.tstrow b v t) fun k u => k.x.toNat < 16 → (u.v v).toNat = data s 1024 k.x.toNat ∧ (∀ r, r ≠ v → u.v r = s.v r) ∧ EngineLeaves s { s.ctx with v := u.ctx.v } u ∧ u.hereCore.tiles = s.hereCore.tiles) ∧
      (TakesM s (.tstcol b v t) fun k u => k.cfg = c → k.x.toNat < n → (∀ r < 16, elem w r (u.v v) = data s w (r * n + k.x.toNat)) ∧ (∀ r, 16 ≤ r → r < n → elem w r (u.v v) = 0) ∧
        (∀ r, r ≠ v → u.v r = s.v r) ∧ EngineLeaves s { s.ctx with v := u.ctx.v } u ∧ u.hereCore.tiles = s.hereCore.tiles) ∧
      TakesM s (.tstore b a t) fun k u =>
        (∀ r q, r < 16 → q < 128 → (∀ r' q', r < r' → r' < 16 → q' < 128 → k.x.toNat + r' * k.y.toNat + q' ≠ k.x.toNat + r * k.y.toNat + q) →
          (u.hereCore.pad.byte (k.x.toNat + r * k.y.toNat + q)).toNat = data s 8 (128 * r + q) ∧ u.hereCore.isFull ((k.x.toNat + r * k.y.toNat + q) / 8) = true) ∧
        (∀ y, (∀ r < 16, y < k.x.toNat + r * k.y.toNat ∨ k.x.toNat + r * k.y.toNat + 128 ≤ y) → u.hereCore.pad.byte y = s.hereCore.pad.byte y) ∧ u.hereCore.tiles = s.hereCore.tiles ∧
        (∀ y, u.ctxAt y = woken (s.ctxAt y)) ∧ ElsewhereSame s u) ∧
    ((∀ k ∈ s.hereCore.mq, k.ctx ≠ s.cx) → Continues .twait s (s.ctx.pc + 4)) ∧
    ((∃ k ∈ s.hereCore.mq, k.ctx = s.cx) → ∃ u, exec .twait s = .next u ∧ u = s.setCtx { s.ctx with wait := .engine })

/-- mma: with its tiles held and configured as the opcode wants, and its scratchpad operands within their limits, the command is queued with the operands and scales it reads; when the engine takes it the accumulator tile gets the product added group by group, rows M to 15 keep their content, the flags are merged, and no other register or tile changes; a tile of the wrong role traps with 0x063, of the wrong type with 0x064 (R106, R136, R139, R143, R144, R145, R152, R153, R154). -/
def Obligations.MatrixMultiply : Prop :=
  ∀ (s : State) (c b a : BitVec 5) (t : BitVec 3) (i : Instr) (op : MmaOp) (m : Nat) (z : BitVec 5),
    (i, op, z) ∈ ([(.mmaBf16 c b a t, mmaBf16Op, c), (.mmaHf c b a t, mmaHfOp, c), (.mmaE4e4 c b a t, mmaE4e4Op, c), (.mmaE4e5 c b a t, mmaE4e5Op, c),
      (.mmaE5e4 c b a t, mmaE5e4Op, c), (.mmaE5e5 c b a t, mmaE5e5Op, c), (.mmaBf16e4 c b a t, mmaBf16e4Op, c), (.mmaI8 b a t, mmaI8Op, 0), (.mmaTi8 b a t, mmaTi8Op, 0),
      (.mmaTbf16 c b a t, mmaTbf16Op, c)] : List (Instr × MmaOp × BitVec 5)) → m = cfgRows (s.hereCore.tile t).cfg →
    (∀ x, tileChecks op t a b s = some (0x060, x) → s.holds x = false ∧ Traps i s 0x060 (x.setWidth 64)) ∧
    (s.holds t = true → isPair a = true → isPair b = true → cfgRole (s.hereCore.tile t).cfg ≠ 0 → Traps i s 0x063 (t.setWidth 64)) ∧
    (tileChecks op t a b s = none → operandFail op false m t a s = none → operandFail op true m t b s = none → s.hereCore.mq.length < 2 →
      (isPair a = true → ∀ r ∈ operandRuns op false m (pairOf a s).1 (pairOf a s).2, Sound s r.1 r.2) →
      (isPair b = true → ∀ r ∈ operandRuns op true m (pairOf b s).1 (pairOf b s).2, Sound s r.1 r.2) →
      ∃ u k, exec i s = .next u ∧ u.hereCore.mq = s.hereCore.mq ++ [k] ∧ k.ins = i ∧ k.ctx = s.cx ∧ k.cfg = (s.hereCore.tile t).cfg ∧
        k.z = BitVec.ofNat 64 ((s.f z).toNat + 2 ^ 32 * (s.f (z + 1)).toNat) ∧ (isPair a = true → k.opA = operandBytes op false m (pairOf a s).1 (pairOf a s).2 s) ∧
        (isPair b = true → k.opB = operandBytes op true m (pairOf b s).1 (pairOf b s).2 s) ∧
        OnlyCtx s { s.ctx with pc := s.ctx.pc + 4, retired := s.ctx.retired + 1 } u ∧ PadKept s u 0 0 ∧ ElsewhereSame s u) ∧
    ((∀ x ∈ tilesNamed t a b, ∀ y ∈ s.hereCore.badTiles, y / 256 ≠ x.toNat) → TakesM s i fun k u =>
      (∀ r j, cfgRows k.cfg ≤ r → r < 16 → j < 32 → elem 32 (32 * r + j) (u.hereCore.tile t).data = elem 32 (32 * r + j) (s.hereCore.tile t).data) ∧
      (op.int = true → isPair a = false → isPair b = false → op.bTy ≠ 7 → ∀ r j, r < cfgRows k.cfg → cfgRows k.cfg ≤ 16 → j < 32 →
        elem 32 (32 * r + j) (u.hereCore.tile t).data =
          (((elem 32 (32 * r + j) (s.hereCore.tile t).data : Int) + ((List.range 64).map fun x =>
            sx 8 (elem 8 (128 * r + x) (s.hereCore.tile (a.setWidth 3)).data) * sx 8 (elem 8 (32 * x + j) (s.hereCore.tile (b.setWidth 3)).data)).sum) % (2 ^ 32 : Nat)).toNat) ∧
      (u.hereCore.tile t).data = (mmaTile op k (isPair a) (isPair b) (s.hereCore.tile (a.setWidth 3)) (s.hereCore.tile (b.setWidth 3)) (s.hereCore.tile t)).1 ∧
      (u.hereCore.tile t).holder = (s.hereCore.tile t).holder ∧ (∀ x, x ≠ t → u.hereCore.tile x = s.hereCore.tile x) ∧
      EngineLeaves s { s.ctx with fflags := s.ctx.fflags ||| (mmaTile op k (isPair a) (isPair b) (s.hereCore.tile (a.setWidth 3)) (s.hereCore.tile (b.setWidth 3)) (s.hereCore.tile t)).2 } u)


/-! ## Activations from start to end -/

/-- Dispatch: the message that the table walk gives to the chosen actor starts an activation in the free context: the PC is the junction's handler, g1 to g6 hold the message's address, length, endpoint, class, sender and the state after the advance (the close-point of a notice, the status of a reply), every other g register is zero, VNOW, SEED and BUDGET are those of the message and the actor; the endpoint has advanced, and a close notice is acknowledged (R18, R32, R176, R341). A counted message advances its endpoint and the counter's word and starts nothing while LEFT is not zero (R380). A loan reaches the borrower and its running activation (R342). -/
def Obligations.Dispatching : Prop :=
  (∀ (s u : State) (c : CoreId) (k : BitVec 4) (h : Held) (x : BitVec 2) (q : EpRec) (a : Actor), u = { s with here := c, cx := 0 } → a = u.actorAt k →
    u.dispatchChoice = some (k, h, x) → a.counts h = false → a.badFor h.ep h.msg.hdr.cls = false → u.hereCore.advanceBy (a.ep h.ep) h = .ok q → a.isHandler h.msg.hdr.cls = true →
    (u.logStart k h h.msg.hdr.cls false).2 = true → (∀ n v, h.msg.kind.status = some (n, v) → n.toNat < 0x1C0 ∨ 0x1E0 ≤ n.toNat) → (∀ r d w y, h.msg.kind ≠ .diversion r d w y) →
    Happens (if h.msg.hdr.close then .closeNotice c k h.ep else .activationDispatch c) s fun t => ∃ y, y = ctxOn t c x ∧
      y.phase = .running ∧ y.wait = .none ∧ y.slot = k ∧
      y.pc = BitVec.ofNat 16 (u.hereCore.imageBase a.aid.tenant a.image + 2 * a.junction[h.msg.hdr.cls.toNat].offset.toNat) ∧
      y.g[1] = h.addr.setWidth 64 ∧ y.g[2] = BitVec.ofNat 64 h.msg.payload.length ∧ y.g[3] = h.ep.setWidth 64 ∧ y.g[4] = h.msg.hdr.cls.setWidth 64 ∧
      y.g[5] = h.msg.hdr.key.sender.setWidth 64 ∧ (∀ r : Fin 32, r.val = 0 ∨ 7 ≤ r.val → y.g[r] = 0) ∧
      (h.msg.kind = .plain → h.msg.hdr.close = false → y.g[6] = q.state.setWidth 64) ∧ (h.msg.kind = .plain → h.msg.hdr.close = true → y.g[6] = q.cpoint.setWidth 64) ∧
      (∀ n v, h.msg.kind.status = some (n, v) → y.g[6] = n.setWidth 64) ∧
      y.vnow = h.msg.hdr.key.vrt ∧ y.vout = 1 ∧ y.seed = seedOf h.msg.hdr.key ∧ y.budget = a.budget ∧ y.fflags = 0 ∧ y.prioBase = a.prio ∧ y.prioEff = a.effective ∧
      y.staging = [] ∧ y.retired = (ctxOn s c x).retired ∧ (∀ z, z ≠ x → ctxOn t c z = ctxOn s c z) ∧ OtherCores s t c ∧ (t.residentAt ⟨c, k⟩).ep h.ep = q ∧
      (h.msg.hdr.close = true → h.msg.kind = .plain → q.status = .closed ∧ q.ccause = h.cause ∧ OnWay t (.ack (a.dest h.ep) (a.peerOf h.ep) false))) ∧
  (∀ (s u : State) (c : CoreId) (k : BitVec 4) (h : Held) (q : EpRec) (a : Actor) (w : Nat) (v : Word), u = { s with here := c, cx := 0 } → a = u.actorAt k →
    u.idle k = true → u.hereCore.stopped = false → u.nextOf k = some h → a.counts h = true → w = a.jreg.word.toNat → u.hereCore.badIn (8 * w) 8 = none →
    v = u.word64 w → v.getLsbD 63 = true → u.hereCore.advanceBy (a.ep h.ep) h = .ok q → v.extractLsb' 32 16 ≠ 1 → a.badFor h.ep (v.extractLsb' 56 6) = false → a.disc ≠ .timed → AtRest u a → a.retired = false →
    Happens (.countedMessage c k) s fun t =>
      State.word64 { t with here := c } w = v.extractLsb' 48 16 ++ (v.extractLsb' 32 16 - 1) ++
        (if h.msg.hdr.close then v.extractLsb' 16 16 + 1 ++ v.setWidth 16 else v.extractLsb' 16 16 ++ (v.setWidth 16 + 1)) ∧
      (t.residentAt ⟨c, k⟩).ep h.ep = q ∧ (∀ z, ctxOn t c z = ctxOn s c z) ∧ OtherCores s t c) ∧
  (∀ (s u : State) (c : CoreId) (k : BitVec 4), u = { s with here := c, cx := 0 } → u.hasActor k = true →
    Happens (.priorityLoan c k) s fun t => (t.residentAt ⟨c, k⟩).lent = u.loanOf (u.actorAt k).aid ∧ OtherCores s t c ∧
      ∀ x, (u.ctxOf k = some x → ctxOn t c x = { ctxOn s c x with prioEff := if (ctxOn s c x).prioBase.ult (u.loanOf (u.actorAt k).aid) then u.loanOf (u.actorAt k).aid else (ctxOn s c x).prioBase }) ∧
        (u.ctxOf k ≠ some x → ctxOn t c x = ctxOn s c x))

/-- The ends of an activation. DONE_RELEASE frees the context once the waits of done are met and what was staged has left; a timed actor's activation joins those that have ended. TRAP_SEQUENCE frees it too and counts the trap by its class; a timed actor's trap is held. Undoing a record puts back what it holds: a line with its full bits, an endpoint, the join register. A budget of 0 traps with 0x160. A kill ends a running activation by the trap 0x1CB, and an actor that runs none goes, from its core or its save area. ROLLBACK undoes the ended activations that a call reaches, newest first, and no others; a message that waits for a slot is none of the actor's yet (R276, R345, R347, R367, R381, R38; log 75, log 76). -/
def Obligations.ActivationEnds : Prop :=
  (∀ (s u w : State) (c : CoreId) (x : BitVec 2) (retire : Bool), u = { s with here := c, cx := x } → u.ctx.phase = .releasing retire → u.waitsMet x = true → u.hereCore.stopped = false → u.tooLate u.ctx.slot = false →
    (u.actor.disc = .timed ∨ ∀ y ∈ u.hereCore.fenced, y.slot ≠ u.ctx.slot) → u.releaseFrom u.ctx.slot u.ctx.staging = (w, []) → w.waitsMet x = true →
    Happens (.doneRelease c x) s fun t => (∃ r, ctxOn t c x = { Ctx.reset with retired := r, freedAt := some s.time }) ∧
      (u.ctx.staging = [] → ctxOn t c x = { Ctx.reset with retired := u.ctx.retired, freedAt := some s.time } ∧ (∀ y, y ≠ x → ctxOn t c y = woken (ctxOn s c y)) ∧
        (u.actor.disc = .timed → u.actor.retired = false → (t.residentAt ⟨c, u.ctx.slot⟩).ended = u.actor.ended ++ [⟨u.ctx.key, retire⟩]) ∧
        (u.actor.disc ≠ .timed → retire = true → (∀ e, (u.actor.ep e).status ≠ .closing) → ∀ z ∈ (t.core c).actors, z.1 ≠ u.ctx.slot.toNat))) ∧
  (∀ (s u : State) (c : CoreId) (x : BitVec 2) (r : TrapRec) (close : Option (BitVec 4 × BitVec 6 × BitVec 6)), u = { s with here := c, cx := x } → u.ctx.phase = .trapping r close none →
    u.copying x u.ctx.slot = false → u.tooLate u.ctx.slot = false → .log ∉ u.actor.bad →
    Happens (.trapSequence c x) s fun t => ctxOn t c x = { Ctx.reset with retired := u.ctx.retired, freedAt := some s.time } ∧
      (u.actor.disc ≠ .timed → Counted s t (0x3000 + 8 * (r.cause.toNat / 32))) ∧
      (u.actor.disc = .timed → u.actor.retired = false → (t.residentAt ⟨c, u.ctx.slot⟩).ended = u.actor.ended ++ [⟨u.ctx.key, false⟩] ∧
        (t.residentAt ⟨c, u.ctx.slot⟩).pending = some ⟨r, close, u.ctx.trigger, u.ctx.prioEff⟩)) ∧
  (∀ (s : State) (k : BitVec 4) (n : BitVec 12) (full : List Bool) (data : List Byte) (bad : List Nat), full.length = 8 → data.length = 64 → ∃ t, t = s.undo k (.line n full data bad) ∧ (∀ w ∈ bad, w ∈ t.hereCore.badPad) ∧
    (∀ j < 64, some (t.hereCore.pad.byte (64 * n.toNat + j)) = data[j]?) ∧ (∀ j < 8, some (t.hereCore.isFull (8 * n.toNat + j)) = full[j]?) ∧
    (∀ y, y / 64 ≠ n.toNat → t.hereCore.pad.byte y = s.hereCore.pad.byte y) ∧ ∀ w, w / 8 ≠ n.toNat → t.hereCore.isFull w = s.hereCore.isFull w) ∧
  (∀ (s : State) (k e : BitVec 4) (r : EpRec) (x : EpAux), ((s.undo k (.endpoint e r x)).actorAt k).ep e = r ∧ ((s.undo k (.endpoint e r x)).actorAt k).auxOf e = x ∧
    ∀ j, j ≠ e → ((s.undo k (.endpoint e r x)).actorAt k).ep j = (s.actorAt k).ep j) ∧
  (∀ (s : State) (k : BitVec 4) (v : JReg), ((s.undo k (.jreg v)).actorAt k).jreg = v) ∧
  (∀ (s u : State) (c : CoreId) (x : BitVec 2), u = { s with here := c, cx := x } → u.ctx.budget = 0 → u.hereCore.stopped = false → u.ctx.phase = .running →
    Happens (.budgetExhausted c x) s fun t => (ctxOn t c x).phase = .trapping (trapRecord u.ctx 0x160 0) none none ∧ (∀ y, y ≠ x → ctxOn t c y = woken (ctxOn s c y)) ∧ PadsKept s t ∧ StoreKept s t ∧ OtherCores s t c) ∧
  (∀ (s u : State) (a : AId) (l : Loc), s.locOf a = some l → u = { s with here := l.core, cx := 0 } → u.hereCore.stopped = false → u.evicting a = false →
    (u.ctxOf l.slot = none → Happens (.kill a.tenant a.id) s fun t => ∀ z ∈ (t.core l.core).actors, z.1 ≠ l.slot.toNat) ∧
    ∀ x, u.ctxOf l.slot = some x → (ctxOn s l.core x).phase = .running →
      Happens (.kill a.tenant a.id) s fun t => (ctxOn t l.core x).phase = .trapping (trapRecord (ctxOn s l.core x) 0x1CB 0) none (some 0x1CB)) ∧
  (∀ (s : State) (a : AId) (x : Saved), s.locOf a = none → s.savedOf a = some x → Happens (.kill a.tenant a.id) s fun t => t.savedOf a = none) ∧
  ∀ (s u : State) (c : CoreId) (k : BitVec 4) (undone : Key → Prop), u = { s with here := c, cx := 0 } → (∃ z ∈ u.hereCore.called, z.1 = k) → u.ctxOf k = none → u.hasActor k = true → AtRest u (u.actorAt k) → .log ∉ (u.actorAt k).bad → u.hereCore.antiFull ≠ some s.time →
    (∀ y, undone y ↔ ∃ z ∈ u.hereCore.called, z.1 = k ∧ (z.2.1.before y = true ∨ z.2.2 = true ∧ z.2.1 = y)) →
    Happens (.rollback c k) s fun t => (∀ z ∈ (t.core c).called, z.1 ≠ k) ∧ RegsKept s t ∧
      (∃ l, (u.actorAt k).ended = (t.residentAt ⟨c, k⟩).ended ++ l ∧ ∀ e ∈ l, undone e.key) ∧ ∀ e, (t.residentAt ⟨c, k⟩).ended.getLast? = some e → ¬ undone e.key

/-! ## What arrives -/

/-- Arrivals at an actor's endpoint: a message with a free slot is put into its buffer, its payload written at the slot and nowhere else; one for a closed endpoint is discarded and counted; one beyond the buffer closes the endpoint with 0x0CF. An anti-message removes the positive that waits, or calls for a rollback of the activation that consumed it. An acknowledgement closes the endpoint that waits for it, or opens one that a recvep has moved. A relocation notice turns the peer to the new location and sends the marker and the acknowledgement, across the link where an end of the channel is in another module; the old location forwards what it holds; the marker ends the wait of what came directly. A fence that is met lets what waits behind it go (R32, R175, R177, R182, R205, R235, R278). -/
def Obligations.Arrivals : Prop :=
  (∀ (s : State) (n : Nat) (l : Loc) (e : BitVec 4) (m : Msg) (a : Actor), s.packet n = some (.msg (.ep l e) m) → m.hdr.anti = false → m.hdr.fails = false → s.first n (.msg (.ep l e) m) = true →
    s.halted l.core = false → (s.residentAt l).keyedLater s.time e m.hdr.key = false → s.passedOver l m.hdr.key = false → s.locOf m.rcpt = some l → a = s.residentAt l → (s.core l.core).antis = [] → (s.base (homeOf a.aid)).heldAntis = [] → a.logAnti m.hdr.key = false →
    a.retired = false → (s.core l.core).badItins = [] →
    (∀ h, a.land e false m s.time (State.armedAt { s with here := l.core, tick := s.tick + 1 } l.slot) = .keep h → h.place ≠ .waiting →
      Happens (.messageArrival n) s fun t => (t.residentAt l).box = a.box ++ [h] ∧ h.msg = m ∧ (∀ j < m.payload.length, some ((t.core l.core).pad.byte (h.addr.toNat + j)) = m.payload[j]?) ∧
        (∀ y, (y < h.addr.toNat ∨ h.addr.toNat + m.payload.length ≤ y) → (t.core l.core).pad.byte y = (s.core l.core).pad.byte y) ∧ t.flight = s.flight.eraseIdx n ∧
        RegsKept s t ∧ OtherCores s t l.core ∧ StoreKept s t) ∧
    (m.kind = .plain → (a.ep e).status = .closed → (a.auxOf e).forwardTo = none →
      Happens (.messageArrival n) s fun t => Counted s t 0x30B8 ∧ (t.residentAt l).box = a.box ∧ t.flight = s.flight.eraseIdx n ∧ PadsKept s t ∧ RegsKept s t ∧ StoreKept s t) ∧
    (m.kind = .plain → a.disc ≠ .timed → a.land e false m s.time (State.armedAt { s with here := l.core, tick := s.tick + 1 } l.slot) = .full →
      Happens (.messageArrival n) s fun t => ((t.residentAt l).ep e).ccause = 0x0CF ∧ ((t.residentAt l).ep e).cbypeer = false ∧ Counted s t 0x30B8 ∧ PadsKept s t ∧ RegsKept s t)) ∧
  (∀ (s : State) (n : Nat) (l : Loc) (e : BitVec 4) (m : Msg) (a : Actor), s.packet n = some (.msg (.ep l e) m) → m.hdr.anti = true → m.hdr.fails = false → s.halted l.core = false → s.locOf m.rcpt = some l →
    s.overrun m.rcpt = false → a = s.residentAt l → AtRest s a →
    (a.waits m.hdr.key = true → Happens (.antiMessage n) s fun t => (t.residentAt l).waits m.hdr.key = false ∧ Counted s t 0x3088 ∧ RegsKept s t ∧ StoreKept s t) ∧
    (a.waits m.hdr.key = false → (s.core l.core).antis.length < 64 → ∀ key, consumerIn m.hdr.key a.log false = some key →
      Happens (.antiMessage n) s fun t => (t.core l.core).called = (s.core l.core).called ++ [(l.slot, key, true)] ∧ (t.core l.core).antis = (s.core l.core).antis ++ [(a.aid, m.hdr)] ∧
        PadsKept s t ∧ RegsKept s t ∧ StoreKept s t)) ∧
  (∀ (s : State) (n : Nat) (l : Loc) (e : BitVec 4) (who : AId) (move : Bool) (a : Actor), s.packet n = some (.ack (.ep l e) who move) → s.halted l.core = false → s.locOf who = some l →
    a = s.residentAt l → a.retired = false →
    (move = false → (a.ep e).status = .closing → (a.auxOf e).closeLeft = true →
      Happens (.acknowledgement n) s fun t => ((t.residentAt l).ep e).status = .closed ∧ ((t.residentAt l).auxOf e).run = none ∧ PadsKept s t ∧ RegsKept s t ∧ StoreKept s t) ∧
    (move = true → (a.ep e).status = .connecting → (a.auxOf e).holdDirect = true → (a.auxOf e).asked = none → Happens (.acknowledgement n) s fun t => ((t.residentAt l).ep e).status = .opened ∧ PadsKept s t ∧ RegsKept s t)) ∧
  (∀ (s : State) (n : Nat) (q : Loc) (k : BitVec 4) (who : AId) (v : Move) (a : Actor), s.packet n = some (.reloc (.ep q k) who v) → s.halted q.core = false →
    s.first n (.reloc (.ep q k) who v) = true → s.locOf who = some q → a = s.residentAt q → (a.auxOf k).forwardTo = none → (a.ep k).status = .opened ∨ (a.ep k).status = .closing →
      Happens (.relocationNotice n) s fun t => ((t.residentAt q).ep k).peer = v.loc.peer v.ep ∧ ((t.residentAt q).auxOf k).peerId = v.id ∧
        (v.mod = s.coords → ((t.residentAt q).ep k).pkind = .actor) ∧ (v.mod ≠ s.coords → ((t.residentAt q).ep k).pkind = .remote ∧ ((t.residentAt q).ep k).pmod = v.mod) ∧
        OnWay t (.marker (if v.oldMod = s.coords then .ep v.old v.oldEp else .link v.oldMod v.old v.oldEp) ⟨who.tenant, v.oldId⟩ false who.id v) ∧
        OnWay t (.ack (if v.mod = s.coords then .ep v.loc v.ep else .link v.mod v.loc v.ep) ⟨who.tenant, v.id⟩ true) ∧ PadsKept s t ∧ RegsKept s t ∧ StoreKept s t) ∧
  (∀ (s : State) (n : Nat) (tenant : BitVec 4) (v : Move) (q : Loc) (a : Actor), s.packet n = some (.forwardReq tenant v) → v.oldMod = s.coords → s.halted v.old.core = false →
    s.locOf ⟨tenant, v.oldId⟩ = some q → a = s.residentAt q → AtRest s a →
      Happens (.forwardingRequest n) s fun t => ((t.residentAt q).auxOf v.oldEp).forwardTo = some v ∧ PadsKept s t ∧ RegsKept s t ∧ StoreKept s t ∧
        ∀ h ∈ a.box, (h.ep = v.oldEp ∧ h.consumed = false ∧ h.msg.kind.isOwn = true → h ∉ (t.residentAt q).box ∧
          ∃ m, OnWay t (.msg (.fwd v.mod v.loc v.ep) m) ∧ m.payload = h.msg.payload ∧ m.hdr.key = h.msg.hdr.key ∧ m.rcpt = ⟨h.msg.rcpt.tenant, v.id⟩) ∧
          (h.ep ≠ v.oldEp ∨ h.consumed = true ∨ h.msg.kind.isOwn = false → h ∈ (t.residentAt q).box)) ∧
  (∀ (s : State) (n : Nat) (q : Loc) (k : BitVec 4) (who : AId) (p : BitVec 24) (v : Move), s.packet n = some (.marker (.ep q k) who true p v) → s.halted q.core = false →
    s.first n (.marker (.ep q k) who true p v) = true → s.locOf who = some q →
      Happens (.forwardingEndMarker n) s fun t => ((t.residentAt q).auxOf k).holdDirect = false ∧ (∀ h ∈ (t.residentAt q).box, h.ep = k → h.direct = false) ∧ RegsKept s t ∧ StoreKept s t) ∧
  ∀ (s u : State) (c : CoreId) (k : BitVec 4) (d : Deferred) (kind : FenceKind) (sc : BitVec 4) (before : BitVec 40) (pages : List Nat), u = { s with here := c, cx := 0 } →
    u.hereCore.stopped = false → (u.hereCore.fenced.filter fun x => x.slot = k) = [d] → d.item = .fence kind sc before pages → u.fenceMet (u.actorAt k).aid kind sc before = true → (∀ p ∈ pages, u.walking p = false) →
      Happens (.fenceConditionMet c k) s fun t => (t.core c).fenced = (s.core c).fenced.filter (fun x => x.slot ≠ k) ∧ RegsKept s t ∧ OtherCores s t c

/-! ## Handshakes -/

/-- Handshakes at actors: a connect that passes the acceptor's checks makes its endpoint connecting and is answered with 0, one that fails is answered with the cause and changes nothing but the sequence; the answer opens the connector's endpoint, confirms and reports 0, or gives back the old status and reports the cause; the confirmation opens the acceptor's endpoint with its report, the undo arms it again; of the connects that an endpoint takes in one cycle the lowest wins; a spawn creates the child in a free slot of the target core with its e0 open to the parent, opens the parent's endpoint and reports the child's identifier (R172, R173, R174, R184). Which fields of the record a failed answer and an undo leave is the model's reading (log 30), and what a report carries of an agent that does not exist, the child of a spawn that failed among them, is a free value (logs 8 and 40). -/
def Obligations.Handshakes : Prop :=
  (∀ (s : State) (n : Nat) (c : Conn) (who : AId) (l : Loc) (a : Actor) (e : BitVec 4), s.packet n = some (.connect (.home who) c) → s.locOf who = some l → s.halted l.core = false →
    a = s.residentAt l → (a.auxOf (c.peer.extractLsb' 24 4)).askedLater s.time c.key = false → e = c.peer.extractLsb' 24 4 →
    (∀ b, a.receiveConnect (s.core l.core) s.coords c = .ok b → Happens (.connectRequest n) s fun t => ((t.residentAt l).ep e).status = .connecting ∧ (t.residentAt l).seq = a.seq + 1 ∧
      (∀ j, j ≠ e → (t.residentAt l).ep j = a.ep j) ∧ PadsKept s t ∧ RegsKept s t ∧ StoreKept s t ∧ OtherCores s t l.core ∧
      OnWay t (.answer ⟨0, c, who.id, if c.pmod = s.coords then .actor else .remote, l.peer e, s.coords, a.seq⟩)) ∧
    ∀ x, a.receiveConnect (s.core l.core) s.coords c = .error x → Happens (.connectRequest n) s fun t => OnWay t (.answer ⟨x, c, who.id, .actor, 0, 0, a.seq⟩) ∧
      t.residentAt l = { a with seq := a.seq + 1 } ∧ PadsKept s t ∧ RegsKept s t ∧ StoreKept s t ∧ OtherCores s t l.core) ∧
  (∀ (s : State) (n : Nat) (x : Answer) (l : Loc) (a : Actor) (e : BitVec 4) (key : Key), s.packet n = some (.answer x) → x.conn.pmod = s.coords → s.halted x.conn.loc.core = false →
    s.locOf x.conn.actor = some l → a = s.residentAt l → e = x.conn.ep → (a.ep e).status = .connecting → key = ⟨satAdd x.conn.key.vrt 1, x.acceptor, x.seq⟩ →
    (x.cause = 0 → (∃ b, a.bindTo (s.core l.core) e (a.ep e).itin x.pkind x.peer (if x.pkind = .remote then x.pmod else 0) x.acceptor .opened = .ok b) →
      Happens (.connectAnswer n) s fun t => ((t.residentAt l).ep e).status = .opened ∧ ((t.residentAt l).ep e).peer = x.peer ∧ ((t.residentAt l).ep e).pkind = x.pkind ∧
        ((t.residentAt l).ep e).sent = 0 ∧ ((t.residentAt l).ep e).rcvd = 0 ∧ ((t.residentAt l).ep e).state = 0 ∧ OnWay t (.confirm x.toAcceptor ⟨x.conn.actor.tenant, x.acceptor⟩ x.conn.key) ∧
        Awaits (t.residentAt l) (reportMsg x.conn.actor e (a.auxOf e).cls key 0) ∧ RegsKept s t ∧ StoreKept s t) ∧
    (x.cause ≠ 0 → Happens (.connectAnswer n) s fun t => (t.residentAt l).ep e = { a.ep e with status := (a.auxOf e).old } ∧
      Awaits (t.residentAt l) (reportMsg x.conn.actor e (a.auxOf e).cls key x.cause.toNat) ∧ RegsKept s t ∧ StoreKept s t)) ∧
  (∀ (s : State) (n : Nat) (l : Loc) (e : BitVec 4) (who : AId) (key : Key) (a : Actor), s.locOf who = some l → s.halted l.core = false → a = s.residentAt l → (a.ep e).status = .connecting →
    (s.packet n = some (.confirm (.ep l e) who key) → s.first n (.confirm (.ep l e) who key) = true → Happens (.connectConfirmation n) s fun t =>
      (t.residentAt l).ep e = { a.ep e with status := .opened } ∧ Awaits (t.residentAt l) (reportMsg who e (a.auxOf e).cls key 0) ∧ RegsKept s t ∧ StoreKept s t) ∧
    ∀ cause, s.packet n = some (.undo (.ep l e) who key cause) → s.first n (.undo (.ep l e) who key cause) = true → Happens (.connectUndo n) s fun t =>
      (t.residentAt l).ep e = { a.ep e with status := .armed } ∧ ((t.residentAt l).auxOf e).run = none ∧
        Awaits (t.residentAt l) (reportMsg who e (a.auxOf e).cls key cause.toNat) ∧ RegsKept s t ∧ StoreKept s t) ∧
  ∀ (s u : State) (n : Nat) (c : Conn) (arg : Word) (pi : BitVec 7) (tn : BitVec 4) (core : CoreId) (l : Loc) (a : Actor), s.packet n = some (.spawn c arg pi tn) → core = arg.setWidth 12 →
    s.halted core = false → s.halted c.loc.core = false → s.locOf c.actor = some l → a = s.residentAt l → u = s.take n core.toNat → RisingKeys s.cores →
    (∀ who slot k p v, u.child c arg a pi = (.ok (who, slot, k, p), v) → l ≠ ⟨core, BitVec.ofNat 4 slot⟩ → Happens (.spawnRequest n) s fun t => ∃ y, y = t.residentAt ⟨core, BitVec.ofNat 4 slot⟩ ∧
      y.aid = who ∧ y.seq = 1 ∧ (y.ep 0).status = .opened ∧ (y.ep 0).peer = c.loc.peer c.ep ∧ s.inUse who = false ∧ slot ∈ (s.core core).freeSlots ∧
      ((t.residentAt l).ep c.ep).status = .opened ∧ ((t.residentAt l).ep c.ep).peer = Loc.peer ⟨core, BitVec.ofNat 4 slot⟩ 0 ∧
      Awaits (t.residentAt l) (reportMsg c.actor c.ep (a.auxOf c.ep).cls ⟨satAdd c.key.vrt 1, who.id, 0⟩ (who.id.toNat * 512)) ∧ StoreKept s t ∧ RegsKept s t) ∧
    ∀ x v, u.child c arg a pi = (.error x, v) → Happens (.spawnRequest n) s fun t => ((t.residentAt l).ep c.ep).status = (a.auxOf c.ep).old ∧
      (∃ id seq, Awaits (t.residentAt l) (reportMsg c.actor c.ep (a.auxOf c.ep).cls ⟨satAdd c.key.vrt 1, id, seq⟩ x.toNat)) ∧ StoreKept s t ∧ RegsKept s t

/-! ## Global memory -/

/-- Requests at the memory peers, a word of 8 bytes at a step. A read at its home, of a quadrant beside it, takes the bytes of the page's frame, and after the last word its reply is on the way; a write that its sender may make changes those bytes and no others, marks the page dirty, and is answered after its last word; an atomic answers the old value and stores the new one; a page whose capability is another's answers 0x109 and keeps its bytes. What stands in the list of a page is served from its head. A walk caches a valid page, and what joined it stands in the page's list in its order; an invalidation takes the line from the crossing cache; the home's acknowledgement frees the slot of a request without a reply; a request parked too long answers 0x10A; a capability handed over has the new holder and the next generation, its notice goes through the new holder's home base and the giver has its report from there; capchk's answer goes to g[d] alone, a machine cause that the home met is its trap (R222, R223, R225, R226, R228, R229, R326, R327, R328, R331, R332, R333). That the entry is put back where the home base knows no such actor is the model's choice (log 80). -/
def Obligations.MemoryPeers : Prop :=
  (∀ (s : State) (n : Nat) (r : MemReq) (va p h d : Nat) (replied : State → BitVec 9 → List Byte → Prop), s.packet n = some (.mem r) → va = r.addr.toNat + r.pos → p = r.addr.toNat / 65536 → p = va / 65536 → h = homePage p →
    d = s.dramAddr va → (∀ x ∈ (s.base h).parked, x.page ≠ p) → p ∈ (s.base h).tcache → p ∉ (s.base h).badLeaves → (s.leaf p).valid = true → s.stackDown h = false → (s.base h).jammed = false →
    (∀ t st bytes, replied t st bytes ↔ ∃ m x, OnWay t (.msg (.ep r.loc 15) m) ∧ m.kind = .reply st x ∧ m.payload = bytes ∧ m.hdr.key = r.key ∧ m.hdr.cls = r.cls ∧ m.rcpt = r.actor) →
    (∀ k bytes, r.op = .read → (r.pos = 0 → s.sameLine r.actor r.key.seq r.lines true = false ∧ s.strongWait r = false) → s.scWaits [va / 128] = false → quadStack h = (quadOf r.loc.core).toNat → r.pos < r.len →
      k = min (r.len - r.pos) (8 - va % 8) → s.readError (quadOf r.loc.core) va k = none → bytes = r.got ++ (s.base h).dram.bytes d k →
      Happens (.memoryPeerRequest n) s fun t => (r.pos + k < r.len → t.packet n = some (.mem { r with pos := r.pos + k, got := bytes })) ∧ (r.len ≤ r.pos + k → replied t 0 bytes) ∧
        PadsKept s t ∧ RegsKept s t ∧ StoreKept s t) ∧
    ((r.pos = 0 → r.crossed = false → s.sameLine r.actor r.key.seq r.nextLines false = false ∧ s.strongWait r = false ∧ s.givesBefore r = false) → (r.pos = 0 → s.busy r = false) →
      p ∉ (s.base h).walks ∨ (s.leaf p).dirty = true ∧ (s.leaf p).cow = false →
      (∀ data k, r.op = .write data → r.sc = false → s.crosses r = false → (r.crossed = true → s.inOrder n r = true) → r.pos < data.length → k = min (data.length - r.pos) (8 - va % 8) →
        (s.mayWrite r.actor p = true → Happens (.memoryPeerRequest n) s fun t => (∀ j < k, some ((t.base h).dram.byte (d + j)) = data[r.pos + j]?) ∧
          (∀ y, (y < d ∨ d + k ≤ y) → (t.base h).dram.byte y = (s.base h).dram.byte y) ∧ (∀ b, b ≠ h → (t.base b).dram = (s.base b).dram) ∧ t.hostMem = s.hostMem ∧
          (t.leaf p).dirty = true ∧ (r.pos + k < data.length → t.packet n = some (.mem { r with pos := r.pos + k })) ∧ (data.length ≤ r.pos + k → r.ack = true → replied t 0 []) ∧
          PadsKept s t ∧ RegsKept s t) ∧
        (s.mayWrite r.actor p = false → r.pos = 0 → Happens (.memoryPeerRequest n) s fun t => replied t 0x109 [] ∧ PadsKept s t ∧ RegsKept s t ∧ StoreKept s t)) ∧
      ∀ desc x cmp w old, r.op = .amo desc x cmp → r.pos = 0 → s.invalFor r.actor r.key.seq = false → s.copied r.nextLines = false → w = (if desc.getLsbD 4 then 4 else 8) →
        va % w = 0 → old = leNat ((s.base h).dram.bytes d w) → (∀ y ∈ wordsOf d w, y ∉ (s.base h).badDram) →
        (s.mayWrite r.actor p = true → Happens (.memoryPeerRequest n) s fun t => replied t 0 (leBytes old 8) ∧
          leNat ((t.base h).dram.bytes d w) = (amoValue desc x cmp old).getD old ∧ (∀ y, (y < d ∨ d + w ≤ y) → (t.base h).dram.byte y = (s.base h).dram.byte y) ∧ PadsKept s t ∧ RegsKept s t) ∧
        (s.mayWrite r.actor p = false → Happens (.memoryPeerRequest n) s fun t => replied t 0x109 [] ∧ PadsKept s t ∧ RegsKept s t ∧ StoreKept s t))) ∧
  (∀ (s : State) (n h i : Nat) (x : Parked) (va k : Nat) (bytes : List Byte), s.packet n = none → s.listed[n - s.flight.length]? = some (h, i, x) → homePage x.page = h → x.req.addr.toNat / 65536 = x.page →
    (∀ y ∈ (s.base h).parked.take i, y.page ≠ x.page) → (s.leaf x.page).valid = true → x.page ∉ (s.base h).badLeaves → s.stackDown h = false → x.req.op = .read → va = x.req.addr.toNat + x.req.pos →
    s.scWaits [va / 128] = false → quadStack h = (quadOf x.req.loc.core).toNat → x.req.pos < x.req.len → k = min (x.req.len - x.req.pos) (8 - va % 8) → va / 65536 = x.page →
    s.readError (quadOf x.req.loc.core) va k = none → bytes = x.req.got ++ (s.base h).dram.bytes (s.dramAddr va) k → RisingKeys s.bases →
      Happens (.memoryPeerRequest n) s fun t =>
        (x.req.pos + k < x.req.len → (t.base h).parked = (s.base h).parked.set i { x with req := { x.req with pos := x.req.pos + k, got := bytes } }) ∧
        (x.req.len ≤ x.req.pos + k → (t.base h).parked = (s.base h).parked.eraseIdx i ∧
          ∃ m y, OnWay t (.msg (.ep x.req.loc 15) m) ∧ m.kind = .reply 0 y ∧ m.payload = bytes ∧ m.hdr.key = x.req.key) ∧ PadsKept s t ∧ RegsKept s t ∧ StoreKept s t) ∧
  (∀ (s : State) (b : BitVec 3) (n p : Nat), (s.base b.toNat).walks[n]? = some p → Happens (.pageWalk b n) s fun t => (∀ w ∈ (t.base b.toNat).walkWait, w.1 ≠ p) ∧
    ((s.walkLeaf p).valid = true → s.badLeaf p = false → p ∈ (t.base b.toNat).tcache) ∧
    (homePage p = b.toNat → s.badLeaf p = false →
      (t.base b.toNat).parked = (s.base b.toNat).parked ++ ((s.base b.toNat).walkWait.filter fun w => w.1 = p).map fun w => ⟨p, s.time, w.2⟩) ∧
    ((∀ x ∈ (s.base b.toNat).walkWait, x.1 ≠ p) → PadsKept s t ∧ RegsKept s t ∧ StoreKept s t ∧ t.flight = s.flight)) ∧
  (∀ (s : State) (n : Nat) (q : BitVec 2) (l : Nat) (who : AId) (seq : BitVec 40) (x : Line), s.packet n = some (.inval q l who seq) → s.heldLine q l = some x → x.unacked = 0 →
    Happens (.invalidation n) s fun t => t.heldLine q l = none ∧ (l, q) ∉ (t.base (homePage (l / 512))).presence ∧ t.flight = s.flight.eraseIdx n ∧ PadsKept s t ∧ RegsKept s t ∧ StoreKept s t) ∧
  (∀ (s : State) (n l : Nat) (q : BitVec 2) (who : AId) (seq : BitVec 40) (at_ : Loc), s.packet n = some (.homeAck q [l] who seq true) → s.locOf who = some at_ →
    Happens (.homeAcknowledgement n) s fun t => seq ∉ (t.residentAt at_).e15used ∧ (∀ x, s.heldLine q l = some x → t.heldLine q l = some { x with unacked := x.unacked - 1 }) ∧
      RegsKept s t ∧ StoreKept s t) ∧
  (∀ (s : State) (n : Nat) (x : Parked), (s.base (n % 8)).parked[n / 8]? = some x → (s.leaf x.page).valid = false → x.since + (s.mgmt.parkdl[x.req.actor.tenant.toNat]).toNat * 1024 < s.time →
    (∀ a b c d, x.req.op ≠ .put a b c d) → x.req.op ≠ .fetch → Happens (.parkDeadline n) s fun t => (t.base (n % 8)).parked = (s.base (n % 8)).parked.eraseIdx (n / 8) ∧
      (∃ m y, OnWay t (.msg (.ep x.req.loc 15) m) ∧ m.kind = .reply 0x10A y ∧ m.payload = [] ∧ m.hdr.key = x.req.key) ∧ PadsKept s t ∧ RegsKept s t ∧ StoreKept s t) ∧
  (∀ (s : State) (n : Nat) (r : MemReq) (giver : BitVec 24) (arg : Word) (p : Nat) (who : AId) (pg : Bool × BitVec 6 × BitVec 24) (m : Msg) (replied : State → BitVec 9 → BitVec 16 → Prop),
    r.op = .capgive giver arg → p = r.addr.toNat / 65536 → who = ⟨r.actor.tenant, arg.setWidth 24⟩ → pg = s.mgmt.pager[r.actor.tenant.toNat] →
    (∀ t st gen, replied t st gen ↔ ∃ m x, OnWay t (.msg (.ep r.loc 15) m) ∧ m.kind = .reply st x ∧ m.payload = leBytes (gen.toNat * 2 ^ 16 + st.toNat) 8 ∧ m.hdr.key = r.key) →
    (s.packet n = some (.mem r) → (∀ x ∈ s.requests r.actor, seqBefore x.key.seq r.key.seq = false) → (∀ x ∈ s.copies r.actor, seqBefore x.key.seq r.key.seq = false) → s.badLeaf p = false →
      (s.base (homePage p)).jammed = false →
      ((s.leaf p).valid = false → (s.leaf p).depot = false → Happens (.capabilityHandOver n) s fun t => replied t 0x1BC (s.cap p).gen ∧ StoreKept s t) ∧
      ((s.leaf p).valid = true ∨ (s.leaf p).depot = true →
        (¬ ((s.cap p).held = true ∧ (s.cap p).holder = giver) → ¬ (pg.1 = true ∧ pg.2.2 = giver) → Happens (.capabilityHandOver n) s fun t => replied t 0x1BD (s.cap p).gen ∧ StoreKept s t) ∧
        ((s.cap p).held = true ∧ (s.cap p).holder = giver ∨ pg.1 = true ∧ pg.2.2 = giver → Happens (.capabilityHandOver n) s fun t => t.cap p = ⟨true, who.id, (s.cap p).gen + 1⟩ ∧
          (∃ y, OnWay t (.capNotice y r (s.cap p)) ∧ y.rcpt = who ∧ y.kind = .notice ∧ y.hdr.cls = arg.extractLsb' 24 6 ∧ y.hdr.key = ⟨satAdd r.key.vrt 1, giver, r.key.seq⟩ ∧
            y.payload = leBytes (p * 2 ^ 24 + ((s.cap p).gen + 1).toNat) 8) ∧ (∀ j, j ≠ p → t.cap j = s.cap j) ∧ t.leaves = s.leaves ∧ PadsKept s t ∧ RegsKept s t))) ∧
    ∀ old, (s.packet n = some (.capNotice m r old) →
        ((s.locOf m.rcpt).isSome = true ∨ (s.savedOf m.rcpt).isSome = true → Happens (.capabilityHandOver n) s fun t => replied t 0 (old.gen + 1) ∧
          (∃ d y, OnWay t (.msg d y) ∧ y.rcpt = m.rcpt ∧ y.kind = m.kind ∧ y.payload = m.payload ∧ y.hdr.key = m.hdr.key ∧ y.hdr.cls = m.hdr.cls) ∧ PadsKept s t ∧ RegsKept s t ∧ StoreKept s t) ∧
        (s.locOf m.rcpt = none → s.savedOf m.rcpt = none → Happens (.capabilityHandOver n) s fun t => OnWay t (.capBack r old) ∧ PadsKept s t ∧ RegsKept s t ∧ StoreKept s t)) ∧
      (s.packet n = some (.capBack r old) → Happens (.capabilityHandOver n) s fun t => replied t 0x1BF old.gen ∧ t.cap p = (if s.cap p = ⟨true, who.id, old.gen + 1⟩ then old else s.cap p) ∧
        (∀ j, j ≠ p → t.cap j = s.cap j) ∧ t.leaves = s.leaves ∧ PadsKept s t ∧ RegsKept s t)) ∧
  ∀ (s : State) (n : Nat) (l : Loc) (x : BitVec 2) (key : Key) (d : BitVec 5) (v : Word) (cause : BitVec 9) (y : Ctx), s.packet n = some (.capAnswer l x key d v cause) → s.halted l.core = false →
    y = ctxOn s l.core x → y.phase = .running → y.slot = l.slot → y.key = key → y.wait = .memory →
    (cause = 0 → Happens (.capchkAnswer n) s fun t => ctxOn t l.core x = { y with g := (ctxOn t l.core x).g, wait := .none } ∧
      (∀ r, State.g { t with here := l.core, cx := x } r = if r = d ∧ d ≠ 0 then v else State.g { s with here := l.core, cx := x } r) ∧ (∀ z, z ≠ x → ctxOn t l.core z = ctxOn s l.core z) ∧
      OtherCores s t l.core ∧ PadsKept s t ∧ StoreKept s t) ∧
    (cause ≠ 0 → Happens (.capchkAnswer n) s fun t => (∃ r, (ctxOn t l.core x).phase = .trapping r none none ∧ r.cause = cause ∧ r.pc = y.pc - 4) ∧ (ctxOn t l.core x).g = y.g ∧
      OtherCores s t l.core ∧ PadsKept s t ∧ StoreKept s t)

/-- Copy engines and host windows, a word of 8 bytes at a step: a command that writes global memory leaves the queue with the bytes of its source on their way to their home (those of a log zone that hold no payload are unspecified), or with the cause 0x1C1 when a word of it is in error; one that reads global memory puts one word after another into the scratchpad and sets their full bits, and after the last leaves the queue and answers when it asked for a message; a page without a translation it has walked first. A read of a host window answers the host's bytes or 0x10B, a write changes those bytes alone or answers 0x10B; the port decides (R204, R223, R227, R230, R231, R244, R354). -/
def Obligations.CopiesAndHostWindows : Prop :=
  (∀ (s : State) (c : CoreId) (k : CopyCmd) (rest : List CopyCmd) (va la : Nat) (a : Actor), (s.core c).cq = k :: rest → (s.core c).stopped = false ∨ k.begun = true → hostPort k.gaddr = none → va = k.gaddr.toNat →
    la = k.laddr.toNat → a = look Actor.zero k.loc.slot.toNat (s.core c).actors → s.putting c = false → s.sameLine k.actor k.key.seq (rangeLines k.ranges) true = false → (∀ r ∈ s.requests k.actor, r.key ≠ k.key) →
    s.strongCopy k = false ∨ s.strongBefore k.actor k.key.seq = false →
    (k.op = .put → (s.core c).badIn la (copyLocal k.op k.len k.extra) = none → Happens (.copyCommandExecution c) s fun t => (t.core c).cq = rest ∧
      (∃ r bytes, OnWay t (.mem r) ∧ r.op = .put [(va, bytes)] 0 0 k.msg ∧ r.addr = k.gaddr ∧ r.key = k.key ∧ r.actor = k.actor ∧ bytes.length = k.len ∧
        ∀ j < k.len, (∀ z, a.zoneOf ((la + j) / 64) = some z → z.kind ≠ .log) → bytes[j]? = some ((s.core c).pad.byte (la + j))) ∧ PadsKept s t ∧ RegsKept s t ∧ StoreKept s t) ∧
    (∀ w, k.op = .put → (s.core c).badIn la (copyLocal k.op k.len k.extra) = some w → Happens (.copyCommandExecution c) s fun t => (t.core c).cq = rest ∧
      (∃ r f, OnWay t (.mem r) ∧ r.op = .finish 0x1C1 f k.msg ∧ r.key = k.key ∧ r.detail = some (BitVec.ofNat 64 (8 * w))) ∧ PadsKept s t ∧ RegsKept s t ∧ StoreKept s t) ∧
    (k.op = .fill → Happens (.copyCommandExecution c) s fun t => (t.core c).cq = rest ∧
      (∃ r, OnWay t (.mem r) ∧ r.op = .put [(va, (List.range (k.len / 8)).flatMap fun _ => leBytes k.extra.toNat 8)] 0 0 k.msg) ∧ PadsKept s t ∧ RegsKept s t ∧ StoreKept s t) ∧
    ∀ at_ m bytes u, k.op = .get → k.pos < k.len → at_ = va + k.pos → m = min (k.len - k.pos) 8 → s.stackDown (homePage (at_ / 65536)) = false → (s.base (s.pointOf (quadOf c) (at_ / 128))).jammed = false →
      (s.heldLine (quadOf c) (at_ / 128)).isSome = true ∨ s.scWaits [at_ / 128] = false →
      (s.translated (quadOf c) (at_ / 128) = false → Happens (.copyCommandExecution c) s fun t => (t.core c).cq = k :: rest ∧
        (∃ r, OnWay t (.mem r) ∧ r.op = .fetch ∧ r.addr = BitVec.ofNat 64 at_ ∧ r.key = k.key) ∧ PadsKept s t ∧ RegsKept s t ∧ StoreKept s t) ∧
      (s.translated (quadOf c) (at_ / 128) = true → s.readError (quadOf c) at_ m = none → (bytes, u) = s.readGlobal (quadOf c) at_ m →
        (State.saveCopy { u with here := c, cx := k.ctx } k.loc.slot k.key.seq (la + k.pos) bytes).isSome = true →
        Happens (.copyCommandExecution c) s fun t => (∀ j < bytes.length, some ((t.core c).pad.byte (la + k.pos + j)) = bytes[j]?) ∧
          (∀ y, (y < la + k.pos ∨ la + k.pos + bytes.length ≤ y) → (t.core c).pad.byte y = (s.core c).pad.byte y) ∧ (∀ w ∈ wordsOf (la + k.pos) bytes.length, (t.core c).isFull w = true) ∧
          (k.pos + bytes.length < k.len → (t.core c).cq = { k with pos := k.pos + bytes.length } :: rest) ∧
          (k.len ≤ k.pos + bytes.length → (t.core c).cq = rest ∧ (k.msg = true → ∃ m x, OnWay t (.msg (.ep k.loc 15) m) ∧ m.kind = .reply 0 x ∧ m.hdr.key = k.key ∧ m.payload = leBytes k.flags.toNat 8)) ∧
          (k.msg = true → RegsKept s t) ∧ StoreKept s t)) ∧
  ∀ (s : State) (n : Nat) (port : Bool) (r : MemReq) (va k : Nat) (replied : State → BitVec 9 → List Byte → Prop), s.packet n = some (.hostRead port r) → (r.pos = 0 → s.strongWait r = false) → va = r.addr.toNat + r.pos →
    (∀ t st bytes, replied t st bytes ↔ ∃ m x, OnWay t (.msg (.ep r.loc 15) m) ∧ m.kind = .reply st x ∧ m.payload = bytes ∧ m.hdr.key = r.key) →
    (∀ bytes, r.op = .read → r.pos < r.len → k = min (r.len - r.pos) (8 - va % 8) → bytes = r.got ++ s.hostMem.bytes va k →
      Happens (.hostReadCompletion n) s fun t => (r.pos + k < r.len ∧ t.packet n = some (.hostRead port { r with pos := r.pos + k, got := bytes }) ∨ r.len ≤ r.pos + k ∧ replied t 0 bytes ∨
        r.pos = 0 ∧ replied t 0x10B []) ∧ PadsKept s t ∧ RegsKept s t ∧ StoreKept s t) ∧
    ∀ data, r.op = .write data → r.ack = true → r.pos < data.length → k = min (data.length - r.pos) (8 - va % 8) → Happens (.hostReadCompletion n) s fun t =>
      ((∀ j < k, some (t.hostMem.byte (va + j)) = data[r.pos + j]?) ∧ (∀ y, (y < va ∨ va + k ≤ y) → t.hostMem.byte y = s.hostMem.byte y) ∧
        (r.pos + k < data.length → t.packet n = some (.hostRead port { r with pos := r.pos + k })) ∧ (data.length ≤ r.pos + k → replied t 0 []) ∨
        r.pos = 0 ∧ t.hostMem = s.hostMem ∧ replied t 0x10B []) ∧
      (∀ b, (t.base b).dram = (s.base b).dram) ∧ PadsKept s t ∧ RegsKept s t

/-! ## The Depot -/

/-- Page requests of one page, served and answered: a page-out writes a page that differs from its copy to the Depot and frees its frame; a page-in fills a free frame with the Depot's copy; a deposit puts the page's bytes into a scratch zone; a discard leaves the page in neither place; a persist writes it and keeps it; a page-out of a page already in the Depot and a page-in of a page already in DRAM do nothing and count it; the oldest parked request that a frame can serve brings its page in, the requests of its list are performed in its order afterwards, and one past its deadline is answered 0x10A. A page of another tenant answers 0x1A6 (R253, R254, R255, R256, R257, R328). -/
def Obligations.DepotPages : Prop :=
  (∀ (s : State) (n p h : Nat) (r : DepotReq) (ch : DepotChan) (replied : State → BitVec 9 → Nat → Nat → Prop) (others : State → Prop), s.served n .page = some (r, ch) → ch.live = true →
    r.pageBad = false → r.page.count = 1 → p = r.page.first → h = homePage p → s.nextPage n r = true →
    (∀ t st k w, replied t st k w ↔ ∃ m, OnWay t (.msg (.ep ch.loc ch.ep) m) ∧ m.kind = .plain ∧ m.rcpt = ch.actor ∧ m.hdr.cls = 41 ∧ m.payload = pageReply st k w) →
    (∀ t, others t ↔ ∀ j, j ≠ p → t.leaf j = s.leaf j ∧ t.depotPage j = s.depotPage j) →
    (s.owns r.actor.tenant p = false → (r.page.op = 0 → Happens (.pageOut n) s fun t => replied t 0x1A6 0 0 ∧ StoreKept s t) ∧ (r.page.op = 1 → Happens (.pageIn n) s fun t => replied t 0x1A6 0 0 ∧ StoreKept s t) ∧
      (r.page.op = 3 → Happens (.discard n) s fun t => replied t 0x1A6 0 0 ∧ StoreKept s t) ∧ (r.page.op = 4 → Happens (.persist n) s fun t => replied t 0x1A6 0 0 ∧ StoreKept s t)) ∧
    (s.owns r.actor.tenant p = true →
      (r.page.op = 0 → (s.leaf p).valid = true → ∀ u m, s.persistPage p = .ok (u, m) → Happens (.pageOut n) s fun t => (t.leaf p).valid = false ∧ (t.leaf p).depot = true ∧
        (t.depotPage p).cells = s.pageCells p ∧ (s.pageCells p ≠ (s.depotPage p).cells → (t.depotPage p).gen = (s.depotPage p).gen + 1) ∧
        (s.pageCells p = (s.depotPage p).cells → (s.depotPage p).bad = false → m = 0 ∧ t.depotPage p = s.depotPage p) ∧ replied t 0 1 m ∧ others t ∧ PadsKept s t ∧ RegsKept s t) ∧
      (r.page.op = 0 → (s.leaf p).valid = true → ∀ c, s.persistPage p = .error c → Happens (.pageOut n) s fun t => replied t c 0 0 ∧ StoreKept s t ∧ PadsKept s t ∧ RegsKept s t) ∧
      (r.page.op = 0 → (s.leaf p).valid = false → Happens (.pageOut n) s fun t => replied t 0 1 0 ∧ StoreKept s t ∧ PadsKept s t ∧ RegsKept s t) ∧
      (r.page.op = 1 → (s.leaf p).valid = true → Happens (.pageIn n) s fun t => replied t 0 1 0 ∧ StoreKept s t ∧ PadsKept s t ∧ RegsKept s t) ∧
      (r.page.op = 1 → (s.leaf p).valid = false → (s.depotPage p).bad = false → (∀ x ∈ (s.base h).parked, x.page ≠ p) → ∀ f, (s.base h).freeFrame = some f → Happens (.pageIn n) s fun t =>
        t.leaf p = { s.leaf p with valid := true, depot := false, dirty := false, frame := BitVec.ofNat 20 f } ∧ replied t 0 1 0 ∧ others t ∧ PadsKept s t ∧ RegsKept s t ∧
        (Mem.wf ⟨(s.depotPage p).cells, []⟩ → (∀ c ∈ (s.depotPage p).cells, c.1 < 65536) → ∀ j < 65536, (t.base h).dram.byte (f * 65536 + j) = Mem.byte ⟨(s.depotPage p).cells, []⟩ j)) ∧
      (r.page.op = 1 → (s.leaf p).valid = false → (s.depotPage p).bad = true → Happens (.pageIn n) s fun t => replied t 0x1C8 0 0 ∧ StoreKept s t) ∧
      (r.page.op = 2 → ∀ l la len, s.locOf r.actor = some l → s.halted l.core = false → len = r.word 2 / 2 ^ 32 % 2 ^ 18 → la = r.word 2 % 2 ^ 18 → (s.residentAt l).inScratch la len = true →
        (s.leaf p).valid = true → (∀ w ∈ wordsOf (s.dramAddr (p * 65536)) len, w ∉ (s.base h).badDram) → Happens (.deposit n) s fun t =>
          (∀ j < len, (t.core l.core).pad.byte (la + j) = s.engineByte (p * 65536 + j)) ∧ (∀ y, (y < la ∨ la + len ≤ y) → (t.core l.core).pad.byte y = (s.core l.core).pad.byte y) ∧
          (∀ w ∈ wordsOf la len, (t.core l.core).isFull w = true) ∧ replied t 0 1 0 ∧ OtherCores s t l.core ∧ RegsKept s t ∧ StoreKept s t) ∧
      (r.page.op = 3 → Happens (.discard n) s fun t => (t.leaf p).valid = false ∧ (t.leaf p).depot = false ∧ (t.depotPage p).cells = [] ∧ (t.depotPage p).gen = (s.depotPage p).gen ∧ replied t 0 1 0 ∧ others t ∧
        PadsKept s t ∧ RegsKept s t) ∧
      (r.page.op = 4 → ∀ u m, s.persistPage p = .ok (u, m) → Happens (.persist n) s fun t => (t.leaf p).valid = (s.leaf p).valid ∧ ((s.leaf p).valid = true → (t.leaf p).dirty = false ∧ (t.depotPage p).cells = s.pageCells p) ∧ replied t 0 1 m ∧ others t ∧ (∀ b, (t.base b).dram = (s.base b).dram) ∧ PadsKept s t ∧ RegsKept s t))) ∧
  ∀ (s : State) (g : BitVec 40) (x : Parked) (f h : Nat) (late : Parked → Prop), x ∈ s.demands → (∀ y ∈ s.demands, y = x ∨ x.since < y.since) → x.page = g.toNat → h = homePage g.toNat →
    (s.base h).freeFrame = some f → (s.depotPage g.toNat).bad = false → (∀ y, late y ↔ y.page = g.toNat ∧ y.since + (s.mgmt.parkdl[y.req.actor.tenant.toNat]).toNat * 1024 + 1 < s.time) →
    ((∀ y ∈ (s.base h).parked, ¬ late y) → Happens (.demandPageIn g) s fun t => (t.leaf g.toNat).valid = true ∧ (t.leaf g.toNat).frame = BitVec.ofNat 20 f ∧
      (t.base h).parked = (s.base h).parked ∧ t.depot = s.depot ∧ PadsKept s t ∧ RegsKept s t) ∧
    (late x → x.req.op = .read → x.req.held = [] → (∀ y ∈ (s.base h).parked, late y → y = x) → Happens (.demandPageIn g) s fun t => (t.leaf g.toNat).valid = true ∧ x ∉ (t.base h).parked ∧
      ∃ m va, OnWay t (.msg (.ep x.req.loc 15) m) ∧ m.kind = .reply 0x10A va ∧ m.hdr.key = x.req.key)

/-- The Depot's other services, each request answered on its channel: an eviction saves a still actor with the bytes of its zones at its home base, or in the Depot where its request asks for that and there is room, and frees its slot; a reload puts it into the lowest free slot of the core with its endpoints as they were; a take is accepted, and ends as the valid slot of its identifier when a round has passed its T; a restore writes the slot's bytes into the page; a query gives T or 2^64 − 1; a load writes the code and has it scanned; a scan that passes makes the image executable, one that fails answers its cause and is counted; an unload ends an image that no actor runs. The lowest slot is log 104, that bits of no field are refused logs 103 and 105, the model's choices (R57, R211, R212, R258, R259, R262, R263, R265). -/
def Obligations.DepotServices : Prop :=
  (∀ (s : State) (n : Nat) (r : DepotReq) (ch : DepotChan) (who : AId) (replied : State → BitVec 9 → Nat → Prop), s.served n .page = some (r, ch) → ch.live = true → r.pageBad = false →
    s.fromPager r.actor = true → who = ⟨r.actor.tenant, BitVec.ofNat 24 (r.word 0)⟩ →
    (∀ t st w, replied t st w ↔ ∃ m, OnWay t (.msg (.ep ch.loc ch.ep) m) ∧ m.kind = .plain ∧ m.payload = pageReply st 0 w) →
    (r.page.op = 5 → ∀ l u, s.locOf who = some l → u = { s with here := l.core, cx := 0 } → (s.residentAt l).aid = who → s.savedOf who = none → (s.residentAt l).retired = false →
      s.actorTaken n 6 who = false → s.evictsFirst n l.core = false →
      u.still l.slot = true → (s.core l.core).stopped = false → (s.base (homeOf who)).poolTaken + 4 ≤ (s.base (homeOf who)).poolFrames.toNat → (s.residentAt l).bad = [] → (s.core l.core).badPad = [] →
      ∀ toDepot st, (toDepot = false → st = 0 ∧ r.word 1 / 2 ^ 56 % 2 = 0 ∨ st = 0x1A7 ∧ r.word 1 / 2 ^ 56 % 2 = 1 ∧ depotSectors < s.sectorsUsed + areaSectors who) →
        (toDepot = true → st = 0 ∧ r.word 1 / 2 ^ 56 % 2 = 1 ∧ s.sectorsUsed + areaSectors who ≤ depotSectors) →
      Happens (.evictActor n) s fun t => (∀ z ∈ (t.core l.core).actors, z.1 ≠ l.slot.toNat) ∧ (∃ x, t.savedOf who = some x ∧ x.actor = s.residentAt l ∧ x.last = l ∧ x.bad = false ∧
        x.inDepot = toDepot ∧ (t.base (homeOf who)).poolUsed = (s.base (homeOf who)).poolUsed + (if toDepot then 0 else 4) ∧
        (∀ c ∈ x.pad, c ∈ (s.core l.core).pad.cells) ∧ ∀ c ∈ (s.core l.core).pad.cells, (s.residentAt l).copied c.1 = true → c ∈ x.pad) ∧ replied t st 0 ∧ PadsKept s t ∧ RegsKept s t ∧ StoreKept s t) ∧
    (r.page.op = 6 → ∀ x core slot, s.savedOf who = some x → core = BitVec.ofNat 12 (r.word 2) → s.halted core = false → s.actorTaken n 5 who = false → x.antis = [] →
      (x.inDepot = false ∨ (s.base (homeOf who)).poolTaken + 4 ≤ (s.base (homeOf who)).poolFrames.toNat) → x.bad = false → (s.core core).zonesFit x.actor.zones = true →
      (∃ i ∈ (s.core core).images, i.tenant = who.tenant ∧ i.num = x.actor.image) → x.actor.pending = none → AtRest s x.actor →
      (s.core core).freeSlots.head? = some slot → Happens (.reloadActor n) s fun t => t.savedOf who = none ∧
        (t.residentAt ⟨core, BitVec.ofNat 4 slot⟩).aid = who ∧ (∀ e, (t.residentAt ⟨core, BitVec.ofNat 4 slot⟩).ep e = x.actor.ep e) ∧ (t.residentAt ⟨core, BitVec.ofNat 4 slot⟩).log = x.actor.log ∧
        replied t 0 ((Loc.peer ⟨core, BitVec.ofNat 4 slot⟩ 0).toNat * 2 ^ 13) ∧ StoreKept s t)) ∧
  (∀ (s : State) (n : Nat) (q : DepotReq) (k : Take), s.depotQ[n]? = some q → s.takes.find? (fun y => y.req = q) = some k → k.t < s.lastM → q.irrev = true ∨ safe s.lastM s.lastSettled q.key.vrt = true → (s.takeEnds k).2 = 0 → (∀ p ∈ k.pages, s.walking p.1 = false) →
    (∀ x, s.validSlot k.id.toNat = some x → x.seq ≠ BitVec.allOnes 64) → Happens (.checkpointTake n) s fun t => k ∉ t.takes ∧ ∃ x, t.validSlot k.id.toNat = some x ∧ x.t = k.t ∧ x.pages.map (fun p => p.1) = k.pages.map fun p => p.1) ∧
  (∀ (s : State) (n : Nat) (r : DepotReq) (ch : DepotChan) (id : Nat) (replied : State → BitVec 9 → (Nat → Prop) → Prop), s.served n .checkpoint = some (r, ch) → ch.live = true → id = r.word 3 % 65536 → r.word 3 / 65536 % 2 ^ 44 = 0 →
    (∀ t st ok, replied t st ok ↔ ∃ m, OnWay t (.msg (.ep ch.loc ch.ep) m) ∧ m.kind = .plain ∧ leNat (m.payload.take 8) % 512 = st.toNat ∧ ok (leNat ((m.payload.drop 8).take 8))) →
    (r.word 3 / 2 ^ 60 = 0 → r.word 1 % 64 = 0 → r.word 2 ≠ 0 → r.word 2 < 2 ^ 24 →
      (BitVec.ofNat 64 (r.word 0) ≤ r.milestone → Happens (.checkpointTake n) s fun t => replied t 0x1AD (fun _ => True) ∧ t.takes = s.takes ∧ StoreKept s t) ∧
      ∀ ps k, r.milestone < BitVec.ofNat 64 (r.word 0) → s.listRefused r (r.word 1) (r.word 2) = none → s.pageList (r.word 1) (r.word 2) = some ps → s.foreign r (ps.map fun p => p.1) = false →
        k = Take.mk r (BitVec.ofNat 16 (r.word 3)) (BitVec.ofNat 64 (r.word 0)) ps → Happens (.checkpointTake n) s fun t => t = { s with takes := s.takes ++ [k] }) ∧
    (r.word 3 / 2 ^ 60 = 1 → (s.validSlot id = none → Happens (.checkpointRestore n) s fun t => replied t 0x1AE (fun _ => True) ∧ StoreKept s t) ∧
      ∀ x p b cells, s.validSlot id = some x → x.bad = false → x.pages = [(p, b, cells)] → s.foreign r [p] = false → (s.leaf p).valid = true → s.quiet p = true → (∀ y ∈ (s.base (homePage p)).parked, y.page ≠ p) →
        Mem.wf ⟨cells, []⟩ → (∀ c ∈ cells, c.1 < 65536) → Happens (.checkpointRestore n) s fun t => replied t 0 (fun _ => True) ∧ (t.leaf p).valid = true ∧ (t.leaf p).dirty = true ∧
          (∀ j < 65536, (t.base (homePage p)).dram.byte ((s.leaf p).frame.toNat * 65536 + j) = Mem.byte ⟨cells, []⟩ j) ∧ (∀ j, j ≠ p → t.leaf j = s.leaf j) ∧ PadsKept s t ∧ RegsKept s t) ∧
    (r.word 3 / 2 ^ 60 = 2 → Happens (.checkpointQuery n) s fun t => replied t 0 (fun w => w = (((s.validSlot id).map fun x => x.t).getD (BitVec.allOnes 64)).toNat) ∧ StoreKept s t ∧ PadsKept s t ∧ RegsKept s t)) ∧
  (∀ (s : State) (n w1 : Nat) (r : DepotReq) (ch : DepotChan) (c : CoreId) (answered : State → Nat → Nat → BitVec 9 → Prop), s.served n .loader = some (r, ch) → ch.live = true → w1 = (r.words.getD 1 0).toNat →
    c = BitVec.ofNat 12 (w1 / 2 ^ 32 % 1024 * 4 + w1 / 2 ^ 42 % 4) → w1 / 2 ^ 44 % 2 ^ 18 = 0 → r.words.getD 2 0 = 0 → r.words.getD 3 0 = 0 → (s.core c).scan = none → s.halted c = false →
    (∀ t i off st, answered t i off st ↔ ∃ m, OnWay t (.msg (.ep ch.loc ch.ep) m) ∧ m.kind = .plain ∧ m.payload = loadReply i off st) →
    (w1 / 2 ^ 62 = 1 → w1 % 65536 = 0 → ∀ num, num = BitVec.ofNat 16 (w1 / 2 ^ 16) →
      ((∀ i ∈ (s.core c).images, ¬ (i.num = num ∧ i.tenant = r.actor.tenant)) → Happens (.codeUnload n) s fun t => answered t num.toNat 0 0x1A5 ∧ t.cores = s.cores) ∧
      ∀ img, (s.core c).images.find? (fun i => i.num = num && i.tenant = r.actor.tenant) = some img →
        ((∃ a ∈ (s.core c).actors, a.2.aid.tenant = r.actor.tenant ∧ a.2.image = num) → Happens (.codeUnload n) s fun t => answered t num.toNat 0 0x1A4 ∧ t.cores = s.cores) ∧
        ((∀ a ∈ (s.core c).actors, ¬ (a.2.aid.tenant = r.actor.tenant ∧ a.2.image = num)) → Happens (.codeUnload n) s fun t => answered t num.toNat 0 0 ∧ (t.core c).images = (s.core c).images.filter (· ≠ img) ∧
          (∀ p ∈ (t.core c).starts, p < img.base / 2 ∨ img.base / 2 + img.len / 2 ≤ p) ∧ OtherCores s t c ∧ PadsKept s t ∧ RegsKept s t ∧ StoreKept s t)) ∧
    (w1 / 2 ^ 62 = 0 → w1 / 2 ^ 16 % 2 ^ 16 = 0 → w1 % 2 = 0 → ∀ w0 d img code head, w0 = (r.words.getD 0 0).toNat → w0 % 64 = 0 → s.engineRefused r.loc.core r.actor.tenant true w0 512 = none →
      d = s.engineBytes w0 512 → img = readImage d (w1 % 65536) → s.engineRefused r.loc.core r.actor.tenant true (field d 16 8) img.len = none →
      head = readBlocks (min (field d 480 8) 128) (s.engineBytes (field d 24 8) (min (field d 480 8) 128 * 1040)) → s.engineRefused r.loc.core r.actor.tenant false (field d 24 8) head.2 = none →
      code = s.engineBytes (field d 16 8) img.len → img.len ≠ 0 → img.len % 2 = 0 → (s.core c).placeRefused { img with tenant := r.actor.tenant } = none →
      (sha256 (code ++ d.drop 64 ++ s.engineBytes (field d 24 8) head.2) ≠ (d.drop 32).take 32 → Happens (.codeLoad n) s fun t => answered t img.num.toNat 0 0x1E9 ∧ t.cores = s.cores) ∧
      (sha256 (code ++ d.drop 64 ++ s.engineBytes (field d 24 8) head.2) = (d.drop 32).take 32 → img.tenant = r.actor.tenant → field d 6 2 = 1 → descriptorOk d = true → (∀ x ∈ img.data, dataOk img.zones x = true) →
        Happens (.codeLoad n) s fun t => (t.core c).scan = some ⟨img, head.1, r⟩ ∧ (t.core c).images = (s.core c).images ∧ OtherCores s t c ∧ PadsKept s t ∧ RegsKept s t ∧ StoreKept s t ∧
          (∀ j < code.length, some ((t.core c).code.byte (img.base + j)) = code[j]?) ∧ ∀ y, (y < img.base ∨ img.base + code.length ≤ y) → (t.core c).code.byte y = (s.core c).code.byte y))) ∧
  ∀ (s : State) (c : BitVec 12) (x : Scan) (ch : DepotChan) (answered : State → Nat → BitVec 9 → Prop), (s.core c).scan = some x → s.halted c = false → s.chan x.reply.chan = some ch → ch.live = true →
    (∀ t off st, answered t off st ↔ ∃ m, OnWay t (.msg (.ep ch.loc ch.ep) m) ∧ m.kind = .plain ∧ m.payload = loadReply x.image.num.toNat off st) →
    (∀ k, Core.accept { s.core c with scan := none } x.image x.blocks = .ok k → Happens (.codeScan c) s fun t => (t.core c).scan = none ∧ (t.core c).images = k.images ∧ (t.core c).starts = k.starts ∧
      answered t 0 0 ∧ OtherCores s t c ∧ PadsKept s t ∧ RegsKept s t ∧ StoreKept s t) ∧
    ∀ e, Core.accept { s.core c with scan := none } x.image x.blocks = .error e → Happens (.codeScan c) s fun t => t.core c = { s.core c with scan := none } ∧ answered t e.2 e.1 ∧
      ((0x1E0 : BitVec 9) ≤ e.1 → Counted s t 0x3078) ∧ OtherCores s t c

/-! ## Groups -/

/-- The registry and the waves: a join that is refused reports its cause and gives back the endpoint's status; one that does not fill the group is recorded; a group of one forms at once, its member's endpoint open with rank 0. A contribution stands in its wave; two chunks whose operands meet combine into one; a chunk that is the whole wave's result goes to every live contributor that needs it; a result's block is written at its member, and the last one sends the completion; a death before the group forms removes the member, one after it breaks the group. Which fields a refused join leaves is log 30, the start of a wave once every rank is accounted for log 28, the model's choices (R290, R292, R294, R299, R300). -/
def Obligations.GroupsAndWaves : Prop :=
  (∀ (s : State) (n gk count : Nat) (who : AId) (loc l : Loc) (e : BitVec 4) (desc : Word) (cls : BitVec 6) (key : Key) (a : Actor), s.packet n = some (.join who loc e desc cls key) →
    gk = who.tenant.toNat * 65536 + (desc.setWidth 16).toNat → count = (desc.extractLsb' 16 12).toNat + 1 → s.locOf who = some l → a = s.residentAt l → s.halted loc.core = false → (∀ g, s.group gk = some g → ∀ m ∈ g.members, s.halted m.loc.core = false) →
    (∀ c, s.joinRefused gk (desc.extractLsb' 30 2) (desc.extractLsb' 28 2) count loc.core = some c → Happens (.groupJoinAtRegistry n) s fun t => t.groups = s.groups ∧
      (t.residentAt l).ep e = { a.ep e with status := (a.auxOf e).old } ∧ ((t.residentAt l).auxOf e).run = none ∧
      Awaits (t.residentAt l) (reportMsg who e cls ⟨satAdd key.vrt 1, groupSender gk, 0⟩ c.toNat) ∧ RegsKept s t ∧ StoreKept s t) ∧
    (s.joinRefused gk (desc.extractLsb' 30 2) (desc.extractLsb' 28 2) count loc.core = none →
      (∀ g, s.group gk = some g → g.members.length + 1 ≠ count → Happens (.groupJoinAtRegistry n) s fun t =>
        t.group gk = some { g with members := g.members ++ [⟨who, loc, loc.core, e, cls, key, none, false, false⟩] } ∧ t.cores = s.cores ∧ t.flight = s.flight.eraseIdx n ∧ StoreKept s t) ∧
      (s.group gk = none → count = 1 → Happens (.groupJoinAtRegistry n) s fun t => (∃ g, t.group gk = some g ∧ g.formed = true ∧ g.count = 1) ∧
        (t.residentAt l).ep e = { a.ep e with status := .opened, loop := 0 } ∧ Awaits (t.residentAt l) (reportMsg who e cls ⟨satAdd key.vrt 1, groupSender gk, 0⟩ 0) ∧ RegsKept s t ∧ StoreKept s t))) ∧
  (∀ (s : State) (n rank : Nat) (c : Contrib) (data : List Byte) (g : Group) (w : Wave), s.packet n = some (.contrib c data false) → s.group c.group = some g → g.broken = none → c.op ≠ .leave →
    g.members.findIdx? (fun m => m.actor = c.actor && ! m.gone) = some rank → w = (g.waves.find? fun w => w.num = c.wave).getD ⟨c.wave, [], [], [], none, false, [], []⟩ → w.num = c.wave → w.started = false →
    (∃ r < g.count, g.accounted { w with contribs := w.contribs ++ [(rank, c)] } r = false) → Happens (.collectiveChunk n) s fun t => (∃ g' w', t.group c.group = some g' ∧ w' ∈ g'.waves ∧ w'.num = c.wave ∧
      w'.contribs = w.contribs ++ [(rank, c)] ∧ w'.started = false ∧ w'.chunks = w.chunks ++ leafChunks c rank data) ∧ RegsKept s t ∧ StoreKept s t) ∧
  (∀ (s : State) (n : Nat) (c : Chunk) (g : Group) (w : Wave) (tr : Tree), s.packet n = some (.chunk c) → s.group c.group = some g → g.waves.find? (fun w => w.num = c.wave) = some w → w.failed = none →
    treeOf (g.ranks c.wave) = some tr →
    (∀ other second x y, tr.mate c.ranks = some (other, second) → w.chunks.find? (fun x => x.num = c.num && x.ranks = other) = some x → y = (if second then c.combine x else x.combine c) → y.failed = false →
      Happens (.collectiveChunk n) s fun t => OnWay t (.chunk y) ∧ y.ranks = (if second then c.ranks ++ x.ranks else x.ranks ++ c.ranks) ∧ StoreKept s t) ∧
    (tr.mate c.ranks = none → Happens (.collectiveChunk n) s fun t => (∀ x ∈ w.givers, g.alive x.1 = true → c.num ∈ neededChunks x.2 x.1 g.count → OnWay t (.result x.2.loc x.1 c)) ∧ t.cores = s.cores ∧ t.groups = s.groups ∧
      StoreKept s t)) ∧
  (∀ (desc : Word) (a b : List Byte), combineBlock desc (some a) none = some a ∧ combineBlock desc none (some b) = some b ∧
    (desc.extractLsb' 48 2 = 2 → desc.extractLsb' 50 2 = 0 → ∀ x y, x < 2 ^ 32 → y < 2 ^ 32 → waveComb desc x y = (x + y) % 2 ^ 32)) ∧
  (∀ (s : State) (n rank : Nat) (o l : Loc) (c : Chunk) (g : Group) (w : Wave) (x : Nat × Contrib), s.packet n = some (.result o rank c) → s.group c.group = some g →
    g.waves.find? (fun w => w.num = c.wave) = some w → w.givers.find? (fun x => x.1 = rank) = some x → w.failed = none → g.alive rank = true → s.locOf x.2.actor = some l → s.halted l.core = false →
    Happens (.resultChunk n) s fun t => (∀ at_ data, resultBlocks g w rank c x.2 = [(at_, data)] → (∀ j < data.length, some ((t.core l.core).pad.byte (at_ + j)) = data[j]?) ∧
        ∀ q ∈ wordsOf at_ data.length, (t.core l.core).isFull q = true) ∧
      (∀ y, (∀ b ∈ resultBlocks g w rank c x.2, y < b.1 ∨ b.1 + b.2.length ≤ y) → (t.core l.core).pad.byte y = (s.core l.core).pad.byte y) ∧
      ((∀ j ∈ neededChunks x.2 rank g.count, (rank, j) ∈ w.written ∨ j = c.num) → ∃ d m, OnWay t (.msg d m) ∧ m.kind = .completion ∧ m.rcpt = x.2.actor ∧ m.hdr.cls = x.2.cls) ∧ RegsKept s t ∧ StoreKept s t) ∧
  ∀ (s : State) (n gk rank : Nat) (who : AId) (begun : List Nat) (g : Group), s.packet n = some (.death gk who begun) → s.group gk = some g →
    g.members.findIdx? (fun m => m.actor = who && ! m.gone && ! m.dead) = some rank →
    (g.formed = false → 2 ≤ g.members.length → Happens (.memberDeath n) s fun t => t.group gk = some { g with members := g.members.eraseIdx rank } ∧ t.cores = s.cores ∧ StoreKept s t) ∧
    (g.formed = true → Happens (.memberDeath n) s fun t => StoreKept s t ∧ ∀ h, t.group gk = some h → h.broken.isSome = true ∧ (h.members[rank]?.map fun m => m.dead) = some true)

/-! ## The Milestone -/

/-- A round: it starts when it is due and no round runs; each station takes the cut once; a pass that finds messages of the old colour on their way is followed by another, one that finds none ends the round with the least VRT that waits or is on its way, never below the last Milestone, settled when what is on its way is later; without anything it ends at the largest ended VRT, settled. At fabric scope a module that has the shares of those behind it sends their reduction towards the root, the root ends the round or has the modules pass again, and its word reaches every module. The result reaches each station once: cores and logic bases take it; of a context's registers only PRIO.EFF may change, by a loan that ends. The ports 4d + 2 and 4d that carry the fabric's flits are log 15, the format of a share log 18, the model's choices (R342, R361, R366, R371, R372, R373, R374). -/
def Obligations.MilestoneRounds : Prop :=
  (∀ (s : State), s.round = none → s.roundDue ≤ s.time → Happens .milestoneRoundStart s fun t =>
    t = { s with round := some ⟨s.roundNum + 1, s.early, none, false, none, []⟩, early := [], roundNum := s.roundNum + 1, fabricOn := s.mgmt.fabric, fabricIn := if s.mgmt.fabric then s.fabricIn else [],
                 fabricDown := if s.mgmt.fabric then s.fabricDown else [], roundDue := s.time + if s.mgmt.fabric then s.mgmt.fperiod.toNat else s.mgmt.period.toNat }) ∧
  (∀ (s : State) (r : Round) (n : Nat) (c : Bool), s.round = some r → n < stationCount → n ∉ r.cut → c = decide (r.num % 2 = 1) → Happens (.takeTheCut n) s fun t =>
    (t.station n).colour = c ∧ (t.station n).way = BitVec.allOnes 64 ∧ (t.station n).inFlight c = 0 ∧ (t.station n).inFlight (! c) = (s.station n).inFlight (! c) ∧ (∀ m, m ≠ n → t.station m = s.station m) ∧
    t.round = some { r with cut := insertNat n r.cut } ∧ t.cores = s.cores ∧ t.bases = s.bases ∧ t.flight = s.flight) ∧
  (∀ (s : State) (r : Round) (x : Share) (ended : State → Round → Share → State → Prop), s.round = some r → r.result = none →
    (∀ s r x t, ended s r x t ↔ t.lastM = t.mgmt.mnow ∧ t.lastSettled = t.mgmt.msettled ∧ t.round = some { r with result := some (t.lastM, t.lastSettled) } ∧ t.mgmt.mrounds = s.mgmt.mrounds + 1 ∧
      t.lastM.toNat = (if x.here = BitVec.allOnes 64 ∧ x.way = BitVec.allOnes 64 then max s.lastM.toNat x.top.toNat else max (min x.here.toNat x.way.toNat) s.lastM.toNat) ∧
      (t.lastSettled = true ↔ x.here = BitVec.allOnes 64 ∧ x.way = BitVec.allOnes 64 ∨ x.here.toNat < x.way.toNat) ∧ t.cores = s.cores ∧ t.bases = s.bases ∧ t.flight = s.flight) →
    (r.given = none → stationCount ≤ r.cut.length → x = s.share (! decide (r.num % 2 = 1)) →
      (s.fabricOn = false → x.count = 0 → Happens .milestonePass s (ended s r x)) ∧ (s.fabricOn = false → x.count ≠ 0 → Happens .milestonePass s fun t => t = s) ∧
      (s.fabricOn = true → Happens .milestonePass s fun t => t.round = some { r with given := some x } ∧ t.cores = s.cores ∧ t.flight = s.flight)) ∧
    ∀ y, r.given = some y → (∀ l, (s.port l).replay.length < 512) →
      (r.sentUp = false → s.childDims.length ≤ s.fabricIn.length → x = s.fabricIn.foldl Share.join y →
        (∀ d, s.upDim = some d → Happens .fabricRound s fun t => t.round = some { r with sentUp := true } ∧ (∃ f, (t.port (4 * d + 2)).out = (s.port (4 * d + 2)).out ++ [f] ∧ f.round = some (.up x)) ∧
          t.cores = s.cores ∧ t.flight = s.flight) ∧
        (s.upDim = none → x.count = 0 → Happens .fabricRound s (ended s r x)) ∧
        (s.upDim = none → x.count ≠ 0 → Happens .fabricRound s fun t => t.round = some { r with given := none, sentUp := false } ∧ t.cores = s.cores ∧ t.flight = s.flight)) ∧
      ∀ w rest, r.sentUp = true → s.fabricDown = w :: rest → Happens .fabricRound s fun t => t.fabricDown = rest ∧ t.cores = s.cores ∧ t.flight = s.flight ∧
        (∀ d ∈ s.childDims, ∃ f, (t.port (4 * d)).out = (s.port (4 * d)).out ++ [f] ∧ f.round = some (.down w)) ∧
        (∀ v, w = some v → t.lastM = v.1 ∧ t.lastSettled = v.2 ∧ t.round = some { r with result := some v }) ∧ (w = none → t.round = some { r with given := none, sentUp := false })) ∧
  ∀ (s : State) (r : Round) (m : Word) (st : Bool) (n : Nat), s.round = some r → r.result = some (m, st) → n < stationCount → n ∉ r.reached → (n < 4096 → (s.core (BitVec.ofNat 12 n)).antiFull ≠ some s.time) → (4096 ≤ n → n < 4104 → s.markWaits (n - 4096) m = false) →
    Happens (.roundCompletion n) s fun t =>
    (n < 4096 → (t.core (BitVec.ofNat 12 n)).vmile = m ∧ (t.core (BitVec.ofNat 12 n)).settled = st ∧ (t.core (BitVec.ofNat 12 n)).rounds = (s.core (BitVec.ofNat 12 n)).rounds + 1) ∧
    (4096 ≤ n → n < 4104 → (t.base (n - 4096)).vmile = m ∧ (t.base (n - 4096)).settled = st) ∧
    (∀ c x, ctxOn t c x = { ctxOn s c x with wait := (ctxOn t c x).wait, prioEff := (ctxOn t c x).prioEff }) ∧
    t.round = if (insertNat n r.reached).length < stationCount then some { r with reached := insertNat n r.reached } else none

/-! ## The host and the links -/

/-- The host's side: a write to an endpoint's control word makes it busy, and bytes go into its window, or the write is discarded and counted, which for a control word that meets BUSY keeps BUSY for this cycle (R268); the message then enters with the window's bytes at a VRT above the Milestone, or is refused and the channel closes; a message for a host endpoint is written into the next slot of its ring; a register takes the host's write; a launch set creates its actors at their places, its messages then enter one by one through their endpoints' windows, and its cause is noted. A link port accepts a good flit in its sequence, with the message that it completes or the round's share that it carries, and asks for a replay of a bad one, drops what is acknowledged, and sends again from the failed flit, retrains after sixteen failed replays, and goes down after three retrainings. RTAIL as a slot's index is log 41, the launch's cause and steps logs 46 and 82, what an acknowledgement resets and what counts as a failed replay log 47, the model's choices (R64, R197, R198, R268, R286). -/
def Obligations.HostAndLinks : Prop :=
  (∀ (s u : State) (w : HostWrite) (rest : List HostWrite), s.hostIn = w :: rest → u = { s with hostIn := rest } →
    (∀ fn i v h, w = .ctl fn i v → s.endpointAt fn i = some h → Happens .ctlWrite s fun t =>
      t = if h.busy = true then (u.setHost { h with fullAt := some s.time }).count 0x30B8 else if h.record.status = .opened then u.setHost { h with ctl := v, busy := true } else u.count 0x30B8) ∧
    (∀ fn i off bytes h, w = .window fn i off bytes → s.endpointAt fn i = some h → Happens .sendWindowWrite s fun t =>
      t = if h.busy = true ∨ 4096 < off + bytes.length then u.count 0x30B8 else u.setHost { h with window := h.window.setBytes off bytes }) ∧
    (∀ off v m, w = .w0 off v → s.mgmt.write off v = some m → Happens .hostRegisterWrite s fun t => t.mgmt = m ∧ t.hostIn = rest ∧ t.hosts = s.hosts ∧ t.flight = s.flight ∧ RegsKept s t ∧ PadsKept s t ∧ StoreKept s t) ∧
    ∀ fn i v h, w = .vrt fn i v → s.endpointAt fn i = some h → h.busy = false → Happens .hostRegisterWrite s fun t => t = u.setHost { h with vrt := v }) ∧
  (∀ (m : Mgmt) (v : Word) (t : Fin 16), (∃ k, m.write 0x0100 v = some k ∧ k.pwrCap = if 600 ≤ (v.setWidth 11).toNat ∧ (v.setWidth 11).toNat ≤ 1800 then v.setWidth 11 else m.pwrCap) ∧
    m.write (0x6200 + 8 * t.val) v = some { m with horizon := m.horizon.set t.val v }) ∧
  (∀ (s : State) (n : Nat) (h : HostEp) (cls : BitVec 6) (len : Nat), s.hostOf (BitVec.ofNat 17 n) = some h → h.busy = true → h.fullAt ≠ some s.time → s.tooFar h.sender h.seq h.seq = false → h.record.status = .opened → cls = h.ctl.extractLsb' 24 6 → len = (h.ctl.setWidth 13).toNat →
    (h.misfit cls len = none → Happens (.hostMessageEntry n) s fun t => (∃ m, OnWay t (.msg h.dest m) ∧ m.payload = h.window.bytes 0 len ∧ m.hdr.cls = cls ∧ m.hdr.join = h.ctl.getLsbD 16 ∧ m.hdr.irrev = true ∧
        m.hdr.key = ⟨if s.lastM.ult h.vrt then h.vrt else satAdd s.lastM 1, BitVec.ofNat 24 (0xFF0000 + h.num.toNat % 65536), h.seq⟩ ∧ m.rcpt = ⟨h.tenant, h.peerId⟩) ∧
      (∃ g, t.hostOf (BitVec.ofNat 17 n) = some g ∧ g.busy = false ∧ g.seq = h.seq + 1 ∧ g.record.sent = h.record.sent + 1 ∧ g.record.status = .opened) ∧ t.cores = s.cores) ∧
    ∀ reason, h.misfit cls len = some reason → Happens (.hostMessageEntry n) s fun t => (∃ m, OnWay t (.msg h.dest m) ∧ m.hdr.close = true ∧ m.hdr.cls = 62) ∧
      (∃ g, t.hostOf (BitVec.ofNat 17 n) = some g ∧ g.busy = false ∧ g.record.status = .closing) ∧ t.cores = s.cores) ∧
  (∀ (s : State) (n : Nat) (num : BitVec 17) (m : Msg) (h : HostEp) (r : Ring) (va : Nat), s.packet n = some (.msg (.host num) m) → s.first n (.msg (.host num) m) = true → s.hostOf num = some h →
    m.hdr.fails = false → h.record.status = .opened → m.hdr.close = false → s.ringOf h = some r → r.slots ≠ 0 → va = hostAddr (r.fn / 17) (r.rbase.toNat + 4160 * (r.rtail.toNat % r.slots)) → Happens (.hostRingDelivery n) s fun t =>
      (∀ j < 32, some (t.hostMem.byte (va + j)) = m.hdr.bytes[j]?) ∧ (∀ j < m.payload.length, some (t.hostMem.byte (va + 64 + j)) = m.payload[j]?) ∧
      (t.hostMem.byte (va + 32)).getLsbD 0 = r.phase ∧ (∀ y, (y < va ∨ va + 64 + m.payload.length ≤ y) → t.hostMem.byte y = s.hostMem.byte y) ∧
      (∃ q, t.ringOf h = some q ∧ q.rtail = BitVec.ofNat 64 ((r.rtail.toNat % r.slots + 1) % r.slots)) ∧ (∃ g, t.hostOf num = some g ∧ g.record.rcvd = h.record.rcvd + 1) ∧ t.cores = s.cores) ∧
  (∀ (s : State) (x : LaunchSet) (rest : List LaunchSet), s.launches = x :: rest →
    (s.injects = [] → (∀ i ∈ x.images, (s.core i.core).scan = none ∧ (s.mgmt.minimal = true → quadOf i.core = 0)) → (∀ a ∈ x.actors, s.mgmt.minimal = true → quadOf a.loc.core = 0) →
      (∀ t, s.launchSet x = .ok t → exec .launch s = .next (if t.injects = [] then { t with launches := t.launches.drop 1, launchCause := 0 } else t)) ∧
      ∀ c t, s.launchSet x = .error (c, t) → Happens .launch s fun u => u.launchCause = c ∧ u.injects = []) ∧
    ∀ m more h g, s.injects = m :: more → s.hostOf m.num = some h → h.busy = false → h.record.status = .opened →
      g = { h with window := h.window.setBytes 0 (m.data.take 4096), vrt := m.vrt, ctl := BitVec.ofNat 64 (m.cls.toNat * 2 ^ 24 + m.data.length), busy := true } →
      (h.misfit m.cls m.data.length = none → Happens .launch s fun t =>
        t = { s.setHost g with injects := more, launches := if more = [] then rest else s.launches, launchCause := if more = [] then 0 else s.launchCause }) ∧
      ∀ c, h.misfit m.cls m.data.length = some c → Happens .launch s fun t => t.launchCause = c ∧ t.injects = []) ∧
  (∀ (s t : State) (y : LaunchActor), s.launchActor y = .ok t → ∃ a, a = t.residentAt y.loc ∧ a.aid = y.aid ∧ a.image = y.image ∧ a.disc = y.disc ∧ a.prio = y.prio ∧ a.budget = y.budget ∧ a.zones = y.zones ∧
    (a.ep 15).status = .opened ∧ OtherCores s t y.loc.core) ∧
  ∀ (s : State) (l : BitVec 4) (p : Port), p = s.port l.toNat →
    (12 ≤ l.toNat → exec (.linkFlitReceive l) s = .fault .noSuchPart ∧ exec (.linkAcknowledgement l) s = .fault .noSuchPart ∧ exec (.linkReplay l) s = .fault .noSuchPart) ∧
    (l.toNat < 12 →
      (∀ f rest, p.rx = f :: rest → p.up = true → f.crcOk = true → f.seq = p.rxSeq → f.carries = none → Happens (.linkFlitReceive l) s fun t => (t.port l.toNat).rxSeq = p.rxSeq + 1 ∧ (t.port l.toNat).rx = rest ∧
        (t.port l.toNat).dropping = false ∧ (t.port l.toNat).asks = p.asks ++ [(true, f.seq)] ∧ t.fabricIn = s.fabricIn ++ (match f.round with | some (.up x) => [x] | _ => []) ∧
        t.fabricDown = s.fabricDown ++ (match f.round with | some (.down y) => [y] | _ => []) ∧ t.cores = s.cores ∧ t.flight = s.flight) ∧
      (∀ f rest k x m, p.rx = f :: rest → p.up = true → f.crcOk = true → f.seq = p.rxSeq → f.carries = some (.msg (.link s.coords k x) m) → f.round = none → m.hdr.fails = false → Happens (.linkFlitReceive l) s fun t =>
        (∃ y, OnWay t (.msg (.ep k x) y) ∧ y.payload = m.payload ∧ y.rcpt = m.rcpt ∧ y.hdr.key = { m.hdr.key with vrt := if s.fabricOn then m.hdr.key.vrt else s.raised m.hdr.key.vrt }) ∧
        (t.port l.toNat).rxSeq = p.rxSeq + 1 ∧ (t.port l.toNat).asks = p.asks ++ [(true, f.seq)] ∧ t.cores = s.cores) ∧
      (∀ f rest, p.rx = f :: rest → p.up = true → (f.crcOk = false ∨ f.seq ≠ p.rxSeq) → (p.dropping = false ∨ f.seq = p.rxSeq) → Happens (.linkFlitReceive l) s fun t =>
        t = s.setPort l.toNat { p with rx := rest, dropping := true, asks := p.asks ++ [(false, p.rxSeq)] }) ∧
      (∀ f rest, p.rx = f :: rest → p.up = true → f.seq ≠ p.rxSeq → p.dropping = true → Happens (.linkFlitReceive l) s fun t => t = s.setPort l.toNat { p with rx := rest }) ∧
      (∀ q rest, p.acks = q :: rest → Happens (.linkAcknowledgement l) s fun t => t = s.setPort l.toNat { p with acks := rest, replay := afterSeq q p.replay, fails := 0, retrains := 0 }) ∧
      (∀ q rest, p.replays = q :: rest → p.fails < 16 → Happens (.linkReplay l) s fun t =>
        t = s.setPort l.toNat { p with replays := rest, fails := p.fails + 1, out := p.out ++ p.replay.dropWhile fun f => f.seq ≠ q }) ∧
      (∀ q rest, p.replays = q :: rest → 16 ≤ p.fails → p.retrains < 3 → Happens (.linkReplay l) s fun t =>
        t = s.setPort l.toNat { p with replays := rest, fails := 1, retrains := p.retrains + 1, out := p.out ++ p.replay.dropWhile fun f => f.seq ≠ q }) ∧
      ∀ q rest, p.replays = q :: rest → 16 ≤ p.fails → 3 ≤ p.retrains → Happens (.linkReplay l) s fun t => (t.port l.toNat).up = false ∧ Counted s t 0x30C0)

/-! ## The management core -/

/-- Table requests of one page end with GO clear and their status: an allocation puts the page into the Depot map for its tenant with its capability, free clears it, the ordering and the holder are set, a protection entry is written or made invalid on the named core. A core configuration waits for the pointer's wrap; at the wrap the new table and the throttle level take effect. The arbiter keeps the power within the cap, and the quadrants' grants within what the other parts leave (log 87); at 50 °C READY is cleared; a life-cycle change needs its signature, clears READY, kills every actor and then wipes the module; LAYBY and SAVEPOOL take what fits; the Roadblock stops and starts the cores of its partition alone; a reset wipes and boots; the scrubber counts what it cannot correct; a second raises the bucket of the hottest die. Status 5 and the blocks' addresses are log 10, the operations 6 to 15 and GEN at an allocation log 31, what is refused whole log 32, READY in the kill step and what a wipe leaves log 34, what a reset keeps and boots log 35, the model's choices (R192, R193, R194, R202, R213, R320, R335, R337, R338, R339, R348, R356, R357, R360, R383, R384, R400). -/
def Obligations.Management : Prop :=
  (∀ (s : State) (m : Mgmt) (p : Nat) (c : CoreId) (e n : Nat) (done : State → Nat → Prop), m = s.mgmt → m.tblGo = true → m.tblPages = [p] → n = m.tblOp → c = (m.tbl 3).setWidth 12 → e = ((m.tbl 3).extractLsb' 16 6).toNat →
    (∀ t st, done t st ↔ t.mgmt.tblGo = false ∧ t.mgmt.tblStatus = BitVec.ofNat 64 st ∧ PadsKept s t ∧ RegsKept s t ∧ t.flight = s.flight) →
    (6 ≤ n → Happens .allocate s fun t => done t 1 ∧ StoreKept s t) ∧
    (n = 0 → s.walking p = false → globalPage p = false → Happens .allocate s fun t => done t 2 ∧ StoreKept s t) ∧
    (n = 0 → s.walking p = false → globalPage p = true → (s.leaf p).valid = true ∨ (s.leaf p).depot = true → Happens .allocate s fun t => done t 3 ∧ StoreKept s t) ∧
    (n = 0 → s.walking p = false → globalPage p = true → (s.leaf p).valid = false → (s.leaf p).depot = false → Happens .allocate s fun t => if s.tableHolds p = false then done t 5 ∧ StoreKept s t else done t 0 ∧
      t.leaf p = ⟨false, true, false, false, (m.tbl 1).getLsbD 55, m.tblTenant, 0⟩ ∧ t.cap p = ⟨m.tblHeld, m.tblHolder, (s.cap p).gen⟩ ∧ (t.base (homePage p)).present p = true ∧ (∀ b, (t.base b).dram = (s.base b).dram) ∧ ∀ j, j ≠ p → t.leaf j = s.leaf j ∧ t.cap j = s.cap j) ∧
    (globalPage p = true → s.owns m.tblTenant p = true →
      (n = 1 → s.quiet p = true → Happens .free s fun t => done t 0 ∧ t.leaf p = Leaf.zero ∧ t.cap p = Cap.zero ∧ (t.depotPage p).cells = [] ∧ ∀ j, j ≠ p → t.leaf j = s.leaf j ∧ t.cap j = s.cap j) ∧
      (n = 2 → s.quiet p = true → Happens .setOrdering s fun t => done t 0 ∧ t.leaf p = { s.leaf p with strong := (m.tbl 1).getLsbD 55 } ∧ t.caps = s.caps ∧ ∀ j, j ≠ p → t.leaf j = s.leaf j) ∧
      (n = 3 → Happens .setHolder s fun t => done t 0 ∧ t.cap p = ⟨m.tblHeld, m.tblHolder, (s.cap p).gen + 1⟩ ∧ t.leaves = s.leaves ∧ ∀ j, j ≠ p → t.cap j = s.cap j)) ∧
    (globalPage p = true → s.owns m.tblTenant p = false → (n = 1 → s.quiet p = true → Happens .free s fun t => done t 4 ∧ StoreKept s t) ∧ (n = 2 → s.quiet p = true → Happens .setOrdering s fun t => done t 4 ∧ StoreKept s t) ∧
      (n = 3 → Happens .setHolder s fun t => done t 4 ∧ StoreKept s t)) ∧
    ((m.tbl 3).getLsbD 63 = false →
      (n = 4 → ((m.tbl 2).extractLsb' 40 5).toNat ≤ 16 → Happens .writeProtectionEntry s fun t => done t 0 ∧ OtherCores s t c ∧ look ProtEntry.zero e (t.core c).prot =
        ⟨true, (m.tbl 2).extractLsb' 40 5, (m.tbl 0).setWidth 40, (m.tbl 2).setWidth 40, (m.tbl 2).getLsbD 63, (m.tbl 2).getLsbD 62, (m.tbl 2).getLsbD 61, (m.tbl 2).getLsbD 60⟩ ∧
        ∀ j, j ≠ e → look ProtEntry.zero j (t.core c).prot = look ProtEntry.zero j (s.core c).prot) ∧
      (n = 5 → Happens .clearProtectionEntry s fun t => done t 0 ∧ OtherCores s t c ∧ (look ProtEntry.zero e (t.core c).prot).valid = false ∧
        ∀ j, j ≠ e → look ProtEntry.zero j (t.core c).prot = look ProtEntry.zero j (s.core c).prot))) ∧
  (∀ (s u : State) (c : CoreId) (w0 w1 : Word), s.mgmt.cfgGo = true → w0 = s.mgmt.cfgReq[0] → w1 = s.mgmt.cfgReq[1] → w0.getLsbD 63 = false → c = w0.setWidth 12 →
    u = s.setCore c { s.core c with nextSlots := some s.mgmt.table, arm := if w1.getLsbD 5 then (if w1.getLsbD 4 then some (w1.setWidth 4) else none) else (s.core c).arm } →
    Happens .coreConfigurationRequest s fun t => if u.partitionsOk = true then t = u.configDone 0 else t = s.configDone 2) ∧
  (∀ (s : State) (c : CoreId), (s.core c).pointer = 63 → State.issuer { s with here := c } = none → Happens (.slotPointerWrap c) s fun t => (t.core c).pointer = 0 ∧ (t.core c).slots = (s.core c).nextSlots.getD (s.core c).slots ∧ (t.core c).nextSlots = none ∧
    (t.core c).throttle = s.levelOf c ∧ (t.core c).cycle = (s.core c).cycle + 1 ∧ (∀ x, ctxOn t c x = { ctxOn s c x with budget := (ctxOn t c x).budget }) ∧ OtherCores s t c ∧ PadsKept s t ∧ StoreKept s t) ∧
  (∀ (s : State), (s.mgmt.inlet.toNat < 50 → Happens .arbiterPeriod s fun t => t.mgmt.pwrNow.toNat ≤ s.mgmt.cap ∧ (∃ w : List Nat, w.length = 4 ∧ w.sum ≤ s.mgmt.cap - otherWatts ∧ t.mgmt.qgrant.toList = w.map Config.grant) ∧ t.cores = s.cores ∧ t.bases = s.bases ∧ t.flight = s.flight) ∧
    (50 ≤ s.mgmt.inlet.toNat → Happens .arbiterPeriod s fun t => t.mgmt.ready = false ∧ t.mgmt.pwrNow.toNat ≤ s.mgmt.cap) ∧
    (s.sensor.toNat < 50 → Happens .coolantSample s fun t => t = { s with mgmt := { s.mgmt with inlet := s.sensor } }) ∧
    (50 ≤ s.sensor.toNat → Happens .coolantSample s fun t => t.mgmt.ready = false ∧ t.mgmt.inlet = s.sensor)) ∧
  (∀ (s : State) (m : Mgmt) (n : Nat), m = s.mgmt → m.lcGo = true → n = Config.lcTarget m.lcRequest →
    (m.wiping = none → Config.signatureOk m.lcRequest = false → Happens .lifeCycleChange s fun t => t = { s with mgmt := { m with lcGo := false, lcErr := 1 } }) ∧
    (m.wiping = none → Config.signatureOk m.lcRequest = true → lifeAllowed m.lcState.toNat n = false → Happens .lifeCycleChange s fun t => t = { s with mgmt := { m with lcGo := false, lcErr := 2 } }) ∧
    (m.wiping = none → Config.signatureOk m.lcRequest = true → lifeAllowed m.lcState.toNat n = true → Happens .lifeCycleChange s fun t =>
      t.mgmt.ready = false ∧ t.mgmt.wiping = some (BitVec.ofNat 3 n) ∧ t.mgmt.lcState = m.lcState ∧ t.mgmt.lcGo = true ∧ t.hostMem = s.hostMem) ∧
    ∀ w, m.wiping = some w →
      (s.empty = false → Happens .lifeCycleChange s fun t => t = s.killAll 0x1CC) ∧
      (s.empty = true → Happens .lifeCycleChange s fun t => t.mgmt.lcState = w ∧ t.mgmt.lcGo = false ∧ t.mgmt.wiping = none ∧ t.mgmt.ready = true ∧
        (∀ c, (t.core c).pad = Mem.empty ∧ (t.core c).full = [] ∧ (t.core c).code = Mem.empty ∧ (t.core c).actors = [] ∧ (t.core c).images = []) ∧ (∀ b, (t.base b).dram = Mem.empty) ∧ t.leaves = [] ∧ t.depot = [] ∧
        t.hostMem = s.hostMem)) ∧
  (∀ (s u : State) (v : Word) (rest : List HostWrite) (i : Fin 16) (id : BitVec 24), s.hostIn = .w0 (0x6180 + 8 * i.val) v :: rest → u = { s with hostIn := rest } → id = v.setWidth 24 →
    (v.getLsbD 63 = false → Happens .laybyWrite s fun t => t.mgmt.layby[i] = none ∧ t.mgmt.laybyId[i] = id ∧ PadsKept s t ∧ RegsKept s t) ∧
    (v.getLsbD 63 = true → s.mgmt.layby[i] = none → Happens .laybyWrite s fun t => t.mgmt.layby[i] = (if (s.nameLayby ⟨BitVec.ofNat 4 i.val, id⟩).isSome then some id else none) ∧ PadsKept s t ∧ RegsKept s t)) ∧
  (∀ (s u : State) (v : Word) (rest : List HostWrite) (i : Fin 8) (n : BitVec 24) (b : Base), s.hostIn = .w0 (0x6500 + 8 * i.val) v :: rest → u = { s with hostIn := rest } → n = v.setWidth 24 → b = s.base i.val →
    Happens .savepoolWrite s fun t => t = if b.poolTaken ≤ n.toNat ∧ n.toNat + b.tables + b.taken.length ≤ b.frames then (u.setBase i.val { b with poolFrames := n }).noFrame i.val else u) ∧
  (∀ (s : State) (h : BitVec 4), s.mgmt.rbStop[h.toNat] = true ∨ s.mgmt.rbTrip[h.toNat] = true → (∀ c ∈ s.cores, s.core (BitVec.ofNat 12 c.1) = c.2) →
    (s.mgmt.stopped[h.toNat] = false → (∀ c ∈ s.cores, c.2.arm = some h → ∀ x : Fin 4, ∀ r k b, c.2.ctxs[x].phase ≠ .trapping r k b) →
      Happens (.roadblockStop h) s fun t => (∀ c, (s.core c).arm ≠ some h → t.core c = s.core c) ∧
        (∀ c, (s.core c).arm = some h → t.core c = { s.core c with stopped := true, rb := (t.core c).rb, rbCounts := (s.core c).rbEnds } ∧
          ∀ x : Fin 4, ∃ stalls, (t.core c).rb[x.val]? = some ((s.core c).rbOf (s.core c).ctxs[x] stalls)) ∧
        t.mgmt.stopped[h.toNat] = true ∧ t.mgmt.rbStop[h.toNat] = false ∧ t.mgmt.rbTrip[h.toNat] = false ∧ RegsKept s t ∧ PadsKept s t ∧ StoreKept s t) ∧
    (s.mgmt.stopped[h.toNat] = true → Happens (.roadblockStop h) s fun t => t.cores = s.cores ∧ t.mgmt.stopped = s.mgmt.stopped ∧ t.mgmt.rbStop[h.toNat] = false ∧ t.mgmt.rbTrip[h.toNat] = false)) ∧
  (∀ (s : State) (h : BitVec 4), s.mgmt.rbGo[h.toNat] = true → s.mgmt.rbStop[h.toNat] = false → s.mgmt.rbTrip[h.toNat] = false → (∀ c ∈ s.cores, s.core (BitVec.ofNat 12 c.1) = c.2) → Happens (.roadblockResume h) s fun t =>
    (∀ c, t.core c = if (s.core c).arm = some h then { s.core c with stopped := false } else s.core c) ∧ t.mgmt.stopped[h.toNat] = false ∧ t.mgmt.rbGo[h.toNat] = false ∧ RegsKept s t ∧ PadsKept s t ∧ StoreKept s t) ∧
  (∀ (s : State) (v : Word) (rest : List HostWrite), s.hostIn = .w0 0x0018 v :: rest →
    (v.getLsbD 0 = true → Happens .leaveMinimalMode s fun t => t.mgmt.minimal = false ∧ t.mgmt.attempts = 0 ∧ t.mgmt.ready = true ∧ t.mgmt.lcState = s.mgmt.lcState) ∧
    (v.getLsbD 0 = false → Happens .leaveMinimalMode s fun t => t = { s with hostIn := rest })) ∧
  (∀ (s : State), Happens .reset s fun t => (∀ c, t.core c = Core.reset) ∧ (∀ b, (t.base b).dram = Mem.empty) ∧ t.hostMem = s.hostMem ∧ t.mgmt.ready = true ∧ t.mgmt.lcState = s.mgmt.lcState ∧
    (t.mgmt.minimal = true ↔ s.mgmt.attempts = 3) ∧ (s.mgmt.attempts ≠ 3 → Counted s t 0x30C8) ∧ (s.mgmt.attempts = 3 → t.mgmt.reason = s.mgmt.reason ∧ t.mgmt.attempts = 3)) ∧
  (∀ (s : State) (c : CoreId) (a : BitVec 15), Happens (.scrub c a) s fun t => t = if a.toNat ∈ (s.core c).badPad then s.count 0x30B0 else s) ∧
  ∀ (s : State), Happens .lifetimeSecond s fun t => ∃ i : Nat, i < 16 ∧ (s.die < 20 → i = 0) ∧ (95 ≤ s.die → i = 15) ∧ (20 ≤ s.die → s.die < 95 → (20 + 5 * i : Int) ≤ s.die ∧ s.die < 25 + 5 * i) ∧
    Counted s t (0x3100 + 8 * i) ∧ (∀ off, off ≠ 0x3100 + 8 * i → look 0 off t.mgmt.counters = look 0 off s.mgmt.counters) ∧ t.cores = s.cores ∧ t.bases = s.bases
end
end

