-- ==== Sys2Proof/Laws/Memory.lean ====
section
/-! SUPPORT. Sparse memories: every operation keeps the canonical form; a read after a write gives what was written, and a write leaves every other byte alone. -/

namespace Sys2Proof.Machine

/-! ## Listed cells -/

@[simp] theorem cellAt_cellPut_same (a : Nat) (v : Byte) (m : List Host.Cell) : cellAt a (cellPut a v m) = some v := by
  induction m with
  | nil => simp [cellPut, cellAt]
  | cons c m ih =>
    obtain ⟨k, w⟩ := c
    simp only [cellPut]
    split
    · simp [cellAt]
    · split
      · simp [cellAt]
      · rename_i h; simp [cellAt, h, ih]

theorem cellAt_cellPut_ne {a b : Nat} (h : b ≠ a) (v : Byte) (m : List Host.Cell) : cellAt b (cellPut a v m) = cellAt b m := by
  induction m with
  | nil => simp [cellPut, cellAt, Ne.symm h]
  | cons c m ih =>
    obtain ⟨k, w⟩ := c
    simp only [cellPut]
    split
    · simp [cellAt, Ne.symm h]
    · split
      · rename_i e; subst e; simp [cellAt, Ne.symm h]
      · simp [cellAt, ih]

/-- The addresses of a list of cells rise strictly. -/
def Rising (m : List Host.Cell) : Prop := (m.map Prod.fst).Pairwise (· < ·)

theorem rising_cons {k : Nat} {w : Byte} {m : List Host.Cell} : Rising ((k, w) :: m) ↔ (∀ c ∈ m, k < c.1) ∧ Rising m := by
  simp [Rising, List.pairwise_cons]

theorem mem_cellPut {a : Nat} {v : Byte} {m : List Host.Cell} {c : Host.Cell} (h : c ∈ cellPut a v m) : c = (a, v) ∨ c ∈ m := by
  induction m with
  | nil => simpa [cellPut] using h
  | cons x m ih =>
    obtain ⟨k, w⟩ := x
    simp only [cellPut] at h
    split at h
    · simpa using h
    · split at h
      · rcases List.mem_cons.1 h with h | h
        · exact .inl h
        · exact .inr (List.mem_cons_of_mem _ h)
      · rcases List.mem_cons.1 h with h | h
        · exact .inr (by simp [h])
        · rcases ih h with h | h
          · exact .inl h
          · exact .inr (List.mem_cons_of_mem _ h)

theorem mem_cellDrop {a : Nat} {m : List Host.Cell} {c : Host.Cell} (h : c ∈ cellDrop a m) : c ∈ m := (List.mem_filter.1 h).1

theorem rising_cellPut {a : Nat} {v : Byte} {m : List Host.Cell} (h : Rising m) : Rising (cellPut a v m) := by
  induction m with
  | nil => simp [cellPut, Rising]
  | cons x m ih =>
    obtain ⟨k, w⟩ := x
    obtain ⟨h1, h2⟩ := rising_cons.1 h
    simp only [cellPut]
    split
    · rename_i g
      refine rising_cons.2 ⟨fun c hc => ?_, h⟩
      rcases List.mem_cons.1 hc with rfl | hc
      · exact g
      · exact lt_trans g (h1 c hc)
    · split
      · rename_i e; subst e; exact rising_cons.2 ⟨h1, h2⟩
      · rename_i g e
        refine rising_cons.2 ⟨fun c hc => ?_, ih h2⟩
        rcases mem_cellPut hc with rfl | hc
        · simp; omega
        · exact h1 c hc

theorem rising_cellDrop {a : Nat} {m : List Host.Cell} (h : Rising m) : Rising (cellDrop a m) :=
  List.Pairwise.sublist (List.filter_sublist.map Prod.fst) h

theorem cellAt_cellDrop_same (a : Nat) (m : List Host.Cell) : cellAt a (cellDrop a m) = none := by
  induction m with
  | nil => rfl
  | cons x m ih =>
    obtain ⟨k, w⟩ := x
    by_cases e : k = a
    · subst e; simpa [cellDrop] using ih
    · have : cellDrop a ((k, w) :: m) = (k, w) :: cellDrop a m := by simp [cellDrop, e]
      rw [this]; simp [cellAt, e, ih]

theorem cellAt_cellDrop_ne {a b : Nat} (h : b ≠ a) (m : List Host.Cell) : cellAt b (cellDrop a m) = cellAt b m := by
  induction m with
  | nil => rfl
  | cons x m ih =>
    obtain ⟨k, w⟩ := x
    by_cases e : k = a
    · subst e
      have : cellDrop k ((k, w) :: m) = cellDrop k m := by simp [cellDrop]
      rw [this, ih]; simp [cellAt, Ne.symm h]
    · have : cellDrop a ((k, w) :: m) = (k, w) :: cellDrop a m := by simp [cellDrop, e]
      rw [this]; simp [cellAt, ih]

/-! ## The canonical form -/

theorem Mem.wf_iff (m : Mem) : m.wf = true ↔ Rising m.cells ∧ ∀ c ∈ m.cells, inFog c.1 m.fog = true ∨ c.2 ≠ 0 := by
  simp [Mem.wf, Rising]

/-- Reset memory is canonical. -/
theorem Mem.empty_wf : Mem.empty.wf = true := by decide

/-- One byte written keeps the canonical form. -/
theorem Mem.set_wf {m : Mem} (a : Nat) (v : Byte) (h : m.wf = true) : (m.set a v).wf = true := by
  obtain ⟨h1, h2⟩ := (Mem.wf_iff m).1 h
  unfold Mem.set
  split
  · exact (Mem.wf_iff _).2 ⟨rising_cellDrop h1, fun c hc => h2 c (mem_cellDrop hc)⟩
  · rename_i g
    refine (Mem.wf_iff _).2 ⟨rising_cellPut h1, fun c hc => ?_⟩
    rcases mem_cellPut hc with rfl | hc
    · by_cases hv : v = 0
      · refine .inl ?_
        by_contra hf
        exact g ⟨hv, by simpa using hf⟩
      · exact .inr hv
    · exact h2 c hc

/-- Bytes written keep the canonical form. -/
theorem Mem.setBytes_wf {m : Mem} (a : Nat) (l : List Byte) (h : m.wf = true) : (m.setBytes a l).wf = true := by
  induction l generalizing m a with
  | nil => exact h
  | cons v l ih => exact ih (a + 1) (Mem.set_wf a v h)

theorem Rising.filter {m : List Host.Cell} (p : Host.Cell → Bool) (h : Rising m) : Rising (m.filter p) :=
  List.Pairwise.sublist (List.filter_sublist.map Prod.fst) h

/-- A range made unspecified keeps the canonical form. -/
theorem Mem.forget_wf {m : Mem} (lo hi tag : Nat) (h : m.wf = true) : (m.forget lo hi tag).wf = true := by
  obtain ⟨h1, h2⟩ := (Mem.wf_iff m).1 h
  refine (Mem.wf_iff _).2 ⟨h1.filter _, fun c hc => ?_⟩
  obtain ⟨hm, ho⟩ := List.mem_filter.1 hc
  rcases h2 c hm with hf | hv
  · refine .inl ?_
    simp only [inFog, List.any_eq_true] at hf ⊢
    obtain ⟨x, hx, hin⟩ := hf
    refine ⟨x, ?_, hin⟩
    simp only [Mem.forget]
    refine List.mem_cons_of_mem _ (List.mem_filter.2 ⟨hx, ?_⟩)
    simp at hin ho ⊢
    omega
  · exact .inr hv

/-- A range cleared keeps the canonical form. -/
theorem Mem.clear_wf {m : Mem} (lo hi : Nat) (h : m.wf = true) : (m.clear lo hi).wf = true := by
  obtain ⟨h1, h2⟩ := (Mem.wf_iff m).1 h
  refine (Mem.wf_iff _).2 ⟨h1.filter _, fun c hc => ?_⟩
  obtain ⟨hm, ho⟩ := List.mem_filter.1 hc
  rcases h2 c hm with hf | hv
  · refine .inl ?_
    simp only [inFog, List.any_eq_true] at hf ⊢
    obtain ⟨x, hx, hin⟩ := hf
    simp at hin ho
    by_cases hl : c.1 < lo
    · refine ⟨⟨x.lo, min x.hi lo, x.tag⟩, ?_, ?_⟩
      · exact List.mem_flatMap.2 ⟨x, hx, by rw [if_pos (by omega)]; simp⟩
      · simp; omega
    · refine ⟨⟨max x.lo hi, x.hi, x.tag⟩, ?_, ?_⟩
      · exact List.mem_flatMap.2 ⟨x, hx, by rw [if_pos (c := max x.lo hi < x.hi) (by omega)]; simp⟩
      · simp; omega
  · exact .inr hv

theorem Mem.sets_wf {m : Mem} (lo : Nat) (l : List Host.Cell) (h : m.wf = true) : (l.foldl (fun (m : Mem) c => m.set (lo + c.1) c.2) m).wf = true := by
  induction l generalizing m with
  | nil => exact h
  | cons c l ih => exact ih (Mem.set_wf _ _ h)

/-- A frame filled with a page keeps the canonical form. -/
theorem Mem.setPage_wf {m : Mem} (frame : Nat) (cells : List Host.Cell) (h : m.wf = true) : (m.setPage frame cells).wf = true :=
  Mem.sets_wf _ _ (Mem.clear_wf _ _ h)

/-! ## Reading after writing -/

/-- A byte reads as it was last written. -/
theorem Mem.byte_set_same (m : Mem) (a : Nat) (v : Byte) : (m.set a v).byte a = v := by
  have fog0 : ∀ l : List Fog, inFog a l = false → fogByte a l = 0 := by
    intro l
    induction l with
    | nil => simp [fogByte]
    | cons x l ih =>
      intro hx
      simp only [inFog, List.any_cons, Bool.or_eq_false_iff] at hx
      have : ¬ (x.lo ≤ a ∧ a < x.hi) := by simpa using hx.1
      simp [fogByte, this, ih hx.2]
  unfold Mem.set
  split
  · rename_i g; simp [Mem.byte, cellAt_cellDrop_same, fog0 _ g.2, g.1]
  · simp [Mem.byte]

/-- A byte written leaves every other byte alone. -/
theorem Mem.byte_set_ne (m : Mem) {a b : Nat} (h : b ≠ a) (v : Byte) : (m.set a v).byte b = m.byte b := by
  unfold Mem.set
  split
  · simp [Mem.byte, cellAt_cellDrop_ne h]
  · simp [Mem.byte, cellAt_cellPut_ne h]

/-- Bytes written leave every byte outside their range alone. -/
theorem Mem.byte_setBytes_out (m : Mem) (a : Nat) (l : List Byte) (b : Nat) (h : b < a ∨ a + l.length ≤ b) : (m.setBytes a l).byte b = m.byte b := by
  induction l generalizing m a with
  | nil => rfl
  | cons v l ih =>
    simp only [Mem.setBytes]
    rw [ih _ _ (by simp at h; omega), Mem.byte_set_ne _ (by simp at h; omega)]

/-- Byte i of a run of bytes written. -/
theorem Mem.byte_setBytes_in (m : Mem) (a : Nat) (l : List Byte) (i : Nat) (h : i < l.length) : (m.setBytes a l).byte (a + i) = l[i] := by
  induction l generalizing m a i with
  | nil => simp at h
  | cons v l ih =>
    simp only [Mem.setBytes]
    cases i with
    | zero =>
      rw [Mem.byte_setBytes_out _ _ _ _ (by omega)]
      simpa using Mem.byte_set_same m a v
    | succ i =>
      have := ih (m.set a v) (a + 1) i (by simpa using h)
      simpa [Nat.add_assoc, Nat.add_comm, Nat.add_left_comm] using this

/-- n bytes read where n bytes were written are those bytes. -/
theorem Mem.bytes_setBytes (m : Mem) (a : Nat) (l : List Byte) : (m.setBytes a l).bytes a l.length = l := by
  induction l generalizing m a with
  | nil => rfl
  | cons v l ih =>
    simp only [Mem.setBytes, List.length_cons, Mem.bytes]
    rw [ih, Mem.byte_setBytes_out _ _ _ _ (by omega), Mem.byte_set_same]

theorem Mem.bytes_length (m : Mem) (a n : Nat) : (m.bytes a n).length = n := by
  induction n generalizing a with
  | zero => rfl
  | succ n ih => simp [Mem.bytes, ih]

theorem leBytes_length (x n : Nat) : (leBytes x n).length = n := by
  induction n generalizing x with
  | zero => rfl
  | succ n ih => simp [leBytes, ih]

/-- A number's bytes give the number back. -/
theorem leNat_leBytes (x n : Nat) : leNat (leBytes x n) = x % 256 ^ n := by
  induction n generalizing x with
  | zero => simp [leBytes, leNat, Nat.mod_one]
  | succ n ih =>
    simp only [leBytes, leNat, ih, BitVec.toNat_ofNat]
    rw [show 256 ^ (n + 1) = 256 * 256 ^ n by rw [Nat.pow_succ, Nat.mul_comm]]
    exact (Nat.mod_mul).symm

end Sys2Proof.Machine
end

