-- ==== Sys2Proof/Laws/State.lean ====
section
/-! SUPPORT. The small lemmas of State: what each update leaves and what it changes, so that no proof unfolds a record update. -/

namespace Sys2Proof.Machine

/-! ## Maps -/

@[simp] theorem look_put_same {α : Type} (d : α) (k : Nat) (x : α) (m : List (Nat × α)) : look d k (put k x m) = x := by
  induction m with
  | nil => simp [put, look]
  | cons p m ih =>
    obtain ⟨j, y⟩ := p
    simp only [put]
    split
    · simp [look]
    · split
      · simp [look]
      · rename_i h; simp [look, h, ih]

theorem look_put_ne {α : Type} {k j : Nat} (h : j ≠ k) (d x : α) (m : List (Nat × α)) : look d j (put k x m) = look d j m := by
  induction m with
  | nil => simp [put, look, Ne.symm h]
  | cons p m ih =>
    obtain ⟨i, y⟩ := p
    simp only [put]
    split
    · simp [look, Ne.symm h]
    · split
      · rename_i e; subst e; simp [look, Ne.symm h]
      · simp [look, ih]

/-- A value replaced twice at a key is replaced once. -/
@[simp] theorem put_put {α : Type} (k : Nat) (x y : α) (m : List (Nat × α)) : put k x (put k y m) = put k x m := by
  induction m with
  | nil => simp [put]
  | cons p m ih =>
    obtain ⟨j, z⟩ := p
    simp only [put]
    split
    · simp [put]
    · split
      · simp [put]
      · rename_i h g; simp [put, h, g, ih]

/-! ## What each update leaves -/

@[simp] theorem State.setCore_agenda (s : State) (c : CoreId) (k : Core) : (s.setCore c k).agenda = s.agenda := rfl
@[simp] theorem State.setCore_here (s : State) (c : CoreId) (k : Core) : (s.setCore c k).here = s.here := rfl
@[simp] theorem State.setCore_cx (s : State) (c : CoreId) (k : Core) : (s.setCore c k).cx = s.cx := rfl
@[simp] theorem State.setCore_time (s : State) (c : CoreId) (k : Core) : (s.setCore c k).time = s.time := rfl
@[simp] theorem State.setCore_tick (s : State) (c : CoreId) (k : Core) : (s.setCore c k).tick = s.tick := rfl
@[simp] theorem State.setCore_bases (s : State) (c : CoreId) (k : Core) : (s.setCore c k).bases = s.bases := rfl
@[simp] theorem State.setCore_flight (s : State) (c : CoreId) (k : Core) : (s.setCore c k).flight = s.flight := rfl
@[simp] theorem State.setCore_leaves (s : State) (c : CoreId) (k : Core) : (s.setCore c k).leaves = s.leaves := rfl
@[simp] theorem State.setCore_caps (s : State) (c : CoreId) (k : Core) : (s.setCore c k).caps = s.caps := rfl
@[simp] theorem State.setCore_groups (s : State) (c : CoreId) (k : Core) : (s.setCore c k).groups = s.groups := rfl
@[simp] theorem State.setCore_depot (s : State) (c : CoreId) (k : Core) : (s.setCore c k).depot = s.depot := rfl
@[simp] theorem State.setCore_chans (s : State) (c : CoreId) (k : Core) : (s.setCore c k).chans = s.chans := rfl
@[simp] theorem State.setCore_depotQ (s : State) (c : CoreId) (k : Core) : (s.setCore c k).depotQ = s.depotQ := rfl
@[simp] theorem State.setCore_depotAntis (s : State) (c : CoreId) (k : Core) : (s.setCore c k).depotAntis = s.depotAntis := rfl
@[simp] theorem State.setCore_ckpts (s : State) (c : CoreId) (k : Core) : (s.setCore c k).ckpts = s.ckpts := rfl
@[simp] theorem State.setCore_takes (s : State) (c : CoreId) (k : Core) : (s.setCore c k).takes = s.takes := rfl
@[simp] theorem State.setCore_mgmt (s : State) (c : CoreId) (k : Core) : (s.setCore c k).mgmt = s.mgmt := rfl
@[simp] theorem State.setCore_hosts (s : State) (c : CoreId) (k : Core) : (s.setCore c k).hosts = s.hosts := rfl
@[simp] theorem State.setCore_rings (s : State) (c : CoreId) (k : Core) : (s.setCore c k).rings = s.rings := rfl
@[simp] theorem State.setCore_msix (s : State) (c : CoreId) (k : Core) : (s.setCore c k).msix = s.msix := rfl
@[simp] theorem State.setCore_vectors (s : State) (c : CoreId) (k : Core) : (s.setCore c k).vectors = s.vectors := rfl
@[simp] theorem State.setCore_msixPending (s : State) (c : CoreId) (k : Core) : (s.setCore c k).msixPending = s.msixPending := rfl
@[simp] theorem State.setCore_interrupts (s : State) (c : CoreId) (k : Core) : (s.setCore c k).interrupts = s.interrupts := rfl
@[simp] theorem State.setCore_hostMem (s : State) (c : CoreId) (k : Core) : (s.setCore c k).hostMem = s.hostMem := rfl
@[simp] theorem State.setCore_hostIn (s : State) (c : CoreId) (k : Core) : (s.setCore c k).hostIn = s.hostIn := rfl
@[simp] theorem State.setCore_launches (s : State) (c : CoreId) (k : Core) : (s.setCore c k).launches = s.launches := rfl
@[simp] theorem State.setCore_launchCause (s : State) (c : CoreId) (k : Core) : (s.setCore c k).launchCause = s.launchCause := rfl
@[simp] theorem State.setCore_injects (s : State) (c : CoreId) (k : Core) : (s.setCore c k).injects = s.injects := rfl
@[simp] theorem State.setCore_ports (s : State) (c : CoreId) (k : Core) : (s.setCore c k).ports = s.ports := rfl
@[simp] theorem State.setCore_coords (s : State) (c : CoreId) (k : Core) : (s.setCore c k).coords = s.coords := rfl
@[simp] theorem State.setCore_torus (s : State) (c : CoreId) (k : Core) : (s.setCore c k).torus = s.torus := rfl
@[simp] theorem State.setCore_round (s : State) (c : CoreId) (k : Core) : (s.setCore c k).round = s.round := rfl
@[simp] theorem State.setCore_roundNum (s : State) (c : CoreId) (k : Core) : (s.setCore c k).roundNum = s.roundNum := rfl
@[simp] theorem State.setCore_early (s : State) (c : CoreId) (k : Core) : (s.setCore c k).early = s.early := rfl
@[simp] theorem State.setCore_lastM (s : State) (c : CoreId) (k : Core) : (s.setCore c k).lastM = s.lastM := rfl
@[simp] theorem State.setCore_lastSettled (s : State) (c : CoreId) (k : Core) : (s.setCore c k).lastSettled = s.lastSettled := rfl
@[simp] theorem State.setCore_roundDue (s : State) (c : CoreId) (k : Core) : (s.setCore c k).roundDue = s.roundDue := rfl
@[simp] theorem State.setCore_fabricOn (s : State) (c : CoreId) (k : Core) : (s.setCore c k).fabricOn = s.fabricOn := rfl
@[simp] theorem State.setCore_fabricIn (s : State) (c : CoreId) (k : Core) : (s.setCore c k).fabricIn = s.fabricIn := rfl
@[simp] theorem State.setCore_fabricDown (s : State) (c : CoreId) (k : Core) : (s.setCore c k).fabricDown = s.fabricDown := rfl
@[simp] theorem State.setCore_sensor (s : State) (c : CoreId) (k : Core) : (s.setCore c k).sensor = s.sensor := rfl
@[simp] theorem State.setCore_die (s : State) (c : CoreId) (k : Core) : (s.setCore c k).die = s.die := rfl
@[simp] theorem State.setCore_fuses (s : State) (c : CoreId) (k : Core) : (s.setCore c k).fuses = s.fuses := rfl
@[simp] theorem State.setCore_stations (s : State) (c : CoreId) (k : Core) : (s.setCore c k).stations = s.stations := rfl

@[simp] theorem State.setBase_agenda (s : State) (b : Nat) (k : Base) : (s.setBase b k).agenda = s.agenda := rfl
@[simp] theorem State.setBase_here (s : State) (b : Nat) (k : Base) : (s.setBase b k).here = s.here := rfl
@[simp] theorem State.setBase_cx (s : State) (b : Nat) (k : Base) : (s.setBase b k).cx = s.cx := rfl
@[simp] theorem State.setBase_time (s : State) (b : Nat) (k : Base) : (s.setBase b k).time = s.time := rfl
@[simp] theorem State.setBase_tick (s : State) (b : Nat) (k : Base) : (s.setBase b k).tick = s.tick := rfl
@[simp] theorem State.setBase_cores (s : State) (b : Nat) (k : Base) : (s.setBase b k).cores = s.cores := rfl
@[simp] theorem State.setBase_flight (s : State) (b : Nat) (k : Base) : (s.setBase b k).flight = s.flight := rfl
@[simp] theorem State.setBase_leaves (s : State) (b : Nat) (k : Base) : (s.setBase b k).leaves = s.leaves := rfl
@[simp] theorem State.setBase_caps (s : State) (b : Nat) (k : Base) : (s.setBase b k).caps = s.caps := rfl
@[simp] theorem State.setBase_groups (s : State) (b : Nat) (k : Base) : (s.setBase b k).groups = s.groups := rfl
@[simp] theorem State.setBase_depot (s : State) (b : Nat) (k : Base) : (s.setBase b k).depot = s.depot := rfl
@[simp] theorem State.setBase_chans (s : State) (b : Nat) (k : Base) : (s.setBase b k).chans = s.chans := rfl
@[simp] theorem State.setBase_depotQ (s : State) (b : Nat) (k : Base) : (s.setBase b k).depotQ = s.depotQ := rfl
@[simp] theorem State.setBase_depotAntis (s : State) (b : Nat) (k : Base) : (s.setBase b k).depotAntis = s.depotAntis := rfl
@[simp] theorem State.setBase_ckpts (s : State) (b : Nat) (k : Base) : (s.setBase b k).ckpts = s.ckpts := rfl
@[simp] theorem State.setBase_takes (s : State) (b : Nat) (k : Base) : (s.setBase b k).takes = s.takes := rfl
@[simp] theorem State.setBase_mgmt (s : State) (b : Nat) (k : Base) : (s.setBase b k).mgmt = s.mgmt := rfl
@[simp] theorem State.setBase_hosts (s : State) (b : Nat) (k : Base) : (s.setBase b k).hosts = s.hosts := rfl
@[simp] theorem State.setBase_rings (s : State) (b : Nat) (k : Base) : (s.setBase b k).rings = s.rings := rfl
@[simp] theorem State.setBase_msix (s : State) (b : Nat) (k : Base) : (s.setBase b k).msix = s.msix := rfl
@[simp] theorem State.setBase_vectors (s : State) (b : Nat) (k : Base) : (s.setBase b k).vectors = s.vectors := rfl
@[simp] theorem State.setBase_msixPending (s : State) (b : Nat) (k : Base) : (s.setBase b k).msixPending = s.msixPending := rfl
@[simp] theorem State.setBase_interrupts (s : State) (b : Nat) (k : Base) : (s.setBase b k).interrupts = s.interrupts := rfl
@[simp] theorem State.setBase_hostMem (s : State) (b : Nat) (k : Base) : (s.setBase b k).hostMem = s.hostMem := rfl
@[simp] theorem State.setBase_hostIn (s : State) (b : Nat) (k : Base) : (s.setBase b k).hostIn = s.hostIn := rfl
@[simp] theorem State.setBase_launches (s : State) (b : Nat) (k : Base) : (s.setBase b k).launches = s.launches := rfl
@[simp] theorem State.setBase_launchCause (s : State) (b : Nat) (k : Base) : (s.setBase b k).launchCause = s.launchCause := rfl
@[simp] theorem State.setBase_injects (s : State) (b : Nat) (k : Base) : (s.setBase b k).injects = s.injects := rfl
@[simp] theorem State.setBase_ports (s : State) (b : Nat) (k : Base) : (s.setBase b k).ports = s.ports := rfl
@[simp] theorem State.setBase_coords (s : State) (b : Nat) (k : Base) : (s.setBase b k).coords = s.coords := rfl
@[simp] theorem State.setBase_torus (s : State) (b : Nat) (k : Base) : (s.setBase b k).torus = s.torus := rfl
@[simp] theorem State.setBase_round (s : State) (b : Nat) (k : Base) : (s.setBase b k).round = s.round := rfl
@[simp] theorem State.setBase_roundNum (s : State) (b : Nat) (k : Base) : (s.setBase b k).roundNum = s.roundNum := rfl
@[simp] theorem State.setBase_early (s : State) (b : Nat) (k : Base) : (s.setBase b k).early = s.early := rfl
@[simp] theorem State.setBase_lastM (s : State) (b : Nat) (k : Base) : (s.setBase b k).lastM = s.lastM := rfl
@[simp] theorem State.setBase_lastSettled (s : State) (b : Nat) (k : Base) : (s.setBase b k).lastSettled = s.lastSettled := rfl
@[simp] theorem State.setBase_roundDue (s : State) (b : Nat) (k : Base) : (s.setBase b k).roundDue = s.roundDue := rfl
@[simp] theorem State.setBase_fabricOn (s : State) (b : Nat) (k : Base) : (s.setBase b k).fabricOn = s.fabricOn := rfl
@[simp] theorem State.setBase_fabricIn (s : State) (b : Nat) (k : Base) : (s.setBase b k).fabricIn = s.fabricIn := rfl
@[simp] theorem State.setBase_fabricDown (s : State) (b : Nat) (k : Base) : (s.setBase b k).fabricDown = s.fabricDown := rfl
@[simp] theorem State.setBase_sensor (s : State) (b : Nat) (k : Base) : (s.setBase b k).sensor = s.sensor := rfl
@[simp] theorem State.setBase_die (s : State) (b : Nat) (k : Base) : (s.setBase b k).die = s.die := rfl
@[simp] theorem State.setBase_fuses (s : State) (b : Nat) (k : Base) : (s.setBase b k).fuses = s.fuses := rfl
@[simp] theorem State.setBase_stations (s : State) (b : Nat) (k : Base) : (s.setBase b k).stations = s.stations := rfl

@[simp] theorem State.setStation_agenda (s : State) (n : Nat) (x : Station) : (s.setStation n x).agenda = s.agenda := rfl
@[simp] theorem State.setStation_here (s : State) (n : Nat) (x : Station) : (s.setStation n x).here = s.here := rfl
@[simp] theorem State.setStation_cx (s : State) (n : Nat) (x : Station) : (s.setStation n x).cx = s.cx := rfl
@[simp] theorem State.setStation_time (s : State) (n : Nat) (x : Station) : (s.setStation n x).time = s.time := rfl
@[simp] theorem State.setStation_tick (s : State) (n : Nat) (x : Station) : (s.setStation n x).tick = s.tick := rfl
@[simp] theorem State.setStation_cores (s : State) (n : Nat) (x : Station) : (s.setStation n x).cores = s.cores := rfl
@[simp] theorem State.setStation_bases (s : State) (n : Nat) (x : Station) : (s.setStation n x).bases = s.bases := rfl
@[simp] theorem State.setStation_flight (s : State) (n : Nat) (x : Station) : (s.setStation n x).flight = s.flight := rfl
@[simp] theorem State.setStation_leaves (s : State) (n : Nat) (x : Station) : (s.setStation n x).leaves = s.leaves := rfl
@[simp] theorem State.setStation_caps (s : State) (n : Nat) (x : Station) : (s.setStation n x).caps = s.caps := rfl
@[simp] theorem State.setStation_groups (s : State) (n : Nat) (x : Station) : (s.setStation n x).groups = s.groups := rfl
@[simp] theorem State.setStation_depot (s : State) (n : Nat) (x : Station) : (s.setStation n x).depot = s.depot := rfl
@[simp] theorem State.setStation_chans (s : State) (n : Nat) (x : Station) : (s.setStation n x).chans = s.chans := rfl
@[simp] theorem State.setStation_depotQ (s : State) (n : Nat) (x : Station) : (s.setStation n x).depotQ = s.depotQ := rfl
@[simp] theorem State.setStation_depotAntis (s : State) (n : Nat) (x : Station) : (s.setStation n x).depotAntis = s.depotAntis := rfl
@[simp] theorem State.setStation_ckpts (s : State) (n : Nat) (x : Station) : (s.setStation n x).ckpts = s.ckpts := rfl
@[simp] theorem State.setStation_takes (s : State) (n : Nat) (x : Station) : (s.setStation n x).takes = s.takes := rfl
@[simp] theorem State.setStation_mgmt (s : State) (n : Nat) (x : Station) : (s.setStation n x).mgmt = s.mgmt := rfl
@[simp] theorem State.setStation_hosts (s : State) (n : Nat) (x : Station) : (s.setStation n x).hosts = s.hosts := rfl
@[simp] theorem State.setStation_rings (s : State) (n : Nat) (x : Station) : (s.setStation n x).rings = s.rings := rfl
@[simp] theorem State.setStation_msix (s : State) (n : Nat) (x : Station) : (s.setStation n x).msix = s.msix := rfl
@[simp] theorem State.setStation_vectors (s : State) (n : Nat) (x : Station) : (s.setStation n x).vectors = s.vectors := rfl
@[simp] theorem State.setStation_msixPending (s : State) (n : Nat) (x : Station) : (s.setStation n x).msixPending = s.msixPending := rfl
@[simp] theorem State.setStation_interrupts (s : State) (n : Nat) (x : Station) : (s.setStation n x).interrupts = s.interrupts := rfl
@[simp] theorem State.setStation_hostMem (s : State) (n : Nat) (x : Station) : (s.setStation n x).hostMem = s.hostMem := rfl
@[simp] theorem State.setStation_hostIn (s : State) (n : Nat) (x : Station) : (s.setStation n x).hostIn = s.hostIn := rfl
@[simp] theorem State.setStation_launches (s : State) (n : Nat) (x : Station) : (s.setStation n x).launches = s.launches := rfl
@[simp] theorem State.setStation_launchCause (s : State) (n : Nat) (x : Station) : (s.setStation n x).launchCause = s.launchCause := rfl
@[simp] theorem State.setStation_injects (s : State) (n : Nat) (x : Station) : (s.setStation n x).injects = s.injects := rfl
@[simp] theorem State.setStation_ports (s : State) (n : Nat) (x : Station) : (s.setStation n x).ports = s.ports := rfl
@[simp] theorem State.setStation_coords (s : State) (n : Nat) (x : Station) : (s.setStation n x).coords = s.coords := rfl
@[simp] theorem State.setStation_torus (s : State) (n : Nat) (x : Station) : (s.setStation n x).torus = s.torus := rfl
@[simp] theorem State.setStation_round (s : State) (n : Nat) (x : Station) : (s.setStation n x).round = s.round := rfl
@[simp] theorem State.setStation_roundNum (s : State) (n : Nat) (x : Station) : (s.setStation n x).roundNum = s.roundNum := rfl
@[simp] theorem State.setStation_early (s : State) (n : Nat) (x : Station) : (s.setStation n x).early = s.early := rfl
@[simp] theorem State.setStation_lastM (s : State) (n : Nat) (x : Station) : (s.setStation n x).lastM = s.lastM := rfl
@[simp] theorem State.setStation_lastSettled (s : State) (n : Nat) (x : Station) : (s.setStation n x).lastSettled = s.lastSettled := rfl
@[simp] theorem State.setStation_roundDue (s : State) (n : Nat) (x : Station) : (s.setStation n x).roundDue = s.roundDue := rfl
@[simp] theorem State.setStation_fabricOn (s : State) (n : Nat) (x : Station) : (s.setStation n x).fabricOn = s.fabricOn := rfl
@[simp] theorem State.setStation_fabricIn (s : State) (n : Nat) (x : Station) : (s.setStation n x).fabricIn = s.fabricIn := rfl
@[simp] theorem State.setStation_fabricDown (s : State) (n : Nat) (x : Station) : (s.setStation n x).fabricDown = s.fabricDown := rfl
@[simp] theorem State.setStation_sensor (s : State) (n : Nat) (x : Station) : (s.setStation n x).sensor = s.sensor := rfl
@[simp] theorem State.setStation_die (s : State) (n : Nat) (x : Station) : (s.setStation n x).die = s.die := rfl
@[simp] theorem State.setStation_fuses (s : State) (n : Nat) (x : Station) : (s.setStation n x).fuses = s.fuses := rfl

@[simp] theorem State.post_agenda (s : State) (n : Nat) (v : Word) (p : Packet) : (s.post n v p).agenda = s.agenda := rfl
@[simp] theorem State.post_here (s : State) (n : Nat) (v : Word) (p : Packet) : (s.post n v p).here = s.here := rfl
@[simp] theorem State.post_cx (s : State) (n : Nat) (v : Word) (p : Packet) : (s.post n v p).cx = s.cx := rfl
@[simp] theorem State.post_time (s : State) (n : Nat) (v : Word) (p : Packet) : (s.post n v p).time = s.time := rfl
@[simp] theorem State.post_tick (s : State) (n : Nat) (v : Word) (p : Packet) : (s.post n v p).tick = s.tick := rfl
@[simp] theorem State.post_cores (s : State) (n : Nat) (v : Word) (p : Packet) : (s.post n v p).cores = s.cores := rfl
@[simp] theorem State.post_bases (s : State) (n : Nat) (v : Word) (p : Packet) : (s.post n v p).bases = s.bases := rfl
@[simp] theorem State.post_leaves (s : State) (n : Nat) (v : Word) (p : Packet) : (s.post n v p).leaves = s.leaves := rfl
@[simp] theorem State.post_caps (s : State) (n : Nat) (v : Word) (p : Packet) : (s.post n v p).caps = s.caps := rfl
@[simp] theorem State.post_groups (s : State) (n : Nat) (v : Word) (p : Packet) : (s.post n v p).groups = s.groups := rfl
@[simp] theorem State.post_depot (s : State) (n : Nat) (v : Word) (p : Packet) : (s.post n v p).depot = s.depot := rfl
@[simp] theorem State.post_chans (s : State) (n : Nat) (v : Word) (p : Packet) : (s.post n v p).chans = s.chans := rfl
@[simp] theorem State.post_depotQ (s : State) (n : Nat) (v : Word) (p : Packet) : (s.post n v p).depotQ = s.depotQ := rfl
@[simp] theorem State.post_depotAntis (s : State) (n : Nat) (v : Word) (p : Packet) : (s.post n v p).depotAntis = s.depotAntis := rfl
@[simp] theorem State.post_ckpts (s : State) (n : Nat) (v : Word) (p : Packet) : (s.post n v p).ckpts = s.ckpts := rfl
@[simp] theorem State.post_takes (s : State) (n : Nat) (v : Word) (p : Packet) : (s.post n v p).takes = s.takes := rfl
@[simp] theorem State.post_mgmt (s : State) (n : Nat) (v : Word) (p : Packet) : (s.post n v p).mgmt = s.mgmt := rfl
@[simp] theorem State.post_hosts (s : State) (n : Nat) (v : Word) (p : Packet) : (s.post n v p).hosts = s.hosts := rfl
@[simp] theorem State.post_rings (s : State) (n : Nat) (v : Word) (p : Packet) : (s.post n v p).rings = s.rings := rfl
@[simp] theorem State.post_msix (s : State) (n : Nat) (v : Word) (p : Packet) : (s.post n v p).msix = s.msix := rfl
@[simp] theorem State.post_vectors (s : State) (n : Nat) (v : Word) (p : Packet) : (s.post n v p).vectors = s.vectors := rfl
@[simp] theorem State.post_msixPending (s : State) (n : Nat) (v : Word) (p : Packet) : (s.post n v p).msixPending = s.msixPending := rfl
@[simp] theorem State.post_interrupts (s : State) (n : Nat) (v : Word) (p : Packet) : (s.post n v p).interrupts = s.interrupts := rfl
@[simp] theorem State.post_hostMem (s : State) (n : Nat) (v : Word) (p : Packet) : (s.post n v p).hostMem = s.hostMem := rfl
@[simp] theorem State.post_hostIn (s : State) (n : Nat) (v : Word) (p : Packet) : (s.post n v p).hostIn = s.hostIn := rfl
@[simp] theorem State.post_launches (s : State) (n : Nat) (v : Word) (p : Packet) : (s.post n v p).launches = s.launches := rfl
@[simp] theorem State.post_launchCause (s : State) (n : Nat) (v : Word) (p : Packet) : (s.post n v p).launchCause = s.launchCause := rfl
@[simp] theorem State.post_injects (s : State) (n : Nat) (v : Word) (p : Packet) : (s.post n v p).injects = s.injects := rfl
@[simp] theorem State.post_ports (s : State) (n : Nat) (v : Word) (p : Packet) : (s.post n v p).ports = s.ports := rfl
@[simp] theorem State.post_coords (s : State) (n : Nat) (v : Word) (p : Packet) : (s.post n v p).coords = s.coords := rfl
@[simp] theorem State.post_torus (s : State) (n : Nat) (v : Word) (p : Packet) : (s.post n v p).torus = s.torus := rfl
@[simp] theorem State.post_round (s : State) (n : Nat) (v : Word) (p : Packet) : (s.post n v p).round = s.round := rfl
@[simp] theorem State.post_roundNum (s : State) (n : Nat) (v : Word) (p : Packet) : (s.post n v p).roundNum = s.roundNum := rfl
@[simp] theorem State.post_early (s : State) (n : Nat) (v : Word) (p : Packet) : (s.post n v p).early = s.early := rfl
@[simp] theorem State.post_lastM (s : State) (n : Nat) (v : Word) (p : Packet) : (s.post n v p).lastM = s.lastM := rfl
@[simp] theorem State.post_lastSettled (s : State) (n : Nat) (v : Word) (p : Packet) : (s.post n v p).lastSettled = s.lastSettled := rfl
@[simp] theorem State.post_roundDue (s : State) (n : Nat) (v : Word) (p : Packet) : (s.post n v p).roundDue = s.roundDue := rfl
@[simp] theorem State.post_fabricOn (s : State) (n : Nat) (v : Word) (p : Packet) : (s.post n v p).fabricOn = s.fabricOn := rfl
@[simp] theorem State.post_fabricIn (s : State) (n : Nat) (v : Word) (p : Packet) : (s.post n v p).fabricIn = s.fabricIn := rfl
@[simp] theorem State.post_fabricDown (s : State) (n : Nat) (v : Word) (p : Packet) : (s.post n v p).fabricDown = s.fabricDown := rfl
@[simp] theorem State.post_sensor (s : State) (n : Nat) (v : Word) (p : Packet) : (s.post n v p).sensor = s.sensor := rfl
@[simp] theorem State.post_die (s : State) (n : Nat) (v : Word) (p : Packet) : (s.post n v p).die = s.die := rfl
@[simp] theorem State.post_fuses (s : State) (n : Nat) (v : Word) (p : Packet) : (s.post n v p).fuses = s.fuses := rfl

@[simp] theorem State.count_agenda (s : State) (o : Nat) : (s.count o).agenda = s.agenda := rfl
@[simp] theorem State.count_here (s : State) (o : Nat) : (s.count o).here = s.here := rfl
@[simp] theorem State.count_cx (s : State) (o : Nat) : (s.count o).cx = s.cx := rfl
@[simp] theorem State.count_time (s : State) (o : Nat) : (s.count o).time = s.time := rfl
@[simp] theorem State.count_tick (s : State) (o : Nat) : (s.count o).tick = s.tick := rfl
@[simp] theorem State.count_cores (s : State) (o : Nat) : (s.count o).cores = s.cores := rfl
@[simp] theorem State.count_bases (s : State) (o : Nat) : (s.count o).bases = s.bases := rfl
@[simp] theorem State.count_flight (s : State) (o : Nat) : (s.count o).flight = s.flight := rfl
@[simp] theorem State.count_leaves (s : State) (o : Nat) : (s.count o).leaves = s.leaves := rfl
@[simp] theorem State.count_caps (s : State) (o : Nat) : (s.count o).caps = s.caps := rfl
@[simp] theorem State.count_groups (s : State) (o : Nat) : (s.count o).groups = s.groups := rfl
@[simp] theorem State.count_depot (s : State) (o : Nat) : (s.count o).depot = s.depot := rfl
@[simp] theorem State.count_chans (s : State) (o : Nat) : (s.count o).chans = s.chans := rfl
@[simp] theorem State.count_depotQ (s : State) (o : Nat) : (s.count o).depotQ = s.depotQ := rfl
@[simp] theorem State.count_depotAntis (s : State) (o : Nat) : (s.count o).depotAntis = s.depotAntis := rfl
@[simp] theorem State.count_ckpts (s : State) (o : Nat) : (s.count o).ckpts = s.ckpts := rfl
@[simp] theorem State.count_takes (s : State) (o : Nat) : (s.count o).takes = s.takes := rfl
@[simp] theorem State.count_hosts (s : State) (o : Nat) : (s.count o).hosts = s.hosts := rfl
@[simp] theorem State.count_rings (s : State) (o : Nat) : (s.count o).rings = s.rings := rfl
@[simp] theorem State.count_msix (s : State) (o : Nat) : (s.count o).msix = s.msix := rfl
@[simp] theorem State.count_vectors (s : State) (o : Nat) : (s.count o).vectors = s.vectors := rfl
@[simp] theorem State.count_msixPending (s : State) (o : Nat) : (s.count o).msixPending = s.msixPending := rfl
@[simp] theorem State.count_interrupts (s : State) (o : Nat) : (s.count o).interrupts = s.interrupts := rfl
@[simp] theorem State.count_hostMem (s : State) (o : Nat) : (s.count o).hostMem = s.hostMem := rfl
@[simp] theorem State.count_hostIn (s : State) (o : Nat) : (s.count o).hostIn = s.hostIn := rfl
@[simp] theorem State.count_launches (s : State) (o : Nat) : (s.count o).launches = s.launches := rfl
@[simp] theorem State.count_launchCause (s : State) (o : Nat) : (s.count o).launchCause = s.launchCause := rfl
@[simp] theorem State.count_injects (s : State) (o : Nat) : (s.count o).injects = s.injects := rfl
@[simp] theorem State.count_ports (s : State) (o : Nat) : (s.count o).ports = s.ports := rfl
@[simp] theorem State.count_coords (s : State) (o : Nat) : (s.count o).coords = s.coords := rfl
@[simp] theorem State.count_torus (s : State) (o : Nat) : (s.count o).torus = s.torus := rfl
@[simp] theorem State.count_round (s : State) (o : Nat) : (s.count o).round = s.round := rfl
@[simp] theorem State.count_roundNum (s : State) (o : Nat) : (s.count o).roundNum = s.roundNum := rfl
@[simp] theorem State.count_early (s : State) (o : Nat) : (s.count o).early = s.early := rfl
@[simp] theorem State.count_lastM (s : State) (o : Nat) : (s.count o).lastM = s.lastM := rfl
@[simp] theorem State.count_lastSettled (s : State) (o : Nat) : (s.count o).lastSettled = s.lastSettled := rfl
@[simp] theorem State.count_roundDue (s : State) (o : Nat) : (s.count o).roundDue = s.roundDue := rfl
@[simp] theorem State.count_fabricOn (s : State) (o : Nat) : (s.count o).fabricOn = s.fabricOn := rfl
@[simp] theorem State.count_fabricIn (s : State) (o : Nat) : (s.count o).fabricIn = s.fabricIn := rfl
@[simp] theorem State.count_fabricDown (s : State) (o : Nat) : (s.count o).fabricDown = s.fabricDown := rfl
@[simp] theorem State.count_sensor (s : State) (o : Nat) : (s.count o).sensor = s.sensor := rfl
@[simp] theorem State.count_die (s : State) (o : Nat) : (s.count o).die = s.die := rfl
@[simp] theorem State.count_fuses (s : State) (o : Nat) : (s.count o).fuses = s.fuses := rfl
@[simp] theorem State.count_stations (s : State) (o : Nat) : (s.count o).stations = s.stations := rfl

@[simp] theorem State.setLeaf_agenda (s : State) (p : Nat) (l : Leaf) : (s.setLeaf p l).agenda = s.agenda := rfl
@[simp] theorem State.setLeaf_here (s : State) (p : Nat) (l : Leaf) : (s.setLeaf p l).here = s.here := rfl
@[simp] theorem State.setLeaf_cx (s : State) (p : Nat) (l : Leaf) : (s.setLeaf p l).cx = s.cx := rfl
@[simp] theorem State.setLeaf_time (s : State) (p : Nat) (l : Leaf) : (s.setLeaf p l).time = s.time := rfl
@[simp] theorem State.setLeaf_tick (s : State) (p : Nat) (l : Leaf) : (s.setLeaf p l).tick = s.tick := rfl
@[simp] theorem State.setLeaf_cores (s : State) (p : Nat) (l : Leaf) : (s.setLeaf p l).cores = s.cores := rfl
@[simp] theorem State.setLeaf_bases (s : State) (p : Nat) (l : Leaf) : (s.setLeaf p l).bases = s.bases := rfl
@[simp] theorem State.setLeaf_flight (s : State) (p : Nat) (l : Leaf) : (s.setLeaf p l).flight = s.flight := rfl
@[simp] theorem State.setLeaf_caps (s : State) (p : Nat) (l : Leaf) : (s.setLeaf p l).caps = s.caps := rfl
@[simp] theorem State.setLeaf_groups (s : State) (p : Nat) (l : Leaf) : (s.setLeaf p l).groups = s.groups := rfl
@[simp] theorem State.setLeaf_depot (s : State) (p : Nat) (l : Leaf) : (s.setLeaf p l).depot = s.depot := rfl
@[simp] theorem State.setLeaf_chans (s : State) (p : Nat) (l : Leaf) : (s.setLeaf p l).chans = s.chans := rfl
@[simp] theorem State.setLeaf_depotQ (s : State) (p : Nat) (l : Leaf) : (s.setLeaf p l).depotQ = s.depotQ := rfl
@[simp] theorem State.setLeaf_depotAntis (s : State) (p : Nat) (l : Leaf) : (s.setLeaf p l).depotAntis = s.depotAntis := rfl
@[simp] theorem State.setLeaf_ckpts (s : State) (p : Nat) (l : Leaf) : (s.setLeaf p l).ckpts = s.ckpts := rfl
@[simp] theorem State.setLeaf_takes (s : State) (p : Nat) (l : Leaf) : (s.setLeaf p l).takes = s.takes := rfl
@[simp] theorem State.setLeaf_mgmt (s : State) (p : Nat) (l : Leaf) : (s.setLeaf p l).mgmt = s.mgmt := rfl
@[simp] theorem State.setLeaf_hosts (s : State) (p : Nat) (l : Leaf) : (s.setLeaf p l).hosts = s.hosts := rfl
@[simp] theorem State.setLeaf_rings (s : State) (p : Nat) (l : Leaf) : (s.setLeaf p l).rings = s.rings := rfl
@[simp] theorem State.setLeaf_msix (s : State) (p : Nat) (l : Leaf) : (s.setLeaf p l).msix = s.msix := rfl
@[simp] theorem State.setLeaf_vectors (s : State) (p : Nat) (l : Leaf) : (s.setLeaf p l).vectors = s.vectors := rfl
@[simp] theorem State.setLeaf_msixPending (s : State) (p : Nat) (l : Leaf) : (s.setLeaf p l).msixPending = s.msixPending := rfl
@[simp] theorem State.setLeaf_interrupts (s : State) (p : Nat) (l : Leaf) : (s.setLeaf p l).interrupts = s.interrupts := rfl
@[simp] theorem State.setLeaf_hostMem (s : State) (p : Nat) (l : Leaf) : (s.setLeaf p l).hostMem = s.hostMem := rfl
@[simp] theorem State.setLeaf_hostIn (s : State) (p : Nat) (l : Leaf) : (s.setLeaf p l).hostIn = s.hostIn := rfl
@[simp] theorem State.setLeaf_launches (s : State) (p : Nat) (l : Leaf) : (s.setLeaf p l).launches = s.launches := rfl
@[simp] theorem State.setLeaf_launchCause (s : State) (p : Nat) (l : Leaf) : (s.setLeaf p l).launchCause = s.launchCause := rfl
@[simp] theorem State.setLeaf_injects (s : State) (p : Nat) (l : Leaf) : (s.setLeaf p l).injects = s.injects := rfl
@[simp] theorem State.setLeaf_ports (s : State) (p : Nat) (l : Leaf) : (s.setLeaf p l).ports = s.ports := rfl
@[simp] theorem State.setLeaf_coords (s : State) (p : Nat) (l : Leaf) : (s.setLeaf p l).coords = s.coords := rfl
@[simp] theorem State.setLeaf_torus (s : State) (p : Nat) (l : Leaf) : (s.setLeaf p l).torus = s.torus := rfl
@[simp] theorem State.setLeaf_round (s : State) (p : Nat) (l : Leaf) : (s.setLeaf p l).round = s.round := rfl
@[simp] theorem State.setLeaf_roundNum (s : State) (p : Nat) (l : Leaf) : (s.setLeaf p l).roundNum = s.roundNum := rfl
@[simp] theorem State.setLeaf_early (s : State) (p : Nat) (l : Leaf) : (s.setLeaf p l).early = s.early := rfl
@[simp] theorem State.setLeaf_lastM (s : State) (p : Nat) (l : Leaf) : (s.setLeaf p l).lastM = s.lastM := rfl
@[simp] theorem State.setLeaf_lastSettled (s : State) (p : Nat) (l : Leaf) : (s.setLeaf p l).lastSettled = s.lastSettled := rfl
@[simp] theorem State.setLeaf_roundDue (s : State) (p : Nat) (l : Leaf) : (s.setLeaf p l).roundDue = s.roundDue := rfl
@[simp] theorem State.setLeaf_fabricOn (s : State) (p : Nat) (l : Leaf) : (s.setLeaf p l).fabricOn = s.fabricOn := rfl
@[simp] theorem State.setLeaf_fabricIn (s : State) (p : Nat) (l : Leaf) : (s.setLeaf p l).fabricIn = s.fabricIn := rfl
@[simp] theorem State.setLeaf_fabricDown (s : State) (p : Nat) (l : Leaf) : (s.setLeaf p l).fabricDown = s.fabricDown := rfl
@[simp] theorem State.setLeaf_sensor (s : State) (p : Nat) (l : Leaf) : (s.setLeaf p l).sensor = s.sensor := rfl
@[simp] theorem State.setLeaf_die (s : State) (p : Nat) (l : Leaf) : (s.setLeaf p l).die = s.die := rfl
@[simp] theorem State.setLeaf_fuses (s : State) (p : Nat) (l : Leaf) : (s.setLeaf p l).fuses = s.fuses := rfl
@[simp] theorem State.setLeaf_stations (s : State) (p : Nat) (l : Leaf) : (s.setLeaf p l).stations = s.stations := rfl

@[simp] theorem State.setCap_agenda (s : State) (p : Nat) (c : Cap) : (s.setCap p c).agenda = s.agenda := rfl
@[simp] theorem State.setCap_here (s : State) (p : Nat) (c : Cap) : (s.setCap p c).here = s.here := rfl
@[simp] theorem State.setCap_cx (s : State) (p : Nat) (c : Cap) : (s.setCap p c).cx = s.cx := rfl
@[simp] theorem State.setCap_time (s : State) (p : Nat) (c : Cap) : (s.setCap p c).time = s.time := rfl
@[simp] theorem State.setCap_tick (s : State) (p : Nat) (c : Cap) : (s.setCap p c).tick = s.tick := rfl
@[simp] theorem State.setCap_cores (s : State) (p : Nat) (c : Cap) : (s.setCap p c).cores = s.cores := rfl
@[simp] theorem State.setCap_bases (s : State) (p : Nat) (c : Cap) : (s.setCap p c).bases = s.bases := rfl
@[simp] theorem State.setCap_flight (s : State) (p : Nat) (c : Cap) : (s.setCap p c).flight = s.flight := rfl
@[simp] theorem State.setCap_leaves (s : State) (p : Nat) (c : Cap) : (s.setCap p c).leaves = s.leaves := rfl
@[simp] theorem State.setCap_groups (s : State) (p : Nat) (c : Cap) : (s.setCap p c).groups = s.groups := rfl
@[simp] theorem State.setCap_depot (s : State) (p : Nat) (c : Cap) : (s.setCap p c).depot = s.depot := rfl
@[simp] theorem State.setCap_chans (s : State) (p : Nat) (c : Cap) : (s.setCap p c).chans = s.chans := rfl
@[simp] theorem State.setCap_depotQ (s : State) (p : Nat) (c : Cap) : (s.setCap p c).depotQ = s.depotQ := rfl
@[simp] theorem State.setCap_depotAntis (s : State) (p : Nat) (c : Cap) : (s.setCap p c).depotAntis = s.depotAntis := rfl
@[simp] theorem State.setCap_ckpts (s : State) (p : Nat) (c : Cap) : (s.setCap p c).ckpts = s.ckpts := rfl
@[simp] theorem State.setCap_takes (s : State) (p : Nat) (c : Cap) : (s.setCap p c).takes = s.takes := rfl
@[simp] theorem State.setCap_mgmt (s : State) (p : Nat) (c : Cap) : (s.setCap p c).mgmt = s.mgmt := rfl
@[simp] theorem State.setCap_hosts (s : State) (p : Nat) (c : Cap) : (s.setCap p c).hosts = s.hosts := rfl
@[simp] theorem State.setCap_rings (s : State) (p : Nat) (c : Cap) : (s.setCap p c).rings = s.rings := rfl
@[simp] theorem State.setCap_msix (s : State) (p : Nat) (c : Cap) : (s.setCap p c).msix = s.msix := rfl
@[simp] theorem State.setCap_vectors (s : State) (p : Nat) (c : Cap) : (s.setCap p c).vectors = s.vectors := rfl
@[simp] theorem State.setCap_msixPending (s : State) (p : Nat) (c : Cap) : (s.setCap p c).msixPending = s.msixPending := rfl
@[simp] theorem State.setCap_interrupts (s : State) (p : Nat) (c : Cap) : (s.setCap p c).interrupts = s.interrupts := rfl
@[simp] theorem State.setCap_hostMem (s : State) (p : Nat) (c : Cap) : (s.setCap p c).hostMem = s.hostMem := rfl
@[simp] theorem State.setCap_hostIn (s : State) (p : Nat) (c : Cap) : (s.setCap p c).hostIn = s.hostIn := rfl
@[simp] theorem State.setCap_launches (s : State) (p : Nat) (c : Cap) : (s.setCap p c).launches = s.launches := rfl
@[simp] theorem State.setCap_launchCause (s : State) (p : Nat) (c : Cap) : (s.setCap p c).launchCause = s.launchCause := rfl
@[simp] theorem State.setCap_injects (s : State) (p : Nat) (c : Cap) : (s.setCap p c).injects = s.injects := rfl
@[simp] theorem State.setCap_ports (s : State) (p : Nat) (c : Cap) : (s.setCap p c).ports = s.ports := rfl
@[simp] theorem State.setCap_coords (s : State) (p : Nat) (c : Cap) : (s.setCap p c).coords = s.coords := rfl
@[simp] theorem State.setCap_torus (s : State) (p : Nat) (c : Cap) : (s.setCap p c).torus = s.torus := rfl
@[simp] theorem State.setCap_round (s : State) (p : Nat) (c : Cap) : (s.setCap p c).round = s.round := rfl
@[simp] theorem State.setCap_roundNum (s : State) (p : Nat) (c : Cap) : (s.setCap p c).roundNum = s.roundNum := rfl
@[simp] theorem State.setCap_early (s : State) (p : Nat) (c : Cap) : (s.setCap p c).early = s.early := rfl
@[simp] theorem State.setCap_lastM (s : State) (p : Nat) (c : Cap) : (s.setCap p c).lastM = s.lastM := rfl
@[simp] theorem State.setCap_lastSettled (s : State) (p : Nat) (c : Cap) : (s.setCap p c).lastSettled = s.lastSettled := rfl
@[simp] theorem State.setCap_roundDue (s : State) (p : Nat) (c : Cap) : (s.setCap p c).roundDue = s.roundDue := rfl
@[simp] theorem State.setCap_fabricOn (s : State) (p : Nat) (c : Cap) : (s.setCap p c).fabricOn = s.fabricOn := rfl
@[simp] theorem State.setCap_fabricIn (s : State) (p : Nat) (c : Cap) : (s.setCap p c).fabricIn = s.fabricIn := rfl
@[simp] theorem State.setCap_fabricDown (s : State) (p : Nat) (c : Cap) : (s.setCap p c).fabricDown = s.fabricDown := rfl
@[simp] theorem State.setCap_sensor (s : State) (p : Nat) (c : Cap) : (s.setCap p c).sensor = s.sensor := rfl
@[simp] theorem State.setCap_die (s : State) (p : Nat) (c : Cap) : (s.setCap p c).die = s.die := rfl
@[simp] theorem State.setCap_fuses (s : State) (p : Nat) (c : Cap) : (s.setCap p c).fuses = s.fuses := rfl
@[simp] theorem State.setCap_stations (s : State) (p : Nat) (c : Cap) : (s.setCap p c).stations = s.stations := rfl

@[simp] theorem State.setPort_agenda (s : State) (l : Nat) (p : Port) : (s.setPort l p).agenda = s.agenda := rfl
@[simp] theorem State.setPort_here (s : State) (l : Nat) (p : Port) : (s.setPort l p).here = s.here := rfl
@[simp] theorem State.setPort_cx (s : State) (l : Nat) (p : Port) : (s.setPort l p).cx = s.cx := rfl
@[simp] theorem State.setPort_time (s : State) (l : Nat) (p : Port) : (s.setPort l p).time = s.time := rfl
@[simp] theorem State.setPort_tick (s : State) (l : Nat) (p : Port) : (s.setPort l p).tick = s.tick := rfl
@[simp] theorem State.setPort_cores (s : State) (l : Nat) (p : Port) : (s.setPort l p).cores = s.cores := rfl
@[simp] theorem State.setPort_bases (s : State) (l : Nat) (p : Port) : (s.setPort l p).bases = s.bases := rfl
@[simp] theorem State.setPort_flight (s : State) (l : Nat) (p : Port) : (s.setPort l p).flight = s.flight := rfl
@[simp] theorem State.setPort_leaves (s : State) (l : Nat) (p : Port) : (s.setPort l p).leaves = s.leaves := rfl
@[simp] theorem State.setPort_caps (s : State) (l : Nat) (p : Port) : (s.setPort l p).caps = s.caps := rfl
@[simp] theorem State.setPort_groups (s : State) (l : Nat) (p : Port) : (s.setPort l p).groups = s.groups := rfl
@[simp] theorem State.setPort_depot (s : State) (l : Nat) (p : Port) : (s.setPort l p).depot = s.depot := rfl
@[simp] theorem State.setPort_chans (s : State) (l : Nat) (p : Port) : (s.setPort l p).chans = s.chans := rfl
@[simp] theorem State.setPort_depotQ (s : State) (l : Nat) (p : Port) : (s.setPort l p).depotQ = s.depotQ := rfl
@[simp] theorem State.setPort_depotAntis (s : State) (l : Nat) (p : Port) : (s.setPort l p).depotAntis = s.depotAntis := rfl
@[simp] theorem State.setPort_ckpts (s : State) (l : Nat) (p : Port) : (s.setPort l p).ckpts = s.ckpts := rfl
@[simp] theorem State.setPort_takes (s : State) (l : Nat) (p : Port) : (s.setPort l p).takes = s.takes := rfl
@[simp] theorem State.setPort_mgmt (s : State) (l : Nat) (p : Port) : (s.setPort l p).mgmt = s.mgmt := rfl
@[simp] theorem State.setPort_hosts (s : State) (l : Nat) (p : Port) : (s.setPort l p).hosts = s.hosts := rfl
@[simp] theorem State.setPort_rings (s : State) (l : Nat) (p : Port) : (s.setPort l p).rings = s.rings := rfl
@[simp] theorem State.setPort_msix (s : State) (l : Nat) (p : Port) : (s.setPort l p).msix = s.msix := rfl
@[simp] theorem State.setPort_vectors (s : State) (l : Nat) (p : Port) : (s.setPort l p).vectors = s.vectors := rfl
@[simp] theorem State.setPort_msixPending (s : State) (l : Nat) (p : Port) : (s.setPort l p).msixPending = s.msixPending := rfl
@[simp] theorem State.setPort_interrupts (s : State) (l : Nat) (p : Port) : (s.setPort l p).interrupts = s.interrupts := rfl
@[simp] theorem State.setPort_hostMem (s : State) (l : Nat) (p : Port) : (s.setPort l p).hostMem = s.hostMem := rfl
@[simp] theorem State.setPort_hostIn (s : State) (l : Nat) (p : Port) : (s.setPort l p).hostIn = s.hostIn := rfl
@[simp] theorem State.setPort_launches (s : State) (l : Nat) (p : Port) : (s.setPort l p).launches = s.launches := rfl
@[simp] theorem State.setPort_launchCause (s : State) (l : Nat) (p : Port) : (s.setPort l p).launchCause = s.launchCause := rfl
@[simp] theorem State.setPort_injects (s : State) (l : Nat) (p : Port) : (s.setPort l p).injects = s.injects := rfl
@[simp] theorem State.setPort_coords (s : State) (l : Nat) (p : Port) : (s.setPort l p).coords = s.coords := rfl
@[simp] theorem State.setPort_torus (s : State) (l : Nat) (p : Port) : (s.setPort l p).torus = s.torus := rfl
@[simp] theorem State.setPort_round (s : State) (l : Nat) (p : Port) : (s.setPort l p).round = s.round := rfl
@[simp] theorem State.setPort_roundNum (s : State) (l : Nat) (p : Port) : (s.setPort l p).roundNum = s.roundNum := rfl
@[simp] theorem State.setPort_early (s : State) (l : Nat) (p : Port) : (s.setPort l p).early = s.early := rfl
@[simp] theorem State.setPort_lastM (s : State) (l : Nat) (p : Port) : (s.setPort l p).lastM = s.lastM := rfl
@[simp] theorem State.setPort_lastSettled (s : State) (l : Nat) (p : Port) : (s.setPort l p).lastSettled = s.lastSettled := rfl
@[simp] theorem State.setPort_roundDue (s : State) (l : Nat) (p : Port) : (s.setPort l p).roundDue = s.roundDue := rfl
@[simp] theorem State.setPort_fabricOn (s : State) (l : Nat) (p : Port) : (s.setPort l p).fabricOn = s.fabricOn := rfl
@[simp] theorem State.setPort_fabricIn (s : State) (l : Nat) (p : Port) : (s.setPort l p).fabricIn = s.fabricIn := rfl
@[simp] theorem State.setPort_fabricDown (s : State) (l : Nat) (p : Port) : (s.setPort l p).fabricDown = s.fabricDown := rfl
@[simp] theorem State.setPort_sensor (s : State) (l : Nat) (p : Port) : (s.setPort l p).sensor = s.sensor := rfl
@[simp] theorem State.setPort_die (s : State) (l : Nat) (p : Port) : (s.setPort l p).die = s.die := rfl
@[simp] theorem State.setPort_fuses (s : State) (l : Nat) (p : Port) : (s.setPort l p).fuses = s.fuses := rfl
@[simp] theorem State.setPort_stations (s : State) (l : Nat) (p : Port) : (s.setPort l p).stations = s.stations := rfl

@[simp] theorem State.setGroup_agenda (s : State) (g : Nat) (x : Group) : (s.setGroup g x).agenda = s.agenda := rfl
@[simp] theorem State.setGroup_here (s : State) (g : Nat) (x : Group) : (s.setGroup g x).here = s.here := rfl
@[simp] theorem State.setGroup_cx (s : State) (g : Nat) (x : Group) : (s.setGroup g x).cx = s.cx := rfl
@[simp] theorem State.setGroup_time (s : State) (g : Nat) (x : Group) : (s.setGroup g x).time = s.time := rfl
@[simp] theorem State.setGroup_tick (s : State) (g : Nat) (x : Group) : (s.setGroup g x).tick = s.tick := rfl
@[simp] theorem State.setGroup_cores (s : State) (g : Nat) (x : Group) : (s.setGroup g x).cores = s.cores := rfl
@[simp] theorem State.setGroup_bases (s : State) (g : Nat) (x : Group) : (s.setGroup g x).bases = s.bases := rfl
@[simp] theorem State.setGroup_flight (s : State) (g : Nat) (x : Group) : (s.setGroup g x).flight = s.flight := rfl
@[simp] theorem State.setGroup_leaves (s : State) (g : Nat) (x : Group) : (s.setGroup g x).leaves = s.leaves := rfl
@[simp] theorem State.setGroup_caps (s : State) (g : Nat) (x : Group) : (s.setGroup g x).caps = s.caps := rfl
@[simp] theorem State.setGroup_depot (s : State) (g : Nat) (x : Group) : (s.setGroup g x).depot = s.depot := rfl
@[simp] theorem State.setGroup_chans (s : State) (g : Nat) (x : Group) : (s.setGroup g x).chans = s.chans := rfl
@[simp] theorem State.setGroup_depotQ (s : State) (g : Nat) (x : Group) : (s.setGroup g x).depotQ = s.depotQ := rfl
@[simp] theorem State.setGroup_depotAntis (s : State) (g : Nat) (x : Group) : (s.setGroup g x).depotAntis = s.depotAntis := rfl
@[simp] theorem State.setGroup_ckpts (s : State) (g : Nat) (x : Group) : (s.setGroup g x).ckpts = s.ckpts := rfl
@[simp] theorem State.setGroup_takes (s : State) (g : Nat) (x : Group) : (s.setGroup g x).takes = s.takes := rfl
@[simp] theorem State.setGroup_mgmt (s : State) (g : Nat) (x : Group) : (s.setGroup g x).mgmt = s.mgmt := rfl
@[simp] theorem State.setGroup_hosts (s : State) (g : Nat) (x : Group) : (s.setGroup g x).hosts = s.hosts := rfl
@[simp] theorem State.setGroup_rings (s : State) (g : Nat) (x : Group) : (s.setGroup g x).rings = s.rings := rfl
@[simp] theorem State.setGroup_msix (s : State) (g : Nat) (x : Group) : (s.setGroup g x).msix = s.msix := rfl
@[simp] theorem State.setGroup_vectors (s : State) (g : Nat) (x : Group) : (s.setGroup g x).vectors = s.vectors := rfl
@[simp] theorem State.setGroup_msixPending (s : State) (g : Nat) (x : Group) : (s.setGroup g x).msixPending = s.msixPending := rfl
@[simp] theorem State.setGroup_interrupts (s : State) (g : Nat) (x : Group) : (s.setGroup g x).interrupts = s.interrupts := rfl
@[simp] theorem State.setGroup_hostMem (s : State) (g : Nat) (x : Group) : (s.setGroup g x).hostMem = s.hostMem := rfl
@[simp] theorem State.setGroup_hostIn (s : State) (g : Nat) (x : Group) : (s.setGroup g x).hostIn = s.hostIn := rfl
@[simp] theorem State.setGroup_launches (s : State) (g : Nat) (x : Group) : (s.setGroup g x).launches = s.launches := rfl
@[simp] theorem State.setGroup_launchCause (s : State) (g : Nat) (x : Group) : (s.setGroup g x).launchCause = s.launchCause := rfl
@[simp] theorem State.setGroup_injects (s : State) (g : Nat) (x : Group) : (s.setGroup g x).injects = s.injects := rfl
@[simp] theorem State.setGroup_ports (s : State) (g : Nat) (x : Group) : (s.setGroup g x).ports = s.ports := rfl
@[simp] theorem State.setGroup_coords (s : State) (g : Nat) (x : Group) : (s.setGroup g x).coords = s.coords := rfl
@[simp] theorem State.setGroup_torus (s : State) (g : Nat) (x : Group) : (s.setGroup g x).torus = s.torus := rfl
@[simp] theorem State.setGroup_round (s : State) (g : Nat) (x : Group) : (s.setGroup g x).round = s.round := rfl
@[simp] theorem State.setGroup_roundNum (s : State) (g : Nat) (x : Group) : (s.setGroup g x).roundNum = s.roundNum := rfl
@[simp] theorem State.setGroup_early (s : State) (g : Nat) (x : Group) : (s.setGroup g x).early = s.early := rfl
@[simp] theorem State.setGroup_lastM (s : State) (g : Nat) (x : Group) : (s.setGroup g x).lastM = s.lastM := rfl
@[simp] theorem State.setGroup_lastSettled (s : State) (g : Nat) (x : Group) : (s.setGroup g x).lastSettled = s.lastSettled := rfl
@[simp] theorem State.setGroup_roundDue (s : State) (g : Nat) (x : Group) : (s.setGroup g x).roundDue = s.roundDue := rfl
@[simp] theorem State.setGroup_fabricOn (s : State) (g : Nat) (x : Group) : (s.setGroup g x).fabricOn = s.fabricOn := rfl
@[simp] theorem State.setGroup_fabricIn (s : State) (g : Nat) (x : Group) : (s.setGroup g x).fabricIn = s.fabricIn := rfl
@[simp] theorem State.setGroup_fabricDown (s : State) (g : Nat) (x : Group) : (s.setGroup g x).fabricDown = s.fabricDown := rfl
@[simp] theorem State.setGroup_sensor (s : State) (g : Nat) (x : Group) : (s.setGroup g x).sensor = s.sensor := rfl
@[simp] theorem State.setGroup_die (s : State) (g : Nat) (x : Group) : (s.setGroup g x).die = s.die := rfl
@[simp] theorem State.setGroup_fuses (s : State) (g : Nat) (x : Group) : (s.setGroup g x).fuses = s.fuses := rfl
@[simp] theorem State.setGroup_stations (s : State) (g : Nat) (x : Group) : (s.setGroup g x).stations = s.stations := rfl

@[simp] theorem State.setHost_agenda (s : State) (h : HostEp) : (s.setHost h).agenda = s.agenda := rfl
@[simp] theorem State.setHost_here (s : State) (h : HostEp) : (s.setHost h).here = s.here := rfl
@[simp] theorem State.setHost_cx (s : State) (h : HostEp) : (s.setHost h).cx = s.cx := rfl
@[simp] theorem State.setHost_time (s : State) (h : HostEp) : (s.setHost h).time = s.time := rfl
@[simp] theorem State.setHost_tick (s : State) (h : HostEp) : (s.setHost h).tick = s.tick := rfl
@[simp] theorem State.setHost_cores (s : State) (h : HostEp) : (s.setHost h).cores = s.cores := rfl
@[simp] theorem State.setHost_bases (s : State) (h : HostEp) : (s.setHost h).bases = s.bases := rfl
@[simp] theorem State.setHost_flight (s : State) (h : HostEp) : (s.setHost h).flight = s.flight := rfl
@[simp] theorem State.setHost_leaves (s : State) (h : HostEp) : (s.setHost h).leaves = s.leaves := rfl
@[simp] theorem State.setHost_caps (s : State) (h : HostEp) : (s.setHost h).caps = s.caps := rfl
@[simp] theorem State.setHost_groups (s : State) (h : HostEp) : (s.setHost h).groups = s.groups := rfl
@[simp] theorem State.setHost_depot (s : State) (h : HostEp) : (s.setHost h).depot = s.depot := rfl
@[simp] theorem State.setHost_chans (s : State) (h : HostEp) : (s.setHost h).chans = s.chans := rfl
@[simp] theorem State.setHost_depotQ (s : State) (h : HostEp) : (s.setHost h).depotQ = s.depotQ := rfl
@[simp] theorem State.setHost_depotAntis (s : State) (h : HostEp) : (s.setHost h).depotAntis = s.depotAntis := rfl
@[simp] theorem State.setHost_ckpts (s : State) (h : HostEp) : (s.setHost h).ckpts = s.ckpts := rfl
@[simp] theorem State.setHost_takes (s : State) (h : HostEp) : (s.setHost h).takes = s.takes := rfl
@[simp] theorem State.setHost_mgmt (s : State) (h : HostEp) : (s.setHost h).mgmt = s.mgmt := rfl
@[simp] theorem State.setHost_rings (s : State) (h : HostEp) : (s.setHost h).rings = s.rings := rfl
@[simp] theorem State.setHost_msix (s : State) (h : HostEp) : (s.setHost h).msix = s.msix := rfl
@[simp] theorem State.setHost_vectors (s : State) (h : HostEp) : (s.setHost h).vectors = s.vectors := rfl
@[simp] theorem State.setHost_msixPending (s : State) (h : HostEp) : (s.setHost h).msixPending = s.msixPending := rfl
@[simp] theorem State.setHost_interrupts (s : State) (h : HostEp) : (s.setHost h).interrupts = s.interrupts := rfl
@[simp] theorem State.setHost_hostMem (s : State) (h : HostEp) : (s.setHost h).hostMem = s.hostMem := rfl
@[simp] theorem State.setHost_hostIn (s : State) (h : HostEp) : (s.setHost h).hostIn = s.hostIn := rfl
@[simp] theorem State.setHost_launches (s : State) (h : HostEp) : (s.setHost h).launches = s.launches := rfl
@[simp] theorem State.setHost_launchCause (s : State) (h : HostEp) : (s.setHost h).launchCause = s.launchCause := rfl
@[simp] theorem State.setHost_injects (s : State) (h : HostEp) : (s.setHost h).injects = s.injects := rfl
@[simp] theorem State.setHost_ports (s : State) (h : HostEp) : (s.setHost h).ports = s.ports := rfl
@[simp] theorem State.setHost_coords (s : State) (h : HostEp) : (s.setHost h).coords = s.coords := rfl
@[simp] theorem State.setHost_torus (s : State) (h : HostEp) : (s.setHost h).torus = s.torus := rfl
@[simp] theorem State.setHost_round (s : State) (h : HostEp) : (s.setHost h).round = s.round := rfl
@[simp] theorem State.setHost_roundNum (s : State) (h : HostEp) : (s.setHost h).roundNum = s.roundNum := rfl
@[simp] theorem State.setHost_early (s : State) (h : HostEp) : (s.setHost h).early = s.early := rfl
@[simp] theorem State.setHost_lastM (s : State) (h : HostEp) : (s.setHost h).lastM = s.lastM := rfl
@[simp] theorem State.setHost_lastSettled (s : State) (h : HostEp) : (s.setHost h).lastSettled = s.lastSettled := rfl
@[simp] theorem State.setHost_roundDue (s : State) (h : HostEp) : (s.setHost h).roundDue = s.roundDue := rfl
@[simp] theorem State.setHost_fabricOn (s : State) (h : HostEp) : (s.setHost h).fabricOn = s.fabricOn := rfl
@[simp] theorem State.setHost_fabricIn (s : State) (h : HostEp) : (s.setHost h).fabricIn = s.fabricIn := rfl
@[simp] theorem State.setHost_fabricDown (s : State) (h : HostEp) : (s.setHost h).fabricDown = s.fabricDown := rfl
@[simp] theorem State.setHost_sensor (s : State) (h : HostEp) : (s.setHost h).sensor = s.sensor := rfl
@[simp] theorem State.setHost_die (s : State) (h : HostEp) : (s.setHost h).die = s.die := rfl
@[simp] theorem State.setHost_fuses (s : State) (h : HostEp) : (s.setHost h).fuses = s.fuses := rfl
@[simp] theorem State.setHost_stations (s : State) (h : HostEp) : (s.setHost h).stations = s.stations := rfl

@[simp] theorem State.setCtx_agenda (s : State) (x : Ctx) : (s.setCtx x).agenda = s.agenda := rfl
@[simp] theorem State.setCtx_here (s : State) (x : Ctx) : (s.setCtx x).here = s.here := rfl
@[simp] theorem State.setCtx_cx (s : State) (x : Ctx) : (s.setCtx x).cx = s.cx := rfl
@[simp] theorem State.setCtx_time (s : State) (x : Ctx) : (s.setCtx x).time = s.time := rfl
@[simp] theorem State.setCtx_tick (s : State) (x : Ctx) : (s.setCtx x).tick = s.tick := rfl
@[simp] theorem State.setCtx_bases (s : State) (x : Ctx) : (s.setCtx x).bases = s.bases := rfl
@[simp] theorem State.setCtx_flight (s : State) (x : Ctx) : (s.setCtx x).flight = s.flight := rfl
@[simp] theorem State.setCtx_leaves (s : State) (x : Ctx) : (s.setCtx x).leaves = s.leaves := rfl
@[simp] theorem State.setCtx_caps (s : State) (x : Ctx) : (s.setCtx x).caps = s.caps := rfl
@[simp] theorem State.setCtx_groups (s : State) (x : Ctx) : (s.setCtx x).groups = s.groups := rfl
@[simp] theorem State.setCtx_depot (s : State) (x : Ctx) : (s.setCtx x).depot = s.depot := rfl
@[simp] theorem State.setCtx_chans (s : State) (x : Ctx) : (s.setCtx x).chans = s.chans := rfl
@[simp] theorem State.setCtx_depotQ (s : State) (x : Ctx) : (s.setCtx x).depotQ = s.depotQ := rfl
@[simp] theorem State.setCtx_depotAntis (s : State) (x : Ctx) : (s.setCtx x).depotAntis = s.depotAntis := rfl
@[simp] theorem State.setCtx_ckpts (s : State) (x : Ctx) : (s.setCtx x).ckpts = s.ckpts := rfl
@[simp] theorem State.setCtx_takes (s : State) (x : Ctx) : (s.setCtx x).takes = s.takes := rfl
@[simp] theorem State.setCtx_mgmt (s : State) (x : Ctx) : (s.setCtx x).mgmt = s.mgmt := rfl
@[simp] theorem State.setCtx_hosts (s : State) (x : Ctx) : (s.setCtx x).hosts = s.hosts := rfl
@[simp] theorem State.setCtx_rings (s : State) (x : Ctx) : (s.setCtx x).rings = s.rings := rfl
@[simp] theorem State.setCtx_msix (s : State) (x : Ctx) : (s.setCtx x).msix = s.msix := rfl
@[simp] theorem State.setCtx_vectors (s : State) (x : Ctx) : (s.setCtx x).vectors = s.vectors := rfl
@[simp] theorem State.setCtx_msixPending (s : State) (x : Ctx) : (s.setCtx x).msixPending = s.msixPending := rfl
@[simp] theorem State.setCtx_interrupts (s : State) (x : Ctx) : (s.setCtx x).interrupts = s.interrupts := rfl
@[simp] theorem State.setCtx_hostMem (s : State) (x : Ctx) : (s.setCtx x).hostMem = s.hostMem := rfl
@[simp] theorem State.setCtx_hostIn (s : State) (x : Ctx) : (s.setCtx x).hostIn = s.hostIn := rfl
@[simp] theorem State.setCtx_launches (s : State) (x : Ctx) : (s.setCtx x).launches = s.launches := rfl
@[simp] theorem State.setCtx_launchCause (s : State) (x : Ctx) : (s.setCtx x).launchCause = s.launchCause := rfl
@[simp] theorem State.setCtx_injects (s : State) (x : Ctx) : (s.setCtx x).injects = s.injects := rfl
@[simp] theorem State.setCtx_ports (s : State) (x : Ctx) : (s.setCtx x).ports = s.ports := rfl
@[simp] theorem State.setCtx_coords (s : State) (x : Ctx) : (s.setCtx x).coords = s.coords := rfl
@[simp] theorem State.setCtx_torus (s : State) (x : Ctx) : (s.setCtx x).torus = s.torus := rfl
@[simp] theorem State.setCtx_round (s : State) (x : Ctx) : (s.setCtx x).round = s.round := rfl
@[simp] theorem State.setCtx_roundNum (s : State) (x : Ctx) : (s.setCtx x).roundNum = s.roundNum := rfl
@[simp] theorem State.setCtx_early (s : State) (x : Ctx) : (s.setCtx x).early = s.early := rfl
@[simp] theorem State.setCtx_lastM (s : State) (x : Ctx) : (s.setCtx x).lastM = s.lastM := rfl
@[simp] theorem State.setCtx_lastSettled (s : State) (x : Ctx) : (s.setCtx x).lastSettled = s.lastSettled := rfl
@[simp] theorem State.setCtx_roundDue (s : State) (x : Ctx) : (s.setCtx x).roundDue = s.roundDue := rfl
@[simp] theorem State.setCtx_fabricOn (s : State) (x : Ctx) : (s.setCtx x).fabricOn = s.fabricOn := rfl
@[simp] theorem State.setCtx_fabricIn (s : State) (x : Ctx) : (s.setCtx x).fabricIn = s.fabricIn := rfl
@[simp] theorem State.setCtx_fabricDown (s : State) (x : Ctx) : (s.setCtx x).fabricDown = s.fabricDown := rfl
@[simp] theorem State.setCtx_sensor (s : State) (x : Ctx) : (s.setCtx x).sensor = s.sensor := rfl
@[simp] theorem State.setCtx_die (s : State) (x : Ctx) : (s.setCtx x).die = s.die := rfl
@[simp] theorem State.setCtx_fuses (s : State) (x : Ctx) : (s.setCtx x).fuses = s.fuses := rfl
@[simp] theorem State.setCtx_stations (s : State) (x : Ctx) : (s.setCtx x).stations = s.stations := rfl

@[simp] theorem State.setCtxAt_agenda (s : State) (y : BitVec 2) (x : Ctx) : (s.setCtxAt y x).agenda = s.agenda := rfl
@[simp] theorem State.setCtxAt_here (s : State) (y : BitVec 2) (x : Ctx) : (s.setCtxAt y x).here = s.here := rfl
@[simp] theorem State.setCtxAt_cx (s : State) (y : BitVec 2) (x : Ctx) : (s.setCtxAt y x).cx = s.cx := rfl
@[simp] theorem State.setCtxAt_time (s : State) (y : BitVec 2) (x : Ctx) : (s.setCtxAt y x).time = s.time := rfl
@[simp] theorem State.setCtxAt_tick (s : State) (y : BitVec 2) (x : Ctx) : (s.setCtxAt y x).tick = s.tick := rfl
@[simp] theorem State.setCtxAt_bases (s : State) (y : BitVec 2) (x : Ctx) : (s.setCtxAt y x).bases = s.bases := rfl
@[simp] theorem State.setCtxAt_flight (s : State) (y : BitVec 2) (x : Ctx) : (s.setCtxAt y x).flight = s.flight := rfl
@[simp] theorem State.setCtxAt_leaves (s : State) (y : BitVec 2) (x : Ctx) : (s.setCtxAt y x).leaves = s.leaves := rfl
@[simp] theorem State.setCtxAt_caps (s : State) (y : BitVec 2) (x : Ctx) : (s.setCtxAt y x).caps = s.caps := rfl
@[simp] theorem State.setCtxAt_groups (s : State) (y : BitVec 2) (x : Ctx) : (s.setCtxAt y x).groups = s.groups := rfl
@[simp] theorem State.setCtxAt_depot (s : State) (y : BitVec 2) (x : Ctx) : (s.setCtxAt y x).depot = s.depot := rfl
@[simp] theorem State.setCtxAt_chans (s : State) (y : BitVec 2) (x : Ctx) : (s.setCtxAt y x).chans = s.chans := rfl
@[simp] theorem State.setCtxAt_depotQ (s : State) (y : BitVec 2) (x : Ctx) : (s.setCtxAt y x).depotQ = s.depotQ := rfl
@[simp] theorem State.setCtxAt_depotAntis (s : State) (y : BitVec 2) (x : Ctx) : (s.setCtxAt y x).depotAntis = s.depotAntis := rfl
@[simp] theorem State.setCtxAt_ckpts (s : State) (y : BitVec 2) (x : Ctx) : (s.setCtxAt y x).ckpts = s.ckpts := rfl
@[simp] theorem State.setCtxAt_takes (s : State) (y : BitVec 2) (x : Ctx) : (s.setCtxAt y x).takes = s.takes := rfl
@[simp] theorem State.setCtxAt_mgmt (s : State) (y : BitVec 2) (x : Ctx) : (s.setCtxAt y x).mgmt = s.mgmt := rfl
@[simp] theorem State.setCtxAt_hosts (s : State) (y : BitVec 2) (x : Ctx) : (s.setCtxAt y x).hosts = s.hosts := rfl
@[simp] theorem State.setCtxAt_rings (s : State) (y : BitVec 2) (x : Ctx) : (s.setCtxAt y x).rings = s.rings := rfl
@[simp] theorem State.setCtxAt_msix (s : State) (y : BitVec 2) (x : Ctx) : (s.setCtxAt y x).msix = s.msix := rfl
@[simp] theorem State.setCtxAt_vectors (s : State) (y : BitVec 2) (x : Ctx) : (s.setCtxAt y x).vectors = s.vectors := rfl
@[simp] theorem State.setCtxAt_msixPending (s : State) (y : BitVec 2) (x : Ctx) : (s.setCtxAt y x).msixPending = s.msixPending := rfl
@[simp] theorem State.setCtxAt_interrupts (s : State) (y : BitVec 2) (x : Ctx) : (s.setCtxAt y x).interrupts = s.interrupts := rfl
@[simp] theorem State.setCtxAt_hostMem (s : State) (y : BitVec 2) (x : Ctx) : (s.setCtxAt y x).hostMem = s.hostMem := rfl
@[simp] theorem State.setCtxAt_hostIn (s : State) (y : BitVec 2) (x : Ctx) : (s.setCtxAt y x).hostIn = s.hostIn := rfl
@[simp] theorem State.setCtxAt_launches (s : State) (y : BitVec 2) (x : Ctx) : (s.setCtxAt y x).launches = s.launches := rfl
@[simp] theorem State.setCtxAt_launchCause (s : State) (y : BitVec 2) (x : Ctx) : (s.setCtxAt y x).launchCause = s.launchCause := rfl
@[simp] theorem State.setCtxAt_injects (s : State) (y : BitVec 2) (x : Ctx) : (s.setCtxAt y x).injects = s.injects := rfl
@[simp] theorem State.setCtxAt_ports (s : State) (y : BitVec 2) (x : Ctx) : (s.setCtxAt y x).ports = s.ports := rfl
@[simp] theorem State.setCtxAt_coords (s : State) (y : BitVec 2) (x : Ctx) : (s.setCtxAt y x).coords = s.coords := rfl
@[simp] theorem State.setCtxAt_torus (s : State) (y : BitVec 2) (x : Ctx) : (s.setCtxAt y x).torus = s.torus := rfl
@[simp] theorem State.setCtxAt_round (s : State) (y : BitVec 2) (x : Ctx) : (s.setCtxAt y x).round = s.round := rfl
@[simp] theorem State.setCtxAt_roundNum (s : State) (y : BitVec 2) (x : Ctx) : (s.setCtxAt y x).roundNum = s.roundNum := rfl
@[simp] theorem State.setCtxAt_early (s : State) (y : BitVec 2) (x : Ctx) : (s.setCtxAt y x).early = s.early := rfl
@[simp] theorem State.setCtxAt_lastM (s : State) (y : BitVec 2) (x : Ctx) : (s.setCtxAt y x).lastM = s.lastM := rfl
@[simp] theorem State.setCtxAt_lastSettled (s : State) (y : BitVec 2) (x : Ctx) : (s.setCtxAt y x).lastSettled = s.lastSettled := rfl
@[simp] theorem State.setCtxAt_roundDue (s : State) (y : BitVec 2) (x : Ctx) : (s.setCtxAt y x).roundDue = s.roundDue := rfl
@[simp] theorem State.setCtxAt_fabricOn (s : State) (y : BitVec 2) (x : Ctx) : (s.setCtxAt y x).fabricOn = s.fabricOn := rfl
@[simp] theorem State.setCtxAt_fabricIn (s : State) (y : BitVec 2) (x : Ctx) : (s.setCtxAt y x).fabricIn = s.fabricIn := rfl
@[simp] theorem State.setCtxAt_fabricDown (s : State) (y : BitVec 2) (x : Ctx) : (s.setCtxAt y x).fabricDown = s.fabricDown := rfl
@[simp] theorem State.setCtxAt_sensor (s : State) (y : BitVec 2) (x : Ctx) : (s.setCtxAt y x).sensor = s.sensor := rfl
@[simp] theorem State.setCtxAt_die (s : State) (y : BitVec 2) (x : Ctx) : (s.setCtxAt y x).die = s.die := rfl
@[simp] theorem State.setCtxAt_fuses (s : State) (y : BitVec 2) (x : Ctx) : (s.setCtxAt y x).fuses = s.fuses := rfl
@[simp] theorem State.setCtxAt_stations (s : State) (y : BitVec 2) (x : Ctx) : (s.setCtxAt y x).stations = s.stations := rfl

@[simp] theorem State.setHere_agenda (s : State) (k : Core) : (s.setHere k).agenda = s.agenda := rfl
@[simp] theorem State.setHere_here (s : State) (k : Core) : (s.setHere k).here = s.here := rfl
@[simp] theorem State.setHere_cx (s : State) (k : Core) : (s.setHere k).cx = s.cx := rfl
@[simp] theorem State.setHere_time (s : State) (k : Core) : (s.setHere k).time = s.time := rfl
@[simp] theorem State.setHere_tick (s : State) (k : Core) : (s.setHere k).tick = s.tick := rfl
@[simp] theorem State.setHere_bases (s : State) (k : Core) : (s.setHere k).bases = s.bases := rfl
@[simp] theorem State.setHere_flight (s : State) (k : Core) : (s.setHere k).flight = s.flight := rfl
@[simp] theorem State.setHere_leaves (s : State) (k : Core) : (s.setHere k).leaves = s.leaves := rfl
@[simp] theorem State.setHere_caps (s : State) (k : Core) : (s.setHere k).caps = s.caps := rfl
@[simp] theorem State.setHere_groups (s : State) (k : Core) : (s.setHere k).groups = s.groups := rfl
@[simp] theorem State.setHere_depot (s : State) (k : Core) : (s.setHere k).depot = s.depot := rfl
@[simp] theorem State.setHere_chans (s : State) (k : Core) : (s.setHere k).chans = s.chans := rfl
@[simp] theorem State.setHere_depotQ (s : State) (k : Core) : (s.setHere k).depotQ = s.depotQ := rfl
@[simp] theorem State.setHere_depotAntis (s : State) (k : Core) : (s.setHere k).depotAntis = s.depotAntis := rfl
@[simp] theorem State.setHere_ckpts (s : State) (k : Core) : (s.setHere k).ckpts = s.ckpts := rfl
@[simp] theorem State.setHere_takes (s : State) (k : Core) : (s.setHere k).takes = s.takes := rfl
@[simp] theorem State.setHere_mgmt (s : State) (k : Core) : (s.setHere k).mgmt = s.mgmt := rfl
@[simp] theorem State.setHere_hosts (s : State) (k : Core) : (s.setHere k).hosts = s.hosts := rfl
@[simp] theorem State.setHere_rings (s : State) (k : Core) : (s.setHere k).rings = s.rings := rfl
@[simp] theorem State.setHere_msix (s : State) (k : Core) : (s.setHere k).msix = s.msix := rfl
@[simp] theorem State.setHere_vectors (s : State) (k : Core) : (s.setHere k).vectors = s.vectors := rfl
@[simp] theorem State.setHere_msixPending (s : State) (k : Core) : (s.setHere k).msixPending = s.msixPending := rfl
@[simp] theorem State.setHere_interrupts (s : State) (k : Core) : (s.setHere k).interrupts = s.interrupts := rfl
@[simp] theorem State.setHere_hostMem (s : State) (k : Core) : (s.setHere k).hostMem = s.hostMem := rfl
@[simp] theorem State.setHere_hostIn (s : State) (k : Core) : (s.setHere k).hostIn = s.hostIn := rfl
@[simp] theorem State.setHere_launches (s : State) (k : Core) : (s.setHere k).launches = s.launches := rfl
@[simp] theorem State.setHere_launchCause (s : State) (k : Core) : (s.setHere k).launchCause = s.launchCause := rfl
@[simp] theorem State.setHere_injects (s : State) (k : Core) : (s.setHere k).injects = s.injects := rfl
@[simp] theorem State.setHere_ports (s : State) (k : Core) : (s.setHere k).ports = s.ports := rfl
@[simp] theorem State.setHere_coords (s : State) (k : Core) : (s.setHere k).coords = s.coords := rfl
@[simp] theorem State.setHere_torus (s : State) (k : Core) : (s.setHere k).torus = s.torus := rfl
@[simp] theorem State.setHere_round (s : State) (k : Core) : (s.setHere k).round = s.round := rfl
@[simp] theorem State.setHere_roundNum (s : State) (k : Core) : (s.setHere k).roundNum = s.roundNum := rfl
@[simp] theorem State.setHere_early (s : State) (k : Core) : (s.setHere k).early = s.early := rfl
@[simp] theorem State.setHere_lastM (s : State) (k : Core) : (s.setHere k).lastM = s.lastM := rfl
@[simp] theorem State.setHere_lastSettled (s : State) (k : Core) : (s.setHere k).lastSettled = s.lastSettled := rfl
@[simp] theorem State.setHere_roundDue (s : State) (k : Core) : (s.setHere k).roundDue = s.roundDue := rfl
@[simp] theorem State.setHere_fabricOn (s : State) (k : Core) : (s.setHere k).fabricOn = s.fabricOn := rfl
@[simp] theorem State.setHere_fabricIn (s : State) (k : Core) : (s.setHere k).fabricIn = s.fabricIn := rfl
@[simp] theorem State.setHere_fabricDown (s : State) (k : Core) : (s.setHere k).fabricDown = s.fabricDown := rfl
@[simp] theorem State.setHere_sensor (s : State) (k : Core) : (s.setHere k).sensor = s.sensor := rfl
@[simp] theorem State.setHere_die (s : State) (k : Core) : (s.setHere k).die = s.die := rfl
@[simp] theorem State.setHere_fuses (s : State) (k : Core) : (s.setHere k).fuses = s.fuses := rfl
@[simp] theorem State.setHere_stations (s : State) (k : Core) : (s.setHere k).stations = s.stations := rfl

@[simp] theorem State.setActorAt_agenda (s : State) (n : BitVec 4) (a : Actor) : (s.setActorAt n a).agenda = s.agenda := rfl
@[simp] theorem State.setActorAt_here (s : State) (n : BitVec 4) (a : Actor) : (s.setActorAt n a).here = s.here := rfl
@[simp] theorem State.setActorAt_cx (s : State) (n : BitVec 4) (a : Actor) : (s.setActorAt n a).cx = s.cx := rfl
@[simp] theorem State.setActorAt_time (s : State) (n : BitVec 4) (a : Actor) : (s.setActorAt n a).time = s.time := rfl
@[simp] theorem State.setActorAt_tick (s : State) (n : BitVec 4) (a : Actor) : (s.setActorAt n a).tick = s.tick := rfl
@[simp] theorem State.setActorAt_bases (s : State) (n : BitVec 4) (a : Actor) : (s.setActorAt n a).bases = s.bases := rfl
@[simp] theorem State.setActorAt_flight (s : State) (n : BitVec 4) (a : Actor) : (s.setActorAt n a).flight = s.flight := rfl
@[simp] theorem State.setActorAt_leaves (s : State) (n : BitVec 4) (a : Actor) : (s.setActorAt n a).leaves = s.leaves := rfl
@[simp] theorem State.setActorAt_caps (s : State) (n : BitVec 4) (a : Actor) : (s.setActorAt n a).caps = s.caps := rfl
@[simp] theorem State.setActorAt_groups (s : State) (n : BitVec 4) (a : Actor) : (s.setActorAt n a).groups = s.groups := rfl
@[simp] theorem State.setActorAt_depot (s : State) (n : BitVec 4) (a : Actor) : (s.setActorAt n a).depot = s.depot := rfl
@[simp] theorem State.setActorAt_chans (s : State) (n : BitVec 4) (a : Actor) : (s.setActorAt n a).chans = s.chans := rfl
@[simp] theorem State.setActorAt_depotQ (s : State) (n : BitVec 4) (a : Actor) : (s.setActorAt n a).depotQ = s.depotQ := rfl
@[simp] theorem State.setActorAt_depotAntis (s : State) (n : BitVec 4) (a : Actor) : (s.setActorAt n a).depotAntis = s.depotAntis := rfl
@[simp] theorem State.setActorAt_ckpts (s : State) (n : BitVec 4) (a : Actor) : (s.setActorAt n a).ckpts = s.ckpts := rfl
@[simp] theorem State.setActorAt_takes (s : State) (n : BitVec 4) (a : Actor) : (s.setActorAt n a).takes = s.takes := rfl
@[simp] theorem State.setActorAt_mgmt (s : State) (n : BitVec 4) (a : Actor) : (s.setActorAt n a).mgmt = s.mgmt := rfl
@[simp] theorem State.setActorAt_hosts (s : State) (n : BitVec 4) (a : Actor) : (s.setActorAt n a).hosts = s.hosts := rfl
@[simp] theorem State.setActorAt_rings (s : State) (n : BitVec 4) (a : Actor) : (s.setActorAt n a).rings = s.rings := rfl
@[simp] theorem State.setActorAt_msix (s : State) (n : BitVec 4) (a : Actor) : (s.setActorAt n a).msix = s.msix := rfl
@[simp] theorem State.setActorAt_vectors (s : State) (n : BitVec 4) (a : Actor) : (s.setActorAt n a).vectors = s.vectors := rfl
@[simp] theorem State.setActorAt_msixPending (s : State) (n : BitVec 4) (a : Actor) : (s.setActorAt n a).msixPending = s.msixPending := rfl
@[simp] theorem State.setActorAt_interrupts (s : State) (n : BitVec 4) (a : Actor) : (s.setActorAt n a).interrupts = s.interrupts := rfl
@[simp] theorem State.setActorAt_hostMem (s : State) (n : BitVec 4) (a : Actor) : (s.setActorAt n a).hostMem = s.hostMem := rfl
@[simp] theorem State.setActorAt_hostIn (s : State) (n : BitVec 4) (a : Actor) : (s.setActorAt n a).hostIn = s.hostIn := rfl
@[simp] theorem State.setActorAt_launches (s : State) (n : BitVec 4) (a : Actor) : (s.setActorAt n a).launches = s.launches := rfl
@[simp] theorem State.setActorAt_launchCause (s : State) (n : BitVec 4) (a : Actor) : (s.setActorAt n a).launchCause = s.launchCause := rfl
@[simp] theorem State.setActorAt_injects (s : State) (n : BitVec 4) (a : Actor) : (s.setActorAt n a).injects = s.injects := rfl
@[simp] theorem State.setActorAt_ports (s : State) (n : BitVec 4) (a : Actor) : (s.setActorAt n a).ports = s.ports := rfl
@[simp] theorem State.setActorAt_coords (s : State) (n : BitVec 4) (a : Actor) : (s.setActorAt n a).coords = s.coords := rfl
@[simp] theorem State.setActorAt_torus (s : State) (n : BitVec 4) (a : Actor) : (s.setActorAt n a).torus = s.torus := rfl
@[simp] theorem State.setActorAt_round (s : State) (n : BitVec 4) (a : Actor) : (s.setActorAt n a).round = s.round := rfl
@[simp] theorem State.setActorAt_roundNum (s : State) (n : BitVec 4) (a : Actor) : (s.setActorAt n a).roundNum = s.roundNum := rfl
@[simp] theorem State.setActorAt_early (s : State) (n : BitVec 4) (a : Actor) : (s.setActorAt n a).early = s.early := rfl
@[simp] theorem State.setActorAt_lastM (s : State) (n : BitVec 4) (a : Actor) : (s.setActorAt n a).lastM = s.lastM := rfl
@[simp] theorem State.setActorAt_lastSettled (s : State) (n : BitVec 4) (a : Actor) : (s.setActorAt n a).lastSettled = s.lastSettled := rfl
@[simp] theorem State.setActorAt_roundDue (s : State) (n : BitVec 4) (a : Actor) : (s.setActorAt n a).roundDue = s.roundDue := rfl
@[simp] theorem State.setActorAt_fabricOn (s : State) (n : BitVec 4) (a : Actor) : (s.setActorAt n a).fabricOn = s.fabricOn := rfl
@[simp] theorem State.setActorAt_fabricIn (s : State) (n : BitVec 4) (a : Actor) : (s.setActorAt n a).fabricIn = s.fabricIn := rfl
@[simp] theorem State.setActorAt_fabricDown (s : State) (n : BitVec 4) (a : Actor) : (s.setActorAt n a).fabricDown = s.fabricDown := rfl
@[simp] theorem State.setActorAt_sensor (s : State) (n : BitVec 4) (a : Actor) : (s.setActorAt n a).sensor = s.sensor := rfl
@[simp] theorem State.setActorAt_die (s : State) (n : BitVec 4) (a : Actor) : (s.setActorAt n a).die = s.die := rfl
@[simp] theorem State.setActorAt_fuses (s : State) (n : BitVec 4) (a : Actor) : (s.setActorAt n a).fuses = s.fuses := rfl
@[simp] theorem State.setActorAt_stations (s : State) (n : BitVec 4) (a : Actor) : (s.setActorAt n a).stations = s.stations := rfl

@[simp] theorem State.setActor_agenda (s : State) (a : Actor) : (s.setActor a).agenda = s.agenda := rfl
@[simp] theorem State.setActor_here (s : State) (a : Actor) : (s.setActor a).here = s.here := rfl
@[simp] theorem State.setActor_cx (s : State) (a : Actor) : (s.setActor a).cx = s.cx := rfl
@[simp] theorem State.setActor_time (s : State) (a : Actor) : (s.setActor a).time = s.time := rfl
@[simp] theorem State.setActor_tick (s : State) (a : Actor) : (s.setActor a).tick = s.tick := rfl
@[simp] theorem State.setActor_bases (s : State) (a : Actor) : (s.setActor a).bases = s.bases := rfl
@[simp] theorem State.setActor_flight (s : State) (a : Actor) : (s.setActor a).flight = s.flight := rfl
@[simp] theorem State.setActor_leaves (s : State) (a : Actor) : (s.setActor a).leaves = s.leaves := rfl
@[simp] theorem State.setActor_caps (s : State) (a : Actor) : (s.setActor a).caps = s.caps := rfl
@[simp] theorem State.setActor_groups (s : State) (a : Actor) : (s.setActor a).groups = s.groups := rfl
@[simp] theorem State.setActor_depot (s : State) (a : Actor) : (s.setActor a).depot = s.depot := rfl
@[simp] theorem State.setActor_chans (s : State) (a : Actor) : (s.setActor a).chans = s.chans := rfl
@[simp] theorem State.setActor_depotQ (s : State) (a : Actor) : (s.setActor a).depotQ = s.depotQ := rfl
@[simp] theorem State.setActor_depotAntis (s : State) (a : Actor) : (s.setActor a).depotAntis = s.depotAntis := rfl
@[simp] theorem State.setActor_ckpts (s : State) (a : Actor) : (s.setActor a).ckpts = s.ckpts := rfl
@[simp] theorem State.setActor_takes (s : State) (a : Actor) : (s.setActor a).takes = s.takes := rfl
@[simp] theorem State.setActor_mgmt (s : State) (a : Actor) : (s.setActor a).mgmt = s.mgmt := rfl
@[simp] theorem State.setActor_hosts (s : State) (a : Actor) : (s.setActor a).hosts = s.hosts := rfl
@[simp] theorem State.setActor_rings (s : State) (a : Actor) : (s.setActor a).rings = s.rings := rfl
@[simp] theorem State.setActor_msix (s : State) (a : Actor) : (s.setActor a).msix = s.msix := rfl
@[simp] theorem State.setActor_vectors (s : State) (a : Actor) : (s.setActor a).vectors = s.vectors := rfl
@[simp] theorem State.setActor_msixPending (s : State) (a : Actor) : (s.setActor a).msixPending = s.msixPending := rfl
@[simp] theorem State.setActor_interrupts (s : State) (a : Actor) : (s.setActor a).interrupts = s.interrupts := rfl
@[simp] theorem State.setActor_hostMem (s : State) (a : Actor) : (s.setActor a).hostMem = s.hostMem := rfl
@[simp] theorem State.setActor_hostIn (s : State) (a : Actor) : (s.setActor a).hostIn = s.hostIn := rfl
@[simp] theorem State.setActor_launches (s : State) (a : Actor) : (s.setActor a).launches = s.launches := rfl
@[simp] theorem State.setActor_launchCause (s : State) (a : Actor) : (s.setActor a).launchCause = s.launchCause := rfl
@[simp] theorem State.setActor_injects (s : State) (a : Actor) : (s.setActor a).injects = s.injects := rfl
@[simp] theorem State.setActor_ports (s : State) (a : Actor) : (s.setActor a).ports = s.ports := rfl
@[simp] theorem State.setActor_coords (s : State) (a : Actor) : (s.setActor a).coords = s.coords := rfl
@[simp] theorem State.setActor_torus (s : State) (a : Actor) : (s.setActor a).torus = s.torus := rfl
@[simp] theorem State.setActor_round (s : State) (a : Actor) : (s.setActor a).round = s.round := rfl
@[simp] theorem State.setActor_roundNum (s : State) (a : Actor) : (s.setActor a).roundNum = s.roundNum := rfl
@[simp] theorem State.setActor_early (s : State) (a : Actor) : (s.setActor a).early = s.early := rfl
@[simp] theorem State.setActor_lastM (s : State) (a : Actor) : (s.setActor a).lastM = s.lastM := rfl
@[simp] theorem State.setActor_lastSettled (s : State) (a : Actor) : (s.setActor a).lastSettled = s.lastSettled := rfl
@[simp] theorem State.setActor_roundDue (s : State) (a : Actor) : (s.setActor a).roundDue = s.roundDue := rfl
@[simp] theorem State.setActor_fabricOn (s : State) (a : Actor) : (s.setActor a).fabricOn = s.fabricOn := rfl
@[simp] theorem State.setActor_fabricIn (s : State) (a : Actor) : (s.setActor a).fabricIn = s.fabricIn := rfl
@[simp] theorem State.setActor_fabricDown (s : State) (a : Actor) : (s.setActor a).fabricDown = s.fabricDown := rfl
@[simp] theorem State.setActor_sensor (s : State) (a : Actor) : (s.setActor a).sensor = s.sensor := rfl
@[simp] theorem State.setActor_die (s : State) (a : Actor) : (s.setActor a).die = s.die := rfl
@[simp] theorem State.setActor_fuses (s : State) (a : Actor) : (s.setActor a).fuses = s.fuses := rfl
@[simp] theorem State.setActor_stations (s : State) (a : Actor) : (s.setActor a).stations = s.stations := rfl

/-! ## What each update changes -/

@[simp] theorem State.core_setCore (s : State) (c : CoreId) (k : Core) : (s.setCore c k).core c = k := by simp [State.core, State.setCore]

theorem State.core_setCore_ne (s : State) {c d : CoreId} (h : d ≠ c) (k : Core) : (s.setCore c k).core d = s.core d := by
  have : d.toNat ≠ c.toNat := fun e => h (BitVec.eq_of_toNat_eq e)
  simp [State.core, State.setCore, look_put_ne this]

@[simp] theorem State.base_setBase (s : State) (b : Nat) (k : Base) : (s.setBase b k).base b = k := by simp [State.base, State.setBase]

theorem State.base_setBase_ne (s : State) {b c : Nat} (h : c ≠ b) (k : Base) : (s.setBase b k).base c = s.base c := by
  simp [State.base, State.setBase, look_put_ne h]

@[simp] theorem State.base_setCore (s : State) (c : CoreId) (k : Core) (b : Nat) : (s.setCore c k).base b = s.base b := rfl
@[simp] theorem State.core_setBase (s : State) (b : Nat) (k : Base) (c : CoreId) : (s.setBase b k).core c = s.core c := rfl

@[simp] theorem State.station_setStation (s : State) (n : Nat) (x : Station) : (s.setStation n x).station n = x := by
  simp [State.station, State.setStation]

/-- A packet posted stands last on its way. -/
theorem State.flight_post (s : State) (n : Nat) (v : Word) (p : Packet) :
    (s.post n v p).flight = s.flight ++ [⟨((s.station n).sent v).colour, v, p⟩] := rfl

@[simp] theorem State.hereCore_setHere (s : State) (k : Core) : (s.setHere k).hereCore = k := by simp [State.hereCore, State.setHere]
@[simp] theorem State.setHere_setHere (s : State) (k l : Core) : (s.setHere k).setHere l = s.setHere l := by
  simp [State.setHere, State.setCore]

@[simp] theorem State.actorAt_setActorAt (s : State) (n : BitVec 4) (a : Actor) : (s.setActorAt n a).actorAt n = a := by
  simp [State.actorAt, State.setActorAt]

/-! ## The context that issues -/

theorem State.setCtx_eq (s : State) (x : Ctx) : s.setCtx x = s.setHere { s.hereCore with ctxs := s.hereCore.ctxs.set s.cx.toNat x } := rfl

theorem State.ctx_eq (s : State) : s.ctx = s.hereCore.ctxs[s.cx.toNat] := rfl

@[simp] theorem State.ctx_setCtx (s : State) (x : Ctx) : (s.setCtx x).ctx = x := by
  simp [State.ctx, State.setCtx, State.core, State.setCore]

@[simp] theorem State.setCtx_setCtx (s : State) (x y : Ctx) : (s.setCtx x).setCtx y = s.setCtx y := by
  simp [State.setCtx, State.core, State.setCore]

theorem State.hereCore_setCtx (s : State) (x : Ctx) :
    (s.setCtx x).hereCore = { s.hereCore with ctxs := s.hereCore.ctxs.set s.cx.toNat x } := by
  simp [State.hereCore, State.setCtx, State.core, State.setCore]

@[simp] theorem State.herePad_setCtx (s : State) (x : Ctx) : (s.setCtx x).hereCore.pad = s.hereCore.pad := by rw [State.hereCore_setCtx]
@[simp] theorem State.full_setCtx (s : State) (x : Ctx) : (s.setCtx x).hereCore.full = s.hereCore.full := by rw [State.hereCore_setCtx]
@[simp] theorem State.fullFog_setCtx (s : State) (x : Ctx) : (s.setCtx x).hereCore.fullFog = s.hereCore.fullFog := by rw [State.hereCore_setCtx]
@[simp] theorem State.badPad_setCtx (s : State) (x : Ctx) : (s.setCtx x).hereCore.badPad = s.hereCore.badPad := by rw [State.hereCore_setCtx]
@[simp] theorem State.code_setCtx (s : State) (x : Ctx) : (s.setCtx x).hereCore.code = s.hereCore.code := by rw [State.hereCore_setCtx]
@[simp] theorem State.badCode_setCtx (s : State) (x : Ctx) : (s.setCtx x).hereCore.badCode = s.hereCore.badCode := by rw [State.hereCore_setCtx]
@[simp] theorem State.starts_setCtx (s : State) (x : Ctx) : (s.setCtx x).hereCore.starts = s.hereCore.starts := by rw [State.hereCore_setCtx]
@[simp] theorem State.images_setCtx (s : State) (x : Ctx) : (s.setCtx x).hereCore.images = s.hereCore.images := by rw [State.hereCore_setCtx]
@[simp] theorem State.scan_setCtx (s : State) (x : Ctx) : (s.setCtx x).hereCore.scan = s.hereCore.scan := by rw [State.hereCore_setCtx]
@[simp] theorem State.parts_setCtx (s : State) (x : Ctx) : (s.setCtx x).hereCore.parts = s.hereCore.parts := by rw [State.hereCore_setCtx]
@[simp] theorem State.tiles_setCtx (s : State) (x : Ctx) : (s.setCtx x).hereCore.tiles = s.hereCore.tiles := by rw [State.hereCore_setCtx]
@[simp] theorem State.badTiles_setCtx (s : State) (x : Ctx) : (s.setCtx x).hereCore.badTiles = s.hereCore.badTiles := by rw [State.hereCore_setCtx]
@[simp] theorem State.tileWait_setCtx (s : State) (x : Ctx) : (s.setCtx x).hereCore.tileWait = s.hereCore.tileWait := by rw [State.hereCore_setCtx]
@[simp] theorem State.vq_setCtx (s : State) (x : Ctx) : (s.setCtx x).hereCore.vq = s.hereCore.vq := by rw [State.hereCore_setCtx]
@[simp] theorem State.mq_setCtx (s : State) (x : Ctx) : (s.setCtx x).hereCore.mq = s.hereCore.mq := by rw [State.hereCore_setCtx]
@[simp] theorem State.cq_setCtx (s : State) (x : Ctx) : (s.setCtx x).hereCore.cq = s.hereCore.cq := by rw [State.hereCore_setCtx]
@[simp] theorem State.deferral_setCtx (s : State) (x : Ctx) : (s.setCtx x).hereCore.deferral = s.hereCore.deferral := by rw [State.hereCore_setCtx]
@[simp] theorem State.antis_setCtx (s : State) (x : Ctx) : (s.setCtx x).hereCore.antis = s.hereCore.antis := by rw [State.hereCore_setCtx]
@[simp] theorem State.antiFull_setCtx (s : State) (x : Ctx) : (s.setCtx x).hereCore.antiFull = s.hereCore.antiFull := by rw [State.hereCore_setCtx]
@[simp] theorem State.fenced_setCtx (s : State) (x : Ctx) : (s.setCtx x).hereCore.fenced = s.hereCore.fenced := by rw [State.hereCore_setCtx]
@[simp] theorem State.actors_setCtx (s : State) (x : Ctx) : (s.setCtx x).hereCore.actors = s.hereCore.actors := by rw [State.hereCore_setCtx]
@[simp] theorem State.dir_setCtx (s : State) (x : Ctx) : (s.setCtx x).hereCore.dir = s.hereCore.dir := by rw [State.hereCore_setCtx]
@[simp] theorem State.itab_setCtx (s : State) (x : Ctx) : (s.setCtx x).hereCore.itab = s.hereCore.itab := by rw [State.hereCore_setCtx]
@[simp] theorem State.shapes_setCtx (s : State) (x : Ctx) : (s.setCtx x).hereCore.shapes = s.hereCore.shapes := by rw [State.hereCore_setCtx]
@[simp] theorem State.prot_setCtx (s : State) (x : Ctx) : (s.setCtx x).hereCore.prot = s.hereCore.prot := by rw [State.hereCore_setCtx]
@[simp] theorem State.slots_setCtx (s : State) (x : Ctx) : (s.setCtx x).hereCore.slots = s.hereCore.slots := by rw [State.hereCore_setCtx]
@[simp] theorem State.nextSlots_setCtx (s : State) (x : Ctx) : (s.setCtx x).hereCore.nextSlots = s.hereCore.nextSlots := by rw [State.hereCore_setCtx]
@[simp] theorem State.pointer_setCtx (s : State) (x : Ctx) : (s.setCtx x).hereCore.pointer = s.hereCore.pointer := by rw [State.hereCore_setCtx]
@[simp] theorem State.throttle_setCtx (s : State) (x : Ctx) : (s.setCtx x).hereCore.throttle = s.hereCore.throttle := by rw [State.hereCore_setCtx]
@[simp] theorem State.cycle_setCtx (s : State) (x : Ctx) : (s.setCtx x).hereCore.cycle = s.hereCore.cycle := by rw [State.hereCore_setCtx]
@[simp] theorem State.vmile_setCtx (s : State) (x : Ctx) : (s.setCtx x).hereCore.vmile = s.hereCore.vmile := by rw [State.hereCore_setCtx]
@[simp] theorem State.rounds_setCtx (s : State) (x : Ctx) : (s.setCtx x).hereCore.rounds = s.hereCore.rounds := by rw [State.hereCore_setCtx]
@[simp] theorem State.settled_setCtx (s : State) (x : Ctx) : (s.setCtx x).hereCore.settled = s.hereCore.settled := by rw [State.hereCore_setCtx]
@[simp] theorem State.arm_setCtx (s : State) (x : Ctx) : (s.setCtx x).hereCore.arm = s.hereCore.arm := by rw [State.hereCore_setCtx]
@[simp] theorem State.stopped_setCtx (s : State) (x : Ctx) : (s.setCtx x).hereCore.stopped = s.hereCore.stopped := by rw [State.hereCore_setCtx]
@[simp] theorem State.rb_setCtx (s : State) (x : Ctx) : (s.setCtx x).hereCore.rb = s.hereCore.rb := by rw [State.hereCore_setCtx]
@[simp] theorem State.rbCounts_setCtx (s : State) (x : Ctx) : (s.setCtx x).hereCore.rbCounts = s.hereCore.rbCounts := by rw [State.hereCore_setCtx]
@[simp] theorem State.called_setCtx (s : State) (x : Ctx) : (s.setCtx x).hereCore.called = s.hereCore.called := by rw [State.hereCore_setCtx]
@[simp] theorem State.badItins_setCtx (s : State) (x : Ctx) : (s.setCtx x).hereCore.badItins = s.hereCore.badItins := by rw [State.hereCore_setCtx]
@[simp] theorem State.dispatched_setCtx (s : State) (x : Ctx) : (s.setCtx x).hereCore.dispatched = s.hereCore.dispatched := by rw [State.hereCore_setCtx]

@[simp] theorem State.actorAt_setCtx (s : State) (x : Ctx) (n : BitVec 4) : (s.setCtx x).actorAt n = s.actorAt n := by
  simp [State.actorAt]

/-- The memories of the other cores, and of this one, are those before. -/
theorem State.pad_setCtx (s : State) (x : Ctx) (c : CoreId) : ((s.setCtx x).core c).pad = (s.core c).pad := by
  by_cases h : c = s.here
  · subst h
    simp [State.setCtx]
  · simp [State.setCtx, State.core_setCore_ne _ h]

/-! ## Registers (R65 to R68) -/

@[simp] theorem State.g_zero (s : State) : s.g 0 = 0 := rfl

/-- g0 discards what is written to it; every other register takes it; no other register changes. -/
theorem State.g_setG (s : State) (d : BitVec 5) (v : Word) (r : BitVec 5) :
    (s.setG d v).g r = if r = d ∧ d ≠ 0 then v else s.g r := by
  unfold State.setG
  by_cases hd : d = 0#5
  · simp [hd]
  · simp only [BitVec.ofNat_eq_ofNat, if_neg hd]
    by_cases hr : r = 0#5
    · subst hr
      simp [State.g]
      intro e; exact absurd e.symm hd
    · by_cases h : r = d
      · subst h; simp [State.g, hr]
      · have : d.toNat ≠ r.toNat := fun e => h (BitVec.eq_of_toNat_eq e.symm)
        simp [State.g, hr, h, this]

theorem State.setG_eq (s : State) (d : BitVec 5) (v : Word) : s.setG d v = s ∨ s.setG d v = s.setCtx { s.ctx with g := s.ctx.g.set d.toNat v } := by
  unfold State.setG
  split
  · exact .inl rfl
  · exact .inr rfl

@[simp] theorem State.setG_ctx_phase (s : State) (d : BitVec 5) (v : Word) : (s.setG d v).ctx.phase = s.ctx.phase := by unfold State.setG; split <;> simp
@[simp] theorem State.setG_ctx_wait (s : State) (d : BitVec 5) (v : Word) : (s.setG d v).ctx.wait = s.ctx.wait := by unfold State.setG; split <;> simp
@[simp] theorem State.setG_ctx_slot (s : State) (d : BitVec 5) (v : Word) : (s.setG d v).ctx.slot = s.ctx.slot := by unfold State.setG; split <;> simp
@[simp] theorem State.setG_ctx_pc (s : State) (d : BitVec 5) (v : Word) : (s.setG d v).ctx.pc = s.ctx.pc := by unfold State.setG; split <;> simp
@[simp] theorem State.setG_ctx_f (s : State) (d : BitVec 5) (v : Word) : (s.setG d v).ctx.f = s.ctx.f := by unfold State.setG; split <;> simp
@[simp] theorem State.setG_ctx_p (s : State) (d : BitVec 5) (v : Word) : (s.setG d v).ctx.p = s.ctx.p := by unfold State.setG; split <;> simp
@[simp] theorem State.setG_ctx_b (s : State) (d : BitVec 5) (v : Word) : (s.setG d v).ctx.b = s.ctx.b := by unfold State.setG; split <;> simp
@[simp] theorem State.setG_ctx_v (s : State) (d : BitVec 5) (v : Word) : (s.setG d v).ctx.v = s.ctx.v := by unfold State.setG; split <;> simp
@[simp] theorem State.setG_ctx_vnow (s : State) (d : BitVec 5) (v : Word) : (s.setG d v).ctx.vnow = s.ctx.vnow := by unfold State.setG; split <;> simp
@[simp] theorem State.setG_ctx_vout (s : State) (d : BitVec 5) (v : Word) : (s.setG d v).ctx.vout = s.ctx.vout := by unfold State.setG; split <;> simp
@[simp] theorem State.setG_ctx_fflags (s : State) (d : BitVec 5) (v : Word) : (s.setG d v).ctx.fflags = s.ctx.fflags := by unfold State.setG; split <;> simp
@[simp] theorem State.setG_ctx_vrnd (s : State) (d : BitVec 5) (v : Word) : (s.setG d v).ctx.vrnd = s.ctx.vrnd := by unfold State.setG; split <;> simp
@[simp] theorem State.setG_ctx_seed (s : State) (d : BitVec 5) (v : Word) : (s.setG d v).ctx.seed = s.ctx.seed := by unfold State.setG; split <;> simp
@[simp] theorem State.setG_ctx_jstat (s : State) (d : BitVec 5) (v : Word) : (s.setG d v).ctx.jstat = s.ctx.jstat := by unfold State.setG; split <;> simp
@[simp] theorem State.setG_ctx_trapinfo (s : State) (d : BitVec 5) (v : Word) : (s.setG d v).ctx.trapinfo = s.ctx.trapinfo := by unfold State.setG; split <;> simp
@[simp] theorem State.setG_ctx_budget (s : State) (d : BitVec 5) (v : Word) : (s.setG d v).ctx.budget = s.ctx.budget := by unfold State.setG; split <;> simp
@[simp] theorem State.setG_ctx_prioBase (s : State) (d : BitVec 5) (v : Word) : (s.setG d v).ctx.prioBase = s.ctx.prioBase := by unfold State.setG; split <;> simp
@[simp] theorem State.setG_ctx_prioEff (s : State) (d : BitVec 5) (v : Word) : (s.setG d v).ctx.prioEff = s.ctx.prioEff := by unfold State.setG; split <;> simp
@[simp] theorem State.setG_ctx_trigger (s : State) (d : BitVec 5) (v : Word) : (s.setG d v).ctx.trigger = s.ctx.trigger := by unfold State.setG; split <;> simp
@[simp] theorem State.setG_ctx_g3 (s : State) (d : BitVec 5) (v : Word) : (s.setG d v).ctx.g3 = s.ctx.g3 := by unfold State.setG; split <;> simp
@[simp] theorem State.setG_ctx_g4 (s : State) (d : BitVec 5) (v : Word) : (s.setG d v).ctx.g4 = s.ctx.g4 := by unfold State.setG; split <;> simp
@[simp] theorem State.setG_ctx_started (s : State) (d : BitVec 5) (v : Word) : (s.setG d v).ctx.started = s.ctx.started := by unfold State.setG; split <;> simp
@[simp] theorem State.setG_ctx_retired (s : State) (d : BitVec 5) (v : Word) : (s.setG d v).ctx.retired = s.ctx.retired := by unfold State.setG; split <;> simp
@[simp] theorem State.setG_ctx_staging (s : State) (d : BitVec 5) (v : Word) : (s.setG d v).ctx.staging = s.ctx.staging := by unfold State.setG; split <;> simp
@[simp] theorem State.setG_ctx_scFence (s : State) (d : BitVec 5) (v : Word) : (s.setG d v).ctx.scFence = s.ctx.scFence := by unfold State.setG; split <;> simp
@[simp] theorem State.setG_ctx_relFence (s : State) (d : BitVec 5) (v : Word) : (s.setG d v).ctx.relFence = s.ctx.relFence := by unfold State.setG; split <;> simp
@[simp] theorem State.setG_ctx_wpages (s : State) (d : BitVec 5) (v : Word) : (s.setG d v).ctx.wpages = s.ctx.wpages := by unfold State.setG; split <;> simp
@[simp] theorem State.setG_ctx_committed (s : State) (d : BitVec 5) (v : Word) : (s.setG d v).ctx.committed = s.ctx.committed := by unfold State.setG; split <;> simp
@[simp] theorem State.setG_ctx_leaving (s : State) (d : BitVec 5) (v : Word) : (s.setG d v).ctx.leaving = s.ctx.leaving := by unfold State.setG; split <;> simp
@[simp] theorem State.setG_ctx_kept (s : State) (d : BitVec 5) (v : Word) : (s.setG d v).ctx.kept = s.ctx.kept := by unfold State.setG; split <;> simp
@[simp] theorem State.setG_ctx_reinject (s : State) (d : BitVec 5) (v : Word) : (s.setG d v).ctx.reinject = s.ctx.reinject := by unfold State.setG; split <;> simp
@[simp] theorem State.setG_ctx_consumed (s : State) (d : BitVec 5) (v : Word) : (s.setG d v).ctx.consumed = s.ctx.consumed := by unfold State.setG; split <;> simp
@[simp] theorem State.setG_ctx_freedAt (s : State) (d : BitVec 5) (v : Word) : (s.setG d v).ctx.freedAt = s.ctx.freedAt := by unfold State.setG; split <;> simp

@[simp] theorem State.goto_g (s : State) (p : BitVec 16) (r : BitVec 5) : (s.goto p).g r = s.g r := by simp [State.g, State.goto]
@[simp] theorem State.goto_pc (s : State) (p : BitVec 16) : (s.goto p).ctx.pc = p := by simp [State.goto]
@[simp] theorem State.advance_g (s : State) (n : Nat) (r : BitVec 5) : (s.advance n).g r = s.g r := by simp [State.advance]
@[simp] theorem State.advance_pc (s : State) (n : Nat) : (s.advance n).ctx.pc = s.ctx.pc + BitVec.ofNat 16 n := by simp [State.advance]

end Sys2Proof.Machine
end

