-- ==== Sys2Proof/Laws/Ops.lean ====
section
/-! SUPPORT. What the shared operations can do, said once for each: the logs, stores, traps, the queues of what leaves, packets and counters. -/

namespace Sys2Proof.Machine

/-! ## Maps -/

theorem mem_put {α : Type} {k : Nat} {x : α} {m : List (Nat × α)} {p : Nat × α} (h : p ∈ put k x m) : p = (k, x) ∨ p ∈ m := by
  induction m with
  | nil => exact .inl (by simpa [put] using h)
  | cons q m ih =>
    obtain ⟨j, y⟩ := q
    simp only [put] at h
    split at h
    · rcases List.mem_cons.1 h with h | h
      · exact .inl h
      · exact .inr h
    · split at h
      · rcases List.mem_cons.1 h with h | h
        · exact .inl h
        · exact .inr (List.mem_cons_of_mem _ h)
      · rcases List.mem_cons.1 h with h | h
        · exact .inr (h ▸ List.mem_cons_self)
        · rcases ih h with h | h
          · exact .inl h
          · exact .inr (List.mem_cons_of_mem _ h)

theorem look_mem {α : Type} (d : α) (k : Nat) (m : List (Nat × α)) : look d k m = d ∨ (k, look d k m) ∈ m := by
  induction m with
  | nil => exact .inl rfl
  | cons p m ih =>
    obtain ⟨j, y⟩ := p
    simp only [look]
    split
    · rename_i h; subst h; exact .inr List.mem_cons_self
    · rcases ih with h | h
      · exact .inl h
      · exact .inr (List.mem_cons_of_mem _ h)

/-! ## Actors of the core in focus -/

theorem State.actorAt_setActorAt_same (s : State) (k : BitVec 4) (a : Actor) : (s.setActorAt k a).actorAt k = a := by
  simp [State.actorAt, State.setActorAt]

theorem State.actorAt_setActorAt_ne {k j : BitVec 4} (h : j ≠ k) (s : State) (a : Actor) : (s.setActorAt k a).actorAt j = s.actorAt j := by
  simp only [State.actorAt, State.setActorAt, State.hereCore_setHere]
  exact look_put_ne (fun e => h (BitVec.eq_of_toNat_eq e)) _ _ _

/-! ## The logs (R364, R365) -/

/-- A record in the log of an actor of the core in focus: nothing else of the actor, of the core or of the module has changed but the units that the home base counts as spilled. -/
structure Logged (s t : State) : Prop where
  rest : t = { s with cores := t.cores, bases := t.bases }
  core : ∀ c, t.core c = { s.core c with actors := (t.core c).actors }
  other : ∀ c, c ≠ s.here → t.core c = s.core c
  base : ∀ b, t.base b = { s.base b with spills := (t.base b).spills }
  actor : ∀ k, t.actorAt k = { s.actorAt k with log := (t.actorAt k).log, logNext := (t.actorAt k).logNext }

theorem Logged.refl (s : State) : Logged s s := ⟨rfl, fun _ => rfl, fun _ _ => rfl, fun _ => rfl, fun _ => rfl⟩

theorem Logged.here {s t : State} (h : Logged s t) : t.here = s.here := by rw [h.rest]

theorem Logged.cx {s t : State} (h : Logged s t) : t.cx = s.cx := by rw [h.rest]

theorem Logged.trans {s t u : State} (h : Logged s t) (g : Logged t u) : Logged s u where
  rest := by rw [g.rest, h.rest]
  core c := by rw [g.core, h.core]
  other c hc := by rw [g.other c (h.here ▸ hc), h.other c hc]
  base b := by rw [g.base, h.base]
  actor k := by rw [g.actor, h.actor]

theorem Logged.pad {s t : State} (h : Logged s t) : t.hereCore.pad = s.hereCore.pad := by
  unfold State.hereCore; rw [h.here, h.core]

theorem Logged.full {s t : State} (h : Logged s t) (w : Nat) : t.hereCore.isFull w = s.hereCore.isFull w := by
  unfold State.hereCore; rw [h.here, h.core]; rfl

theorem Logged.ctxs {s t : State} (h : Logged s t) (c : CoreId) : (t.core c).ctxs = (s.core c).ctxs := by rw [h.core c]

theorem Logged.ctxAt {s t : State} (h : Logged s t) (x : BitVec 2) : t.ctxAt x = s.ctxAt x := by
  unfold State.ctxAt; simp only [h.here, h.ctxs]

theorem Logged.ctx {s t : State} (h : Logged s t) : t.ctx = s.ctx := by
  show t.ctxAt t.cx = s.ctxAt s.cx
  rw [h.cx, h.ctxAt]

theorem Logged.dram {s t : State} (h : Logged s t) (b : Nat) : (t.base b).dram = (s.base b).dram := by rw [h.base]

theorem State.logged_setLogged (s : State) (k : BitVec 4) (a : Actor) (h : a = { s.actorAt k with log := a.log, logNext := a.logNext }) : Logged s (s.setLogged k a) where
  rest := rfl
  core c := by
    unfold State.setLogged
    by_cases e : c = s.here
    · subst e; simp [State.setActorAt, State.setBase, State.setHere, State.core, State.setCore, State.hereCore]
    · have : c.toNat ≠ s.here.toNat := fun h => e (BitVec.eq_of_toNat_eq h)
      simp [State.setActorAt, State.setBase, State.setHere, State.core, State.setCore, look_put_ne this]
  other c e := by
    have : c.toNat ≠ s.here.toNat := fun h => e (BitVec.eq_of_toNat_eq h)
    simp [State.setLogged, State.setActorAt, State.setBase, State.setHere, State.core, State.setCore, look_put_ne this]
  base b := by
    unfold State.setLogged
    by_cases e : b = homeOf a.aid
    · subst e; simp [State.setActorAt, State.setBase, State.setHere, State.base, State.setCore, Base.spilledBy]
    · simp [State.setActorAt, State.setBase, State.setHere, State.base, State.setCore, look_put_ne e]
  actor j := by
    have e : (s.setLogged k a).actorAt j = (s.setActorAt k a).actorAt j := rfl
    rw [e]
    by_cases g : j = k
    · subst g; rw [State.actorAt_setActorAt_same]; exact h
    · rw [State.actorAt_setActorAt_ne g]

/-- A record written: the actor that holds it is the old one with a longer log. -/
theorem Actor.record_eq {a b : Actor} {r : LogRec} {room at_ : Nat} (h : a.record r room = some (b, at_)) : b = { a with log := b.log, logNext := b.logNext } := by
  unfold Actor.record at h
  split at h <;> simp only [Option.ite_none_left_eq_some, Option.some.injEq, Prod.mk.injEq] at h <;> obtain ⟨-, rfl, -⟩ := h <;> rfl

theorem State.log_logged {s t : State} {k : BitVec 4} {r : LogRec} (h : s.log k r = some t) : Logged s t := by
  unfold State.log at h
  split at h
  · rename_i a _ e
    cases h
    exact s.logged_setLogged k a (Actor.record_eq e)
  · cases h

theorem State.saveLine_logged {s t : State} {k : BitVec 4} {l : Nat} (h : s.saveLine k l = some t) : Logged s t := by
  unfold State.saveLine at h
  split at h
  · split at h
    · split at h
      · cases h; exact .refl _
      · exact State.log_logged h
    · cases h; exact .refl _
  · cases h; exact .refl _

theorem State.saveLines_logged {s t : State} {k : BitVec 4} {l : List Nat} (h : s.saveLines k l = some t) : Logged s t := by
  induction l generalizing s with
  | nil => cases h; exact .refl _
  | cons x l ih =>
    unfold State.saveLines at h
    split at h
    · rename_i u e; exact (State.saveLine_logged e).trans (ih h)
    · cases h

theorem State.saveEp_logged {s t : State} {k e : BitVec 4} (h : s.saveEp k e = some t) : Logged s t := by
  unfold State.saveEp at h
  simp only at h
  split at h
  · cases h; exact .refl _
  · exact State.log_logged h

/-! ## Stores (R200, R202, R206) -/

/-- A store that the logs have room for: after the kept lines are saved the bytes stand in the scratchpad. -/
theorem State.store_eq {s t : State} {k : BitVec 4} {a : Nat} {l : List Byte} (h : s.store k a l = some t) :
    ∃ u, Logged s u ∧ t = u.setHere (u.hereCore.writePad a l) := by
  unfold State.store at h
  split at h
  · rename_i u e; cases h; exact ⟨u, State.saveLines_logged e, rfl⟩
  · cases h

theorem State.store_here {s t : State} {k : BitVec 4} {a : Nat} {l : List Byte} (h : s.store k a l = some t) : t.here = s.here ∧ t.cx = s.cx := by
  obtain ⟨u, g, rfl⟩ := State.store_eq h
  exact ⟨g.here, g.cx⟩

theorem State.store_pad {s t : State} {k : BitVec 4} {a : Nat} {l : List Byte} (h : s.store k a l = some t) : t.hereCore.pad = s.hereCore.pad.setBytes a l := by
  obtain ⟨u, g, rfl⟩ := State.store_eq h
  rw [State.hereCore_setHere]
  show u.hereCore.pad.setBytes a l = _
  rw [g.pad]

/-- The bytes stored, and every other byte of the scratchpad. -/
theorem State.store_byte {s t : State} {k : BitVec 4} {a : Nat} {l : List Byte} (h : s.store k a l = some t) :
    (∀ j (hj : j < l.length), t.hereCore.pad.byte (a + j) = l[j]) ∧ ∀ x, (x < a ∨ a + l.length ≤ x) → t.hereCore.pad.byte x = s.hereCore.pad.byte x := by
  rw [State.store_pad h]
  exact ⟨fun j hj => Mem.byte_setBytes_in _ _ _ _ hj, fun x hx => Mem.byte_setBytes_out _ _ _ _ hx⟩

theorem State.store_ctxAt {s t : State} {k : BitVec 4} {a : Nat} {l : List Byte} (h : s.store k a l = some t) (x : BitVec 2) : t.ctxAt x = s.ctxAt x := by
  obtain ⟨u, g, rfl⟩ := State.store_eq h
  have : (u.setHere (u.hereCore.writePad a l)).ctxAt x = u.ctxAt x := by
    simp [State.ctxAt, State.setHere, State.core, State.setCore, Core.writePad, State.hereCore]
  rw [this, g.ctxAt]

theorem State.store_full {s t : State} {k : BitVec 4} {a : Nat} {l : List Byte} (h : s.store k a l = some t) (w : Nat) : t.hereCore.isFull w = s.hereCore.isFull w := by
  obtain ⟨u, g, rfl⟩ := State.store_eq h
  rw [State.hereCore_setHere]
  exact g.full w

theorem State.store_other {s t : State} {k : BitVec 4} {a : Nat} {l : List Byte} (h : s.store k a l = some t) {c : CoreId} (hc : c ≠ s.here) : t.core c = s.core c := by
  obtain ⟨u, g, rfl⟩ := State.store_eq h
  rw [← g.other c hc]
  exact State.core_setCore_ne u (by rw [g.here]; exact hc) _

theorem State.store_rest {s t : State} {k : BitVec 4} {a : Nat} {l : List Byte} (h : s.store k a l = some t) : t = { s with cores := t.cores, bases := t.bases } := by
  obtain ⟨u, g, rfl⟩ := State.store_eq h
  rw [g.rest]; rfl

theorem State.store_base {s t : State} {k : BitVec 4} {a : Nat} {l : List Byte} (h : s.store k a l = some t) (b : Nat) : t.base b = { s.base b with spills := (t.base b).spills } := by
  obtain ⟨u, g, rfl⟩ := State.store_eq h
  exact g.base b

theorem orNoRoom_some (s t : State) (k : State → Out) : orNoRoom (some t) s k = k t := rfl

theorem orNoRoom_none (s : State) (k : State → Out) : orNoRoom none s k = raise 0x142 s.ctx.vnow s := rfl

/-! ## Contexts of the core in focus -/

theorem State.ctxAt_setHere (s : State) (k : Core) (y : BitVec 2) : (s.setHere k).ctxAt y = k.ctxs[y.toNat] := by
  simp [State.ctxAt, State.setHere, State.core, State.setCore]

theorem State.ctxAt_setCtx (s : State) (x : Ctx) (y : BitVec 2) : (s.setCtx x).ctxAt y = if y = s.cx then x else s.ctxAt y := by
  simp only [State.ctxAt, State.setCtx, State.core, State.setCore, look_put_same]
  split
  · rename_i h; subst h; simp
  · rename_i h
    have : s.cx.toNat ≠ y.toNat := fun e => h (BitVec.eq_of_toNat_eq e).symm
    exact Vector.getElem_set_ne _ _ this

/-! ## Waiting contexts (R69, R340) -/

theorem wake_eq (x : Ctx) : (if x.wait = .memory then x else { x with wait := .none }) = { x with wait := if x.wait = .memory then .memory else .none } := by
  by_cases h : x.wait = .memory
  · rw [if_pos h, if_pos h, ← h]
  · rw [if_neg h, if_neg h]

theorem State.wakeHere_ctxAt (s : State) (y : BitVec 2) : s.wakeHere.ctxAt y = { s.ctxAt y with wait := if (s.ctxAt y).wait = .memory then .memory else .none } := by
  unfold State.wakeHere State.ctxAt State.setHere State.hereCore
  simp only [State.core, State.setCore, look_put_same, Vector.getElem_map]
  exact wake_eq _

theorem State.wakeHere_pad (s : State) : s.wakeHere.hereCore.pad = s.hereCore.pad := by
  unfold State.wakeHere; rw [State.hereCore_setHere]

/-! ## Traps (R345 step 1) -/

/-- A trap leaves every register of the context but its phase and its wait; the other contexts may try their next instruction again, but for one that waits for the home. -/
theorem trapWith_ctxAt (close : Option (BitVec 4 × BitVec 6 × BitVec 6)) (killed : Option (BitVec 9)) (cause : BitVec 9) (detail : Word) (s : State) (y : BitVec 2) :
    (trapWith close killed cause detail s).ctxAt y =
      if y = s.cx then { s.ctx with phase := .trapping (trapRecord s.ctx cause detail) close killed, wait := .none }
      else { s.ctxAt y with wait := if (s.ctxAt y).wait = .memory then .memory else .none } := by
  show (State.setCtx (State.wakeHere (s.setHere (s.hereCore.stopEngines s.cx))) _).ctxAt y = _
  rw [State.ctxAt_setCtx, State.wakeHere_ctxAt, State.ctxAt_setHere]
  rfl

theorem trapWith_pad (close : Option (BitVec 4 × BitVec 6 × BitVec 6)) (killed : Option (BitVec 9)) (cause : BitVec 9) (detail : Word) (s : State) :
    (trapWith close killed cause detail s).hereCore.pad = s.hereCore.pad := by
  simp [trapWith, State.wakeHere, State.setHere, State.setCtx, State.core, State.setCore, Core.stopEngines, State.hereCore]

theorem trapWith_rest (close : Option (BitVec 4 × BitVec 6 × BitVec 6)) (killed : Option (BitVec 9)) (cause : BitVec 9) (detail : Word) (s : State) :
    trapWith close killed cause detail s = { s with cores := (trapWith close killed cause detail s).cores } := rfl

/-! ## Counters, packets, stations (R371, R383) -/

theorem State.count_rest (s : State) (off : Nat) : s.count off = { s with mgmt := { s.mgmt with counters := (s.count off).mgmt.counters } } := rfl

/-- A counter raised by one, unless it stands at its largest value. -/
theorem State.count_value (s : State) (off : Nat) : look 0 off (s.count off).mgmt.counters =
    (let v := look 0 off s.mgmt.counters; if v = BitVec.allOnes 64 then v else v + 1) := by
  simp [State.count]

theorem State.count_ne {o off : Nat} (h : o ≠ off) (s : State) : look 0 o (s.count off).mgmt.counters = look 0 o s.mgmt.counters := by
  simp [State.count, look_put_ne h]

theorem State.post_rest (s : State) (st : Nat) (v : Word) (p : Packet) :
    s.post st v p = { s with stations := put st ((s.station st).sent v) s.stations, flight := s.flight ++ [⟨((s.station st).sent v).colour, v, p⟩] } := rfl

/-! ## What waits to leave (R163, R273, R277) -/

/-- An item at the end of its discipline's queue, and of no other. -/
theorem State.enqueue_cases (s : State) (it : Item) :
    s.enqueue it = if s.actor.disc = .timed then s.setHere { s.hereCore with deferral := s.hereCore.deferral ++ [⟨s.ctx.slot, s.ctx.key, it⟩] }
      else s.setCtx { s.ctx with staging := s.ctx.staging ++ [it] } := rfl

/-- What queueing an item can do: the activation traps, it waits, or the item stands at the end of its discipline's queue and the instruction goes on. -/
theorem State.queue_cases (s : State) (it : Item) (k : State → Out) :
    s.queue it k = raiseOpen 0x1B1 s ∨ s.queue it k = .next (s.stall .deferral) ∨ s.queue it k = raiseOpen 0x1B0 s ∨ s.queue it k = k (s.enqueue it) := by
  unfold State.queue
  simp only
  split
  · split
    · split
      · exact .inl rfl
      · exact .inr (.inl rfl)
    · exact .inr (.inr (.inr rfl))
  · split
    · exact .inr (.inr (.inl rfl))
    · exact .inr (.inr (.inr rfl))

end Sys2Proof.Machine
end

