-- ==== Sys2Proof/Laws/Agents.lean ====
section
/-! SUPPORT. What the shared operations of the agents beside the cores can do: the Milestone's cuts, messages that wait at a home base, the page table, refused reads of records. -/

namespace Sys2Proof.Machine

/-- A read of an endpoint's record traps with 0x1C7 or goes on (R354). -/
theorem soundEp_cases (e : BitVec 4) (s : State) (k : Out) :
    (.endpoint e ∈ s.actor.bad ∧ soundEp e s k = raise 0x1C7 0 s) ∨ (.endpoint e ∉ s.actor.bad ∧ soundEp e s k = k) := by
  unfold soundEp
  by_cases h : .endpoint e ∈ s.actor.bad <;> simp [h]

/-! ## The Milestone (R371) -/

/-- A cut changes a station and what knows of cuts, and nothing else. -/
theorem State.cutAt_rest (s : State) (st : Nat) (c : Bool) :
    ∃ r e, s.cutAt st c = { s with stations := put st ((s.station st).cut c) s.stations, round := r, early := e } := by
  unfold State.cutAt
  cases h : s.round with
  | none => exact ⟨_, _, rfl⟩
  | some r =>
    simp only
    split
    · exact ⟨_, _, rfl⟩
    · exact ⟨_, _, rfl⟩

/-- A message counted as received changes the stations and what knows of cuts, and nothing else. -/
theorem State.countIn_rest (s : State) (st : Nat) (c : Bool) :
    ∃ m r e, s.countIn st c = { s with stations := m, round := r, early := e } := by
  have key : ∀ (b : Bool) (f : State → Station), ∃ m r e, (if b then s.cutAt st c else s).setStation st (f (if b then s.cutAt st c else s)) = { s with stations := m, round := r, early := e } := by
    obtain ⟨r, e, h⟩ := s.cutAt_rest st c
    rintro (_ | _) f
    · exact ⟨_, _, _, rfl⟩
    · simp only [if_true, h]; exact ⟨_, _, _, rfl⟩
  exact key _ fun t => (t.station st).received c

/-- A packet taken leaves its place, and its station counts it. -/
theorem State.take_rest (s : State) (n st : Nat) : ∃ m r e, s.take n st = { s with flight := s.flight.eraseIdx n, stations := m, round := r, early := e } := by
  unfold State.take
  split
  · rename_i f _
    obtain ⟨m, r, e, h⟩ := s.countIn_rest st f.colour
    exact ⟨m, r, e, by rw [h]⟩
  · rename_i h
    exact ⟨s.stations, s.round, s.early, by rw [List.eraseIdx_of_length_le (List.getElem?_eq_none_iff.1 h)]⟩

/-! ## Messages that wait at a home base (R329, R348) -/

/-- The actor takes messages in behind those that it has, each one that waited for it there; what still waits did so before. -/
theorem Actor.fetchHome_cases (now : Nat) (l : List Waiting) (a : Actor) :
    ∃ new, (Actor.fetchHome now l a).1 = { a with box := a.box ++ new } ∧
      (∀ h ∈ new, ∃ w ∈ l, w.who = a.aid ∧ h.msg = w.msg ∧ h.ep = w.ep) ∧ (Actor.fetchHome now l a).2.Sublist l := by
  induction l generalizing a with
  | nil => exact ⟨[], by simp [Actor.fetchHome], by simp, by simp [Actor.fetchHome]⟩
  | cons w l ih =>
    unfold Actor.fetchHome
    split
    · rename_i x hx
      obtain ⟨new, h1, h2, h3⟩ := ih { a with box := a.box ++ [heldAt w.ep w.msg x now] }
      have hw : w.who = a.aid := by
        by_cases e : w.who = a.aid
        · exact e
        · rw [if_neg e] at hx; cases hx
      refine ⟨heldAt w.ep w.msg x now :: new, by rw [h1]; simp, fun h hm => ?_, h3.cons _⟩
      rcases List.mem_cons.1 hm with rfl | hm
      · exact ⟨w, by simp, hw, rfl, rfl⟩
      · obtain ⟨v, hv, e⟩ := h2 h hm
        exact ⟨v, List.mem_cons_of_mem _ hv, e⟩
    · obtain ⟨new, h1, h2, h3⟩ := ih a
      exact ⟨new, h1, fun h hm => (h2 h hm).imp fun v hv => ⟨List.mem_cons_of_mem _ hv.1, hv.2⟩, h3.cons_cons _⟩

/-! ## The page table (R323) -/

/-- Mapping a page changes the blocks of its stack's table, and draws their addresses. -/
theorem State.mapPage_rest (s : State) (p : Nat) : s.mapPage p = { s with bases := (s.mapPage p).bases, tick := s.tick + 1 } := rfl

/-- A page that is mapped lacks no block of its walk. -/
theorem State.mapPage_missing (s : State) (p : Nat) : ((s.mapPage p).base (homePage p)).missing p = [] := by
  simp only [State.mapPage, State.setBase, State.base, look_put_same, Base.missing, List.filter_eq_nil_iff]
  rintro k hk
  simp only [List.all_eq_true, List.mem_append, List.mem_map, List.mem_filter, ne_eq, decide_eq_true_eq, not_forall]
  by_cases h : ∃ x ∈ (look Base.reset (homePage p) s.bases).blocks, x.1 = k
  · obtain ⟨x, hx, e⟩ := h
    exact ⟨x, .inl hx, by simp [e]⟩
  · refine ⟨(k, Config.freeNumber (s.tick + k) % 2 ^ 24), .inr ⟨k, ⟨List.mem_map.1 hk, fun x hx e => h ⟨x, hx, e⟩⟩, rfl⟩, by simp⟩

end Sys2Proof.Machine
end

