-- ==== Sys2Proof/Laws/Log.lean ====
section
/-! SUPPORT. The backtrack log: whether a record has room depends on its size alone. -/

namespace Sys2Proof.Machine

theorem inSpill_cons (u : Nat) (b : Bool) (r : LogRec) (l : List Placed) : inSpill (⟨u, b, r⟩ :: l) = (if b then r.units else 0) + inSpill l := by
  cases b <;> simp [inSpill]

theorem State.log_isSome (s : State) (k : BitVec 4) (r : LogRec) : (s.log k r).isSome = ((s.actorAt k).record r (s.spillRoom (s.actorAt k).aid)).isSome := by
  unfold State.log
  cases (s.actorAt k).record r (s.spillRoom (s.actorAt k).aid) <;> rfl

/-- Whether an output record has room does not depend on what it records. -/
theorem State.output_room (s : State) (k : BitVec 4) (h h' : Header) (w w' : AId) (d d' : Dest) :
    (s.log k (.output h w d)).isSome = (s.log k (.output h' w' d')).isSome := by
  rw [log_isSome, log_isSome]
  unfold Actor.record
  simp only [show (s.actorAt k).roomFor (.output h' w' d') = (s.actorAt k).roomFor (.output h w d) from rfl]
  cases (s.actorAt k).roomFor (.output h w d) <;>
    simp only [LogRec.units, List.cons_append, inSpill_cons, apply_ite Option.isSome, Option.isSome_none, Option.isSome_some] <;> rfl

end Sys2Proof.Machine
end

