-- ==== Sys2Proof/Tests/Slice0.lean ====
section
/-! SUPPORT. Tests on small states: reserved fields are refused, words written out in the manual decode to their instructions, worked examples of the manual, and for each statement states that meet its hypotheses. A hypothesis of a statement that only names a value or a function is met by that value; the witnesses show the others. -/

namespace Sys2Proof.Tests

set_option Elab.async false

open Sys2Proof.Machine Sys2Proof.Safety

/-! ## Reserved fields -/

theorem test_reserved_scalar :
    ([.fadd 6 0 0 0, .fsub 6 0 0 0, .fmul 6 0 0 0, .fdiv 6 0 0 0, .fsqrt 6 0 0, .fcvtFG 6 0 0 0, .fcvtGF 6 0 0 0, .fround 6 0 0, .fcvtBf16F 6 0 0,
      .fcvtHfF 6 0 0, .fscal 6 0 0 0, .ldbits 0 0 0 4 0, .stbits 0 0 4 0, .badd 0 4, .bset 0 4, .bget 4 0, .sysrd 0x004 0, .syswr 0x004 0,
      .sysbs 0x004 0, .sysbc 0x004 0, .fenceAcq 11, .fenceRel 11, .fenceFull 11, .fenceSc 11, .jarm 62 0 0, .linkFlitReceive 12,
      .linkAcknowledgement 12, .linkReplay 12, .scrub 0 24576] : List Instr).all (fun i => ! i.wellFormed) = true := by decide +kernel

theorem test_reserved_vector :
    ([.vadd 0 0 0 0 3, .vsub 0 0 0 0 3, .vmul 0 0 0 0 3, .vmulh 0 0 0 0 3, .vmulhn 0 0 0 0 3, .vmin 0 0 0 0 3, .vmax 0 0 0 0 3, .vminn 0 0 0 0 3,
      .vmaxn 0 0 0 0 3, .vand 0 0 0 0 3, .vor 0 0 0 0 3, .vxor 0 0 0 0 3, .vsll 0 0 0 0 3, .vsrl 0 0 0 0 3, .vsra 0 0 0 0 3, .vabs 0 0 0 3,
      .vadds 0 0 0 0 3, .vaddsn 0 0 0 0 3, .vsubs 0 0 0 0 3, .vsubsn 0 0 0 0 3, .vavg 0 0 0 0 3, .vcmpeq 0 0 0 0 3, .vcmpeq 0 0 0 8 0,
      .vcmplt 0 0 0 0 3, .vcmplt 0 0 0 8 0, .vcmpltn 0 0 0 0 3, .vcmpltn 0 0 0 8 0, .vfadd 0 0 0 0 10, .vfadd 0 0 0 0 14, .vfsub 0 0 0 0 10,
      .vfsub 0 0 0 0 14, .vfmul 0 0 0 0 10, .vfmul 0 0 0 0 14, .vffma 0 0 0 0 0 10, .vffma 0 0 0 0 0 14, .vffms 0 0 0 0 0 10, .vffms 0 0 0 0 0 14,
      .vfmin 0 0 0 0 10, .vfmin 0 0 0 0 14, .vfmax 0 0 0 0 10, .vfmax 0 0 0 0 14, .vfabs 0 0 0 10, .vfabs 0 0 0 14, .vfneg 0 0 0 10,
      .vfneg 0 0 0 14, .vfrecip 0 0 0 10, .vfrecip 0 0 0 14, .vfrsq 0 0 0 10, .vfrsq 0 0 0 14, .vfexp2 0 0 0 10, .vfexp2 0 0 0 14,
      .vfcmpeq 0 0 0 0 10, .vfcmpeq 0 0 0 0 14, .vfcmpeq 0 0 0 8 11, .vfcmplt 0 0 0 0 10, .vfcmplt 0 0 0 0 14, .vfcmplt 0 0 0 8 11,
      .vfcmple 0 0 0 0 10, .vfcmple 0 0 0 0 14, .vfcmple 0 0 0 8 11, .vfclass 0 0 0 10, .vfclass 0 0 0 14, .vfscale 0 0 0 0 10, .vfscale 0 0 0 0 14] :
      List Instr).all (fun i => ! i.wellFormed) = true := by decide +kernel

theorem test_reserved_lanes :
    ([.vcvt 0 11 0 0 0, .vcvt 0 0 11 0 0, .vcvt 0 1 1 0 0, .vcvtsc 0 4 0 0, .vcvtsc 1 0 0 1, .vcvtsc 1 0 1 0, .vsplat 0 3 0 0, .vsplatf 0 3 0 0,
      .vsplatf 0 0 0 0, .vext 0 0 6 0, .vext 64 0 2 0, .vins 0 3 0 0, .vins 32 2 0 0, .vperm 0 3 0 0 0, .vcompress 0 3 0 0, .vexpand 0 3 0 0,
      .vmerge 0 3 0 0 0, .vredsum 0 9 0 0, .vredmax 0 9 0 0, .vredmin 0 9 0 0, .vtopk 0 0 0 0 1, .vtopkM 0 0 0 0 1, .vtopkM 0 0 0 1 0,
      .vtopkM 0 0 1 0 0, .vmand 0 0 8, .vmand 0 8 0, .vmand 8 0 0, .vmor 0 0 8, .vmor 0 8 0, .vmor 8 0 0, .vmnot 0 8, .vmnot 8 0, .vmpop 8 0,
      .vld 0 0 3 0 0, .vst 0 0 3 0 0, .vldx 0 0 0 0 0, .vldx 0 3 0 0 0, .vstx 0 0 0 0 0, .vstx 0 3 0 0 0, .vldbits 0 0 2 4 0 0] :
      List Instr).all (fun i => ! i.wellFormed) = true := by decide +kernel

theorem test_reserved_matrix :
    ([Instr.mmaBf16, .mmaHf, .mmaE4e4, .mmaE4e5, .mmaE5e4, .mmaE5e5, .mmaBf16e4].all fun m =>
        [m 0 2 8 0, m 0 8 1 0, m 0 2 0 0, m 0 0 1 0, m 0 1 1 0, m 31 2 1 0].all fun i => ! i.wellFormed) = true ∧
      ([Instr.mmaI8, .mmaTi8].all fun m => [m 2 8 0, m 8 1 0, m 2 0 0, m 0 1 0, m 1 1 0].all fun i => ! i.wellFormed) = true ∧
      [Instr.mmaTbf16 0 2 8 0, .mmaTbf16 0 8 17 0, .mmaTbf16 0 0 17 0, .mmaTbf16 31 2 17 0, .mmaTbf16 0 2 1 0].all (fun i => ! i.wellFormed) = true := by
  decide +kernel

theorem test_reserved_requests :
    ([.connect 0 0 0 15, .connect 62 0 0 0, .accept 0 0 0 15, .accept 62 0 0 0, .send 0 0 0 15, .send 62 0 0 0, .sendv 0 0 0 15, .sendv 62 0 0 0,
      .sendt 0 0 0 15, .sendt 62 0 0 0, .selLabel 0 15, .recv 0 0 15, .offer 0 15, .probe 0 15, .close 0 15, .sendep 0 1 15, .sendep 62 1 0,
      .sendep 0 1 1, .sendep 0 15 0, .recvep 1 15, .recvep 1 1, .recvep 15 0, .spawn 0 0 0 15, .spawn 62 0 0 0, .mrd 62 0 0, .mwr 62 0 0,
      .mamo 62 1 0, .mamo 0 0 0, .mamo 0 30 0, .cpget 62 0 0, .cpput 62 0 0, .cpgath 62 1 0, .cpgath 0 0 0, .cpgath 0 31 0, .cpscat 62 1 0,
      .cpscat 0 0 0, .cpscat 0 31 0, .cpfill 62 1 0, .cpfill 0 0 0, .cpfill 0 31 0, .cpcvt 62 1 0, .cpcvt 0 0 0, .cpcvt 0 31 0, .gjoin 0 0 15,
      .gjoin 62 0 0, .gleave 15, .gwait 0 15, .gwait 62 0, .gred 0 0 0 15, .gred 62 0 0 0, .gbcast 0 0 0 15, .gbcast 62 0 0 0, .grs 0 0 0 15,
      .grs 62 0 0 0, .gag 0 0 0 15, .gag 62 0 0 0] : List Instr).all (fun i => ! i.wellFormed) = true := by decide +kernel

/-! ## Words written out in the manual -/

/-- The words come from the encoding examples of R77, R78, R90, R147, R154, R160, R184, R188, R214, R217, R218, R226, R230, R235, R275, R276, R296, R332, R333, R343, R350, R376 and of the programs, or are put together from the field maps of R47 to R52 (add, sel, jalr, fadd, vadd, the compact forms). -/
theorem test_decode_words :
    ([(0x00082303, .add 2 1 3), (0xB1882407, .sel 3 2 1 4), (0x10298C0B, .bextn 10 12 12), (0x90054C0B, .slli 1 10 12), (0x59E0A50F, .addi 5752 5 5),
      (0x0281232B, .bEq 20 9 3), (0x0003E037, .jalr 0 31 0), (0x00082343, .fadd 0 2 1 3), (0x00034147, .fcvtFG 0 0 26 1), (0x90002247, .fcvtHfF 0 1 2),
      (0x6000284B, .ldd 0 1 8), (0x200C434F, .stw 3 2 3), (0x241CC453, .acas 8 7 6 4), (0x20004157, .badd 2 1), (0x01AC2457, .ldbits 1 1 11 1 4),
      (0x00021363, .vadd 0 2 1 3 0), (0x0102136F, .vfadd 1 2 1 3 11), (0x9003126F, .vfscale 0 3 1 2 11), (0x9824947B, .vld 0 2 1 9 4),
      (0x9804017B, .vld 0 0 1 0 1), (0x1002837B, .vsplat 0 1 8 3), (0x7093287B, .vtopk 2 1 3 2 8), (0x00002A83, .tcfg 5 2), (0x0C041A83, .tldrow 4 3 2),
      (0x14041883, .tstrow 4 3 0), (0x1C073183, .tload 7 6 1), (0x24000083, .twait), (0x20098883, .tstore 9 17 0)] : List (Nat × Instr)).all
      (fun x => decodeTableWord 32 x.1 == some x.2) = true := by decide +kernel

theorem test_decode_more_words :
    ([(0x00930887, .mmaBf16 4 19 1 0), (0x18820887, .mmaBf16e4 4 2 1 0), (0x20020887, .mmaTi8 2 1 0), (0x04820887, .mmaHf 4 2 1 0),
      (0x21CE62A3, .send 7 7 6 2), (0x504002A3, .selLabel 1 2), (0x601282A3, .recv 9 8 2), (0x900002A3, .close 0 2), (0x7000A2A3, .offer 10 2),
      (0x328E22A3, .sendv 10 7 2 2), (0xC0C0C1A3, .estate 3 12 1), (0x024E6FB3, .mrd 9 7 6), (0x124E6FB3, .mwr 9 7 6), (0x00D06FB7, .cpget 3 8 6),
      (0x60000FB7, .cpwait), (0x15E72FB7, .cpput 23 19 18), (0x050043CB, .gjoin 20 4 3), (0x100003CB, .gleave 3), (0x258003CB, .gwait 22 3),
      (0x354E63CB, .gred 21 7 6 3), (0x000004C3, .vnow 4), (0x4000A0C3, .vset 5), (0x800007C3, .vmile 7), (0xC000A0C3, .prio 5), (0x7C0000C3, .commit),
      (0xBC0000C3, .done), (0xBC0400C3, .doneRetire), (0xFC554BC3, .jarm 21 10 11), (0x7D00C7C3, .capgive 6 7), (0xBD00C4C3, .capchk 6 4),
      (0x002004D3, .sysrd 8 4), (0x4004A0D3, .syswr 1 5), (0xC020C0D3, .sysbc 8 6), (0x3C5800D3, .fenceRel 6), (0x3C1800D3, .fenceAcq 6),
      (0x3CD800D3, .fenceSc 6), (0x7C1400D3, .trap 5), (0xBC0000D3, .halt)] : List (Nat × Instr)).all
      (fun x => decodeTableWord 32 x.1 == some x.2) = true ∧
    ([(0x0820, .cAdd 2 1), (0xFC65, .cLi 63 3), (0x0442, .cBeqz 1 2), (0x001E, .cDone)] : List (Nat × Instr)).all
      (fun x => decodeTableWord 16 x.1 == some x.2) = true := by decide +kernel

/-- Reserved words are refused: a function of major 0x02 that is not assigned (R75), a set reserved bit of add (R72), bit [15] of a compact parcel (R52), a fence scope above 10 (R51). -/
theorem test_decode_refuses :
    [decodeTableWord 32 0xC000000B, decodeTableWord 32 0x00800003, decodeTableWord 16 0x8820, decodeTableWord 32 0x3C6C00D3].all
      (fun x => x == none) = true := by decide +kernel

/-! ## Small states -/

/-- Zone 0 is kept (lines 0 to 15), zone 1 scratch (lines 16 to 2,927), zone 2 a mailbox (lines 2,928 to 3,055), zone 3 a log (lines 3,056 to 3,071). -/
def zonesOf : Vector Zone 8 :=
  #v[⟨true, .kept, 0, 16⟩, ⟨true, .scratch, 16, 2912⟩, ⟨true, .mailbox, 2928, 128⟩, ⟨true, .log, 3056, 16⟩, Zone.none, Zone.none, Zone.none, Zone.none]

/-- An actor of tenant 5 with e15 open and the class-5 handler at the image's first parcel. -/
def act : Actor :=
  { Actor.zero with aid := ⟨5, 0x101⟩, image := 1, zones := zonesOf, eps := Actor.zero.eps.set 15 (EpRec.memory 0x2DC00), seq := 3,
                    junction := Actor.zero.junction.set 5 ⟨true, true, 0⟩ }

def runningCtx : Ctx := { Ctx.reset with phase := .running, budget := 100, pc := 4, vnow := 40 }

/-- Eight parcels of code, every second one the start of an instruction. -/
def img : Image :=
  { num := 1, tenant := 5, base := 0, len := 16, disc := .untimed, prio := 0, budget := 100, junction := act.junction, zones := zonesOf, data := [], itins := [] }

/-- Core 0 with the actor in slot 0 and, in context 0, an activation of it. -/
def coreOf (a : Actor) (x : Ctx) : Core :=
  { Core.reset with ctxs := Core.reset.ctxs.set 0 x, actors := [(0, a)], images := [img], starts := [0, 2, 4, 6] }

def stateOf (a : Actor) (x : Ctx) (f : Core → Core) : State := { State.reset with cores := [(0, f (coreOf a x))] }

/-- The state with registers g. -/
def withG (l : List (Fin 32 × Word)) : State := stateOf act { runningCtx with g := l.foldl (fun v r => v.set r.1 r.2) runningCtx.g } id

/-- The state with registers f. -/
def withF (l : List (Fin 32 × FWord)) : State := stateOf act { runningCtx with f := l.foldl (fun v r => v.set r.1 r.2) runningCtx.f } id

def onCore (s : State) (f : Core → Core) : State := s.setCore 0 (f (s.core 0))
def onActor (s : State) (f : Actor → Actor) : State := onCore s fun k => { k with actors := k.actors.map fun x => (x.1, f x.2) }
def onCtx (s : State) (f : Ctx → Ctx) : State := onCore s fun k => { k with ctxs := k.ctxs.set 0 (f k.ctxs[0]) }

/-- What a step answers when it goes on. -/
def after (o : Out) : State := match o with | .next t => t | _ => State.reset

/-- The cause of the trap that context 0 of core 0 has taken. -/
def causeOf (o : Out) : BitVec 9 := match (after o).ctx.phase with | .trapping r _ _ => r.cause | _ => 0

/-! ## Worked examples of the manual -/

theorem test_divide_rem : (after (exec (.div 2 1 3) (withG [(1, -7), (2, 2)]))).g 3 = -3 ∧ (after (exec (.rem 2 1 3) (withG [(1, -7), (2, 2)]))).g 3 = -1 := by
  decide +kernel

/-- R75: pos 4, width 8 of 0xABCD. -/
theorem test_fields :
    (after (exec (.bext 3 2 4) (withG [(2, 0xABCD), (3, 0x704)]))).g 4 = 0xFFFFFFFFFFFFFFBC ∧
      (after (exec (.bins 5 3 2 4) (withG [(2, 0xABCD), (3, 0x704), (5, 0x12)]))).g 4 = 0xA12D := by decide +kernel

/-- R77: lui and addi build 0x1234_5678. -/
theorem test_lui : (after (exec (.addi 5752 5 5) (after (exec (.lui 0x91A2 5) (withG []))))).g 5 = 0x12345678 := by decide +kernel

/-- R89: 1.0 + 2^-24 in RNE and RUP. -/
theorem test_fadd :
    (after (exec (.fadd 0 2 1 3) (withF [(1, 0x3F800000), (2, 0x33800000)]))).f 3 = 0x3F800000 ∧
      (after (exec (.fadd 2 2 1 3) (withF [(1, 0x3F800000), (2, 0x33800000)]))).f 3 = 0x3F800001 := by decide +kernel

/-- R89: 3.0 × 10^10 to i32 clamps with NV; R88: the class of −inf is 0x83. -/
theorem test_convert_class :
    (after (exec (.fcvtGF 0 2 3 4) (withF [(3, 0x50DF8476)]))).g 4 = 0x7FFFFFFF ∧ (after (exec (.fcvtGF 0 2 3 4) (withF [(3, 0x50DF8476)]))).ctx.fflags = 16 ∧
      (after (exec (.fcls 3 4) (withF [(3, 0xFF800000)]))).g 4 = 0x83 := by decide +kernel

/-- R218: the field of 12 bits that straddles words 40 and 41. -/
theorem test_ldbits :
    let s := onCtx (onCore (withG []) fun k => { k with pad := (k.pad.set 0x147 0xAB).set 0x148 0x37 }) fun x => { x with b := x.b.set 1 0xA3A }
    (after (exec (.ldbits 1 1 11 1 4) s)).g 4 = 0xFFFFFFFFFFFFFDEA ∧ (after (exec (.ldbits 1 1 11 1 4) s)).b 1 = 0xA46 := by decide +kernel

/-- R98: two steps of the generator. -/
theorem test_generator : lfsrNext 0x80000001 = 0x00400005 ∧ lfsrNext 0x00400005 = 0x0080000A := by decide +kernel

/-- R90: badd with −3. -/
theorem test_badd : (after (exec (.badd 2 1) (onCtx (withG [(2, -3)]) fun x => { x with b := x.b.set 1 0x40 }))).b 1 = 0x3D := by decide +kernel

/-- R376: vset leaves VOUT 250 in a timed activation at 1,000. -/
theorem test_vset : (after (exec (.vset 5) (onCtx (onActor (withG [(5, 1250)]) fun a => { a with disc := .timed }) fun x => { x with vnow := 1000 }))).ctx.vout = 250 := by
  decide +kernel

/-- R74, R80, R201, R204: a zero divisor, an odd target, a misaligned load, a store into a mailbox slot that the activation has not consumed. -/
theorem test_causes : causeOf (exec (.div 0 1 3) (withG [(1, 9)])) = 0x020 ∧ causeOf (exec (.jalr 0 1 3) (withG [(1, 9)])) = 0x1A1 ∧
    causeOf (exec (.ldd 0 1 3) (withG [(1, 9)])) = 0x040 ∧ causeOf (exec (.std 0 1 3) (withG [(1, 0x2DC00)])) = 0x04A := by decide +kernel

/-! ## Witnesses: encoding, the step, invariants -/

theorem onLines_of {f : Nat → Bool} {a n : Nat} (h : (List.range' (a / 64) ((a + n - 1) / 64 + 1 - a / 64)).all f = true) : OnLines a n fun l => f l = true := by
  intro l h1 h2
  exact List.all_eq_true.1 h l (List.mem_range'_1.2 ⟨h1, by omega⟩)

theorem readable_of {s : State} {a : Word} {n k : Nat} (h1 : a.toNat % k = 0 ∧ a.toNat + n ≤ 0x30000)
    (h : s.actor.zonesBad = false ∧ (List.range' (a.toNat / 64) ((a.toNat + n - 1) / 64 + 1 - a.toNat / 64)).all (lineReadable s.actor) = true) : Readable s a n k :=
  ⟨h.1, h1.1, h1.2, onLines_of h.2⟩

theorem writable_of {s : State} {a : Word} {n k : Nat} (h1 : a.toNat % k = 0 ∧ a.toNat + n ≤ 0x30000)
    (h : s.actor.zonesBad = false ∧ (List.range' (a.toNat / 64) ((a.toNat + n - 1) / 64 + 1 - a.toNat / 64)).all (lineWritable s.actor s.ctx) = true) : Writable s a n k :=
  ⟨h.1, h1.1, h1.2, onLines_of h.2⟩

theorem sound_of {s : State} (h : s.hereCore.badPad = []) (a n : Nat) : Sound s a n := by intro w hw; rw [h] at hw; cases hw

theorem soundStore_of {s : State} (h : s.hereCore.badPad = []) (a n : Nat) : SoundStore s a n := by intro w hw; rw [h] at hw; cases hw

theorem witness_DecodeOfEncode : (Instr.mmaTbf16 30 31 17 7).wellFormed = true ∧ (encode (.mmaTbf16 30 31 17 7)).isSome = true := by decide +kernel

theorem witness_EncodeOfDecode : decodeTableWord 32 0xFF88832B = some (.bLt 0x7FC 4 3) ∧ (0xFF88832B < 2 ^ 32) ∧ decodeTableWord 16 0xFC65 = some (.cLi 63 3) ∧
    decodeTableWord 32 0xFC65 = some (.cLi 63 3) := by decide +kernel

/-- The running context alone, on every slot of the table, with addi g5, g5, #5752 at its PC, the last of the image. -/
def issuing : State :=
  onCore (onCtx (withG []) fun x => { x with pc := 12 }) fun k =>
    { k with slots := (List.range 64).map (fun i => (i, ⟨true, true, 5⟩)), code := k.code.setBytes 12 [0x0F, 0xA5, 0xE0, 0x59], badCode := [0, 2] }

theorem witness_StepRunsDecoded :
    issuing.issuer = some 0 ∧ State.image { issuing with cx := 0 } = some img ∧ (issuing.ctxAt 0).pc.toNat < img.base + img.len ∧
      decodeBytes (issuing.hereCore.code.bytes (issuing.ctxAt 0).pc.toNat 4) = .ok (.addi 5752 5 5, []) ∧
      (∀ w ∈ issuing.hereCore.badCode, 8 * w + 8 ≤ 12 ∨ 12 + 4 ≤ 8 * w) ∧ issuing.agenda = [] := by decide +kernel

theorem witness_StepRunsDecoded_turns : ({ issuing with agenda := [.cycle] } : State).agenda = .cycle :: [] ∧
    ({ issuing with agenda := [.event .coolantSample] } : State).agenda = .event .coolantSample :: [] ∧ encode .coolantSample = none := by decide +kernel

theorem witness_FetchTraps :
    (onCtx issuing fun x => { x with pc := 16 }).image = some img ∧ img.base + img.len ≤ (onCtx issuing fun x => { x with pc := 16 }).ctx.pc.toNat ∧
      (onCore issuing fun k => { k with badCode := [1] }).image = some img ∧ issuing.ctx.pc.toNat < img.base + img.len ∧
      issuing.ctx.pc.toNat / 8 ∈ (onCore issuing fun k => { k with badCode := [1] }).hereCore.badCode := by decide +kernel

def goesOn (o : Out) : Bool := match o with | .next _ => true | _ => false

/-- For `GovernedKept`, `CanonicalKept` and `DetourFixed`: a step from reset, and the invariants there. -/
theorem witness_Kept : Governed State.reset ∧ Canonical State.reset ∧ goesOn (step State.reset) = true ∧ goesOn (step issuing) = true := by
  refine ⟨by unfold Governed; decide, ⟨(fun _ h => nomatch h), (fun _ h => nomatch h), by decide, (fun _ h => nomatch h)⟩, by decide +kernel, by decide +kernel⟩

theorem witness_DetourFixed : 0x1000 ≤ 0x1000 ∧ 0x2FFF < 0x3000 := by decide

theorem witness_DetourMap : ([(0, 0), (33, 31), (5, 7)] : List (Nat × Nat)).length ≤ 64 ∧ (1022 < 1023) ∧ (1023 < 1024) := by decide

/-! ## Witnesses: registers and control -/

theorem witness_IntegerMajor01 : (withG [(2, 1)]).g 2 ≠ 0 ∧ (withG []).g 2 = 0 := by decide +kernel

theorem witness_IntegerMajor01_counts : (∀ k, k < 1 → (1 : Word).getLsbD (k + 63) = false) ∧ (1 : Word).getLsbD 0 = true := by decide

theorem witness_JumpAndLink : LegalTarget (withG [(1, 12)]) ((withG [(1, 12)]).g 1) := ⟨img, by decide +kernel⟩

theorem witness_JumpAndLink_illegal : ¬ LegalTarget (withG [(1, 16)]) ((withG [(1, 16)]).g 1) := by
  rintro ⟨m, hm, -, -, h, -⟩
  obtain rfl : img = m := by have : (withG [(1, 16)]).image = some img := by decide +kernel
                             rw [this] at hm; exact Option.some.inj hm
  revert h; decide +kernel

theorem witness_JumpAndLink_odd : ¬ LegalTarget (withG [(1, 5)]) ((withG [(1, 5)]).g 1) := by
  rintro ⟨m, -, h, -⟩; revert h; decide +kernel

/-! ## Witnesses: floating point -/

theorem witness_FloatSpecials :
    let s := withF [(1, 0x7F800000), (2, 0xFF800000), (3, 0), (4, 0x80000000), (5, 0x3F800000), (6, 0xBF800000), (7, 0x7FA00000), (8, 0x7FC00000)]
    s.fv 1 = .inf false ∧ s.fv 2 = .inf true ∧ s.fv 3 = .fin false 0 (-149) ∧ s.fv 4 = .fin true 0 (-149) ∧ s.fv 5 = .fin false 8388608 (-23) ∧
      s.fv 6 = .fin true 8388608 (-23) ∧ s.fv 7 = .nan true ∧ s.fv 8 = .nan false := by decide +kernel

theorem witness_FloatSpecials_exact : decodeF hf 0x7BFF = .fin false 2047 5 ∧ 0x7BFF < 2 ^ hf.width ∧ decodeF bf16 1 = .fin false 1 (-133) ∧
    decodeF f32 0x7F7FFFFF = .fin false 16777215 104 := by decide +kernel

theorem witness_FloatSelections :
    let s := withF [(1, 0x7FA00000), (2, 0x3F800000), (3, 0x7FC00000)]
    isNan (s.fv 1) = true ∧ isNan (s.fv 2) = false ∧ isNan (s.fv 3) = true := by decide +kernel

theorem witness_FloatConversions :
    let s := withF [(1, 0x7FC00000), (2, 0xFF800000), (3, 0xDF000001), (4, 0x5F000000), (5, 0x4F000000), (6, 0x4EFFFFFF), (7, 0xCF000000)]
    s.fv 1 = .nan false ∧ s.fv 2 = .inf true ∧ (∃ n e, s.fv 3 = .fin true n e ∧ -((roundUnits 0 true 0 n e 0).1 : Int) < -(2 ^ 63)) ∧
      (∃ n e, s.fv 4 = .fin false n e ∧ (2 ^ 63 : Int) - 1 < (roundUnits 0 false 0 n e 0).1) ∧
      (∃ n e, s.fv 5 = .fin false n e ∧ (2 ^ 31 : Int) - 1 < (roundUnits 0 false 0 n e 0).1) ∧
      (∃ n e, s.fv 6 = .fin false n e ∧ ((roundUnits 0 false 0 n e 0).1 : Int) ≤ 2 ^ 31 - 1) ∧
      ∃ n e, s.fv 7 = .fin true n e ∧ -((roundUnits 0 true 0 n e 0).1 : Int) = -(2 ^ 31) := by
  refine ⟨by decide +kernel, by decide +kernel, ⟨8388609, 40, by decide +kernel⟩, ⟨8388608, 40, by decide +kernel⟩, ⟨8388608, 8, by decide +kernel⟩,
    ⟨16777215, 7, by decide +kernel⟩, ⟨8388608, 8, by decide +kernel⟩⟩

theorem witness_FloatConversions_bf16 : isNan (decodeF bf16 0x7F80) = false ∧ isNan (decodeF bf16 0x7FC0) = true := by decide +kernel

/-! ## Witnesses: the scratchpad -/

/-- The last byte, half, word and doubleword of the log zone's end, and of the kept zone. -/
theorem witness_Loads :
    (∀ k, k < 4 → Readable (withG [(1, BitVec.ofNat 64 (0x30000 - 2 ^ k))]) (BitVec.ofNat 64 (0x30000 - 2 ^ k)) (2 ^ k) (2 ^ k)) ∧
      Readable (withG [(1, 0x3F8)]) 0x3F8 8 8 ∧ Sound (withG []) 0x3F8 8 ∧ Sound (onCore (withG []) fun k => { k with badPad := [0x7E, 0x80] }) 0x3F8 8 := by
  refine ⟨?_, readable_of (by decide) (by decide +kernel), sound_of (by decide +kernel) _ _, ?_⟩
  · intro k h
    match k, h with
    | 0, _ => exact readable_of (by decide) (by decide +kernel)
    | 1, _ => exact readable_of (by decide) (by decide +kernel)
    | 2, _ => exact readable_of (by decide) (by decide +kernel)
    | 3, _ => exact readable_of (by decide) (by decide +kernel)
  · show ∀ w ∈ [0x7E, 0x80], 8 * w + 8 ≤ 0x3F8 ∨ 0x3F8 + 8 ≤ 8 * w
    decide

theorem witness_Loads_zone : act.zoneOf 0 = some ⟨true, .kept, 0, 16⟩ ∧ (withG []).actor.zoneOf 3071 = some ⟨true, .log, 3056, 16⟩ := by decide +kernel

/-- The last byte of the kept zone, and the last doubleword of the scratch zone. -/
theorem witness_StoreBytes :
    Writable (withG []) 0x3FF 1 1 ∧ SoundStore (withG []) 0x3FF 1 ∧ Saves (withG []) 0x3FF 1 ∧ Writable (withG []) 0x2DBF8 8 8 ∧ Saves (withG []) 0x2DBF8 8 ∧
      Writable (withG []) 0x3FC 4 4 ∧ Writable (withG []) 0x3FE 2 2 ∧ SoundStore (onCore (withG []) fun k => { k with badPad := [0x7F] }) 0x3F8 8 := by
  refine ⟨writable_of (by decide) (by decide +kernel), soundStore_of (by decide +kernel) _ _, by unfold Saves; decide +kernel,
    writable_of (by decide) (by decide +kernel), by unfold Saves; decide +kernel, writable_of (by decide) (by decide +kernel),
    writable_of (by decide) (by decide +kernel), ?_⟩
  show ∀ w ∈ [0x7F], 8 * w + 8 ≤ 0x3F8 ∨ 0x3F8 + 8 ≤ 8 * w ∨ (0x3F8 ≤ 8 * w ∧ 8 * w + 8 ≤ 0x3F8 + 8)
  decide

/-- An address one past alignment; a zone descriptor in error; the first address beyond the window; a line in no zone (an actor without zones); one that may be read and not written. -/
theorem witness_LocalTraps :
    (1 : Word).toNat % 8 ≠ 0 ∧ (onActor (withG []) fun a => { a with bad := [.zone 7] }).actor.zonesBad = true ∧ (withG []).actor.zonesBad = false ∧ (0x2FFF8 + 8 : Word).toNat % 8 = 0 ∧ 0x30000 < (0x30000 : Word).toNat + 8 ∧
      lineReadable (onActor (withG []) fun a => { a with zones := Actor.zero.zones }).actor 0 = false ∧ lineWritable (withG []).actor (withG []).ctx 2928 = false ∧
      0 / 8 ∈ (onCore (withG []) fun k => { k with badPad := [0] }).hereCore.badPad ∧ (onCore (withG []) fun k => { k with badPad := [0], full := [0] }).hereCore.isFull 0 = true := by decide +kernel

theorem witness_LocalTraps_readable : Readable (onCore (withG []) fun k => { k with badPad := [0] }) 0 8 8 ∧ Writable (onCore (withG []) fun k => { k with badPad := [0] }) 4 4 4 :=
  ⟨readable_of (by decide) (by decide +kernel), writable_of (by decide) (by decide +kernel)⟩

theorem witness_FullBits :
    let s := onCore (withG []) fun k => { k with full := [0] }
    Readable s 0 8 8 ∧ Sound s 0 8 ∧ s.hereCore.isFull 0 = true ∧ Saves s 0 8 ∧ s.hereCore.isFull 1 = false ∧ Readable s 8 8 8 ∧ Writable s 0 8 8 := by
  refine ⟨readable_of (by decide) (by decide +kernel), sound_of (by decide +kernel) _ _, by decide +kernel, by unfold Saves; decide +kernel, by decide +kernel,
    readable_of (by decide) (by decide +kernel), writable_of (by decide) (by decide +kernel)⟩

theorem witness_LocalAtomics :
    let s := withG [(1, 0x3F8), (2, 7), (3, 1)]
    Writable s (s.g 1) 8 8 ∧ Sound s (s.g 1).toNat 8 ∧ Saves s (s.g 1).toNat 8 ∧ BitVec.ofNat 64 (leNat (s.readBytes (s.g 1).toNat 8)) = s.g 0 ∧
      BitVec.ofNat 64 (leNat (s.readBytes (s.g 1).toNat 8)) ≠ s.g 3 := by
  refine ⟨writable_of (by decide +kernel) (by decide +kernel), sound_of (by decide +kernel) _ _, by unfold Saves; decide +kernel, by decide +kernel, by decide +kernel⟩

/-- A field of 32 bits that ends at the last bit of the scratchpad is read, one of 32 bits that ends at the last bit of the kept zone written; one bit further is outside the window. -/
theorem witness_BitAccess :
    let s := onCtx (withG []) fun x => { x with b := #v[0x17FFE0, 0x1FE0, 0x17FFE1, 0] }
    s.actor.zonesBad = false ∧ (s.b 0).toNat + 32 - 1 ≤ 0x17FFFF ∧ OnLines ((s.b 0).toNat / 8) 4 (fun l => lineReadable s.actor l = true) ∧ 0x17FFFF < (s.b 2).toNat + 32 - 1 ∧
      (s.b 1).toNat + 32 - 1 ≤ 0x17FFFF ∧ OnLines ((s.b 1).toNat / 8) 4 (fun l => lineWritable s.actor s.ctx l = true) ∧ Sound s ((s.b 1).toNat / 8) 4 ∧ Saves s ((s.b 1).toNat / 8) 4 := by
  refine ⟨by decide +kernel, by decide +kernel, onLines_of (by decide +kernel), by decide +kernel, by decide +kernel, onLines_of (by decide +kernel), sound_of (by decide +kernel) _ _,
    by unfold Saves; decide +kernel⟩

/-! ## Witnesses: system registers, time, traps, endings -/

theorem witness_SystemRegisters :
    (0x014 : BitVec 12).toNat ∈ [0x000, 0x002, 0x003, 0x010, 0x011, 0x012, 0x013, 0x014, 0x018, 0x019, 0x01A, 0x100] ∧
      ((0x100 : BitVec 12), (withG []).hereCore.cycle) ∈ ([(0x100, (withG []).hereCore.cycle), (0x200, (withG []).mgmt.bootstat)] : List (BitVec 12 × Word)) ∧
      ((5 : BitVec 3).toNat < 6) ∧ ¬ ((6 : BitVec 3).toNat < 6) := by
  refine ⟨by decide, List.mem_cons_self, by decide, by decide⟩

/-- A failure of a durable fence in this cycle, one of an earlier cycle, and a write that clears FAIL. -/
theorem witness_SystemRegisters_durable :
    let x : DurStat := ⟨true, 0x1A7, 7⟩
    let s := onActor (withG [(1, 0x8000000000000000)]) fun a => { a with durstat := x, durFail := some (0, x) }
    s.actor.durFail = some (s.time, x) ∧ (s.g 1).getLsbD 63 = true ∧ (s.g 0).getLsbD 63 = false ∧ ∀ y, ({ s with time := 1 } : State).actor.durFail ≠ some (({ s with time := 1 } : State).time, y) := by
  refine ⟨by decide +kernel, by decide +kernel, by decide +kernel, fun y h => ?_⟩
  have e : ({ onActor (withG [(1, 0x8000000000000000)]) (fun a => { a with durstat := ⟨true, 0x1A7, 7⟩, durFail := some (0, ⟨true, 0x1A7, 7⟩) }) with time := 1 } : State).actor.durFail = some (0, ⟨true, 0x1A7, 7⟩) := by
    decide +kernel
  rw [e] at h
  exact absurd (congrArg Prod.fst (Option.some.inj h)) (by show ¬ (0 = 1); decide)

/-- A class at the declared one and one above it; budgets at both ends of the range and outside it. -/
theorem witness_TimePriorityBudget :
    let s := onActor (withG [(1, 2), (2, 3), (3, 1), (4, 0x1000000), (5, 0x1000001)]) fun a => { a with prio := 2 }
    (s.g 1).toNat ≤ s.actor.prio.toNat ∧ s.actor.prio.toNat < (s.g 2).toNat ∧ 1 ≤ (s.g 3).toNat ∧ (s.g 4).toNat ≤ 2 ^ 24 ∧ 2 ^ 24 < (s.g 5).toNat ∧ (s.g 0).toNat = 0 := by
  decide +kernel

theorem witness_TrapTaken :
    let s := onCtx (onCore (withG []) fun k => { k with tiles := k.tiles.set 7 ⟨1, some 0, 0⟩, arm := some 15 }) fun x => { x with trigger := none }
    s.hereCore.tiles[7].holder = some s.cx ∧ s.hereCore.tiles[6].holder ≠ some s.cx ∧ s.ctx.diverted = false ∧ s.hereCore.arm = some 15 ∧
      s.mgmt.haltOk[(15 : BitVec 4).toNat] = false ∧ ({ s with mgmt := { s.mgmt with haltOk := s.mgmt.haltOk.set 15 true } } : State).mgmt.haltOk[(15 : BitVec 4).toNat] = true ∧
      (withG []).hereCore.arm = none := by decide +kernel

/-- A message of a channel; its fields are those that a test does not name. -/
def hdrOf (cls : BitVec 6) : Header :=
  { key := ⟨30, 0x102, 1⟩, dest := 0, cls := cls, len := 8, state := 0, join := false, ze := false, anti := false, close := false, label := false, deleg := false,
    colour := false, irrev := true, tenant := 5, prio := 0, scope := 6, dmod := 0 }

def msgOf (cls : BitVec 6) (payload : List Byte) : Msg := ⟨hdrOf cls, payload, .plain, ⟨5, 0x101⟩⟩

def heldOf (e : BitVec 4) (m : Msg) : Held := ⟨m, e, 0x2DC00, 64, .run, 0, 0, false, false, false, false⟩

/-- The trigger of an activation that a diversion started (R348). -/
def divertTrigger : Trigger :=
  { held := { heldOf 15 (msgOf 5 []) with msg := { msgOf 5 [] with kind := .diversion ⟨0, 0, 0, 0, Key.zero, 0⟩ (hdrOf 5) ⟨5, 0x102⟩ .plain } },
    byJoin := false, after := EpRec.zero, word := 0, val := 0 }

theorem witness_TrapTaken_diverted : (onCtx (withG []) fun x => { x with trigger := some divertTrigger }).ctx.diverted = true := by decide +kernel

theorem witness_Endings :
    let s := onActor (withG []) fun a => { a with eps := a.eps.set 14 { EpRec.zero with status := .delegated } }
    (s.actor.ep 14).status ∈ [EpStatus.armed, .connecting, .opened, .delegated] ∧
      (∀ k : BitVec 4, k ≠ 15 ∧ (s.actor.ep k).status ∈ [EpStatus.armed, .connecting, .opened, .delegated] → (14 : BitVec 4).toNat ≤ k.toNat) ∧
      (∀ k : BitVec 4, ¬ (k ≠ 15 ∧ ((withG []).actor.ep k).status ∈ [EpStatus.armed, .connecting, .opened, .delegated])) ∧
      (onActor s fun a => { a with disc := .timed }).actor.disc = .timed ∧ s.actor.disc ≠ .timed ∧ (∀ x ∈ s.hereCore.fenced, x.slot ≠ s.ctx.slot) ∧ s.ctx.marked = none ∧
      (onCtx s fun x => { x with staging := [.msg 1 (msgOf 5 []) .fixed] }).ctx.staging = [.msg 1 (msgOf 5 []) .fixed] ∧
      s.seqHeld s.actor.aid (.msg 1 (msgOf 5 []) .fixed) = false := by decide +kernel

/-- The last word of the kept zone, with JREG not valid, naming that word, and naming another. -/
theorem witness_JoinCounters :
    let s := withG [(1, 0x3F8), (2, 3)]
    let r := onActor s fun a => { a with jreg := ⟨true, 0, 0x10⟩ }
    let u := (s.saveJreg s.ctx.slot).getD s
    let v := (r.saveJreg r.ctx.slot).getD r
    Writable s (s.g 1) 8 8 ∧ (∀ z, s.actor.zoneOf ((s.g 1).toNat / 64) = some z → z.kind = .kept) ∧ (s.saveJreg s.ctx.slot).isSome = true ∧ s.actor.jreg.valid = false ∧
      Saves u (s.g 1).toNat 8 ∧ (s.g 2).setWidth 16 ≠ 0 ∧ (s.g 3).setWidth 16 = 0 ∧ Writable r (r.g 1) 8 8 ∧ (r.saveJreg r.ctx.slot).isSome = true ∧
      r.actor.jreg.valid = true ∧ r.actor.jreg.word.toNat ≠ (r.g 1).toNat / 8 ∧
      ∃ x, v.store r.ctx.slot (8 * 0x10) (leBytes 0 8) = some x ∧ Saves x (r.g 1).toNat 8 := by
  refine ⟨writable_of (by decide +kernel) (by decide +kernel), ?_, by decide +kernel, by decide +kernel, by unfold Saves; decide +kernel, by decide +kernel, by decide +kernel,
    writable_of (by decide +kernel) (by decide +kernel), by decide +kernel, by decide +kernel, by decide +kernel, ?_⟩
  · intro z h
    have : (withG [(1, 0x3F8), (2, 3)]).actor.zoneOf (((withG [(1, 0x3F8), (2, 3)]).g 1).toNat / 64) = some ⟨true, .kept, 0, 16⟩ := by decide +kernel
    rw [this] at h; cases h; rfl
  · exact ⟨_, Option.eq_some_of_isSome (by decide +kernel), by unfold Saves; decide +kernel⟩

theorem room_of {s : State} {it : Item} (h : s.actor.disc ≠ .timed ∧ s.staged = []) (hu : it.units ≤ 256) : HasRoom s it := by
  unfold HasRoom
  rw [if_neg h.1, h.2]
  exact ⟨by decide, by simpa [itemUnits] using hu⟩

theorem room_timed {s : State} {it : Item} (h : s.actor.disc = .timed ∧ s.hereCore.deferral = []) (hu : it.units ≤ 512) : HasRoom s it := by
  unfold HasRoom
  rw [if_pos h.1, h.2]
  exact ⟨by decide, by simpa [itemUnits] using hu⟩

theorem units_msg {e : BitVec 4} {m : Msg} {r : VrtRule} (h : m.payload.length ≤ 4096) : (Item.msg e m r).units ≤ 256 := by
  show (m.payload.length + 63) / 64 ≤ 256
  omega

/-- A lay-by activation that has marked its diversion, whose payload it sends again. -/
theorem witness_Endings_marked :
    let s := onCtx (withG []) fun x => { x with trigger := some divertTrigger, reinject := true }
    (∃ h o w k, s.ctx.marked = some (h, o, w, k) ∧ Sound s h.addr.toNat h.msg.payload.length ∧
      ∀ r, r.payload.length ≤ 4096 → HasRoom s (.reinject r)) ∧ s.actor.disc = .untimed := by
  refine ⟨⟨divertTrigger.held, hdrOf 5, ⟨5, 0x102⟩, .plain, by decide +kernel, sound_of (by decide +kernel) _ _, fun r h => room_of (by decide +kernel) ?_⟩, by decide +kernel⟩
  show (r.payload.length + 63) / 64 ≤ 256
  omega

/-- An untimed activation; a timed one that defers because it has written; a timed one whose fence has nothing to wait for, and one that waits. -/
theorem witness_Fences :
    let t := onActor (withG []) fun a => { a with disc := .timed }
    (withG []).actor.disc ≠ .timed ∧ (onCtx t fun x => { x with relFence := true }).ctx.relFence = true ∧
      t.ctx.relFence = false ∧ t.ctx.wpages = [] ∧ t.mayLeave t.actor.aid (.fence .full 6 3 []) = true ∧ t.mayLeave t.actor.aid (.fence .full 10 3 []) = false := by decide +kernel

/-! ## Witnesses: channels -/

/-- Itinerary 1: state 0 sends class 7, state 1 receives class 8, state 2 selects class 9 between two labels, state 3 offers class 10, state 4 delegates out, state 5 delegates in, state 6 ends. -/
def states : List (Nat × StateEntry) :=
  [(0, ⟨0, 7, 1, 0, 1, 0, 0, 0, 6, 0, false⟩), (1, ⟨1, 8, 1, 0, 2, 0, 0, 0, 6, 0, false⟩), (2, ⟨2, 9, 1, 1, 0, 3, 0, 0, 6, 0, false⟩),
    (3, ⟨3, 10, 1, 1, 0, 4, 0, 0, 6, 0, false⟩), (4, ⟨4, 11, 1, 0, 5, 0, 0, 0, 6, 0, false⟩), (5, ⟨5, 12, 1, 0, 6, 0, 0, 0, 6, 0, false⟩),
    (6, ⟨6, 0, 0, 0, 0, 0, 0, 0, 6, 0, false⟩)]

def itin : DirEntry := ⟨true, false, 5, 0, 7, 4, 64, 1, 0xF00D, 0xD00F⟩

/-- e1 open in a state of itinerary 1, its peer e2 of slot 1; classes 8 to 12 have held handlers. -/
def chanState (st : BitVec 6) (box : List Held) (g : List (Fin 32 × Word)) : State :=
  onCore (onActor (withG g) fun a =>
    { a with eps := a.eps.set 1 { EpRec.zero with status := .opened, look := 4, itin := 1, state := st, peer := Loc.peer ⟨0, 1⟩ 2, bufbase := 0x2DC00, slot := 64 }, box := box,
             junction := ((((a.junction.set 8 ⟨true, true, 0⟩).set 9 ⟨true, true, 0⟩).set 10 ⟨true, true, 0⟩).set 11 ⟨true, true, 0⟩).set 12 ⟨true, true, 0⟩ })
    fun k => { k with dir := [(1, itin)], itab := states, shapes := [(1, ⟨0, 4096⟩)] }

theorem inState_of {s : State} {e : BitVec 4} {k : BitVec 3} (h : .endpoint e ∉ s.actor.bad ∧ (s.actor.ep e).pkind ≠ .collective ∧ s.hereCore.badItins = [])
    (hk : (s.epView e).kind = k) : InState s e k (s.epView e) :=
  ⟨h.1, h.2.1, fun _ => by rw [h.2.2]; exact List.not_mem_nil, rfl, hk⟩

theorem noPages_of {s : State} {r : EpRec} (h : r.pkind ≠ .depot) (p : List Byte) : s.depotRefused r p = none := by
  simp [State.depotRefused, State.depotPages, h]

theorem witness_Sending_send :
    let s := chanState 0 [] [(1, 0x400), (2, 4096), (3, 128), (4, 2048)]
    canSend s.actor 1 (s.actor.ep 1) = true ∧ SavesEp s 1 ∧ s.sendsNow (s.actor.ep 1) = false ∧ (∀ m : Msg, m.payload.length ≤ 4096 → HasRoom s (.msg 1 m .fixed)) ∧
      InState s 1 0 (s.epView 1) ∧ (s.epView 1).cls = 7 ∧ s.hereCore.bounded (s.actor.ep 1).itin (s.epView 1).then0 (s.actor.ep 1).loop = false ∧
      s.sendVrt (s.actor.ep 1).lastvrt = .ok (.atRelease 1, 0) ∧ (∀ p, s.depotRefused (s.actor.ep 1) p = none) ∧
      ((s.g 2).toNat < 2 ^ 17 ∧ (s.g 2).toNat / 2 ^ 13 % 8 = 0 ∧ (s.g 2).toNat % 2 ^ 13 ≤ (s.epView 1).max ∧ (s.epView 1).min ≤ (s.g 2).toNat % 2 ^ 13) ∧
      Readable s (s.g 1) 4096 8 ∧ Sound s (s.g 1).toNat 4096 := by
  and_intros <;> first
    | decide +kernel
    | exact fun m h => room_of (by decide +kernel) (units_msg h)
    | exact List.not_mem_nil
    | exact noPages_of (by decide +kernel)
    | exact fun _ => List.not_mem_nil
    | exact (readable_of (n := 4096) (k := 8) (by decide +kernel) (by decide +kernel)).2.2.2
    | (unfold SavesEp; decide +kernel)
    | (unfold Sound; decide +kernel)

/-- A tile held by the context, none of whose matrix commands is queued; an activation that sends at once, whose log has room for the output. -/
theorem witness_Sending_more :
    let s := onCore (chanState 0 [] [(4, 2048)]) fun k => { k with tiles := k.tiles.set 3 ⟨5, some 0, 0⟩ }
    let t := onActor (chanState 2 [] []) fun a => { a with disc := .timed }
    let z := onCtx (chanState 2 [] []) fun x => { x with vout := 0 }
    s.holds 3 = true ∧ (∀ m ∈ s.hereCore.mq, m.ctx ≠ s.cx) ∧ s.hereCore.tileBad 3 (0, 2048) = false ∧ LeavesNow t 1 ∧ (∀ x ∈ t.hereCore.fenced, x.slot ≠ t.ctx.slot) ∧
      t.sendVrt (t.actor.ep 1).lastvrt = .ok (.fixed, 41) ∧ InState t 1 2 (t.epView 1) ∧ (t.epView 1).next[(1 : BitVec 2).toNat]? = some 3 ∧
      (t.epView 1).next[(2 : BitVec 2).toNat]? = none ∧ t.hereCore.bounded (t.actor.ep 1).itin 3 (t.actor.ep 1).loop = false ∧ InState z 1 2 (z.epView 1) ∧ z.ctx.vout = 0 := by
  and_intros <;> decide +kernel

theorem witness_Sending_log :
    let t := onActor (chanState 2 [] []) fun a => { a with disc := .timed }
    ∀ u, t.saveEp t.ctx.slot 1 = some u → ∀ h w d, (u.log t.ctx.slot (.output h w d)).isSome = true := by
  intro t u hu h w d
  rw [State.output_room u _ h (hdrOf 5) w ⟨0, 0⟩ d (.ep ⟨0, 0⟩ 0)]
  have e : ∀ t : State, t.saveEp t.ctx.slot 1 = some u → u = (t.saveEp t.ctx.slot 1).getD t := fun t h => by rw [h]; rfl
  rw [e _ hu]
  decide +kernel

/-- One cycle after the messages have arrived. -/
def later (s : State) : State := { s with time := 1 }

/-- A message for a receive state, taken by an untimed and by a timed activation; an empty buffer; a message of another class. -/
theorem witness_Receiving :
    let h := heldOf 1 { msgOf 8 [1, 2, 3] with hdr := { hdrOf 8 with state := 1 } }
    let s := later (chanState 1 [h] [])
    let t := onCtx (onActor s fun a => { a with disc := .timed }) fun x =>
      { x with trigger := some { divertTrigger with held := heldOf 2 { msgOf 5 [] with hdr := { hdrOf 5 with key := ⟨40, 0x102, 5⟩ } } } }
    let w := later (chanState 1 [heldOf 1 (msgOf 9 [])] [])
    InState s 1 1 (s.epView 1) ∧ (s.actor.ep 1).status = .opened ∧ Takable s 1 h ∧ h.msg.hdr.cls = (s.epView 1).cls ∧ h.msg.hdr.state = (s.actor.ep 1).state ∧
      h.msg.hdr.deleg = false ∧ h.msg.hdr.label = false ∧ s.hereCore.bounded (s.actor.ep 1).itin (s.epView 1).then0 (s.actor.ep 1).loop = false ∧
      Takable t 1 h ∧ t.actor.disc = .timed ∧ ((chanState 1 [] []).actor.buffer 1).head? = none ∧ Takable w 1 (heldOf 1 (msgOf 9 [])) ∧ (msgOf 9 []).hdr.cls ≠ (w.epView 1).cls := by
  and_intros <;> decide +kernel

theorem witness_Receiving_label :
    let h := heldOf 1 { msgOf 10 [1] with hdr := { hdrOf 10 with state := 3, label := true } }
    let s := later (chanState 3 [h] [])
    InState s 1 3 (s.epView 1) ∧ Takable s 1 h ∧ (s.epView 1).next[(h.msg.payload.headD 0).toNat]? = some 4 ∧ h.msg.hdr.cls = (s.epView 1).cls ∧
      h.msg.hdr.state = (s.actor.ep 1).state ∧ h.msg.hdr.label = true ∧ h.msg.hdr.deleg = false ∧ s.hereCore.bounded (s.actor.ep 1).itin 4 (s.actor.ep 1).loop = false := by
  and_intros <;> decide +kernel

/-- e3 is free; g1 names an actor's endpoint, g2 itinerary 1, g3 the argument of a spawn, g4 a group's descriptor. -/
theorem witness_Opening :
    let s := chanState 0 [] [(1, 0x0000000012000110), (2, 1), (3, 0x10002), (4, 0x00010007)]
    .endpoint 3 ∉ s.actor.bad ∧ (s.actor.ep 3).status = .free ∧ (s.g 2).toNat = (1 : BitVec 7).toNat ∧ (s.hereCore.dirAt 1).valid = true ∧ (s.hereCore.dirAt 1).tenant = s.actor.aid.tenant ∧
      (1 : BitVec 7).toNat ∉ s.hereCore.badItins ∧ (s.saveEp s.ctx.slot 3).isSome = true ∧ s.sendVrt (s.actor.ep 3).lastvrt = .ok (.atRelease 1, 0) ∧
      HasRoom s (.connect 3 (s.g 1) 1 9 ⟨0, 0x101, 3⟩ (.atRelease 1)) ∧
      peerOk s 0x01000102 = true ∧ (0x01000102 : Word).extractLsb' 61 3 ≠ 2 ∧ HasRoom s (.accept 3 (BitVec.allOnes 64) 1 9) ∧ (s.g 3).toNat < 2 ^ 32 ∧ (s.g 3).extractLsb' 12 4 = 0 ∧
      HasRoom s (.spawn 3 (s.g 3) 1 9 ⟨0, 0x101, 3⟩ (.atRelease 1)) ∧ (s.g 4).toNat < 2 ^ 32 ∧ HasRoom s (.gjoin 3 (s.g 4) 9 ⟨0, 0x101, 3⟩ (.atRelease 1)) := by
  and_intros <;> decide +kernel

theorem witness_Closing :
    let s := chanState 0 [] []
    let r := onActor s fun a => { a with eps := a.eps.set 1 { a.eps[1] with status := .armed } }
    InState s 1 0 (s.epView 1) ∧ (s.actor.ep 1).status = .opened ∧ (s.saveEp s.ctx.slot 1).isSome = true ∧ (∀ (h : Msg) (rule : VrtRule), h.payload.length = 16 → HasRoom s (.close 1 h rule)) ∧
      InState r 1 0 (r.epView 1) ∧ (r.actor.ep 1).status = .armed ∧ (r.saveEp r.ctx.slot 1).isSome = true ∧ InState s 3 0 (s.epView 3) ∧ (s.actor.ep 3).status ∉ [EpStatus.opened, .armed] := by
  and_intros <;> first
    | decide +kernel
    | exact fun _ => List.not_mem_nil
    | exact fun h _ hl => room_of (by decide +kernel) (by show (h.payload.length + 63) / 64 ≤ 256; omega)

theorem witness_Delegating :
    let s := onActor (chanState 4 [] []) fun a => { a with eps := a.eps.set 2 { EpRec.zero with status := .opened, itin := 1 } }
    let c := onActor (chanState 4 [] []) fun a => { a with eps := a.eps.set 2 { EpRec.zero with status := .opened, pkind := .collective } }
    InState s 1 4 (s.epView 1) ∧ (s.actor.ep 1).status = .opened ∧ (s.epView 1).cls = 11 ∧ s.hereCore.bounded (s.actor.ep 1).itin (s.epView 1).then0 (s.actor.ep 1).loop = false ∧
      (s.actor.ep 2).status = .opened ∧ (s.actor.ep 2).pkind ≠ .collective ∧ (s.actor.auxOf 2).holdDirect = false ∧ s.actor.queued 2 = 0 ∧ .endpoint 2 ∉ s.actor.bad ∧ (s.actor.ep 2).itin.toNat ∉ s.hereCore.badItins ∧
      s.sendVrt (s.actor.ep 1).lastvrt = .ok (.atRelease 1, 0) ∧ (∀ (x : Msg) (rule : VrtRule), x.payload.length = 40 → HasRoom s (.msg 1 x rule)) ∧
      (∀ u, s.saveEp s.ctx.slot 1 = some u → SavesEp u 2) ∧ (s.saveEp s.ctx.slot 1).isSome = true ∧ (c.actor.ep 2).pkind = .collective ∧ InState c 1 4 (c.epView 1) := by
  and_intros <;> first
    | decide +kernel
    | exact fun _ => List.not_mem_nil
    | exact fun x rule h => room_of (by decide +kernel) (units_msg (by omega))
    | skip
  intro u hu
  have e : ∀ t : State, t.saveEp t.ctx.slot 1 = some u → u = (t.saveEp t.ctx.slot 1).getD t := fun t h => by rw [h]; rfl
  rw [e _ hu]
  unfold SavesEp
  decide +kernel

/-- A delegation whose first word is the fingerprint of itinerary 1. -/
theorem witness_Delegating_in :
    let h := heldOf 1 { msgOf 12 (leBytes 0xF00D 8 ++ leBytes 0 8 ++ leBytes 7 8 ++ leBytes 0 8 ++ leBytes 0 8) with hdr := { hdrOf 12 with state := 5, deleg := true }, kind := .delegation 0x103 0 }
    let s := later (chanState 5 [h] [])
    InState s 1 5 (s.epView 1) ∧ (s.actor.ep 1).status = .opened ∧ Takable s 1 h ∧ h.msg.hdr.cls = (s.epView 1).cls ∧ h.msg.hdr.label = false ∧ h.msg.hdr.deleg = true ∧
      h.msg.hdr.state = (s.actor.ep 1).state ∧ s.hereCore.bounded (s.actor.ep 1).itin (s.epView 1).then0 (s.actor.ep 1).loop = false ∧ (s.actor.ep 2).status = .free ∧
      s.hereCore.findBad s.actor.aid.tenant (payloadWord h.msg.payload 0) = false ∧ s.hereCore.findItin s.actor.aid.tenant (payloadWord h.msg.payload 0) = some 1 ∧
      (s.actor.bind 2 (s.hereCore.dirAt 1).look (s.hereCore.dirAt 1).slot).isSome = true ∧
      HasRoom s (.relocate 2 0 (peerLoc 0) (peerEp 0) 0x102) ∧ .endpoint 2 ∉ s.actor.bad ∧ (∀ u, loggedTaking s 1 h = some u → SavesEp u 2) := by
  and_intros <;> first
    | decide +kernel
    | exact fun _ => List.not_mem_nil
    | skip
  intro u hu
  have e : ∀ t : State, ∀ h, loggedTaking t 1 h = some u → u = (loggedTaking t 1 h).getD t := fun t h g => by rw [g]; rfl
  rw [e _ _ hu]
  unfold SavesEp
  decide +kernel

/-! ## Witnesses: memory, copies, capabilities, groups -/

/-- Pages 0x1_0000 and 0x1_0001, and the first page of the second host window, with every right for tenant 5; the first page also for all tenants. -/
def memState (g : List (Fin 32 × Word)) : State :=
  onCore (withG g) fun k => { k with prot := [(0, ⟨true, 5, 0x10000, 0x10001, true, true, false, true⟩), (1, ⟨true, 16, 0xF800000000, 0xF800000000, true, true, false, true⟩)] }

/-- A read of 256 bytes up to the end of a page, by an actor with 31 slots in use. -/
theorem witness_MemoryRequests_read :
    let s := onActor (memState [(1, 0x10000FF00), (2, 256)]) fun a => { a with e15used := (List.range 31).map (BitVec.ofNat 40) }
    .endpoint 15 ∉ s.actor.bad ∧ s.actor.e15Count < 32 ∧ s.sendVrt (s.actor.ep 15).lastvrt = .ok (.atRelease 1, 0) ∧ SavesEp s 15 ∧ inWindow ((s.g 1).toNat, 256) = true ∧
      (s.g 1).toNat / 65536 = ((s.g 1).toNat + 256 - 1) / 65536 ∧ s.noRight false [((s.g 1).toNat, 256)] = none ∧ ReadLeaves s ∧ InSpan s ∧
      (∀ x ∈ s.hereCore.fenced, x.slot ≠ s.ctx.slot) ∧ hostPort (s.g 1) = none := by
  and_intros <;> first
    | decide +kernel
    | (unfold SavesEp; decide +kernel)

theorem witness_MemoryRequests_late :
    let s := onCtx (onActor (memState [(1, 0x100000000), (2, 1)]) fun a => { a with disc := .timed }) fun x => { x with relFence := true }
    ¬ ReadLeaves s ∧ ∀ r : MemReq, HasRoom s (.mem { r with op := .read } .fixed) :=
  ⟨by unfold ReadLeaves; decide +kernel, fun r => room_timed (by decide +kernel) (by show (0 + 63) / 64 ≤ 512; decide)⟩

/-- A write whose source ends with the kept zone, with a reply; an atomic add of 8 bytes and one of 4. -/
theorem witness_MemoryRequests_write :
    let s := memState [(1, 0x100000000), (2, 0x000003C000010040), (4, 0), (5, 0x10)]
    s.actor.zonesBad = false ∧ (s.g 2).toNat % 2 ^ 9 = 64 ∧ (s.g 2).toNat / 2 ^ 50 = 0 ∧ (s.g 2).toNat / 2 ^ 17 % 2 ^ 15 = 0 ∧ (s.g 2).toNat / 2 ^ 9 % 2 ^ 7 = 0 ∧
      OnLines ((s.g 2).toNat / 2 ^ 32) 64 (fun l => lineReadable s.actor l = true) ∧ Sound s ((s.g 2).toNat / 2 ^ 32) 64 ∧ s.noRight true [((s.g 1).toNat, 64)] = none ∧
      (∀ (r : MemReq) (l : List Byte), l.length = 64 → HasRoom s (.mem { r with op := .write l } (.atRelease 1))) ∧ (s.g 4).toNat < 64 ∧ (s.g 5).toNat % 16 < 8 ∧
      (s.g 4).getLsbD 5 = false ∧ inWindow ((s.g 1).toNat, 8) = true ∧ s.noRight true [((s.g 1).toNat, 8)] = none ∧
      ∀ (r : MemReq) (x y : Word), HasRoom s (.mem { r with op := .amo (s.g 4) x y } (.atRelease 1)) := by
  and_intros <;> first
    | decide +kernel
    | exact onLines_of (by decide +kernel)
    | exact sound_of (by decide +kernel) _ _
    | exact fun r l h => room_of (by decide +kernel) (by show (l.length + 63) / 64 ≤ 256; omega)
    | exact fun r x y => room_of (by decide +kernel) (by show (0 + 63) / 64 ≤ 256; decide)

/-- Lengths 0 and 257; a range below the window and one that ends beyond it; one across two pages; a page without the right; 32 slots in use; a misaligned atomic; a descriptor of 64. -/
theorem witness_MemoryRequests_traps :
    let s := memState [(1, 0xFFFFFFFF), (2, 1), (3, 0x10000FFFF), (4, 2), (5, 0x100020000), (6, 257), (7, 0x100000004), (8, 64)]
    (s.g 0).toNat % 2 ^ 9 = 0 ∧ 256 < (s.g 6).toNat % 2 ^ 9 ∧ inWindow ((s.g 1).toNat, 1) = false ∧ inWindow (0x0100000000000000 - 1, 2) = false ∧
      inWindow ((s.g 3).toNat, 2) = true ∧ (s.g 3).toNat / 65536 ≠ ((s.g 3).toNat + 2 - 1) / 65536 ∧ inWindow ((s.g 5).toNat, 1) = true ∧
      (s.hereCore.rights s.actor.aid.tenant ((s.g 5).toNat / 65536)).1 = false ∧ (s.hereCore.rights s.actor.aid.tenant ((s.g 3).toNat / 65536)).1 = true ∧
      (onActor s fun a => { a with e15used := (List.range 32).map (BitVec.ofNat 40) }).actor.e15Count ≥ 32 ∧ (s.g 7).toNat % 8 ≠ 0 ∧ 64 ≤ (s.g 8).toNat := by decide +kernel

/-- A command that reads: 64 bytes into the scratch zone, with the queue empty and full. -/
theorem witness_CopyCommands_read :
    let s := memState [(1, 0x10000FFC0), (2, 0x0000040000000040)]
    let f := onCore s fun k => { k with cq := List.replicate 2 ⟨⟨5, 0x101⟩, ⟨0, 0⟩, 0, Key.zero, .get, 0, 0, 64, 0, false, 0, false, 0, 0, []⟩ }
    copyBad .get (s.g 2) (s.g 3) true = false ∧ copyMisaligned .get (s.g 1) (s.g 2) (s.g 3) = false ∧ rangesOk .get (s.g 1).toNat 64 (s.g 3) = true ∧
      s.localRefused true 0x400 (copyLocal .get 64 (s.g 3)) 0x122 0x123 (s.g 1) = none ∧ .endpoint 15 ∉ s.actor.bad ∧ s.noRight false (copyRanges .get (s.g 1).toNat 64 (s.g 3)) = none ∧ s.actor.e15Count < 32 ∧
      SavesEp s 15 ∧ ReadLeaves s ∧ InSpan s ∧ s.hereCore.cq.length < 2 ∧ 2 ≤ f.hereCore.cq.length ∧ s.copying s.cx s.ctx.slot = false ∧ f.copying f.cx f.ctx.slot = true := by
  and_intros <;> first
    | decide +kernel
    | (unfold SavesEp; decide +kernel)

/-- Commands that write, and the elements of a gather and of a conversion; a length below 8, a misaligned address, a range outside every window. -/
theorem witness_CopyCommands_more :
    let s := memState [(1, 0x100000000), (2, 0x8000040000000040), (3, 0x0000004000000020), (4, 0x0000088000000004), (5, 4), (6, 0x8000040000001000)]
    copyBad .put (s.g 2) (s.g 3) false = false ∧ rangesOk .put (s.g 1).toNat 64 (s.g 3) = true ∧ s.noRight true (copyRanges .put (s.g 1).toNat 64 (s.g 3)) = none ∧
      (∀ k, HasRoom s (.copy k (.atRelease 1))) ∧ copyBad .gath (s.g 2) (s.g 3) true = false ∧ copyMisaligned .gath (s.g 1) (s.g 2) (s.g 3) = false ∧
      rangesOk .gath (s.g 1).toNat 64 (s.g 3) = true ∧ copyBad .scat (s.g 2) (s.g 3) false = false ∧ copyBad .fill 0x8000000000000040 (s.g 3) false = false ∧
      copyBad .cvt (s.g 6) (s.g 4) true = false ∧ (s.g 4).toNat % 8 ∈ [0, 1, 4] ∧ copyBad .get (s.g 5) 0 true = true ∧ copyMisaligned .get 0x100000004 (s.g 2) 0 = true ∧
      rangesOk .get 0xFFFFFFF8 64 0 = false := by
  and_intros <;> first
    | decide +kernel
    | exact fun k => room_of (by decide +kernel) (by show 0 ≤ 256; decide)

/-- The last page of the global window is inside, the first host window is not; report and notice class 61 are within their limits, class 62 is not. -/
theorem witness_Capabilities :
    let s := memState [(1, 0x100000000), (2, 0x0000000F7D000102), (3, 0x00F0000000000000), (4, 0x0000000F80000000), (5, 0x100020000)]
    (0x100000000 ≤ (s.g 1).toNat ∧ (s.g 1).toNat < 0x00F0000000000000) ∧ ¬ (0x100000000 ≤ (s.g 3).toNat ∧ (s.g 3).toNat < 0x00F0000000000000) ∧
      ((s.g 2).toNat / 2 ^ 36 = 0 ∧ (s.g 2).toNat / 2 ^ 30 % 64 < 62 ∧ (s.g 2).toNat / 2 ^ 24 % 64 < 62) ∧ ¬ ((s.g 4).toNat / 2 ^ 30 % 64 < 62) ∧
      (s.hereCore.rights s.actor.aid.tenant ((s.g 1).toNat / 65536)).2.1 = true ∧ (s.hereCore.rights s.actor.aid.tenant ((s.g 1).toNat / 65536)).1 = true ∧
      (s.hereCore.rights s.actor.aid.tenant ((s.g 5).toNat / 65536)).2.1 = false ∧ (s.hereCore.rights s.actor.aid.tenant ((s.g 5).toNat / 65536)).1 = false ∧ CanRequest s ∧
      ∀ (r : MemReq) (k : VrtRule), HasRoom s (.mem { r with op := .capgive s.actor.aid.id (s.g 2) } k) := by
  and_intros <;> first
    | decide +kernel
    | (unfold SavesEp; decide +kernel)
    | exact ⟨(.atRelease 1, 0), by decide +kernel⟩
    | exact fun r k => room_of (by decide +kernel) (by show (0 + 63) / 64 ≤ 256; decide)

/-- e1 a member of rank 1 of a group of two, with some waves outstanding. -/
def groupState (sent : BitVec 24) (broken : Bool) (g : List (Fin 32 × Word)) : State :=
  onActor (withG g) fun a => { a with eps := a.eps.set 1 { EpRec.zero with status := .opened, pkind := .collective, loop := 1, sent := sent },
                                      aux := a.aux.set 1 { EpAux.zero with count := 1, broken := broken } }

/-- Source 0 in the kept zone, destination at the start of the scratch zone, 256 bytes; a broadcast from rank 1. -/
theorem witness_GroupOperations :
    let s := groupState 3 false [(1, 0), (2, 0x2000000100), (3, 0x0010002000000100)]
    let x := s.g 2
    s.actor.zonesBad = false ∧ .endpoint 1 ∉ s.actor.bad ∧ .endpoint 1 ∈ (onActor s fun a => { a with bad := [.endpoint 1] }).actor.bad ∧ (s.actor.ep 1).pkind = .collective ∧ (s.actor.ep 1).status = .opened ∧ s.sendVrt (s.actor.ep 1).lastvrt = .ok (.atRelease 1, 0) ∧ SavesEp s 1 ∧
      (∀ y, HasRoom s (.contrib y (.atRelease 1))) ∧ (s.actor.ep 1).waves < 4 ∧ (s.actor.auxOf 1).broken = false ∧ waveBad .red x = false ∧ waveBad .rs x = false ∧ waveBad .ag x = false ∧
      waveDaddr x % 128 = 0 ∧ s.actor.inScratch (waveDaddr x) (waveDest .red x 2) = true ∧ linesAll (lineReadable s.actor) (s.g 1).toNat (waveSource .red x 2 false) = true ∧
      waveLen x % (128 * 2) = 0 ∧ waveBad .bcast (s.g 3) = false ∧ (waveRoot (s.g 3)).toNat < 2 ∧ (s.g 3).extractLsb' 52 12 = (s.actor.ep 1).loop.setWidth 12 ∧ waveBad .red 0 = true ∧
      4 ≤ ((groupState 4 false []).actor.ep 1).waves ∧ ((groupState 0 true []).actor.auxOf 1).broken = true ∧ ((withG []).actor.ep 1).pkind ≠ .collective := by
  and_intros <;> first
    | decide +kernel
    | (unfold SavesEp; decide +kernel)
    | exact fun y => room_of (by decide +kernel) (by show 0 ≤ 256; decide)

/-! ## Witnesses: vector and matrix engines -/

/-- A command at the head of a queue, as its context issued it. -/
def vecState (i : Instr) (x : Word) : State := onCore (withG [(1, 0x2FF80), (2, 0x3F8)]) fun k => { k with vq := [{ (withG []).cmd i with x := x }] }
def matState (i : Instr) (f : Core → Core) : State := onCore (withG [(1, 0x2F880), (2, 15), (3, 16), (4, 0x10)]) fun k => f { k with mq := [(withG []).cmd i] }

/-- For every `IssuesV` and `TakesV`: a queue with one command and one with two; at the head a command of the context in focus. -/
theorem witness_queue :
    let s := vecState (.vadd 1 2 3 4 2) 0
    s.hereCore.vq.length < 2 ∧ 2 ≤ (onCore s fun k => { k with vq := k.vq ++ k.vq }).hereCore.vq.length ∧
      s.hereCore.vq = { (withG []).cmd (.vadd 1 2 3 4 2) with x := 0 } :: [] ∧ ({ (withG []).cmd (.vadd 1 2 3 4 2) with x := 0 } : Cmd).ins = .vadd 1 2 3 4 2 ∧
      ({ (withG []).cmd (.vadd 1 2 3 4 2) with x := 0 } : Cmd).ctx = s.cx ∧ s.hereCore.stopped = false := by decide +kernel

/-- For `IntegerLanes`, `Masks` and `LaneMoves`: the widest elements; a command of another core. -/
theorem witness_lanes : (2 : BitVec 2).toNat < 3 ∧ ((vecState (.vand 0 1 2 3 0) 0).core 0).vq = { (withG []).cmd (.vand 0 1 2 3 0) with x := 0 } :: [] ∧
    ((vecState (.vand 0 1 2 3 0) 0).core 0).stopped = false := by decide +kernel

theorem witness_FloatLanes : (Instr.vffma 0 1 2 3 4 12, FOp.fma) ∈ ([(.vfadd 0 2 3 4 12, FOp.add), (.vffma 0 1 2 3 4 12, .fma)] : List (Instr × FOp)) ∧
    (Instr.vfsqrt 0 2 3, FOp.sqrt) ∈ ([(.vfdiv 0 1 2 3, FOp.div), (.vfsqrt 0 2 3, .sqrt)] : List (Instr × FOp)) := by decide

/-- The last lane of 32-bit elements, the last kind of vcvtsc, an integer type. -/
theorem witness_LaneMoves : (3 : BitVec 4).toNat < 4 ∧ (31 : BitVec 7).toNat < lanes 32 ∧ (3 : BitVec 4).toNat % 2 = 1 ∧ (2 : BitVec 4).toNat % 2 = 0 ∧ (0 : BitVec 4) ≠ 1 ∧
    elemTy ((5 : BitVec 3).setWidth 4) = .int ⟨32, false⟩ := by decide

theorem witness_Reductions : bf16 = bf16 ∨ bf16 = f32 := .inl rfl

/-- The last 128 bytes of the scratchpad are read; the last lines of the kept and of the scratch zone are written; an address beyond; elements at index 0; an uncorrectable word. -/
theorem witness_VectorMemory :
    let s := vecState (.vld 0 0 1 1 3) 0x2FF80
    let b := onCore s fun k => { k with badPad := [0x5FF0] }
    Readable s (BitVec.ofNat 64 ((s.g 1).toNat + 128 * (0 : BitVec 4).toNat)) 128 8 ∧ Writable s 0x3C0 128 8 ∧ (s.g 2).toNat % 8 = 0 ∧ 0x30000 < (0x2FF88 : Word).toNat + 128 ∧
      (3 : Word).toNat % 8 ≠ 0 ∧ Sound s 0x2FF80 128 ∧ (s.saveLines s.ctx.slot [15, 16]).isSome = true ∧ s.hereCore.badPad = [] ∧ Readable s 0x3F8 2 1 ∧ Writable s 0x3F8 2 1 ∧
      (s.g 2).toNat % 2 = 0 ∧ (5 : Word).toNat % 2 ≠ 0 ∧ 0x5FF0 ∈ b.hereCore.badPad ∧ (0x2FF80 : Word).toNat ≤ 8 * 0x5FF0 ∧ 8 * 0x5FF0 + 8 ≤ (0x2FF80 : Word).toNat + 128 := by
  refine ⟨readable_of (by decide +kernel) (by decide +kernel), writable_of (by decide) (by decide +kernel), by decide +kernel, by decide, by decide, sound_of (by decide +kernel) _ _,
    by decide +kernel, by decide +kernel, readable_of (by decide) (by decide +kernel), writable_of (by decide) (by decide +kernel), by decide +kernel, by decide, by decide +kernel,
    by decide, by decide⟩

/-- A field stream of 64 × 16 bits that ends at the last bit, and one that goes one bit further. -/
theorem witness_VectorMemory_bits :
    let s := onCtx (withG []) fun x => { x with b := #v[0x17FC00, 0x17FC01, 0, 0] }
    s.actor.zonesBad = false ∧ (s.b 0).toNat + 64 * 16 - 1 ≤ 0x17FFFF ∧ 0x17FFFF < (s.b 1).toNat + 64 * 16 - 1 ∧ s.hereCore.vq.length < 2 ∧
      OnLines ((s.b 0).toNat / 8) 128 (fun l => lineReadable s.actor l = true) ∧ Sound s ((s.b 0).toNat / 8) 128 := by
  refine ⟨by decide +kernel, by decide +kernel, by decide +kernel, by decide +kernel, onLines_of (by decide +kernel), sound_of (by decide +kernel) _ _⟩

/-- t2 held by context 0 as an A tile of bf16, t3 by nobody, t5 by context 1. -/
def tilesOf (k : Core) : Core := { k with tiles := ((k.tiles.set 2 ⟨7, some 0, 0x1012⟩).set 5 ⟨0, some 1, 0x30⟩) }

theorem witness_TileRegisters :
    let s := matState (.tzero 2) tilesOf
    s.actor.zonesBad = false ∧ s.holds 2 = true ∧ s.holds 1 = false ∧ (1 : BitVec 3).toNat < (2 : BitVec 3).toNat ∧ (∀ x : BitVec 3, (3 : BitVec 3).toNat < x.toNat → s.holds x = false) ∧ s.holds 5 = false ∧
      cfgOk 0x1012 = true ∧ cfgOk 0x2000 = false ∧ (s.hereCore.tile 3).holder = none ∧ (∀ x ∈ s.hereCore.tileWait, x.2 ≠ 3) ∧ (s.hereCore.tile 5).holder ≠ none ∧ s.hereCore.mq.length < 2 ∧
      (s.g 2).toNat < 16 ∧ 16 ≤ (s.g 3).toNat ∧ cfgType (s.hereCore.tile 2).cfg ≠ 7 ∧ (s.g 2).toNat < 64 ∧ (∀ y ∈ s.hereCore.badTiles, y / 256 ≠ 2) ∧ s.hereCore.mq = (withG []).cmd (.tzero 2) :: [] ∧
      ((withG []).cmd (.tzero 2)).ctx = s.cx ∧ (∃ k ∈ s.hereCore.mq, k.ctx = s.cx) ∧ ∀ k ∈ (withG []).hereCore.mq, k.ctx ≠ (withG []).cx := by decide +kernel

/-- Sixteen rows of 128 bytes at the default pitch that end with the scratchpad are read; sixteen from the kept zone's last row on are written. -/
theorem witness_TileRegisters_rows :
    let s := matState (.tzero 2) tilesOf
    (0x2F800 : Word).toNat + 15 * 128 + 128 ≤ 0x30000 ∧ (∀ r < 16, OnLines ((0x2F800 : Word).toNat + r * 128) 128 (fun l => lineReadable s.actor l = true)) ∧ (∀ r, Sound s r 128) ∧
      (∀ r < 16, OnLines ((0x380 : Word).toNat + r * 128) 128 (fun l => lineWritable s.actor s.ctx l = true)) ∧
      (s.saveLines s.ctx.slot ((List.range 16).flatMap fun r => linesOf ((0x380 : Word).toNat + r * 128) 128)).isSome = true ∧
      ({ (withG []).cmd (.tload 0 1 2) with opA := List.replicate 2048 1 } : Cmd).opA.length = 2048 := by
  have h1 : ∀ s : State, ((List.range 16).all fun r => (List.range' ((0x2F800 + r * 128) / 64) ((0x2F800 + r * 128 + 128 - 1) / 64 + 1 - (0x2F800 + r * 128) / 64)).all (lineReadable s.actor)) = true →
      ∀ r < 16, OnLines (0x2F800 + r * 128) 128 (fun l => lineReadable s.actor l = true) := fun s h r hr => onLines_of (List.all_eq_true.1 h r (List.mem_range.2 hr))
  have h2 : ∀ s : State, ((List.range 16).all fun r => (List.range' ((0x380 + r * 128) / 64) ((0x380 + r * 128 + 128 - 1) / 64 + 1 - (0x380 + r * 128) / 64)).all (lineWritable s.actor s.ctx)) = true →
      ∀ r < 16, OnLines (0x380 + r * 128) 128 (fun l => lineWritable s.actor s.ctx l = true) := fun s h r hr => onLines_of (List.all_eq_true.1 h r (List.mem_range.2 hr))
  exact ⟨by decide, h1 _ (by decide +kernel), fun r => sound_of (by decide +kernel) r 128, h2 _ (by decide +kernel), by decide +kernel, by decide +kernel⟩

/-- t0 an f32 accumulator of 16 rows and an i32 one, t1 an A tile, t2 a B tile of bf16; t0 as a B tile; a tile that is not held; operand B in the scratchpad by g6 and g7. -/
def mmaState (c0 : BitVec 13) : State :=
  onCore (withG [(6, 0x400), (7, 0x0000000000800080)]) fun k =>
    { k with tiles := (((k.tiles.set 0 ⟨0, some 0, c0⟩).set 1 ⟨0, some 0, 0x1012⟩).set 2 ⟨0, some 0, 0x22⟩), mq := [(withG []).cmd (.mmaBf16 4 2 1 0)] }

theorem witness_MatrixMultiply :
    let s := mmaState 0x1000
    tileChecks mmaBf16Op 0 1 2 s = none ∧ operandFail mmaBf16Op false 16 0 1 s = none ∧ operandFail mmaBf16Op true 16 0 2 s = none ∧ s.hereCore.mq.length < 2 ∧
      tileChecks mmaBf16Op 0 1 3 s = some (0x060, 3) ∧ (mmaState 0x22).holds 0 = true ∧ isPair 17 = true ∧ cfgRole ((mmaState 0x22).hereCore.tile 0).cfg ≠ 0 ∧
      (∀ x ∈ tilesNamed 0 1 2, ∀ y ∈ s.hereCore.badTiles, y / 256 ≠ x.toNat) ∧ s.hereCore.mq = (withG []).cmd (.mmaBf16 4 2 1 0) :: [] := by decide +kernel

theorem witness_MatrixMultiply_pair :
    let s := mmaState 0x1000
    tileChecks mmaBf16Op 0 1 19 s = none ∧ operandFail mmaBf16Op true 16 0 19 s = none ∧ isPair 19 = true ∧
      (∀ r ∈ operandRuns mmaBf16Op true 16 (pairOf 19 s).1 (pairOf 19 s).2, Sound s r.1 r.2) ∧ mmaI8Op.int = true ∧ mmaI8Op.bTy ≠ 7 ∧ isPair 1 = false := by
  refine ⟨by decide +kernel, by decide +kernel, by decide, fun r _ => sound_of (by decide +kernel) _ _, by decide, by decide, by decide⟩

/-! ## Witnesses: activations from start to end -/

/-- The actor with all contexts free: every slot of the table is its tenant's, e1 waits in state 1 for class 8, classes 8 and 62 have handlers, and `box` waits. -/
def waitState (box : List Held) (f : Actor → Actor) : State :=
  onCore (onActor (onCtx (chanState 1 box []) fun _ => Ctx.reset) fun a => f { a with junction := (a.junction.set 8 ⟨true, false, 0⟩).set 62 ⟨true, false, 0⟩ }) fun k =>
    { k with slots := (List.range 64).map fun i => (i, ⟨true, false, 5⟩) }

/-- A message of class 8 for state 1, one that joins, a close notice with cause 0x0E0, a reply of status 0. -/
def hMsg : Held := heldOf 1 { msgOf 8 (leBytes 9 8) with hdr := { hdrOf 8 with state := 1 } }
def hJoin : Held := { heldOf 1 { msgOf 8 (leBytes 9 8) with hdr := { hdrOf 8 with state := 1, join := true } } with armed := true }
def hClose : Held := heldOf 1 { msgOf 62 (noticeBytes 1 6 0x0E0 3) with hdr := { hdrOf 62 with close := true, state := 1 } }
def hReply : Held := { heldOf 15 { msgOf 8 [] with hdr := { hdrOf 8 with key := ⟨30, 0x101, 2⟩ }, kind := .reply 0 0 } with place := .e15 }

theorem noSpill {l : List Placed} (h : ∀ p ∈ l, p.spilled = false) : ∀ p ∈ l, p.spilled = true → ∀ x, p.entry ≠ .returned x := fun p hp hs => by rw [h p hp] at hs; cases hs

theorem witness_Dispatching : [hMsg, hClose, hReply].all (fun h =>
    let u := later (waitState [h] id)
    u.dispatchChoice = some (0, h, 0) && ! (u.actorAt 0).counts h && ! (u.actorAt 0).badFor h.ep h.msg.hdr.cls && (u.hereCore.advanceBy ((u.actorAt 0).ep h.ep) h).isOk && (u.actorAt 0).isHandler h.msg.hdr.cls &&
      (u.logStart 0 h h.msg.hdr.cls false).2) = true ∧ (hMsg.msg.kind = .plain ∧ hMsg.msg.hdr.close = false) ∧ (hClose.msg.kind = .plain ∧ hClose.msg.hdr.close = true) ∧
      hReply.msg.kind.status = some (0, 0) ∧ (0 : BitVec 9).toNat < 0x1C0 := by decide +kernel

/-- The counter's word is the last of the kept zone: armed, two left. -/
theorem witness_Dispatching_counted :
    let s := later (waitState [hJoin] fun a => { a with jreg := ⟨true, 0, 0x7F⟩ })
    let u := onCore s fun k => { k with pad := k.pad.setBytes 0x3F8 (leBytes 0x8000000200000000 8) }
    let a := u.actorAt 0
    u.idle 0 = true ∧ u.hereCore.stopped = false ∧ u.nextOf 0 = some hJoin ∧ a.counts hJoin = true ∧ u.hereCore.badIn 0x3F8 8 = none ∧ (u.word64 0x7F).getLsbD 63 = true ∧
      (u.hereCore.advanceBy (a.ep 1) hJoin).isOk = true ∧ (u.word64 0x7F).extractLsb' 32 16 ≠ 1 ∧ a.disc ≠ .timed ∧ a.badFor 1 ((u.word64 0x7F).extractLsb' 56 6) = false ∧ AtRest u a ∧ a.retired = false ∧
      u.hasActor 0 = true := by
  and_intros <;> first
    | decide +kernel
    | exact noSpill (by decide +kernel)

/-- The running context in another phase, of an actor of another discipline. -/
def endState (p : Phase) (d : Disc) : State := onCtx (onActor (withG []) fun a => { a with disc := d }) fun x => { x with phase := p }

theorem witness_ActivationEnds : ([.untimed, .conservative, .timed] : List Disc).all (fun d =>
    let u := endState (.releasing true) d
    u.waitsMet 0 && ! u.hereCore.stopped && ! u.tooLate u.ctx.slot && u.hereCore.fenced.all (fun y => y.slot ≠ u.ctx.slot) && (u.releaseFrom u.ctx.slot u.ctx.staging).1.waitsMet 0 && decide ((u.releaseFrom u.ctx.slot u.ctx.staging).2 = []) && decide (u.ctx.staging = []) &&
      ! u.actor.retired && (List.range 16).all (fun e => (u.actor.ep (BitVec.ofNat 4 e)).status ≠ .closing) &&
    (let t := endState (.trapping ⟨4, 0, 0, 0x020, Key.zero, 0⟩ none none) d
     ! t.copying 0 t.ctx.slot && ! t.tooLate t.ctx.slot && decide (.log ∉ t.actor.bad))) = true ∧ (List.replicate 8 true).length = 8 ∧ (List.replicate 64 (0 : Byte)).length = 64 ∧
    (let s := onCtx (endState .running .untimed) fun x => { x with budget := 0 }
     s.ctx.budget = 0 ∧ s.ctx.phase = .running) := by decide +kernel

def savedAct : Saved := ⟨act, [], [], [], [], ⟨0, 0⟩, false, 4, false⟩

theorem witness_ActivationEnds_kill :
    let s := withG []
    let z : State := { State.reset with bases := [(homeOf act.aid, { Base.reset with saved := [savedAct] })] }
    s.locOf act.aid = some ⟨0, 0⟩ ∧ s.hereCore.stopped = false ∧ s.evicting act.aid = false ∧ (ctxOn s 0 0).phase = .running ∧ s.ctxOf 0 = some 0 ∧ (waitState [] id).ctxOf 0 = none ∧ (waitState [] id).locOf act.aid = some ⟨0, 0⟩ ∧
      z.locOf act.aid = none ∧ z.savedOf act.aid = some savedAct := by decide +kernel

theorem witness_ActivationEnds_rollback :
    let u := onCore (waitState [] fun a => { a with disc := .timed, ended := [⟨⟨20, 0x102, 1⟩, false⟩, ⟨⟨30, 0x102, 2⟩, false⟩] }) fun k => { k with called := [(0, ⟨30, 0x102, 2⟩, true)] }
    (0, ⟨30, 0x102, 2⟩, true) ∈ u.hereCore.called ∧ u.ctxOf 0 = none ∧ u.hasActor 0 = true ∧ AtRest u (u.actorAt 0) ∧ .log ∉ (u.actorAt 0).bad ∧
      u.hereCore.antiFull ≠ some u.time := by
  and_intros <;> first
    | decide +kernel
    | exact noSpill (by decide +kernel)

/-! ## Witnesses: what arrives -/

/-- A packet on its way to the actor in slot 0 of core 0. -/
def withPacket (p : Packet) (s : State) : State := { s with flight := [⟨false, 30, p⟩] }

/-- e1 has a run for four messages and is in some status. -/
def armedBox (st : EpStatus) (x : EpAux) (box : List Held) : State :=
  waitState box fun a => { a with eps := a.eps.set 1 { a.eps[1] with status := st }, aux := a.aux.set 1 { x with run := some ⟨0x2DC00, 256⟩ } }

def fullBox : List Held := (List.range 4).map fun i => { hMsg with addr := BitVec.ofNat 18 (0x2DC00 + 64 * i) }

/-- The conditions that the clauses on messages share. -/
def arrives (s : State) (p : Packet) (who : AId) : Bool :=
  s.packet 0 = some p && ! s.halted 0 && s.locOf who = some ⟨0, 0⟩ && (s.core 0).antis.isEmpty && (s.base (homeOf who)).heldAntis.isEmpty && ! (s.residentAt ⟨0, 0⟩).retired &&
    (s.core 0).badItins.isEmpty && s.first 0 p && ! s.overrun who

theorem witness_Arrivals :
    let p : Packet := .msg (.ep ⟨0, 0⟩ 1) hMsg.msg
    let s := withPacket p (armedBox .opened EpAux.zero [])
    let z := withPacket p (armedBox .closed EpAux.zero [])
    let f := withPacket p (armedBox .opened EpAux.zero fullBox)
    let n (x : State) := (x.residentAt ⟨0, 0⟩).land 1 false hMsg.msg x.time (State.armedAt { x with here := 0, tick := x.tick + 1 } 0)
    [s, z, f].all (fun x => arrives x p act.aid) = true ∧ hMsg.msg.hdr.anti = false ∧ hMsg.msg.hdr.fails = false ∧ (s.residentAt ⟨0, 0⟩).keyedLater s.time 1 hMsg.msg.hdr.key = false ∧ s.passedOver ⟨0, 0⟩ hMsg.msg.hdr.key = false ∧ hMsg.msg.kind = .plain ∧ (s.residentAt ⟨0, 0⟩).logAnti hMsg.msg.hdr.key = false ∧
      n s = .keep hMsg ∧ hMsg.place ≠ .waiting ∧ ((z.residentAt ⟨0, 0⟩).ep 1).status = .closed ∧ ((z.residentAt ⟨0, 0⟩).auxOf 1).forwardTo = none ∧ n f = .full ∧
      (f.residentAt ⟨0, 0⟩).disc ≠ .timed := by decide +kernel

/-- An anti-message whose positive waits, and one whose positive the ended activation of a timed actor has consumed. -/
theorem witness_Arrivals_anti :
    let m : Msg := { hMsg.msg with hdr := { hMsg.msg.hdr with irrev := false } }
    let p : Packet := .msg (.ep ⟨0, 0⟩ 1) { m with hdr := { m.hdr with anti := true, len := 0 }, payload := [] }
    let s := withPacket p (armedBox .opened EpAux.zero [{ hMsg with msg := m }])
    let t := withPacket p (waitState [] fun a => { a with disc := .timed, log := [⟨1, false, .history { hMsg with msg := m }⟩, ⟨0, false, .marker m.hdr.key 1 8 3⟩] })
    [s, t].all (fun x => arrives x p act.aid) = true ∧ (s.residentAt ⟨0, 0⟩).waits m.hdr.key = true ∧ (t.residentAt ⟨0, 0⟩).waits m.hdr.key = false ∧
      consumerIn m.hdr.key (t.residentAt ⟨0, 0⟩).log false = some m.hdr.key ∧
      AtRest s (s.residentAt ⟨0, 0⟩) ∧ AtRest t (t.residentAt ⟨0, 0⟩) := by
  and_intros <;> first
    | decide +kernel
    | exact noSpill (by decide +kernel)

theorem witness_Arrivals_ack :
    let p (move : Bool) : Packet := .ack (.ep ⟨0, 0⟩ 1) act.aid move
    let s := withPacket (p false) (armedBox .closing { EpAux.zero with closeLeft := true } [])
    let t := withPacket (p true) (armedBox .connecting { EpAux.zero with holdDirect := true } [])
    arrives s (p false) act.aid = true ∧ arrives t (p true) act.aid = true ∧ ((s.residentAt ⟨0, 0⟩).ep 1).status = .closing ∧ ((s.residentAt ⟨0, 0⟩).auxOf 1).closeLeft = true ∧
      ((t.residentAt ⟨0, 0⟩).ep 1).status = .connecting ∧ ((t.residentAt ⟨0, 0⟩).auxOf 1).holdDirect = true ∧ ((t.residentAt ⟨0, 0⟩).auxOf 1).asked = none := by decide +kernel

theorem witness_Arrivals_relocation :
    let v (m : BitVec 12) : Move := ⟨m, ⟨3, 2⟩, 4, 0x105, 0, ⟨0, 0⟩, 1, 0x101, false⟩
    let p (m : BitVec 12) : Packet := .reloc (.ep ⟨0, 0⟩ 1) act.aid (v m)
    let q : Packet := .forwardReq 5 (v 0)
    let r : Packet := .marker (.ep ⟨0, 0⟩ 1) act.aid true 0x102 (v 0)
    [p 0, p 7, q, r].all (fun x => arrives (withPacket x (armedBox .opened EpAux.zero [hMsg])) x act.aid) = true ∧
      (((withPacket q (armedBox .opened EpAux.zero [hMsg])).residentAt ⟨0, 0⟩).auxOf 1).forwardTo = none ∧
      (((withPacket q (armedBox .opened EpAux.zero [hMsg])).residentAt ⟨0, 0⟩).ep 1).status = .opened ∧ (v 7).mod ≠ (withPacket q (armedBox .opened EpAux.zero [hMsg])).coords ∧ (⟨5, (v 0).oldId⟩ : AId) = act.aid ∧
      AtRest (withPacket q (armedBox .opened EpAux.zero [hMsg])) ((withPacket q (armedBox .opened EpAux.zero [hMsg])).residentAt ⟨0, 0⟩) := by
  and_intros <;> first
    | decide +kernel
    | exact noSpill (by decide +kernel)

theorem witness_Arrivals_fence :
    let d : Deferred := ⟨0, Key.zero, .fence .full 6 3 []⟩
    let u := onCore (waitState [] id) fun k => { k with fenced := [d] }
    u.hereCore.stopped = false ∧ (u.hereCore.fenced.filter fun x => x.slot = 0) = [d] ∧ d.item = .fence .full 6 3 [] ∧ u.fenceMet (u.actorAt 0).aid .full 6 3 = true := by decide +kernel

/-! ## Witnesses: handshakes -/

/-- A connect from e1 of the actor 0x102 in slot 1, by the dual side of itinerary 1. -/
def conn : Conn := ⟨⟨5, 0x102⟩, ⟨0, 1⟩, 1, 0x02000101, ⟨30, 0x102, 1⟩, 0xD00F, 0xF00D, 0, 4⟩

/-- The acceptor, whose e2 is armed for itinerary 1 and any connector. -/
def acceptor (p : Packet) (st : EpStatus) : State :=
  withPacket p (waitState [] fun a => { a with eps := a.eps.set 2 { EpRec.zero with status := st, itin := 1 }, aux := a.aux.set 2 { EpAux.zero with filter := BitVec.allOnes 64, cls := 8 } })

theorem witness_Handshakes :
    let s := acceptor (.connect (.home act.aid) conn) .armed
    let z := acceptor (.connect (.home act.aid) conn) .opened
    let me : Conn := { conn with actor := act.aid, loc := ⟨0, 0⟩, ep := 2 }
    let r (cause : BitVec 9) : State := acceptor (.answer ⟨cause, me, 0x103, .actor, 0x30, 0, 4⟩) .connecting
    [s, z].all (fun x => arrives x (.connect (.home act.aid) conn) act.aid) = true ∧ conn.peer.extractLsb' 24 4 = 2 ∧ ((s.residentAt ⟨0, 0⟩).auxOf 2).askedLater s.time conn.key = false ∧
      ((s.residentAt ⟨0, 0⟩).receiveConnect (s.core 0) s.coords conn).isOk = true ∧ ((z.residentAt ⟨0, 0⟩).receiveConnect (z.core 0) z.coords conn).isOk = false ∧
      ([0, 0x0C0] : List (BitVec 9)).all (fun c => arrives (r c) (.answer ⟨c, me, 0x103, .actor, 0x30, 0, 4⟩) act.aid && ((r c).residentAt ⟨0, 0⟩).ep 2 = { EpRec.zero with status := .connecting, itin := 1 } &&
        me.pmod = (r c).coords) = true ∧
      (((r 0).residentAt ⟨0, 0⟩).bindTo ((r 0).core 0) 2 1 .actor 0x30 0 0x103 .opened).isOk = true ∧
      (let p : Packet := .confirm (.ep ⟨0, 0⟩ 2) act.aid conn.key
       arrives (acceptor p .connecting) p act.aid = true) ∧
      (let p : Packet := .undo (.ep ⟨0, 0⟩ 2) act.aid conn.key 0x0CE
       arrives (acceptor p .connecting) p act.aid = true) := by decide +kernel

/-- A spawn by the actor in slot 0 of core 4 of image 1 on core 0, whose one free slot is slot 3: the other slots hold actors of another tenant. -/
def spawner (slots : List Nat) (num : BitVec 16) : State :=
  let c : Conn := { conn with actor := act.aid, loc := ⟨4, 0⟩, ep := 2 }
  let k : Core := { Core.reset with actors := slots.map (fun i => (i, { Actor.zero with aid := ⟨6, BitVec.ofNat 24 i⟩ })), images := [img], dir := [(1, { itin with fp := 0xF00D, dfp := 0xD00F })],
                                    parts := [(5, 0, 0)] }
  { State.reset with cores := [(0, k), (4, { (coreOf act Ctx.reset) with dir := [(1, itin)] })], flight := [⟨false, 30, .spawn c (num.setWidth 64 <<< 16) 1 5⟩] }

theorem witness_Handshakes_spawn_refused :
    let s := spawner [0, 1, 2] 9
    let c : Conn := { conn with actor := act.aid, loc := ⟨4, 0⟩, ep := 2 }
    s.packet 0 = some (.spawn c 0x90000 1 5) ∧ (0x90000 : Word).setWidth 12 = (0 : CoreId) ∧ s.halted 0 = false ∧ s.halted 4 = false ∧ s.locOf act.aid = some ⟨4, 0⟩ ∧
      RisingKeys s.cores := by
  refine ⟨by decide +kernel, by decide, by decide +kernel, by decide +kernel, by decide +kernel, by unfold RisingKeys; decide +kernel⟩

theorem witness_Handshakes_spawn_cause : ∃ v, (State.take (spawner [0, 1, 2] 9) 0 0).child { conn with actor := act.aid, loc := ⟨4, 0⟩, ep := 2 } 0x90000 act 1 = (.error 0x0CB, v) := ⟨_, rfl⟩

theorem firstFrom_found {free : Nat → Bool} {range fuel k : Nat} (j : Nat) (hr : 1 < range) (hf : 2 ≤ fuel) (h : ∀ i < range, i ≠ j → free i = true) :
    ∃ n, firstFrom free range fuel k = some n := by
  obtain ⟨m, rfl⟩ : ∃ m, fuel = m + 2 := ⟨fuel - 2, by omega⟩
  unfold firstFrom
  split
  · exact ⟨_, rfl⟩
  · unfold firstFrom
    rw [if_pos]
    · exact ⟨_, rfl⟩
    · have h1 : k % range = j := Decidable.byContradiction fun hn => absurd (h _ (Nat.mod_lt _ (by omega)) hn) ‹_›
      refine h _ (Nat.mod_lt _ (by omega)) fun h2 => ?_
      have h3 : k % range = (k + 1) % range := by rw [h1, h2]
      rcases Nat.lt_or_ge (k % range + 1) range with hl | hl
      · rw [Nat.add_mod, Nat.mod_eq_of_lt hr, Nat.mod_eq_of_lt hl] at h3; omega
      · have := Nat.mod_lt k (show 0 < range by omega)
        have e : k % range + 1 = range := by omega
        rw [Nat.add_mod, Nat.mod_eq_of_lt hr, e, Nat.mod_self] at h3
        omega

/-- The mailbox of the child holds its e15 buffer and the run of its e0. -/
def childImg : Image := { img with zones := (zonesOf.set 1 ⟨true, .scratch, 16, 2848⟩).set 2 ⟨true, .mailbox, 2864, 192⟩ }

def spawnAll : State := { spawner [0, 1, 2, 4, 5, 6, 7, 8, 9, 10, 11, 12, 13, 14, 15] 1 with
  cores := (spawner [0, 1, 2, 4, 5, 6, 7, 8, 9, 10, 11, 12, 13, 14, 15] 1).cores.map fun c => (c.1, { c.2 with images := [childImg] }) }



theorem child_born (x : BitVec 24) : (match newActor ⟨5, x⟩ 1 .untimed 0 100 childImg.zones childImg.junction 0 with
    | some a => (a.bindTo (spawnAll.core 0) 0 1 .actor 0x1020 0 0x101 .opened).isOk
    | none => false) = true := by with_unfolding_all rfl

theorem child_ok {s : State} {c : Conn} {arg : Word} {parent : Actor} {pi : BitVec 7} {m : Image} {slot id : Nat} {data : List (Nat × Nat × List Byte)} {a b p : Actor} {i : BitVec 7}
    (h1 : (s.core (arg.setWidth 12)).images.find? (fun i => i.tenant = c.actor.tenant && i.num = arg.extractLsb' 16 16) = some m)
    (h2 : (s.core (arg.setWidth 12)).freeSlots[Config.freeNumber (s.tick + 1) % max 1 (s.core (arg.setWidth 12)).freeSlots.length]? = some slot)
    (h3 : firstFrom (fun i => ! s.inUse ⟨c.actor.tenant, BitVec.ofNat 24 i⟩) spawnIds spawnIds (Config.freeNumber s.tick) = some id)
    (h4 : s.dataOf c.loc.core c.actor.tenant m = some data)
    (h5 : (if (s.core (arg.setWidth 12)).zonesFit m.zones then newActor ⟨c.actor.tenant, BitVec.ofNat 24 id⟩ m.num m.disc m.prio m.budget m.zones m.junction s.time else none) = some a)
    (hb : ¬ ((s.core c.loc.core).badItins.contains pi.toNat = true ∨ (s.core (arg.setWidth 12)).findBad c.actor.tenant c.dfp = true))
    (h6 : (s.core (arg.setWidth 12)).findItin c.actor.tenant c.dfp = some i)
    (h7 : a.bindTo (s.core (arg.setWidth 12)) 0 i .actor (c.loc.peer c.ep) 0 c.actor.id .opened = .ok b)
    (h8 : parent.bind c.ep ((s.core c.loc.core).dirAt pi).look ((s.core c.loc.core).dirAt pi).slot = some p) :
    ∃ k v, s.child c arg parent pi = (.ok (⟨c.actor.tenant, BitVec.ofNat 24 id⟩, slot, k, p), v) := by
  unfold State.child State.drawNumber
  simp only [h1, h2, h3, h4, h5, if_neg hb, h6, h7, h8]
  exact ⟨_, _, rfl⟩

theorem locOf_none {s : State} {a : AId} (h : a ∉ s.cores.flatMap fun c => c.2.actors.map fun x => x.2.aid) : s.locOf a = none := by
  unfold State.locOf
  refine List.findSome?_eq_none_iff.2 fun c hc => List.findSome?_eq_none_iff.2 fun x hx => if_neg fun he => h ?_
  exact List.mem_flatMap.2 ⟨c, hc, List.mem_map.2 ⟨x, hx, he⟩⟩

theorem witness_Handshakes_spawn :
    let s := spawnAll.take 0 0
    let c : Conn := { conn with actor := act.aid, loc := ⟨4, 0⟩, ep := 2 }
    ∃ who k p v, s.child c 0x10000 act 1 = (.ok (who, 3, k, p), v) ∧ (⟨4, 0⟩ : Loc) ≠ ⟨0, BitVec.ofNat 4 3⟩ := by
  have h2 (n : Nat) : (State.core (spawnAll.take 0 0) 0).freeSlots[n % max 1 (State.core (spawnAll.take 0 0) 0).freeSlots.length]? = some 3 := by
    have : (State.core (spawnAll.take 0 0) 0).freeSlots = [3] := by decide +kernel
    rw [this]; simp [Nat.mod_one]
  obtain ⟨id, h3⟩ := firstFrom_found (free := fun i => ! (spawnAll.take 0 0).inUse ⟨5, BitVec.ofNat 24 i⟩) (k := Config.freeNumber 0) (range := spawnIds) (fuel := spawnIds) 0x101
    (by decide) (by decide) (fun i hi hn => by
      unfold State.inUse
      rw [locOf_none]
      · rfl
      · have e : ((spawnAll.take 0 0).cores.flatMap fun c => c.2.actors.map fun x => x.2.aid) = [0, 1, 2, 4, 5, 6, 7, 8, 9, 10, 11, 12, 13, 14, 15].map (fun i => ⟨6, i⟩) ++ [⟨5, 0x101⟩] := by
          decide +kernel
        rw [e]
        intro h
        simp at h
        have := congrArg BitVec.toNat h
        simp [spawnIds] at this hi
        omega)
  have h5 := child_born (BitVec.ofNat 24 id)
  split at h5
  · rename_i a ha
    obtain ⟨b, hb⟩ : ∃ b, a.bindTo (spawnAll.core 0) 0 1 .actor 0x1020 0 0x101 .opened = .ok b := by
      revert h5; cases a.bindTo (spawnAll.core 0) 0 1 .actor 0x1020 0 0x101 .opened <;> intro h5
      · cases h5
      · exact ⟨_, rfl⟩
    obtain ⟨k, v, h⟩ := child_ok (s := spawnAll.take 0 0) (c := { conn with actor := act.aid, loc := ⟨4, 0⟩, ep := 2 }) (arg := 0x10000) (parent := act) (pi := 1) (m := childImg) (slot := 3) (id := id)
      (data := []) (a := a) (b := b) (i := 1) (p := (act.bind 2 4 64).getD act) (by decide +kernel) (h2 _) h3 (by decide +kernel) ((if_pos (by decide +kernel)).trans ha) (by decide +kernel) (by decide +kernel) hb (by decide +kernel)
    exact ⟨_, k, _, v, h, by decide⟩
  · cases h5

/-! ## Witnesses: global memory -/

/-- Page 0x10002 in frame 7 of its stack, translated, held by the actor; a packet on its way. -/
def pageState (p : Packet) (valid : Bool) (holder : BitVec 24) : State :=
  withPacket p { withG [] with bases := [(homePage 0x10002, { Base.reset with tcache := [0x10002] })], leaves := [(0x10002, ⟨valid, false, false, false, false, 5, 7⟩)], caps := [(0x10002, ⟨true, holder, 2⟩)] }

def reqOf (op : MemOp) (len : Nat) (crossed : Bool) : MemReq := ⟨act.aid, ⟨0, 0⟩, ⟨30, 0x101, 2⟩, op, 0x10002FF00, len, 5, true, false, crossed, [], 0, [], none⟩

/-- A read and a write of the last 256 bytes of the page, an atomic addition to its word 0x1FE0; the writes by the holder and by another. -/
theorem witness_MemoryPeers :
    let rs := [reqOf .read 256 false, reqOf (.write (List.replicate 256 1)) 256 false, reqOf (.amo 0 1 0) 8 true]
    let ok (s : State) (r : MemReq) : Bool := s.packet 0 = some (.mem r) && ! s.sameLine r.actor r.key.seq r.lines true && ! s.sameLine r.actor r.key.seq r.nextLines false && (r.isSc || ! s.scWaits [0x10002FF00 / 128]) &&
      ! s.strongWait r && ! s.givesBefore r && ! s.busy r && ! s.crosses r && (s.base (homePage 0x10002)).walks.isEmpty && decide (min (256 - r.pos) (8 - 0x10002FF00 % 8) = 8) && (s.base (homePage 0x10002)).parked.isEmpty && (s.base (homePage 0x10002)).tcache.contains 0x10002 && (s.base (homePage 0x10002)).badLeaves.isEmpty && (s.leaf 0x10002).valid && ! s.stackDown (homePage 0x10002) &&
      quadStack (homePage 0x10002) = (quadOf r.loc.core).toNat && ! (s.base (homePage 0x10002)).jammed && s.inOrder 0 r && ! s.copied r.nextLines
    rs.all (fun r => ok (pageState (.mem r) true 0x101) r && ok (pageState (.mem r) true 0x102) r && decide (r.addr.toNat / 65536 = 0x10002) && decide ((r.addr.toNat + 256 - 1) / 65536 = 0x10002) &&
      (pageState (.mem r) true 0x101).mayWrite r.actor 0x10002 && ! (pageState (.mem r) true 0x102).mayWrite r.actor 0x10002 && ! (pageState (.mem r) true 0x101).invalFor r.actor r.key.seq) = true ∧
    State.readError (pageState (.mem (reqOf .read 256 false)) true 0x101) 0 0x10002FF00 8 = none ∧ 0x10002FF00 % 8 = 0 ∧
    (∀ y ∈ wordsOf (State.dramAddr (pageState (.mem (reqOf (.amo 0 1 0) 8 true)) true 0x101) 0x10002FF00) 8, y ∉ (State.base (pageState (.mem (reqOf (.amo 0 1 0) 8 true)) true 0x101) (homePage 0x10002)).badDram) := by
  decide +kernel

/-- The first request of a page's list, which is served from its head. -/
theorem witness_MemoryPeers_listed :
    let x : Parked := ⟨0x10002, 0, reqOf .read 256 false⟩
    let s := { pageState (.ack (.ep ⟨0, 0⟩ 1) act.aid false) true 0x101 with flight := [], bases := [(homePage 0x10002, { Base.reset with parked := [x] })] }
    s.packet 0 = none ∧ s.listed[0 - s.flight.length]? = some (homePage 0x10002, 0, x) ∧ x.req.addr.toNat / 65536 = x.page ∧ (s.leaf x.page).valid = true ∧ x.page ∉ (s.base (homePage 0x10002)).badLeaves ∧
      s.stackDown (homePage 0x10002) = false ∧ s.scWaits [0x10002FF00 / 128] = false ∧ quadStack (homePage 0x10002) = (quadOf x.req.loc.core).toNat ∧ s.readError (quadOf x.req.loc.core) 0x10002FF00 8 = none ∧
      RisingKeys s.bases := by
  and_intros <;> first
    | decide +kernel
    | (unfold RisingKeys; decide +kernel)

/-- A walk, an invalidation of a line that quadrant 1 holds, the home's acknowledgement, a request that has parked too long. -/
theorem witness_MemoryPeers_more :
    let line := 0x10002 * 512
    let p : Packet := .inval 1 line act.aid 2
    let s := { pageState p false 0x101 with
                 bases := [(homePage 0x10002, { Base.reset with walks := [0x10002], parked := [⟨0x10002, 0, reqOf .read 256 false⟩] }), (crossBase 1 (homePage 0x10002), { Base.reset with cache := [⟨line, [], 0⟩] })],
                 time := 2 ^ 24 * 1024 }
    s.packet 0 = some p ∧ s.heldLine 1 line = some ⟨line, [], 0⟩ ∧ (s.base (homePage 0x10002)).walks[0]? = some 0x10002 ∧ s.badLeaf 0x10002 = false ∧
      (s.base (homePage 0x10002 % 8)).parked[homePage 0x10002 / 8]? = some ⟨0x10002, 0, reqOf .read 256 false⟩ ∧ (s.leaf 0x10002).valid = false ∧
      0 + (s.mgmt.parkdl[act.aid.tenant.toNat]).toNat * 1024 < s.time ∧
      State.packet (withPacket (.homeAck 1 [line] act.aid 2 true) s) 0 = some (.homeAck 1 [line] act.aid 2 true) ∧ s.locOf act.aid = some ⟨0, 0⟩ := by decide +kernel

/-- A hand-over by the holder to itself, one by another actor, one of a page that is nowhere; the answer to capchk. -/
theorem witness_MemoryPeers_capabilities :
    let r (giver : BitVec 24) := reqOf (.capgive giver 0x3D000101) 8 false
    let s := pageState (.mem (r 0x101)) true 0x101
    let z := pageState (.mem (r 0x102)) true 0x101
    let v := pageState (.mem (r 0x101)) false 0x101
    let q : Packet := .capAnswer ⟨0, 0⟩ 0 Key.zero 31 5 0
    let w := withPacket q (onCtx (withG []) fun x => { x with wait := .memory })
    ([(s, r 0x101), (z, r 0x102), (v, r 0x101)] : List (State × MemReq)).all (fun x => x.1.packet 0 = some (.mem x.2) && (x.1.requests act.aid).all (fun y => ! seqBefore y.key.seq x.2.key.seq) &&
      (x.1.copies act.aid).isEmpty && ! x.1.badLeaf 0x10002 && ! (x.1.base (homePage 0x10002)).jammed) = true ∧ ((s.cap 0x10002).held = true ∧ (s.cap 0x10002).holder = 0x101) ∧ s.inUse act.aid = true ∧
      ([(.capNotice (msgOf 5 []) (r 0x101) ⟨true, 0x101, 2⟩), (.capBack (r 0x101) ⟨true, 0x101, 2⟩)] : List Packet).all (fun p => (withPacket p s).packet 0 = some p) = true ∧
      (s.locOf (msgOf 5 []).rcpt).isSome = true ∧ s.locOf ⟨5, 0x1FF⟩ = none ∧ s.savedOf ⟨5, 0x1FF⟩ = none ∧
      ¬ ((z.cap 0x10002).held = true ∧ (z.cap 0x10002).holder = 0x102) ∧ (z.mgmt.pager[(5 : Nat)]).1 = false ∧ (v.leaf 0x10002).depot = false ∧
      w.packet 0 = some q ∧ w.halted 0 = false ∧ w.ctx.phase = .running ∧ w.ctx.slot = 0 ∧ w.ctx.key = Key.zero ∧ w.ctx.wait = .memory := by decide +kernel

/-- Commands of 64 bytes at the head of the queue: their pages are valid and their lines can be saved. -/
def cmdOf (op : CopyOp) : CopyCmd := ⟨act.aid, ⟨0, 0⟩, 0, ⟨30, 0x101, 2⟩, op, 0x100020000, 0x400, 64, 7, true, 5, false, 0, 0, []⟩

theorem witness_CopiesAndHostWindows :
    let at_ (op : CopyOp) : State := { onCore (pageState (.ack (.ep ⟨0, 0⟩ 1) act.aid false) true 0x101) fun k => { k with cq := [cmdOf op, cmdOf .fill] } with flight := [] }
    ([.put, .fill, .get] : List CopyOp).all (fun op =>
      let s := at_ op
      let k := cmdOf op
      (s.core 0).cq = [k, cmdOf .fill] && ! (s.core 0).stopped && decide (hostPort k.gaddr = none) && ! s.putting 0 && (s.requests k.actor).isEmpty && ! s.sameLine k.actor k.key.seq (rangeLines k.ranges) true && ! s.strongCopy k && decide ((s.core 0).badIn 0x400 (copyLocal op 64 7) = none)) = true ∧
    (let s := at_ .get
     let k := cmdOf .get
     let l := 0x100020000 / 128
     let z := { s with bases := [(homePage 0x10002, Base.reset)] }
     k.pos < k.len ∧ min (k.len - k.pos) 8 = 8 ∧ s.stackDown (homePage 0x10002) = false ∧ (s.base (s.pointOf (quadOf 0) l)).jammed = false ∧ s.scWaits [l] = false ∧ s.translated (quadOf 0) l = true ∧
       s.readError (quadOf 0) 0x100020000 8 = none ∧ (State.saveCopy { (s.readGlobal (quadOf 0) 0x100020000 8).2 with here := 0, cx := 0 } k.loc.slot k.key.seq 0x400 (s.readGlobal (quadOf 0) 0x100020000 8).1).isSome = true ∧
       (s.readGlobal (quadOf 0) 0x100020000 8).1.length = 8 ∧ k.msg = true ∧ z.translated (quadOf 0) l = false ∧ (State.core (onCore (at_ .put) fun c => { c with badPad := [0x80] }) 0).badIn 0x400 (copyLocal .put 64 7) = some 0x80) ∧
    ([.read, .write [1]] : List MemOp).all (fun op =>
      let r := { reqOf op 1 false with addr := 0x00F8000000000000 }
      let s := withPacket (.hostRead true r) (withG [])
      s.packet 0 = some (.hostRead true r) && ! s.strongWait r && r.ack) = true := by decide +kernel

/-! ## Witnesses: the Depot -/

/-- A request of the actor at the head of the queue of the Depot, on channel 1 of a service; page 0x10002 is in DRAM with its DRAM as given, and the actor's core has every right on it. -/
def depotState (v : Service) (ws : List Word) (dram : Mem) (s : State) : State :=
  { onCore s (fun k => { k with prot := [(0, ⟨true, 5, 0x10002, 0x10002, true, true, true, true⟩)] }) with
      chans := [(1, ⟨v, act.aid, ⟨0, 0⟩, 1, 1, true⟩)], depotQ := [⟨1, act.aid, ⟨0, 0⟩, ⟨30, 0x101, 1⟩, true, ws, 50, 0⟩], flight := [],
      bases := [(homePage 0x10002, { Base.reset with tables := 0, dram := dram, taken := [7] })], leaves := [(0x10002, ⟨true, false, true, false, false, 5, 7⟩)] }

def pageState5 (op : Nat) (w2 : Word) : State := depotState .page [0x100020000, BitVec.ofNat 64 (op * 2 ^ 60), w2, 0] Mem.empty (waitState [] id)

def servedBy (s : State) (v : Service) : Option DepotReq := (s.served 0 v).bind fun x => if x.2.live then some x.1 else none

/-- Each operation on a page of the tenant, on one of another tenant, and a page-in of a page that stands in the Depot, sound and in error. -/
theorem witness_DepotPages : [0, 1, 2, 3, 4].all (fun op =>
    let s := pageState5 op 0x0000004000000400
    let z := { s with leaves := [(0x10002, ⟨true, false, true, false, false, 6, 7⟩)] }
    [s, z].all (fun x => match servedBy x .page with
      | some r => ! r.pageBad && r.page.count = 1 && r.page.first = 0x10002 && r.page.op = op && x.nextPage 0 r
      | none => false) && s.owns 5 0x10002 && ! z.owns 5 0x10002) = true := by decide +kernel

theorem witness_DepotPages_more :
    let s := pageState5 0 0
    let b := { s with bases := [(homePage 0x10002, { Base.reset with tables := 0, badDram := [7 * 8192] })] }
    let d := { pageState5 1 0 with leaves := [(0x10002, ⟨false, true, false, false, false, 5, 0⟩)] }
    let e := { d with depot := [(0x10002, ⟨1, [], true⟩)] }
    let q := pageState5 2 0x0000004000000400
    (s.persistPage 0x10002).isOk = true ∧ (b.persistPage 0x10002).isOk = false ∧ (s.leaf 0x10002).valid = true ∧
      [d, e].all (fun x => match servedBy x .page with | some r => x.nextPage 0 r && x.owns 5 0x10002 && ! (x.leaf 0x10002).valid | none => false) = true ∧
      (d.depotPage 0x10002).bad = false ∧ (e.depotPage 0x10002).bad = true ∧ (d.base (homePage 0x10002)).parked = [] ∧ (d.base (homePage 0x10002)).freeFrame = some 0 ∧
      Mem.wf ⟨(d.depotPage 0x10002).cells, []⟩ ∧ q.locOf act.aid = some ⟨0, 0⟩ ∧ (q.residentAt ⟨0, 0⟩).inScratch 0x400 64 = true ∧ q.halted 0 = false ∧
      (∀ w ∈ wordsOf (q.dramAddr 0x100020000) 64, w ∉ (q.base (homePage 0x10002)).badDram) ∧
    (let p := { d with bases := [(homePage 0x10002, { Base.reset with tables := 0, parked := [⟨0x10002, 0, reqOf .read 256 false⟩] })] }
     p.demands = [⟨0x10002, 0, reqOf .read 256 false⟩] ∧
       (p.base (homePage 0x10002)).freeFrame = some 0 ∧ (p.depotPage 0x10002).bad = false ∧ ¬ (0 + (p.mgmt.parkdl[act.aid.tenant.toNat]).toNat * 1024 + 1 < p.time) ∧
       0 + (p.mgmt.parkdl[act.aid.tenant.toNat]).toNat * 1024 + 1 < ({ p with time := 2 ^ 24 * 1024 + 2 } : State).time ∧ ({ p with time := 2 ^ 24 * 1024 + 2 } : State).demands = p.demands ∧ (reqOf .read 256 false).held = []) := by decide +kernel

/-- A save area takes at most the sectors of its four frames. -/
theorem areaSectors_le (a : AId) : areaSectors a ≤ 4 * 128 := by simp only [areaSectors, List.map, List.sum_cons, List.sum_nil, show List.range 4 = [0, 1, 2, 3] from rfl]; omega

/-- The pager asks for its own eviction, and for the reload of an actor of its tenant on core 0, whose one free slot is slot 3. -/
theorem witness_DepotServices :
    let m (s : State) : State := { s with mgmt := { s.mgmt with pager := s.mgmt.pager.set 5 (true, 9, 0x101) } }
    let s := m (depotState .page [0x101, BitVec.ofNat 64 (5 * 2 ^ 60), 0, 0] Mem.empty (waitState [] id))
    let x : Saved := { savedAct with actor := { act with aid := ⟨5, 0x104⟩ } }
    let q := m (depotState .page [0x104, BitVec.ofNat 64 (6 * 2 ^ 60), 0, 0] Mem.empty (spawner [0, 1, 2, 4, 5, 6, 7, 8, 9, 10, 11, 12, 13, 14, 15] 1))
    let r := { q with bases := [(homeOf ⟨5, 0x104⟩, { Base.reset with tables := 0, saved := [x] })] }
    (match servedBy s .page with | some r => ! r.pageBad && r.page.op = 5 && r.word 0 = 0x101 && r.word 1 / 2 ^ 56 % 2 = 0 && s.fromPager r.actor | none => false) = true ∧
      s.locOf act.aid = some ⟨0, 0⟩ ∧ (s.residentAt ⟨0, 0⟩).aid = act.aid ∧ s.savedOf act.aid = none ∧ (s.residentAt ⟨0, 0⟩).retired = false ∧ s.still 0 = true ∧ (s.core 0).stopped = false ∧ s.actorTaken 0 6 act.aid = false ∧ s.evictsFirst 0 0 = false ∧
      (s.base (homeOf act.aid)).poolTaken + 4 ≤ (s.base (homeOf act.aid)).poolFrames.toNat ∧ (s.residentAt ⟨0, 0⟩).bad = [] ∧ s.sectorsUsed + areaSectors act.aid ≤ depotSectors ∧ (s.core 0).badPad = [] ∧
      (match servedBy r .page with | some y => ! y.pageBad && y.page.op = 6 && y.word 0 = 0x104 && y.word 2 = 0 && r.fromPager y.actor | none => false) = true ∧
      r.savedOf ⟨5, 0x104⟩ = some x ∧ x.antis = [] ∧ r.actorTaken 0 5 ⟨5, 0x104⟩ = false ∧ r.halted 0 = false ∧ AtRest r x.actor ∧ x.inDepot = false ∧ x.bad = false ∧ (r.core 0).zonesFit x.actor.zones = true ∧ (∃ i ∈ (r.core 0).images, i.tenant = 5 ∧ i.num = x.actor.image) ∧
      x.actor.pending = none ∧ (r.core 0).freeSlots.head? = some 3 := by
  and_intros <;> first
    | decide +kernel
    | exact noSpill (l := act.log) (by decide +kernel)
    | exact Nat.le_trans (Nat.add_le_add (Nat.le_of_eq (show _ = 0 by decide +kernel)) (areaSectors_le act.aid)) (by decide)

/-- A slot as a take leaves it is valid, with its sequence number and its T. -/
theorem slot_seq (q t : Word) (ps : List (Nat × Bool × List Host.Cell)) (b : Bool) : (⟨slotHeader q t ps, ps, b⟩ : CkSlot).seq = q := by
  have h : ((slotHeader q t ps).drop 8).take 8 = leBytes q.toNat 8 := rfl
  rw [CkSlot.seq, h, leNat_leBytes, Nat.mod_eq_of_lt (show q.toNat < 256 ^ 8 from q.isLt)]; simp

theorem slot_t (q t : Word) (ps : List (Nat × Bool × List Host.Cell)) (b : Bool) : (⟨slotHeader q t ps, ps, b⟩ : CkSlot).t = t := by
  have h : ((slotHeader q t ps).drop 16).take 8 = leBytes t.toNat 8 := rfl
  rw [CkSlot.t, h, leNat_leBytes, Nat.mod_eq_of_lt (show t.toNat < 256 ^ 8 from t.isLt)]; simp

theorem slot_valid (q t : Word) (ps : List (Nat × Bool × List Host.Cell)) (b : Bool) : (⟨slotHeader q t ps, ps, b⟩ : CkSlot).valid = true := by
  unfold CkSlot.valid
  rw [slot_seq, slot_t]
  exact decide_eq_true rfl

theorem slot_first {s : State} {id : Nat} {x : CkSlot} (h : s.ckSlots id = (x, CkSlot.zero)) (hv : x.valid = true) : s.validSlot id = some x := by
  have hz : CkSlot.zero.valid = false := by decide +kernel
  simp [State.validSlot, h, hv, hz]

def checkState (t op : Nat) : State :=
  { depotState .checkpoint [BitVec.ofNat 64 t, 0x100020000, 1, BitVec.ofNat 64 (op * 2 ^ 60 + 7)] (Mem.empty.setBytes (7 * 65536) (leBytes 0x100020000 8)) (waitState [] id) with lastM := 50 }

/-- Takes at and above the Milestone of their arrival, a take that a round has passed, a restore and a query without a valid slot. -/
theorem witness_DepotServices_checkpoint :
    [checkState 50 0, checkState 51 0, checkState 0 1, checkState 0 2].all (fun s => match servedBy s .checkpoint with
      | some r => r.word 3 % 65536 = 7 && r.word 3 / 65536 % 2 ^ 44 = 0 && r.word 1 % 64 = 0 && r.word 2 = 1 && s.takes.isEmpty && r.milestone = 50
      | none => false) = true ∧
      BitVec.ofNat 64 50 ≤ (50 : Word) ∧ (50 : Word) < BitVec.ofNat 64 51 ∧ (checkState 51 0).pageList 0x100020000 1 = some [(0x10002, false)] ∧
      (servedBy (checkState 51 0) .checkpoint).map (fun r => ((checkState 51 0).listRefused r 0x100020000 1, (checkState 51 0).foreign r [0x10002])) = some (none, false) ∧
      (checkState 0 1).validSlot 7 = none ∧
    (let q := (checkState 49 0).depotQ.headD ⟨0, ⟨0, 0⟩, ⟨0, 0⟩, Key.zero, false, [], 0, 0⟩
     let k : Take := ⟨q, 7, 49, [(0x10002, false)]⟩
     let s := { checkState 49 0 with takes := [k], bases := [] }
     s.depotQ[0]? = some q ∧ s.takes.find? (fun y => y.req = q) = some k ∧ k.t < s.lastM ∧ q.irrev = true ∧ (s.takeEnds k).2 = 0 ∧ s.walking 0x10002 = false ∧ s.validSlot 7 = none) := by decide +kernel

/-- A restore of a valid slot of one page. -/
theorem witness_DepotServices_restore :
    let x : CkSlot := ⟨slotHeader 1 20 [(0x10002, false, [])], [(0x10002, false, [])], false⟩
    let s : State := { checkState 0 1 with ckpts := [(7, x, CkSlot.zero)] }
    s.validSlot 7 = some x ∧ x.bad = false ∧ x.pages = [(0x10002, false, [])] ∧ (servedBy s .checkpoint).map (fun r => s.foreign r [0x10002]) = some false ∧ (s.leaf 0x10002).valid = true ∧
      s.quiet 0x10002 = true ∧ (s.base (homePage 0x10002)).parked = [] ∧ Mem.wf ⟨[], []⟩ := by
  refine ⟨slot_first rfl (slot_valid 1 20 _ _), rfl, rfl, ?_⟩
  and_intros <;> decide +kernel

/-- The descriptor of image 2 with four bytes of code after it; the digest was computed outside the model. -/
def descriptor : Mem :=
  ((((Mem.empty.setBytes (7 * 65536) (leBytes (5 * 2 ^ 28) 4)).setBytes (7 * 65536 + 4) [2, 0, 1, 0]).setBytes (7 * 65536 + 8) (leBytes 0x1000004 8)).setBytes (7 * 65536 + 16) (leBytes 0x100020200 8)).setBytes
    (7 * 65536 + 512) (leBytes 0xBC0000C3 4)

def digest : List Byte := leBytes 0x87abd33335d341148bc58027725df0584ecdf9b5552a80eca215fd8efe910f33 32

/-- A load of image 2 at code address 64, its digest wrong and right. -/
def loading (right : Bool) : State :=
  onCore (depotState .loader [0x100020000, 0x40, 0, 0] (if right then descriptor.setBytes (7 * 65536 + 32) digest else descriptor) (waitState [] id)) fun k => { k with parts := [(5, 0, 1)] }

theorem witness_DepotServices_load : [false, true].all (fun right =>
    let s := loading right
    let d := s.engineBytes 0x100020000 512
    let m := readImage d 0x40
    let code := s.engineBytes 0x100020200 4
    (servedBy s .loader).isSome && (s.core 0).scan.isNone && ! s.halted 0 && decide (s.engineRefused 0 5 true 0x100020000 512 = none) && field d 16 8 = 0x100020200 && m.len = 4 &&
      decide (s.engineRefused 0 5 true 0x100020200 4 = none) && field d 480 8 = 0 && decide (s.engineRefused 0 5 false 0 0 = none) && decide ((s.core 0).placeRefused { m with tenant := 5 } = none) &&
      (decide (sha256 (code ++ d.drop 64) = (d.drop 32).take 32) == right) && m.tenant = 5 && field d 6 2 = 1 && descriptorOk d && m.data.isEmpty) = true := by decide +kernel

/-- Unloads of an image that is not there, that an actor runs, and that none runs. -/
theorem witness_DepotServices_unload :
    let st (n : Nat) (u : State) : State := depotState .loader [0, BitVec.ofNat 64 (2 ^ 62 + n * 2 ^ 16), 0, 0] Mem.empty u
    let a := onActor (waitState [] id) fun a => { a with image := 3 }
    [st 9 (waitState [] id), st 1 (waitState [] id), st 1 a].all (fun s => (servedBy s .loader).isSome && (s.core 0).scan.isNone && ! s.halted 0) = true ∧
      (∀ i ∈ ((st 9 (waitState [] id)).core 0).images, ¬ (i.num = 9 ∧ i.tenant = 5)) ∧ ((st 1 a).core 0).images.find? (fun i => i.num = 1 && i.tenant = 5) = some img ∧
      (((st 1 (waitState [] id)).core 0).actors.any fun x => x.2.aid.tenant = 5 && x.2.image = 1) = true ∧
      (((st 1 a).core 0).actors.all fun x => ! (x.2.aid.tenant = 5 && x.2.image = 1)) = true := by decide +kernel

/-- A scan of done at code address 0x40, and of an image whose last parcel starts a 32-bit instruction. -/
theorem witness_DepotServices_scan :
    let x : Scan := ⟨{ img with num := 2, base := 0x40, len := 4, junction := Actor.zero.junction }, [], ⟨1, act.aid, ⟨0, 0⟩, Key.zero, true, [0], 0, 0⟩⟩
    let st (bytes : List Byte) : State := onCore (depotState .loader [0] Mem.empty (waitState [] id)) fun k => { k with scan := some x, code := k.code.setBytes 0x40 bytes }
    let s := st (leBytes 0xBC0000C3 4)
    let z := st [0, 0, 0xC3, 0]
    [s, z].all (fun u => (u.core 0).scan = some x && ! u.halted 0 && (u.chan 1).any fun c => c.live) = true ∧ (Core.accept { s.core 0 with scan := none } x.image x.blocks).isOk = true ∧
      (Core.accept { z.core 0 with scan := none } x.image x.blocks).isOk = false := by decide +kernel

/-! ## Witnesses: groups -/

def memberOf (core : CoreId) (id : BitVec 24) : Member := ⟨⟨5, id⟩, ⟨core, 0⟩, core, 1, 9, ⟨30, id, 1⟩, none, false, false⟩

/-- Group 3 of tenant 5, with COUNT 2 or 3 and some members, and the actor's e1 connecting. -/
def registry (p : Packet) (g : List Group) (f : Group → Group) : State :=
  { withPacket p (waitState [] fun a => { a with eps := a.eps.set 1 { EpRec.zero with status := .connecting }, aux := a.aux.set 1 { EpAux.zero with old := .free } }) with
      groups := g.map fun x => (5 * 65536 + 3, f x) }

def groupOf (count : Nat) (formed : Bool) (members : List Member) (waves : List Wave) : Group := ⟨5, 3, 0, 0, count, formed, none, members, waves⟩

/-- A join of COUNT 2 at a full group, one of COUNT 3 at a group of one, one of COUNT 1 at no group. -/
theorem witness_GroupsAndWaves :
    let p (desc : Word) : Packet := .join act.aid ⟨0, 0⟩ 1 desc 9 ⟨30, 0x101, 1⟩
    let s := registry (p 0x10003) [groupOf 2 true [memberOf 4 0x102, memberOf 8 0x103] []] id
    let z := registry (p 0x20003) [groupOf 3 false [memberOf 4 0x102] []] id
    let o := registry (p 0x3) [] id
    arrives s (p 0x10003) act.aid = true ∧ arrives z (p 0x20003) act.aid = true ∧ arrives o (p 0x3) act.aid = true ∧ (∀ g, s.group (5 * 65536 + 3) = some g → ∀ m ∈ g.members, s.halted m.loc.core = false) ∧
      s.joinRefused (5 * 65536 + 3) 0 0 2 0 = some 0x191 ∧ z.joinRefused (5 * 65536 + 3) 0 0 3 0 = none ∧ (z.group (5 * 65536 + 3)).map (fun g => g.members.length) = some 1 ∧
      o.joinRefused (5 * 65536 + 3) 0 0 1 0 = none ∧ o.group (5 * 65536 + 3) = none := by
  and_intros <;> decide +kernel

/-- A contribution of rank 0 to a reduction of 128 bytes; the actor of rank 1 is on core 4. -/
def contribOf (op : WaveOp) : Contrib := ⟨5 * 65536 + 3, act.aid, ⟨0, 0⟩, 1, ⟨30, 0x101, 1⟩, 0, op, 0x0000002000000080, 0, 9, 0⟩
def pair : List Member := [memberOf 0 0x101, memberOf 4 0x102]
def chunkOf (ranks : List Nat) (check : Word × WaveOp) : Chunk := ⟨5 * 65536 + 3, 0, 0, ranks, check, [some (List.replicate 128 1)], false⟩
def waveIn (contribs : List (Nat × Contrib)) (chunks : List Chunk) : Wave := ⟨0, contribs, chunks, [], none, true, [], []⟩

theorem witness_GroupsAndWaves_contribution :
    let c := contribOf .red
    let p : Packet := .contrib c [] false
    let g := groupOf 2 true pair []
    let s := registry p [g] id
    let w : Wave := ⟨0, [], [], [], none, false, [], []⟩
    s.packet 0 = some p ∧ s.group c.group = some g ∧ g.broken = none ∧ c.op ≠ .leave ∧ g.members.findIdx? (fun m => m.actor = c.actor && ! m.gone) = some 0 ∧
      (g.waves.find? fun w => w.num = c.wave).getD ⟨c.wave, [], [], [], none, false, [], []⟩ = w ∧ w.started = false ∧ 1 < g.count ∧
      g.accounted { w with contribs := [(0, c)] } 1 = false := by decide +kernel

/-- The chunk of rank 0 while that of rank 1 waits, the chunk of both, and that chunk on its way to rank 0; the wave's last. -/
theorem witness_GroupsAndWaves_chunks :
    let c := contribOf .red
    let one := chunkOf [0] c.check
    let two := chunkOf [1] c.check
    let all := chunkOf [0, 1] c.check
    let w := waveIn [(0, c), (1, { c with actor := ⟨5, 0x102⟩, loc := ⟨4, 0⟩ })] [two]
    let g := groupOf 2 true pair [w]
    let s := registry (.chunk one) [g] id
    let r := registry (.result ⟨0, 0⟩ 0 all) [g] id
    let data : List Byte := List.replicate 128 1
    s.packet 0 = some (.chunk one) ∧ s.group one.group = some g ∧ g.waves.find? (fun w => w.num = 0) = some w ∧ w.failed = none ∧ treeOf (g.ranks 0) = some (.node (.leaf 0) (.leaf 1)) ∧
      Tree.mate [0] (.node (.leaf 0) (.leaf 1)) = some ([1], true) ∧ w.chunks.find? (fun x => x.num = 0 && x.ranks = [1]) = some two ∧ (one.combine two).failed = false ∧
      Tree.mate [0, 1] (.node (.leaf 0) (.leaf 1)) = none ∧ r.packet 0 = some (.result ⟨0, 0⟩ 0 all) ∧ w.givers.find? (fun x => x.1 = 0) = some (0, c) ∧ g.alive 0 = true ∧
      r.locOf c.actor = some ⟨0, 0⟩ ∧ r.halted 0 = false ∧ resultBlocks g w 0 all c = [(waveDaddr c.desc, data)] ∧ (∀ j ∈ neededChunks c 0 2, j = 0) ∧
      ((0x2 : Word) <<< 48).extractLsb' 48 2 = 2 ∧ ((0x2 : Word) <<< 48).extractLsb' 50 2 = 0 := by decide +kernel

theorem witness_GroupsAndWaves_death :
    let p : Packet := .death (5 * 65536 + 3) ⟨5, 0x102⟩ []
    [false, true].all (fun formed =>
      let g := groupOf 3 formed pair []
      let s := registry p [g] id
      s.packet 0 = some p && s.group (5 * 65536 + 3) = some g && g.members.findIdx? (fun m => m.actor = ⟨5, 0x102⟩ && ! m.gone && ! m.dead) = some 1 && decide (2 ≤ g.members.length)) = true := by decide +kernel

/-! ## Witnesses: the Milestone -/

def roundOf (num : Nat) (cut : List Nat) (given : Option Share) (sentUp : Bool) (result : Option (Word × Bool)) : Round := ⟨num, cut, given, sentUp, result, []⟩

/-- No round runs and one is due; the last station takes its cut; a result on its way; a core, the last base and the last station. -/
theorem witness_MilestoneRounds :
    let s := waitState [] id
    s.round = none ∧ s.roundDue ≤ s.time ∧ stationCount = 4119 ∧ (4118 < stationCount ∧ 4118 ∉ (roundOf 1 [0] none false none).cut) ∧ decide (1 % 2 = 1) = true ∧
      (roundOf 1 [] none false (some (70, true))).result = some (70, true) ∧ 4103 ∉ (roundOf 1 [] none false (some (70, true))).reached ∧ (4096 ≤ 4103 ∧ 4103 < 4104) ∧ 4095 < 4096 ∧ (s.core (BitVec.ofNat 12 4095)).antiFull ≠ some s.time ∧ s.markWaits 7 70 = false := by decide +kernel

/-- Every station has taken the cut, with nothing on its way, and with one packet on its way. -/
theorem witness_MilestoneRounds_pass :
    let s := { waitState [] id with round := some (roundOf 1 (List.range 4119) none false none) }
    (roundOf 1 (List.range 4119) none false none).given = none ∧ stationCount ≤ (roundOf 1 (List.range 4119) none false none).cut.length ∧ s.fabricOn = false ∧
      ({ s with fabricOn := true } : State).fabricOn = true ∧ (s.share false).count = 0 ∧ (State.share { s with stations := [(4106, { Station.reset with sent0 := 1 })] } false).count ≠ 0 := by decide +kernel

/-- Two modules in x: the root with the other's share, with and without a message on its way, and the other module, whose share goes up and which has the root's word. -/
theorem witness_MilestoneRounds_fabric :
    let y : Share := ⟨60, 70, 50, 0⟩
    let s := { waitState [] id with round := some (roundOf 1 [] (some y) false none), fabricOn := true, torus := 1, fabricIn := [y] }
    let z := { s with coords := 1, fabricIn := [], fabricDown := [some (60, true), none] }
    s.childDims = [0] ∧ s.upDim = none ∧ (s.fabricIn.foldl Share.join y).count = 0 ∧ (s.fabricIn.foldl Share.join { y with count := 1 }).count ≠ 0 ∧
      z.childDims = [] ∧ z.upDim = some 0 ∧ z.fabricDown = some (60, true) :: [none] ∧ (roundOf 1 [] (some y) true none).sentUp = true ∧ (∀ l : Fin 12, (s.port l.val).replay.length < 512) := by decide +kernel

/-! ## Witnesses: the host and the links -/

/-- Host endpoint 0x00005 of tenant 5, at state 0 that sends class 7, its peer e1 of the actor; ring 0 of its function has two slots. -/
def hostEp (busy : Bool) (ctl : Word) : HostEp :=
  { num := 5, tenant := 5, seq := 1, record := { EpRec.zero with status := .opened, peer := Loc.peer ⟨0, 0⟩ 1 }, states := [⟨0, 7, 8, 64, 1, [1], 1, 0⟩, ⟨7, 0, 0, 0, 0, [], 1, 0⟩], peerId := 0x101,
    vrt := 51, ctl := ctl, busy := busy, window := Mem.empty, ring := 0, fullAt := none }

def hostState (busy : Bool) (ctl : Word) (ws : List HostWrite) : State :=
  { waitState [] id with hosts := [hostEp busy ctl], rings := [⟨(hostEp busy ctl).fn, 0, 0, 1, 0, 1, 0, true⟩], hostIn := ws, lastM := 50 }

theorem witness_HostAndLinks :
    let s := hostState false 0 [.ctl 6 0 9, .window 6 0 4095 [1], .vrt 6 0 60]
    let ok := hostState true 0x07000008 []
    let small := hostState true 0x07000007 []
    s.hostIn = .ctl 6 0 9 :: [.window 6 0 4095 [1], .vrt 6 0 60] ∧ s.endpointAt 6 0 = some (hostEp false 0) ∧ s.hostOf (BitVec.ofNat 17 5) = some (hostEp false 0) ∧ (hostEp false 0).busy = false ∧
      (s.mgmt.write 0x0100 600).isSome = true ∧ (s.mgmt.write 0x6200 7).isSome = true ∧
      [ok, small].all (fun u => match u.hostOf (BitVec.ofNat 17 5) with
        | some h => h.busy && decide (h.fullAt ≠ some u.time) && ! u.tooFar h.sender h.seq h.seq && decide (h.record.status = .opened) && decide (h.ctl.extractLsb' 24 6 = 7)
        | none => false) = true ∧
      (hostEp true 0x07000008).misfit 7 8 = none ∧ ((hostEp true 0x07000007).misfit 7 7).isSome = true := by decide +kernel

theorem witness_HostAndLinks_ring :
    let m : Msg := { msgOf 8 (leBytes 9 8) with rcpt := ⟨5, 0⟩ }
    let s := withPacket (.msg (.host 5) m) (hostState false 0 [])
    s.packet 0 = some (.msg (.host 5) m) ∧ s.first 0 (.msg (.host 5) m) = true ∧ s.hostOf 5 = some (hostEp false 0) ∧ m.hdr.fails = false ∧ (hostEp false 0).record.status = .opened ∧ m.hdr.close = false ∧
      (s.ringOf (hostEp false 0)).map (fun r => r.slots) = some 2 := by decide +kernel

def launchOf (num : BitVec 16) : LaunchActor := ⟨⟨5, 0x109⟩, num, .timed, 1, 100, ⟨0, 3⟩, childImg.zones, []⟩

theorem witness_HostAndLinks_launch :
    let s : State := { State.reset with cores := [(0, { Core.reset with images := [childImg] })] }
    (s.launchActor (launchOf 1)).isOk = true ∧ (s.launchSet ⟨[], [launchOf 1], [], []⟩).isOk = true ∧ (s.launchSet ⟨[], [launchOf 9], [], []⟩).isOk = false ∧ s.injects = [] ∧ s.mgmt.minimal = false ∧
    (let u := { hostState false 0 [] with injects := [⟨5, 7, 60, List.replicate 8 1⟩, ⟨5, 7, 60, [1]⟩] }
     u.hostOf 5 = some (hostEp false 0) ∧ (hostEp false 0).record.status = .opened ∧ (hostEp false 0).misfit 7 8 = none ∧ ((hostEp false 0).misfit 7 1).isSome = true) := by decide +kernel

/-- A good flit of a sequence, one that brings a message for the actor's e1, and one whose CRC fails. -/
def goodFlit (seq : BitVec 12) : Flit := Flit.of (List.replicate 256 0) seq 0 false none none
def messageFlit (seq : BitVec 12) : Flit := Flit.of (List.replicate 256 0) seq 0 false (some (.msg (.link 0 ⟨0, 0⟩ 1) (msgOf 8 []))) none
def badFlit (seq : BitVec 12) : Flit := { goodFlit seq with crc := (goodFlit seq).crc + 1 }

theorem flit_of_good (d : List Byte) (q : BitVec 12) (c : BitVec 2) (k : Bool) (p : Option Packet) (r : Option FabricWord) : (Flit.of d q c k p r).crcOk = true := by simp [Flit.of, Flit.crcOk]

theorem flit_bad (f : Flit) (h : f.crcOk = true) : { f with crc := f.crc + 1 }.crcOk = false := by
  simp only [Flit.crcOk, decide_eq_true_eq, decide_eq_false_iff_not] at *
  rw [← h]
  bv_omega

theorem flits_checked : (goodFlit 0).crcOk = true ∧ (messageFlit 0).crcOk = true ∧ (badFlit 0).crcOk = false ∧ (msgOf 8 []).hdr.fails = false :=
  ⟨flit_of_good .., flit_of_good .., flit_bad _ (flit_of_good ..), by decide +kernel⟩

/-- A port out of which a flit comes, and one that drops; the message's module is this one. -/
theorem witness_HostAndLinks_port :
    let p : Port := { Port.reset with acks := [3], replays := [4], fails := 15 }
    let q : Port := { Port.reset with replays := [4], fails := 16, retrains := 3, dropping := true }
    let s : State := { State.reset with ports := [(11, p), (10, q)] }
    12 ≤ (12 : BitVec 4).toNat ∧ (11 : BitVec 4).toNat < 12 ∧ s.port 11 = p ∧ s.port 10 = q ∧ s.coords = 0 ∧ p.up = true ∧ p.rxSeq = 0 ∧ p.dropping = false ∧ p.fails < 16 ∧ ({ q with retrains := 2 } : Port).retrains < 3 ∧
      q.rxSeq ≠ 1 ∧ q.dropping = true ∧ 16 ≤ q.fails ∧ 3 ≤ q.retrains := by decide +kernel

/-! ## Witnesses: the management core -/

/-- A table request of one page, of an operation for tenant 5. -/
def tableState (op : Nat) (page : Nat) (dom : Nat) (s : State) : State :=
  { s with mgmt := { s.mgmt with tblGo := true, tblReq := #v[BitVec.ofNat 64 (op * 2 ^ 60 + 5 * 2 ^ 56 + page), 0, BitVec.ofNat 64 (dom * 2 ^ 40), 0] } }

/-- Every operation; the first page of the global window and the one below it; a page that is allocated and one that is not. -/
theorem witness_Management :
    let a := { waitState [] id with leaves := [(0x10000, ⟨false, true, false, false, false, 5, 0⟩)] }
    (List.range 16).all (fun op => [waitState [] id, a].all fun u =>
      let s := tableState op 0x10000 16 u
      s.mgmt.tblGo && ! s.walking 0x10000 && decide (s.mgmt.tblPages = [0x10000]) && s.mgmt.tblOp = op && ! (s.mgmt.tbl 3).getLsbD 63 && decide (((s.mgmt.tbl 2).extractLsb' 40 5).toNat ≤ 16)) = true ∧
      globalPage 0x10000 = true ∧ globalPage 0xFFFF = false ∧ (tableState 0 0xFFFF 0 a).mgmt.tblPages = [0xFFFF] ∧ (tableState 1 0x10000 0 a).owns 5 0x10000 = true ∧ (waitState [] id).walking 0xFFFF = false ∧
      (tableState 1 0x10000 0 (waitState [] id)).owns 5 0x10000 = false ∧ (tableState 1 0x10000 0 a).quiet 0x10000 = true ∧ (tableState 1 0x10000 0 (waitState [] id)).quiet 0x10000 = true ∧
      (a.leaf 0x10000).depot = true ∧ (State.leaf (waitState [] id) 0x10000).depot = false ∧ (State.leaf (waitState [] id) 0x10000).valid = false := by decide +kernel

/-- A request for one core whose partition would name one tenant, and one that would name two; the pointer before its wrap. -/
theorem witness_Management_core :
    let u := onCore (waitState [] id) fun k => { k with pointer := 63 }
    let two : State := u.setCore 1 { u.core 0 with arm := some 2, slots := [(0, ⟨true, false, 6⟩)] }
    let entries : Vector Byte 64 := Vector.replicate 64 0x85
    let req (s : State) : State := { s with mgmt := { s.mgmt with cfgGo := true, cfgReq := #v[0, 0x32], cfgEntries := entries } }
    let t (s : State) : State := s.setCore 0 { s.core 0 with nextSlots := some s.mgmt.table, arm := some 2 }
    (req u).mgmt.cfgGo = true ∧ ((0 : Word).getLsbD 63 = false ∧ (0x32 : Word).getLsbD 5 = true ∧ (0x32 : Word).getLsbD 4 = true ∧ (0x32 : Word).setWidth 4 = (2 : BitVec 4)) ∧
      (t (req u)).partitionsOk = true ∧ (t (req two)).partitionsOk = false ∧ (u.core 0).pointer = 63 ∧ State.issuer { u with here := 0 } = none := by decide +kernel

/-- Temperatures on both sides of 50 °C, read and to be read. -/
theorem witness_Management_thermal :
    (49 : BitVec 8).toNat < 50 ∧ 50 ≤ (50 : BitVec 8).toNat := by decide

/-- Whether a signature is good, and the state that a request names, are the implementation's: every state in which GO is set meets one of the three cases; and a change that has begun finds actors, and then none. -/
theorem witness_Management_life : (∃ s : State, s.mgmt.lcGo = true ∧ s.mgmt.wiping = none ∧ (Config.signatureOk s.mgmt.lcRequest = false ∨
    Config.signatureOk s.mgmt.lcRequest = true ∧ (lifeAllowed s.mgmt.lcState.toNat (Config.lcTarget s.mgmt.lcRequest) = false ∨ lifeAllowed s.mgmt.lcState.toNat (Config.lcTarget s.mgmt.lcRequest) = true))) ∧
    (waitState [] id).empty = false ∧ State.reset.empty = true := by
  refine ⟨⟨{ State.reset with mgmt := { Mgmt.reset with lcGo := true } }, rfl, rfl, ?_⟩, by decide +kernel, by decide +kernel⟩
  cases Config.signatureOk _ <;> cases lifeAllowed _ _ <;> simp

/-- LAYBY cleared and set, SAVEPOOL, a write that leaves minimal mode and one that does not; a Roadblock stop by the host, one that a trap triggers, one of a stopped partition, and a resume. -/
theorem witness_Management_writes :
    let s (off : Nat) (v : Word) : State := { waitState [] id with hostIn := [.w0 off v] }
    let p := onCore (waitState [] id) fun k => { k with arm := some 15 }
    let stop : State := { p with mgmt := { p.mgmt with rbStop := p.mgmt.rbStop.set 15 true } }
    let trip : State := { p with mgmt := { p.mgmt with rbTrip := p.mgmt.rbTrip.set 15 true } }
    let again : State := { stop with mgmt := { stop.mgmt with stopped := stop.mgmt.stopped.set 15 true } }
    let go : State := { p with mgmt := { p.mgmt with rbGo := p.mgmt.rbGo.set 15 true } }
    ((s (0x6180 + 8 * 15) 0x101).hostIn = [.w0 0x61F8 0x101] ∧ (0x101 : Word).getLsbD 63 = false ∧ (0x8000000000000101 : Word).getLsbD 63 = true ∧ (s 0x6180 0).mgmt.layby[(5 : Nat)] = none ∧
      (s (0x6500 + 8 * 7) 4096).hostIn = [.w0 0x6538 4096] ∧ (s 0x0018 1).hostIn = [.w0 0x0018 1] ∧ (1 : Word).getLsbD 0 = true ∧ (0 : Word).getLsbD 0 = false) ∧
      stop.mgmt.rbStop[(15 : BitVec 4).toNat] = true ∧ trip.mgmt.rbTrip[(15 : BitVec 4).toNat] = true ∧ again.mgmt.stopped[(15 : BitVec 4).toNat] = true ∧ again.mgmt.rbStop[(15 : BitVec 4).toNat] = true ∧
      [stop, trip].all (fun u => ! u.mgmt.stopped[(15 : BitVec 4).toNat] && decide ((u.core 0).arm = some 15) && u.cores.all fun c => decide (u.core (BitVec.ofNat 12 c.1) = c.2) &&
        c.2.ctxs.toList.all fun x => decide (x.phase = .free)) = true ∧
      go.mgmt.rbGo[(15 : BitVec 4).toNat] = true ∧ go.mgmt.rbStop[(15 : BitVec 4).toNat] = false ∧ go.mgmt.rbTrip[(15 : BitVec 4).toNat] = false ∧
      (go.cores.all fun c => decide (go.core (BitVec.ofNat 12 c.1) = c.2)) = true := by
  refine ⟨?_, ?_⟩ <;> and_intros <;> decide +kernel

/-- The digest of "abc" (FIPS 180-4, the standard that R55 names). -/
theorem test_sha256 : sha256 [0x61, 0x62, 0x63] =
    [0xba, 0x78, 0x16, 0xbf, 0x8f, 0x01, 0xcf, 0xea, 0x41, 0x41, 0x40, 0xde, 0x5d, 0xae, 0x22, 0x23, 0xb0, 0x03, 0x61, 0xa3, 0x96, 0x17, 0x7a, 0x9c, 0xb4, 0x10, 0xff, 0x61, 0xf2, 0x00, 0x15, 0xad] := by
  decide +kernel

end Sys2Proof.Tests
end

section
/-! What a step of the part leaves alone, and what the work on one actor can change: frames for the steps that deliver, dispatch and release. -/

namespace Sys2Proof.Machine

open Sys2Proof.Safety

/-! ## Frames -/

/-- Work at the core in focus that leaves every context and every other core as they were. -/
structure Still (s t : State) : Prop where
  here : t.here = s.here
  ctxs : t.hereCore.ctxs = s.hereCore.ctxs
  other : ∀ c, c ≠ s.here → t.core c = s.core c

/-- As `Still`, with the context in focus, the time and the memories of the module as they were. -/
structure Calm (s t : State) : Prop extends Still s t where
  cx : t.cx = s.cx
  time : t.time = s.time
  store : StoreKept s t

/-- As `Calm`, with the scratchpad as it was. -/
structure Quiet (s t : State) : Prop extends Calm s t where
  pad : t.hereCore.pad = s.hereCore.pad
  full : t.hereCore.full = s.hereCore.full

theorem storeKept_refl (s : State) : StoreKept s s := ⟨fun _ => rfl, rfl, rfl, rfl, rfl⟩

theorem storeKept_trans {s t u : State} (h : StoreKept s t) (g : StoreKept t u) : StoreKept s u := by
  obtain ⟨h1, h2, h3, h4, h5⟩ := h
  obtain ⟨g1, g2, g3, g4, g5⟩ := g
  exact ⟨fun b => (g1 b).trans (h1 b), g2.trans h2, g3.trans h3, g4.trans h4, g5.trans h5⟩

theorem Still.refl (s : State) : Still s s := ⟨rfl, rfl, fun _ _ => rfl⟩

theorem Still.trans {s t u : State} (h : Still s t) (g : Still t u) : Still s u where
  here := g.here.trans h.here
  ctxs := g.ctxs.trans h.ctxs
  other c hc := (g.other c (h.here ▸ hc)).trans (h.other c hc)

theorem Calm.refl (s : State) : Calm s s := ⟨.refl s, rfl, rfl, storeKept_refl s⟩

theorem Quiet.refl (s : State) : Quiet s s := ⟨.refl s, rfl, rfl⟩

theorem Calm.trans {s t u : State} (h : Calm s t) (g : Calm t u) : Calm s u where
  toStill := h.toStill.trans g.toStill
  cx := g.cx.trans h.cx
  time := g.time.trans h.time
  store := storeKept_trans h.store g.store

theorem Quiet.trans {s t u : State} (h : Quiet s t) (g : Quiet t u) : Quiet s u :=
  ⟨h.toCalm.trans g.toCalm, g.pad.trans h.pad, g.full.trans h.full⟩

/-- What changes no core, no base and no memory is quiet. -/
theorem Quiet.of_same {s t : State} (hh : t.here = s.here) (hx : t.cx = s.cx) (ht : t.time = s.time) (hc : t.cores = s.cores)
    (hb : t.bases = s.bases) (hm : t.hostMem = s.hostMem) (hd : t.depot = s.depot) (hl : t.leaves = s.leaves) (hp : t.caps = s.caps) : Quiet s t := by
  have core : ∀ c, t.core c = s.core c := fun c => by unfold State.core; rw [hc]
  have here : t.hereCore = s.hereCore := by unfold State.hereCore; rw [hh, core]
  exact ⟨⟨⟨hh, by rw [here], fun c _ => core c⟩, hx, ht, fun b => by unfold State.base; rw [hb], hm, hd, hl, hp⟩, by rw [here], by rw [here]⟩

theorem State.core_setHere_ne (s : State) (k : Core) {c : CoreId} (h : c ≠ s.here) : (s.setHere k).core c = s.core c := State.core_setCore_ne s h k

theorem Calm.setHere (s : State) {k : Core} (h : k.ctxs = s.hereCore.ctxs) : Calm s (s.setHere k) where
  here := rfl
  cx := rfl
  time := rfl
  ctxs := by rw [State.hereCore_setHere, h]
  other c hc := s.core_setHere_ne k hc
  store := storeKept_refl s

theorem Quiet.setHere (s : State) {k : Core} (h : k.ctxs = s.hereCore.ctxs) (hp : k.pad = s.hereCore.pad) (hf : k.full = s.hereCore.full) : Quiet s (s.setHere k) :=
  ⟨.setHere s h, by rw [State.hereCore_setHere, hp], by rw [State.hereCore_setHere, hf]⟩

theorem Quiet.setBase (s : State) (b : Nat) {k : Base} (h : k.dram = (s.base b).dram) : Quiet s (s.setBase b k) := by
  refine ⟨⟨⟨rfl, rfl, fun _ _ => rfl⟩, rfl, rfl, fun c => ?_, rfl, rfl, rfl, rfl⟩, rfl, rfl⟩
  by_cases e : c = b
  · rw [e, State.base_setBase, h]
  · rw [State.base_setBase_ne s e]

theorem Quiet.setActorAt (s : State) (k : BitVec 4) (a : Actor) : Quiet s (s.setActorAt k a) := .setHere s rfl rfl rfl

theorem Quiet.setDevice (s : State) (k : BitVec 4) (a : Actor) : Quiet s (s.setDevice k a) := .setActorAt s k _

theorem Quiet.count (s : State) (o : Nat) : Quiet s (s.count o) := .of_same rfl rfl rfl rfl rfl rfl rfl rfl rfl

theorem Quiet.post (s : State) (st : Nat) (v : Word) (p : Packet) : Quiet s (s.post st v p) := .of_same rfl rfl rfl rfl rfl rfl rfl rfl rfl

theorem Quiet.postMsg (s : State) (st : Nat) (d : Dest) (m : Msg) : Quiet s (s.postMsg st d m) := .post ..

theorem Quiet.call (s : State) (k : BitVec 4) (key : Key) (q : Bool) : Quiet s (s.call k key q) := .setHere s rfl rfl rfl

theorem Quiet.tick (s : State) (n : Nat) : Quiet s { s with tick := n } := .of_same rfl rfl rfl rfl rfl rfl rfl rfl rfl

theorem Quiet.setLogged (s : State) (k : BitVec 4) (a : Actor) : Quiet s (s.setLogged k a) := by
  refine (Quiet.setActorAt s k a).trans (.setBase _ _ rfl)

/-- The counts of a core's directory brought up to date change its directory, its state entries and its shapes. -/
theorem State.syncDir_eq (s : State) (c : CoreId) : ∃ d i h, s.syncDir c = s.setCore c { s.core c with dir := d, itab := i, shapes := h } := ⟨_, _, _, rfl⟩

theorem Quiet.syncDir (s : State) : Quiet s (s.syncDir s.here) := by
  obtain ⟨d, i, h, e⟩ := s.syncDir_eq s.here
  rw [e]
  exact .setHere s rfl rfl rfl

/-! ### What the frames say of the statements' words -/

theorem Still.otherCores {s t : State} (h : Still s t) : OtherCores s t s.here := h.other

theorem Still.core_ctxs {s t : State} (h : Still s t) (c : CoreId) : (t.core c).ctxs = (s.core c).ctxs := by
  by_cases e : c = s.here
  · have := h.ctxs
    unfold State.hereCore at this
    rw [h.here] at this
    rw [e, this]
  · rw [h.other c e]

theorem Still.ctxOn_eq {s t : State} (h : Still s t) (c : CoreId) (x : BitVec 2) : ctxOn t c x = ctxOn s c x := by
  show (t.core c).ctxs[x.toNat] = (s.core c).ctxs[x.toNat]
  simp only [h.core_ctxs c]

theorem Still.ctxAt_eq {s t : State} (h : Still s t) (x : BitVec 2) : t.ctxAt x = s.ctxAt x := by
  show (t.core t.here).ctxs[x.toNat] = (s.core s.here).ctxs[x.toNat]
  simp only [h.here, h.core_ctxs]

theorem Calm.ctx_eq {s t : State} (h : Calm s t) : t.ctx = s.ctx := by
  show t.ctxAt t.cx = s.ctxAt s.cx
  rw [h.cx, h.ctxAt_eq]

theorem Still.regsKept {s t : State} (h : Still s t) : RegsKept s t := fun c x => by rw [h.ctxOn_eq]

theorem Quiet.padsKept {s t : State} (h : Quiet s t) : PadsKept s t := fun c => by
  by_cases e : c = s.here
  · have hp := h.pad
    have hf := h.full
    unfold State.hereCore at hp hf
    rw [h.here] at hp hf
    rw [e, hp, hf]; exact ⟨rfl, rfl⟩
  · rw [h.other c e]; exact ⟨rfl, rfl⟩

/-- Contexts woken: no register of any has changed. -/
theorem Still.regsKept_wakeHere {s t : State} (h : Still s t) : RegsKept s t.wakeHere := fun c x => by
  have key : ∃ w, ctxOn t.wakeHere c x = { ctxOn t c x with wait := w } := by
    by_cases e : c = t.here
    · subst e; exact ⟨_, t.wakeHere_ctxAt x⟩
    · exact ⟨(ctxOn t c x).wait, by
        show (t.wakeHere.core c).ctxs[x.toNat] = (t.core c).ctxs[x.toNat]
        simp only [State.wakeHere, t.core_setHere_ne _ e]⟩
  obtain ⟨w, hw⟩ := key
  rw [hw, h.ctxOn_eq]

theorem padsKept_wakeHere {s t : State} (h : PadsKept s t) : PadsKept s t.wakeHere := fun c => by
  by_cases e : c = t.here
  · have : t.wakeHere.core c = { t.core c with ctxs := (t.wakeHere.core c).ctxs } := by
      subst e; show t.wakeHere.hereCore = _; simp [State.wakeHere, State.hereCore, State.setHere]
    rw [this]; exact h c
  · rw [show t.wakeHere.core c = t.core c from t.core_setHere_ne _ e]; exact h c

end Sys2Proof.Machine
end

section
namespace Sys2Proof.Machine
open Sys2Proof.Safety

/-! ## What tends an actor: its log, its slots, what waits for them -/

theorem State.actorAt_eq_of_here {s t : State} (h : t.hereCore.actors = s.hereCore.actors) (k : BitVec 4) : t.actorAt k = s.actorAt k := by
  unfold State.actorAt; rw [h]

theorem State.core_setActorAt (s : State) (k : BitVec 4) (a : Actor) :
    (s.setActorAt k a).hereCore = { s.hereCore with actors := put k.toNat a s.hereCore.actors } := by
  unfold State.setActorAt; rw [State.hereCore_setHere]

/-- The device has tended the actor in a slot of the core in focus: messages and records of it have moved between its box, its log, its zones and its home base, and rollbacks may have been called for. -/
structure Tended (k : BitVec 4) (s t : State) : Prop where
  rest : t = { s with cores := t.cores, bases := t.bases }
  core : t.hereCore = { s.hereCore with actors := t.hereCore.actors, pad := t.hereCore.pad, full := t.hereCore.full, fullFog := t.hereCore.fullFog,
                                        badPad := t.hereCore.badPad, called := t.hereCore.called }
  other : ∀ c, c ≠ s.here → t.core c = s.core c
  base : ∀ b, t.base b = { s.base b with spills := (t.base b).spills, waiting := (t.base b).waiting }
  actor : t.actorAt k = { s.actorAt k with box := (t.actorAt k).box, log := (t.actorAt k).log, logNext := (t.actorAt k).logNext }
  others : ∀ j, j ≠ k → t.actorAt j = s.actorAt j
  direct : ∀ h ∈ (t.actorAt k).box, h.direct = false ∨ ∃ y ∈ (s.actorAt k).box, y.ep = h.ep ∧ y.direct = h.direct

theorem Tended.refl (k : BitVec 4) (s : State) : Tended k s s :=
  ⟨rfl, rfl, fun _ _ => rfl, fun _ => rfl, rfl, fun _ _ => rfl, fun h hm => .inr ⟨h, hm, rfl, rfl⟩⟩

theorem Tended.here {k : BitVec 4} {s t : State} (h : Tended k s t) : t.here = s.here := by rw [h.rest]

theorem Tended.trans {k : BitVec 4} {s t u : State} (h : Tended k s t) (g : Tended k t u) : Tended k s u where
  rest := by rw [g.rest, h.rest]
  core := by rw [g.core, h.core]
  other c hc := (g.other c (h.here ▸ hc)).trans (h.other c hc)
  base b := by rw [g.base, h.base]
  actor := by rw [g.actor, h.actor]
  others j hj := (g.others j hj).trans (h.others j hj)
  direct x hx := by
    rcases g.direct x hx with hd | ⟨y, hy, he, hd⟩
    · exact .inl hd
    · rcases h.direct y hy with hz | ⟨z, hz, hze, hzd⟩
      · exact .inl (hd ▸ hz)
      · exact .inr ⟨z, hz, hze.trans he, hzd.trans hd⟩

theorem Tended.calm {k : BitVec 4} {s t : State} (h : Tended k s t) : Calm s t where
  here := by rw [h.rest]
  cx := by rw [h.rest]
  time := by rw [h.rest]
  ctxs := by rw [h.core]
  other := h.other
  store := ⟨fun b => by rw [h.base], by rw [h.rest], by rw [h.rest], by rw [h.rest], by rw [h.rest]⟩

theorem Tended.ep {k : BitVec 4} {s t : State} (h : Tended k s t) (e : BitVec 4) : (t.actorAt k).ep e = (s.actorAt k).ep e := by
  rw [h.actor]; rfl

theorem Tended.auxOf {k : BitVec 4} {s t : State} (h : Tended k s t) (e : BitVec 4) : (t.actorAt k).auxOf e = (s.actorAt k).auxOf e := by
  rw [h.actor]; rfl

/-- A core whose memory, full bits or calls alone have changed. -/
theorem Tended.setHere (k : BitVec 4) (s : State) {c : Core}
    (h : c = { s.hereCore with pad := c.pad, full := c.full, fullFog := c.fullFog, badPad := c.badPad, called := c.called }) : Tended k s (s.setHere c) := by
  have act : ∀ j, (s.setHere c).actorAt j = s.actorAt j := State.actorAt_eq_of_here (by rw [State.hereCore_setHere, h])
  refine ⟨rfl, ?_, fun d hd => s.core_setHere_ne c hd, fun _ => rfl, by rw [act], fun j _ => act j, fun x hx => .inr ⟨x, act k ▸ hx, rfl, rfl⟩⟩
  rw [State.hereCore_setHere]; rw [h]

/-- An actor whose box and log alone have changed. -/
theorem Tended.setActorAt (k : BitVec 4) (s : State) {a : Actor} (h : a = { s.actorAt k with box := a.box, log := a.log, logNext := a.logNext })
    (hd : ∀ x ∈ a.box, x.direct = false ∨ ∃ y ∈ (s.actorAt k).box, y.ep = x.ep ∧ y.direct = x.direct) : Tended k s (s.setActorAt k a) := by
  refine ⟨rfl, ?_, fun c hc => s.core_setHere_ne _ hc, fun _ => rfl, ?_, fun j hj => State.actorAt_setActorAt_ne hj s a, ?_⟩
  · rw [State.core_setActorAt]
  · rw [State.actorAt_setActorAt]; exact h
  · rw [State.actorAt_setActorAt]; exact hd

/-- A base whose spilled units and waiting messages alone have changed. -/
theorem Tended.setBase (k : BitVec 4) (s : State) (b : Nat) {x : Base} (h : x = { s.base b with spills := x.spills, waiting := x.waiting }) :
    Tended k s (s.setBase b x) := by
  refine ⟨rfl, rfl, fun _ _ => rfl, fun c => ?_, rfl, fun _ _ => rfl, fun y hy => .inr ⟨y, hy, rfl, rfl⟩⟩
  by_cases e : c = b
  · subst e; rw [State.base_setBase]; exact h
  · rw [State.base_setBase_ne s e]

theorem Tended.setLogged (k : BitVec 4) (s : State) {a : Actor} (h : a = { s.actorAt k with box := a.box, log := a.log, logNext := a.logNext })
    (hd : ∀ x ∈ a.box, x.direct = false ∨ ∃ y ∈ (s.actorAt k).box, y.ep = x.ep ∧ y.direct = x.direct) : Tended k s (s.setLogged k a) :=
  (Tended.setActorAt k s h hd).trans (.setBase k _ _ rfl)

theorem Tended.call (k : BitVec 4) (s : State) (j : BitVec 4) (key : Key) (q : Bool) : Tended k s (s.call j key q) := .setHere k s rfl

/-- Payloads written at their slots: the memory and the full bits alone change. -/
theorem Core.foldl_landed (l : List Held) (k : Core) :
    l.foldl Core.landed k = { k with pad := (l.foldl Core.landed k).pad, badPad := (l.foldl Core.landed k).badPad, full := (l.foldl Core.landed k).full,
                                     fullFog := (l.foldl Core.landed k).fullFog, called := (l.foldl Core.landed k).called } := by
  induction l generalizing k with
  | nil => rfl
  | cons h l ih => rw [List.foldl_cons, ih]; rfl

theorem State.logHeld_tended {s : State} {k : BitVec 4} {r : LogRec} {l : List Byte} {x : State × Nat} (h : s.logHeld k r l = some x) : Tended k s x.1 := by
  unfold State.logHeld at h
  split at h
  · rename_i a base e
    have ha := Actor.record_eq e
    have hb : a.box = (s.actorAt k).box := by rw [ha]
    have t1 : Tended k s (s.setLogged k a) := .setLogged k s (by rw [ha]) fun y hy => .inr ⟨y, hb ▸ hy, rfl, rfl⟩
    obtain rfl := Option.some.inj h
    dsimp only
    split
    · split
      · exact t1.trans (.setHere k _ rfl)
      · exact t1
    · exact t1
  · cases h

theorem State.fetchBack_tended (s : State) (k : BitVec 4) : Tended k s (s.fetchBack k) := by
  unfold State.fetchBack
  generalize List.filterMap _ (s.actorAt k).log = far
  dsimp only
  induction far generalizing s with
  | nil => exact .refl k s
  | cons x l ih =>
    rw [List.foldl_cons]
    refine Tended.trans ?_ (ih _)
    split
    · exact .refl k s
    · rename_i u addr e
      split
      · split
        · exact .refl k s
        · refine (State.logHeld_tended e).trans (.setLogged k u rfl fun y hy => ?_)
          obtain ⟨z, hz, rfl⟩ := List.mem_map.1 hy
          refine .inr ⟨z, hz, ?_⟩
          split <;> exact ⟨rfl, rfl⟩
      · exact .refl k s

/-- Messages that find their slots keep their endpoint, and whether they came directly. -/
theorem Actor.mem_placeWaiting {a : Actor} {l done : List Held} {h : Held} (hm : h ∈ a.placeWaiting done l) :
    ∃ y ∈ done ++ l, y.ep = h.ep ∧ y.direct = h.direct := by
  induction l generalizing done with
  | nil => exact ⟨h, by simpa [Actor.placeWaiting] using hm, rfl, rfl⟩
  | cons x l ih =>
    unfold Actor.placeWaiting at hm
    split at hm
    · obtain ⟨y, hy, e⟩ := ih hm
      rcases List.mem_append.1 hy with hy | hy
      · rcases List.mem_append.1 hy with hy | hy
        · exact ⟨y, List.mem_append_left _ hy, e⟩
        · obtain rfl := List.mem_singleton.1 hy
          exact ⟨x, by simp, e⟩
      · exact ⟨y, by simp [hy], e⟩
    · obtain ⟨y, hy, e⟩ := ih hm
      exact ⟨y, by simpa using hy, e⟩

theorem Actor.fetchHome_direct (now : Nat) (l : List Waiting) (a : Actor) :
    ∀ h ∈ (Actor.fetchHome now l a).1.box, h ∈ a.box ∨ h.direct = false := by
  induction l generalizing a with
  | nil => exact fun h hm => .inl hm
  | cons w l ih =>
    intro h hm
    unfold Actor.fetchHome at hm
    split at hm
    · rcases ih _ h hm with hm | hd
      · rcases List.mem_append.1 hm with hm | hm
        · exact .inl hm
        · obtain rfl := List.mem_singleton.1 hm; exact .inr rfl
      · exact .inr hd
    · exact ih a h hm

theorem Actor.takeIn_actor (a : Actor) (b : Base) (now : Nat) :
    (a.takeIn b now).1 = { a with box := (a.takeIn b now).1.box } ∧
      ∀ h ∈ (a.takeIn b now).1.box, h.direct = false ∨ ∃ y ∈ a.box, y.ep = h.ep ∧ y.direct = h.direct := by
  constructor
  · obtain ⟨new, e, -, -⟩ := Actor.fetchHome_cases now b.waiting { a with box := a.placeWaiting [] a.box }
    show (Actor.fetchHome now b.waiting _).1 = { a with box := (Actor.fetchHome now b.waiting _).1.box }
    rw [e]
  · intro h hm
    rcases Actor.fetchHome_direct now b.waiting _ h hm with hm | hd
    · exact .inr (by simpa using Actor.mem_placeWaiting hm)
    · exact .inl hd

theorem Tended.foldl_call (k : BitVec 4) (l : List Held) (s : State) :
    Tended k s (l.foldl (fun t h => if t.straggles k h.msg.hdr.key then t.call k h.msg.hdr.key false else t) s) := by
  induction l generalizing s with
  | nil => exact .refl k s
  | cons h l ih =>
    refine Tended.trans ?_ (ih _)
    dsimp only
    split
    · exact .call k s _ _ _
    · exact .refl k s

/-- Taking in what waits for a slot tends the actor, and nothing else. -/
theorem State.settle_tended (s : State) (k : BitVec 4) : Tended k s (s.settle k) := by
  refine (s.fetchBack_tended k).trans ?_
  unfold State.settle
  generalize s.fetchBack k = t
  dsimp only
  obtain ⟨ha, hd⟩ := (t.actorAt k).takeIn_actor (t.base (homeOf (t.actorAt k).aid)) t.time
  refine Tended.trans ?_ (Tended.foldl_call k _ _)
  refine ((Tended.setActorAt k t (by rw [ha]) hd).trans (.setBase k _ _ rfl)).trans (.setHere k _ ?_)
  exact Core.foldl_landed _ _

/-! ### An actor for which nothing waits (R329, R348, R367) -/

theorem Actor.placeWaiting_placed {a : Actor} {l : List Held} (h : ∀ x ∈ l, x.place ≠ .waiting) (done : List Held) : a.placeWaiting done l = done ++ l := by
  induction l generalizing done with
  | nil => simp [Actor.placeWaiting]
  | cons x l ih =>
    unfold Actor.placeWaiting
    rw [if_neg (h x (by simp))]
    dsimp only
    rw [ih fun y hy => h y (List.mem_cons_of_mem _ hy)]
    simp

theorem Actor.fetchHome_none {now : Nat} {l : List Waiting} {a : Actor} (h : ∀ w ∈ l, w.who ≠ a.aid) : Actor.fetchHome now l a = (a, l) := by
  induction l with
  | nil => rfl
  | cons w l ih =>
    unfold Actor.fetchHome
    rw [if_neg (h w (by simp)), ih fun v hv => h v (List.mem_cons_of_mem _ hv)]

theorem Actor.takeIn_none {a : Actor} {b : Base} {now : Nat} (h : ∀ x ∈ a.box, x.place ≠ .waiting) (hw : ∀ w ∈ b.waiting, w.who ≠ a.aid) :
    a.takeIn b now = (a, [], b.waiting) := by
  have hz : ((a.box.zip a.box).filterMap fun x => if x.1.place = .waiting ∧ x.2.place ≠ .waiting then some x.2 else none) = [] := by
    refine List.filterMap_eq_nil_iff.2 fun x hx => if_neg fun e => h x.1 (List.of_mem_zip hx).1 e.1
  unfold Actor.takeIn
  simp only [Actor.placeWaiting_placed h, List.nil_append, Actor.fetchHome_none hw, hz, List.drop_length]

theorem State.fetchBack_none {s : State} {k : BitVec 4} (h : ∀ p ∈ (s.actorAt k).log, p.spilled = true → ∀ x, p.entry ≠ .returned x) : s.fetchBack k = s := by
  unfold State.fetchBack
  have : ∀ f : Placed → Option (Placed × Held), (∀ p ∈ (s.actorAt k).log, f p = none) → (s.actorAt k).log.filterMap f = [] :=
    fun f hf => List.filterMap_eq_nil_iff.2 hf
  dsimp only
  rw [this]
  · rfl
  · intro p hp
    split
    · rename_i x e
      rw [if_neg fun hs => h p hp hs x e]
    · rfl

/-- Where nothing waits for the actor, taking in leaves it as it is. -/
theorem State.settle_atRest {s : State} {k : BitVec 4} (h : AtRest s (s.actorAt k)) :
    s.settle k = (s.setActorAt k (s.actorAt k)).setBase (homeOf (s.actorAt k).aid) (s.base (homeOf (s.actorAt k).aid)) := by
  obtain ⟨hb, hw, hl⟩ := h
  unfold State.settle
  rw [State.fetchBack_none hl]
  dsimp only
  rw [Actor.takeIn_none hb hw]
  simp [State.setHere, State.setActorAt, State.setBase, State.setCore, State.hereCore, State.core]

theorem State.settle_atRest_quiet {s : State} {k : BitVec 4} (h : AtRest s (s.actorAt k)) : Quiet s (s.settle k) := by
  rw [State.settle_atRest h]
  exact (Quiet.setActorAt ..).trans (.setBase _ _ rfl)

theorem State.settle_atRest_actorAt {s : State} {k : BitVec 4} (h : AtRest s (s.actorAt k)) : (s.settle k).actorAt k = s.actorAt k := by
  rw [State.settle_atRest h]
  exact State.actorAt_setActorAt_same s k _

end Sys2Proof.Machine
end

section
namespace Sys2Proof.Machine
open Sys2Proof.Safety

/-! ## Endpoints of an actor -/

theorem Actor.ep_setEp (a : Actor) (e j : BitVec 4) (r : EpRec) : (a.setEp e r).ep j = if j = e then r else a.ep j := by
  unfold Actor.ep Actor.setEp
  split
  · next h => subst h; exact Vector.getElem_set_self _
  · next h => exact Vector.getElem_set_ne e.isLt j.isLt fun g => h (BitVec.eq_of_toNat_eq g.symm)

@[simp] theorem Actor.ep_setEp_same (a : Actor) (e : BitVec 4) (r : EpRec) : (a.setEp e r).ep e = r := by rw [Actor.ep_setEp, if_pos rfl]

theorem Actor.auxOf_setAux (a : Actor) (e j : BitVec 4) (x : EpAux) : (a.setAux e x).auxOf j = if j = e then x else a.auxOf j := by
  unfold Actor.auxOf Actor.setAux
  split
  · next h => subst h; exact Vector.getElem_set_self _
  · next h => exact Vector.getElem_set_ne e.isLt j.isLt fun g => h (BitVec.eq_of_toNat_eq g.symm)

@[simp] theorem Actor.auxOf_setAux_same (a : Actor) (e : BitVec 4) (x : EpAux) : (a.setAux e x).auxOf e = x := by rw [Actor.auxOf_setAux, if_pos rfl]

@[simp] theorem Actor.auxOf_setEp (a : Actor) (e j : BitVec 4) (r : EpRec) : (a.setEp e r).auxOf j = a.auxOf j := rfl
@[simp] theorem Actor.ep_freeRun (a : Actor) (e j : BitVec 4) : (a.freeRun e).ep j = a.ep j := rfl
@[simp] theorem Actor.run_freeRun (a : Actor) (e : BitVec 4) : ((a.freeRun e).auxOf e).run = none := by
  unfold Actor.freeRun; rw [Actor.auxOf_setAux_same]

@[simp] theorem Actor.carry_ep (old now : Actor) (e : BitVec 4) : (old.carry now).ep e = now.ep e := rfl
@[simp] theorem Actor.carry_auxOf (old now : Actor) (e : BitVec 4) : (old.carry now).auxOf e = now.auxOf e := rfl
@[simp] theorem Actor.carry_box (old now : Actor) : (old.carry now).box = now.box := rfl
@[simp] theorem Actor.carry_retired (old now : Actor) : (old.carry now).retired = now.retired := rfl

/-- A carried log holds no returned message that it did not hold. -/
theorem Actor.returned_of_carry {old now : Actor} {p : Placed} {h : Held} (hp : p ∈ (old.carry now).log) (he : p.entry = .returned h) : p ∈ now.log := by
  obtain ⟨q, hq, rfl⟩ := List.mem_map.1 hp
  revert he
  split
  · exact fun he => by cases he
  · exact fun _ => hq

/-! ## Actors of the core in focus -/

@[simp] theorem State.actorAt_setDevice (s : State) (k : BitVec 4) (a : Actor) : (s.setDevice k a).actorAt k = (s.actorAt k).carry a := State.actorAt_setActorAt_same s k _
@[simp] theorem State.actorAt_count (s : State) (o : Nat) (k : BitVec 4) : (s.count o).actorAt k = s.actorAt k := rfl
@[simp] theorem State.actorAt_postMsg (s : State) (st : Nat) (d : Dest) (m : Msg) (k : BitVec 4) : (s.postMsg st d m).actorAt k = s.actorAt k := rfl

theorem State.actorAt_setHere (s : State) {c : Core} (h : c.actors = s.hereCore.actors) (k : BitVec 4) : (s.setHere c).actorAt k = s.actorAt k :=
  State.actorAt_eq_of_here (by rw [State.hereCore_setHere, h]) k

@[simp] theorem State.actorAt_call (s : State) (j : BitVec 4) (key : Key) (q : Bool) (k : BitVec 4) : (s.call j key q).actorAt k = s.actorAt k := State.actorAt_setHere s (by rfl) k
@[simp] theorem State.actorAt_wakeHere (s : State) (k : BitVec 4) : s.wakeHere.actorAt k = s.actorAt k := State.actorAt_setHere s (by rfl) k

@[simp] theorem State.actorAt_syncDir (s : State) (k : BitVec 4) : (s.syncDir s.here).actorAt k = s.actorAt k := by
  obtain ⟨d, i, h, e⟩ := s.syncDir_eq s.here
  rw [e]; exact State.actorAt_setHere s (by rfl) k

/-! ## A step at the core that a packet has reached -/

/-- The module once a station has taken a packet, with the focus on the core where it is for. -/
def State.arrived (s : State) (n st : Nat) (c : CoreId) : State := { s.take n st with here := c }

theorem State.arrived_eq (s : State) (n st : Nat) (c : CoreId) : ∃ m r e,
    s.arrived n st c = { s with here := c, flight := s.flight.eraseIdx n, stations := m, round := r, early := e } := by
  obtain ⟨m, r, e, h⟩ := s.take_rest n st
  exact ⟨m, r, e, by unfold State.arrived; rw [h]⟩

theorem State.take_at (s : State) (n st : Nat) (c : CoreId) (f : State → State) :
    (s.take n st).at c (s.take n st).cx f = { f (s.arrived n st c) with here := (s.take n st).here, cx := (s.take n st).cx } := rfl

section
variable (s : State) (n st : Nat) (c : CoreId)

@[simp] theorem State.arrived_flight : (s.arrived n st c).flight = s.flight.eraseIdx n := by obtain ⟨m, r, e, h⟩ := s.arrived_eq n st c; rw [h]
@[simp] theorem State.arrived_mgmt : (s.arrived n st c).mgmt = s.mgmt := by obtain ⟨m, r, e, h⟩ := s.arrived_eq n st c; rw [h]
@[simp] theorem State.arrived_time : (s.arrived n st c).time = s.time := by obtain ⟨m, r, e, h⟩ := s.arrived_eq n st c; rw [h]
@[simp] theorem State.arrived_hereCore : (s.arrived n st c).hereCore = s.core c := by obtain ⟨m, r, e, h⟩ := s.arrived_eq n st c; rw [h]; rfl
@[simp] theorem State.arrived_base (b : Nat) : (s.arrived n st c).base b = s.base b := by obtain ⟨m, r, e, h⟩ := s.arrived_eq n st c; rw [h]; rfl
@[simp] theorem State.arrived_actorAt (k : BitVec 4) : (s.arrived n st c).actorAt k = s.residentAt ⟨c, k⟩ := by obtain ⟨m, r, e, h⟩ := s.arrived_eq n st c; rw [h]; rfl
@[simp] theorem State.take_locOf (a : AId) : (s.take n st).locOf a = s.locOf a := by obtain ⟨m, r, e, h⟩ := s.take_rest n st; rw [h]; rfl

variable {s n st c}

theorem Calm.arrived {v : State} (h : Calm (s.arrived n st c) v) (d : CoreId) (x : BitVec 2) :
    RegsKept s { v with here := d, cx := x } ∧ StoreKept s { v with here := d, cx := x } ∧ OtherCores s { v with here := d, cx := x } c := by
  obtain ⟨m, r, e, g⟩ := s.arrived_eq n st c
  rw [g] at h
  exact ⟨h.regsKept, h.store, h.otherCores⟩

theorem Quiet.arrived_padsKept {v : State} (h : Quiet (s.arrived n st c) v) (d : CoreId) (x : BitVec 2) : PadsKept s { v with here := d, cx := x } := by
  obtain ⟨m, r, e, g⟩ := s.arrived_eq n st c
  rw [g] at h
  exact h.padsKept

/-- The same with the contexts of the core woken. -/
theorem Calm.arrived_wakeHere {v : State} (h : Calm (s.arrived n st c) v) (d : CoreId) (x : BitVec 2) :
    RegsKept s { v.wakeHere with here := d, cx := x } ∧ StoreKept s { v.wakeHere with here := d, cx := x } ∧ OtherCores s { v.wakeHere with here := d, cx := x } c := by
  obtain ⟨m, r, e, g⟩ := s.arrived_eq n st c
  rw [g] at h
  refine ⟨h.regsKept_wakeHere, h.store, fun j hj => ?_⟩
  have : j ≠ v.here := by rw [h.here]; exact hj
  exact (v.core_setHere_ne _ this).trans (h.other j hj)

theorem Quiet.arrived_padsKept_wakeHere {v : State} (h : Quiet (s.arrived n st c) v) (d : CoreId) (x : BitVec 2) : PadsKept s { v.wakeHere with here := d, cx := x } := by
  obtain ⟨m, r, e, g⟩ := s.arrived_eq n st c
  rw [g] at h
  exact padsKept_wakeHere h.padsKept

end

theorem State.residentAt_at {v : State} {l : Loc} (h : v.here = l.core) (d : CoreId) (x : BitVec 2) : State.residentAt { v with here := d, cx := x } l = v.actorAt l.slot := by
  unfold State.residentAt State.actorAt State.hereCore
  rw [h]; rfl

/-! ## A message at its actor (R32, R177, R205) -/

section
variable {s : State} {k e : BitVec 4} {fwd : Bool} {m : Msg} {a : Actor}

/-- Where no anti-message waits, none is found for a message. -/
theorem State.antiFor_none (hc : s.hereCore.antis = []) (hb : (s.base (homeOf (s.actorAt k).aid)).heldAntis = []) (hl : (s.actorAt k).logAnti m.hdr.key = false) :
    s.antiFor k m = none := by
  unfold State.antiFor
  simp [hc, hb, hl, antiOf]

/-- Nothing at the actor in slot k keeps a message from its endpoint: no anti-message waits for it, the actor is not retired, and no table of the core is in error. -/
structure Open (s : State) (k : BitVec 4) (key : Key) : Prop where
  core : s.hereCore.antis = []
  home : (s.base (homeOf (s.actorAt k).aid)).heldAntis = []
  log : (s.actorAt k).logAnti key = false
  alive : (s.actorAt k).retired = false
  sound : s.hereCore.badItins = []

/-- The state in which a message lands: a free value has been drawn. -/
def State.ticked (s : State) : State := { s with tick := s.tick + 1 }

theorem Quiet.ticked (s : State) : Quiet s s.ticked := .of_same rfl rfl rfl rfl rfl rfl rfl rfl rfl
@[simp] theorem State.ticked_actorAt (s : State) (k : BitVec 4) : s.ticked.actorAt k = s.actorAt k := rfl
@[simp] theorem State.ticked_hereCore (s : State) : s.ticked.hereCore = s.hereCore := rfl
@[simp] theorem State.ticked_flight (s : State) : s.ticked.flight = s.flight := rfl

theorem State.arrived_armedAt (s : State) (n st : Nat) (c : CoreId) (k : BitVec 4) : (s.arrived n st c).ticked.armedAt k = State.armedAt { s with here := c, tick := s.tick + 1 } k := by
  obtain ⟨m, r, e, h⟩ := s.arrived_eq n st c; rw [h]; rfl

theorem Open.antiFor (h : Open s k m.hdr.key) : s.ticked.antiFor k m = none := State.antiFor_none h.core h.home h.log

theorem Open.deliver_keep {h : Held} (o : Open s k m.hdr.key) (hl : (s.actorAt k).land e fwd m s.time (s.ticked.armedAt k) = .keep h) :
    s.deliver k e fwd m = (s.ticked.hold k h).wakeHere := by
  have ha := o.antiFor
  unfold State.ticked at ha hl ⊢
  unfold State.deliver
  simp only [ha, o.alive, hl]
  simp [show State.hereCore { s with tick := s.tick + 1 } = s.hereCore from rfl, o.sound]

theorem Open.deliver_gone (o : Open s k m.hdr.key) (hl : (s.actorAt k).land e fwd m s.time (s.ticked.armedAt k) = .gone) :
    s.deliver k e fwd m = s.ticked.discardAt k m := by
  have ha := o.antiFor
  unfold State.ticked at ha hl ⊢
  unfold State.deliver
  simp only [ha, o.alive, hl]
  simp [show State.hereCore { s with tick := s.tick + 1 } = s.hereCore from rfl, o.sound]

theorem Open.deliver_full (o : Open s k m.hdr.key) (hd : (s.actorAt k).disc ≠ .timed) (hl : (s.actorAt k).land e fwd m s.time (s.ticked.armedAt k) = .full) :
    s.deliver k e fwd m =
      let t := (s.ticked.discardAt k m).closeHere k e 0x0CF
      t.setActorAt k { t.actorAt k with fullAt := some t.time } := by
  have ha := o.antiFor
  unfold State.ticked at ha hl ⊢
  unfold State.deliver
  simp only [ha, o.alive, hl]
  simp [show State.hereCore { s with tick := s.tick + 1 } = s.hereCore from rfl, o.sound, hd]

end

end Sys2Proof.Machine
end

section
namespace Sys2Proof.Machine
open Sys2Proof.Safety

theorem State.core_at {v : State} {c : CoreId} (h : v.here = c) (d : CoreId) (x : BitVec 2) : State.core { v with here := d, cx := x } c = v.hereCore := by
  subst h; rfl

/-! ### A message put into its buffer -/

@[simp] theorem Actor.note_box (a : Actor) (e : BitVec 4) (m : Msg) : (a.note e m).box = a.box := by
  unfold Actor.note; split <;> rfl

theorem State.hold_eq {s : State} {k : BitVec 4} {h : Held} (hw : h.place ≠ .waiting) :
    let a := s.actorAt k
    let t := s.setDevice k ({ a with box := a.box ++ [h] }.note h.ep h.msg)
    s.hold k h = t.setHere (t.hereCore.landed h) ∨ s.hold k h = (t.setHere (t.hereCore.landed h)).call k h.msg.hdr.key false := by
  unfold State.hold
  dsimp only
  rw [if_neg hw]
  split
  · exact .inr rfl
  · exact .inl rfl

/-- A message with a slot stands last in the box of its actor, its payload at the slot; nothing is sent, and no register changes. -/
theorem State.hold_placed {s : State} {k : BitVec 4} {h : Held} (hw : h.place ≠ .waiting) :
    Calm s (s.hold k h) ∧ ((s.hold k h).actorAt k).box = (s.actorAt k).box ++ [h] ∧
      (s.hold k h).hereCore.pad = s.hereCore.pad.setBytes h.addr.toNat h.msg.payload ∧ (s.hold k h).flight = s.flight := by
  set t := s.setDevice k ({ s.actorAt k with box := (s.actorAt k).box ++ [h] }.note h.ep h.msg) with ht
  have ct : Calm s (t.setHere (t.hereCore.landed h)) := (Quiet.setDevice s k _).toCalm.trans (.setHere t rfl)
  have hb : ((t.setHere (t.hereCore.landed h)).actorAt k).box = (s.actorAt k).box ++ [h] := by
    rw [State.actorAt_setHere t (by rfl), ht]; simp
  have hp : (t.setHere (t.hereCore.landed h)).hereCore.pad = s.hereCore.pad.setBytes h.addr.toNat h.msg.payload := by
    rw [State.hereCore_setHere]
    show t.hereCore.pad.setBytes _ _ = _
    rw [(Quiet.setDevice s k _).pad]
  rcases State.hold_eq (s := s) (k := k) hw with e | e <;> rw [e]
  · exact ⟨ct, hb, hp, rfl⟩
  · refine ⟨ct.trans (Quiet.call ..).toCalm, by rw [State.actorAt_call]; exact hb, ?_, rfl⟩
    rw [(Quiet.call ..).pad, hp]

/-- What is kept of a message is the message. -/
theorem Actor.land_keep_msg {a : Actor} {e : BitVec 4} {fwd : Bool} {m : Msg} {now : Nat} {armed : Bool} {h : Held} (hl : a.land e fwd m now armed = .keep h) :
    h.msg = m := by
  unfold Actor.land at hl
  dsimp only at hl
  repeat' split at hl
  all_goals cases hl
  all_goals rfl

/-! ### Channels that the device closes (R175, R177, R399) -/

/-- Messages have been sent, and free values drawn: nothing else has changed. -/
def Mailed (s t : State) : Prop := ∃ fl st n, t = { s with flight := fl, stations := st, tick := n }

theorem Mailed.refl (s : State) : Mailed s s := ⟨_, _, _, rfl⟩

theorem Mailed.trans {s t u : State} (h : Mailed s t) (g : Mailed t u) : Mailed s u := by
  obtain ⟨_, _, _, rfl⟩ := h
  obtain ⟨_, _, _, rfl⟩ := g
  exact ⟨_, _, _, rfl⟩

theorem Mailed.post (s : State) (st : Nat) (v : Word) (p : Packet) : Mailed s (s.post st v p) := ⟨_, _, _, rfl⟩

theorem Mailed.postMsg (s : State) (st : Nat) (d : Dest) (m : Msg) : Mailed s (s.postMsg st d m) := .post ..

theorem Mailed.quiet {s t : State} (h : Mailed s t) : Quiet s t := by
  obtain ⟨_, _, _, rfl⟩ := h
  exact .of_same rfl rfl rfl rfl rfl rfl rfl rfl rfl

theorem Mailed.mgmt {s t : State} (h : Mailed s t) : t.mgmt = s.mgmt := by obtain ⟨_, _, _, rfl⟩ := h; rfl

theorem Mailed.actorAt {s t : State} (h : Mailed s t) (k : BitVec 4) : t.actorAt k = s.actorAt k := by obtain ⟨_, _, _, rfl⟩ := h; rfl

/-- A delegation discarded: its channel's notice and its marker are sent, and its actor takes a sequence. -/
theorem strand_mailed (st : Nat) (mile : Word) (x : Msg) (p : State × Actor) :
    Mailed p.1 (strand st mile x p).1 ∧ (strand st mile x p).2 = { p.2 with seq := (strand st mile x p).2.seq } := by
  unfold strand
  split
  · exact ⟨(Mailed.trans ⟨_, _, _, rfl⟩ (.postMsg ..)).trans (.post ..), rfl⟩
  · exact ⟨.refl _, rfl⟩

/-- What is not a delegation is discarded alone. -/
theorem strand_plain (st : Nat) (mile : Word) {x : Msg} (h : x.kind = .plain) (p : State × Actor) : strand st mile x p = p := by
  unfold strand; rw [h]

theorem strandAll_mailed (st : Nat) (mile : Word) (e : BitVec 4) (s : State) (a : Actor) :
    Mailed s (strandAll st mile e s a).1 ∧ (strandAll st mile e s a).2 = { a with seq := (strandAll st mile e s a).2.seq } := by
  unfold strandAll
  generalize a.box.filter _ = l
  suffices ∀ p : State × Actor, Mailed p.1 (l.foldl (fun p h => strand st mile h.msg p) p).1 ∧
      (l.foldl (fun p h => strand st mile h.msg p) p).2 = { p.2 with seq := (l.foldl (fun p h => strand st mile h.msg p) p).2.seq } from this (s, a)
  induction l with
  | nil => exact fun p => ⟨.refl _, rfl⟩
  | cons h l ih =>
    intro p
    obtain ⟨m1, e1⟩ := strand_mailed st mile h.msg p
    obtain ⟨m2, e2⟩ := ih (strand st mile h.msg p)
    exact ⟨m1.trans m2, by rw [List.foldl_cons, e2, e1]⟩

theorem State.dies_mailed (s : State) (st gk : Nat) (who : AId) : Mailed s (s.dies st gk who) := by
  unfold State.dies
  split
  · split
    · exact .refl s
    · exact Mailed.trans ⟨_, _, _, rfl⟩ (.post ..)
  · exact .refl s

/-- An endpoint shut: what it tells is sent, and its record has the cause, and that it closed from this side. -/
theorem shut_mailed (st : Nat) (mile : Word) (e : BitVec 4) (cause : BitVec 9) (cp state : BitVec 6) (v : Word) (prio : BitVec 2) (s : State) (a : Actor) :
    Mailed s (shut st mile e cause cp state v prio s a).1 ∧ ((shut st mile e cause cp state v prio s a).2.ep e).ccause = cause ∧
      ((shut st mile e cause cp state v prio s a).2.ep e).cbypeer = false := by
  unfold shut
  dsimp only
  split
  · refine ⟨s.dies_mailed .., ?_, ?_⟩ <;> rw [Actor.ep_freeRun, Actor.ep_setEp_same]
  · refine ⟨(Mailed.postMsg ..).trans (strandAll_mailed ..).1, ?_, ?_⟩ <;>
      simp only [Actor.leftClose, Actor.dropBuffer, Actor.ep, Actor.setAux, Actor.setEp, Vector.getElem_set_self, EpRec.closed]

/-- A channel that the core closes at an endpoint of the actor in slot k. -/
theorem State.closeHere_quiet (s : State) (k e : BitVec 4) (cause : BitVec 9) :
    Quiet s (s.closeHere k e cause) ∧ (s.closeHere k e cause).mgmt = s.mgmt ∧ (((s.closeHere k e cause).actorAt k).ep e).ccause = cause ∧
      (((s.closeHere k e cause).actorAt k).ep e).cbypeer = false := by
  obtain ⟨m, hc, hp⟩ := shut_mailed s.here.toNat s.hereCore.vmile e cause (s.closePoint s.here ((s.actorAt k).ep e)) ((s.actorAt k).ep e).state
    (satAdd s.hereCore.vmile 1) (s.actorAt k).prio s (s.actorAt k)
  refine ⟨m.quiet.trans (.setDevice ..), m.mgmt, ?_, ?_⟩ <;>
    · unfold State.closeHere
      rw [State.actorAt_setDevice, Actor.carry_ep]
      assumption

/-- A message discarded: it is counted, and its actor may have taken sequences. -/
theorem State.discardAt_quiet (s : State) (k : BitVec 4) (m : Msg) :
    Quiet s (s.discardAt k m) ∧ (s.discardAt k m).mgmt = (s.count 0x30B8).mgmt ∧
      (s.discardAt k m).actorAt k = { s.actorAt k with seq := ((s.discardAt k m).actorAt k).seq } := by
  obtain ⟨hm, ha⟩ := strand_mailed s.here.toNat s.hereCore.vmile m (s, s.actorAt k)
  refine ⟨(hm.quiet.trans (.setActorAt ..)).trans (.count ..), ?_, ?_⟩
  · show (State.count _ 0x30B8).mgmt = _
    exact congrArg (fun g : Mgmt => ({ s with mgmt := g }.count 0x30B8).mgmt) hm.mgmt
  · unfold State.discardAt
    rw [State.actorAt_count, State.actorAt_setActorAt_same]
    exact ha

theorem State.discardAt_plain (s : State) (k : BitVec 4) {m : Msg} (h : m.kind = .plain) : s.discardAt k m = (s.setActorAt k (s.actorAt k)).count 0x30B8 := by
  unfold State.discardAt
  rw [strand_plain _ _ h]

/-! ### The step -/

/-- A message for a resident actor of a core that runs is delivered there. -/
theorem execMessageArrival_resident {s : State} {n : Nat} {l : Loc} {e : BitVec 4} {m : Msg} (hp : s.packet n = some (.msg (.ep l e) m)) (ha : m.hdr.anti = false)
    (hf : m.hdr.fails = false) (h1 : s.first n (.msg (.ep l e) m) = true) (hh : s.halted l.core = false)
    (hk : (s.residentAt l).keyedLater s.time e m.hdr.key = false) (ho : s.passedOver l m.hdr.key = false) (hl : s.locOf m.rcpt = some l) (hs : (s.core l.core).antis = []) :
    execMessageArrival n s = .next ((s.take n l.core.toNat).at l.core (s.take n l.core.toNat).cx fun u => u.deliver l.slot e false m) := by
  have hk' : (look Actor.zero l.slot.toNat (s.core l.core).actors).keyedLater s.time e m.hdr.key = false := hk
  unfold execMessageArrival
  simp [hp, ha, hf, h1, State.away, hh, hk', ho, hl, State.antiLate, hs, antiOf]

/-- What keeps a message from a resident actor's endpoint. -/
theorem Open.arrived {s : State} {n st : Nat} {l : Loc} {key : Key} (hs : (s.core l.core).antis = []) (hb : (s.base (homeOf (s.residentAt l).aid)).heldAntis = [])
    (hl : (s.residentAt l).logAnti key = false) (hr : (s.residentAt l).retired = false) (hi : (s.core l.core).badItins = []) : Open (s.arrived n st l.core) l.slot key where
  core := by simpa using hs
  home := by simpa using hb
  log := by simpa using hl
  alive := by simpa using hr
  sound := by simpa using hi

end Sys2Proof.Machine
end

section
namespace Sys2Proof.Machine
open Sys2Proof.Safety

/-! ### What a message at an actor does -/

section
variable {s : State} {n : Nat} {l : Loc} {e : BitVec 4} {m : Msg}

/-- A message with a slot: it stands in the buffer, and its payload at the slot, and nowhere else. -/
theorem messageArrival_kept {h : Held} (o : Open (s.arrived n l.core.toNat l.core) l.slot m.hdr.key)
    (hex : execMessageArrival n s = .next ((s.take n l.core.toNat).at l.core (s.take n l.core.toNat).cx fun u => u.deliver l.slot e false m))
    (hland : (s.residentAt l).land e false m s.time (State.armedAt { s with here := l.core, tick := s.tick + 1 } l.slot) = .keep h) (hw : h.place ≠ .waiting) :
    Happens (.messageArrival n) s fun t => (t.residentAt l).box = (s.residentAt l).box ++ [h] ∧ h.msg = m ∧
      (∀ j < m.payload.length, some ((t.core l.core).pad.byte (h.addr.toNat + j)) = m.payload[j]?) ∧
      (∀ y, (y < h.addr.toNat ∨ h.addr.toNat + m.payload.length ≤ y) → (t.core l.core).pad.byte y = (s.core l.core).pad.byte y) ∧ t.flight = s.flight.eraseIdx n ∧
      RegsKept s t ∧ OtherCores s t l.core ∧ StoreKept s t := by
  have hm := Actor.land_keep_msg hland
  obtain ⟨hc, hb, hp, hf⟩ := State.hold_placed (s := (s.arrived n l.core.toNat l.core).ticked) (k := l.slot) hw
  rw [State.take_at, o.deliver_keep (h := h) (by rw [State.arrived_actorAt, State.arrived_time, State.arrived_armedAt]; exact hland)] at hex
  rw [State.ticked_actorAt, State.arrived_actorAt] at hb
  rw [State.ticked_hereCore, State.arrived_hereCore, hm] at hp
  rw [State.ticked_flight, State.arrived_flight] at hf
  replace hc := (Quiet.ticked _).toCalm.trans hc
  generalize State.hold _ _ _ = v at hex hc hb hp hf
  have hhere : v.wakeHere.here = l.core := hc.here
  obtain ⟨hregs, hstore, hother⟩ := hc.arrived_wakeHere (s.take n l.core.toNat).here (s.take n l.core.toNat).cx
  refine ⟨_, hex, ?_, hm, ?_, ?_, hf, hregs, hother, hstore⟩
  · rw [State.residentAt_at hhere, State.actorAt_wakeHere, hb]
  · intro j hj
    rw [State.core_at hhere, State.wakeHere_pad, hp, Mem.byte_setBytes_in _ _ _ _ hj, List.getElem?_eq_getElem hj]
  · intro y hy
    rw [State.core_at hhere, State.wakeHere_pad, hp, Mem.byte_setBytes_out _ _ _ _ hy]

/-- A message for a closed endpoint lands nowhere. -/
theorem Actor.land_closed {a : Actor} {now : Nat} {armed : Bool} (hm : m.kind = .plain) (hc : (a.ep e).status = .closed) (hf : (a.auxOf e).forwardTo = none) :
    a.land e false m now armed = .gone := by
  unfold Actor.land
  simp [hm, hf, hc]

/-- A message that lands nowhere is discarded and counted. -/
theorem messageArrival_gone (o : Open (s.arrived n l.core.toNat l.core) l.slot m.hdr.key)
    (hex : execMessageArrival n s = .next ((s.take n l.core.toNat).at l.core (s.take n l.core.toNat).cx fun u => u.deliver l.slot e false m))
    (hm : m.kind = .plain)
    (hland : (s.residentAt l).land e false m s.time (State.armedAt { s with here := l.core, tick := s.tick + 1 } l.slot) = .gone) :
    Happens (.messageArrival n) s fun t => Counted s t 0x30B8 ∧ (t.residentAt l).box = (s.residentAt l).box ∧ t.flight = s.flight.eraseIdx n ∧
      PadsKept s t ∧ RegsKept s t ∧ StoreKept s t := by
  obtain ⟨hq, hg, ha⟩ := (s.arrived n l.core.toNat l.core).ticked.discardAt_quiet l.slot m
  have hf := congrArg State.flight ((s.arrived n l.core.toNat l.core).ticked.discardAt_plain l.slot hm)
  rw [State.take_at, o.deliver_gone (by rw [State.arrived_actorAt, State.arrived_time, State.arrived_armedAt]; exact hland)] at hex
  rw [State.ticked_actorAt, State.arrived_actorAt] at ha
  replace hf := hf.trans (State.arrived_flight s n _ l.core)
  replace hq := (Quiet.ticked _).trans hq
  generalize State.discardAt _ _ _ = v at hex hq hg ha hf
  obtain ⟨hregs, hstore, -⟩ := hq.toCalm.arrived (s.take n l.core.toNat).here (s.take n l.core.toNat).cx
  refine ⟨_, hex, ?_, ?_, hf, hq.arrived_padsKept _ _, hregs, hstore⟩
  · unfold Counted
    rw [← State.arrived_mgmt s n l.core.toNat l.core]
    show look 0 0x30B8 v.mgmt.counters = _
    rw [hg]
    exact State.count_value _ _
  · rw [State.residentAt_at hq.here, ha]

/-- A message beyond the buffer is discarded and counted, and closes its endpoint. -/
theorem messageArrival_full (o : Open (s.arrived n l.core.toNat l.core) l.slot m.hdr.key)
    (hex : execMessageArrival n s = .next ((s.take n l.core.toNat).at l.core (s.take n l.core.toNat).cx fun u => u.deliver l.slot e false m))
    (hdisc : (s.residentAt l).disc ≠ .timed)
    (hland : (s.residentAt l).land e false m s.time (State.armedAt { s with here := l.core, tick := s.tick + 1 } l.slot) = .full) :
    Happens (.messageArrival n) s fun t => ((t.residentAt l).ep e).ccause = 0x0CF ∧ ((t.residentAt l).ep e).cbypeer = false ∧ Counted s t 0x30B8 ∧
      PadsKept s t ∧ RegsKept s t := by
  obtain ⟨hq, hg, -⟩ := (s.arrived n l.core.toNat l.core).ticked.discardAt_quiet l.slot m
  rw [State.take_at, o.deliver_full (by rwa [State.arrived_actorAt]) (by rw [State.arrived_actorAt, State.arrived_time, State.arrived_armedAt]; exact hland)] at hex
  replace hq := (Quiet.ticked _).trans hq
  generalize State.discardAt _ _ _ = u at hex hq hg
  obtain ⟨qc, hmg, hcc, hcp⟩ := u.closeHere_quiet l.slot e 0x0CF
  replace hg := hmg.trans hg
  replace hq := hq.trans qc
  generalize State.closeHere _ _ _ _ = v at hex hq hg hcc hcp
  replace hq := hq.trans (.setActorAt v l.slot { v.actorAt l.slot with fullAt := some v.time })
  obtain ⟨hregs, -, -⟩ := hq.toCalm.arrived (s.take n l.core.toNat).here (s.take n l.core.toNat).cx
  refine ⟨_, hex, ?_, ?_, ?_, hq.arrived_padsKept _ _, hregs⟩
  · rw [State.residentAt_at hq.here, State.actorAt_setActorAt_same]; exact hcc
  · rw [State.residentAt_at hq.here, State.actorAt_setActorAt_same]; exact hcp
  · unfold Counted
    rw [← State.arrived_mgmt s n l.core.toNat l.core]
    show look 0 0x30B8 v.mgmt.counters = _
    rw [hg]
    exact State.count_value _ _

end

end Sys2Proof.Machine
end

section
namespace Sys2Proof.Machine
open Sys2Proof.Safety

theorem State.hereCore_call (s : State) (k : BitVec 4) (key : Key) (q : Bool) :
    (s.call k key q).hereCore = { s.hereCore with called := s.hereCore.called ++ [(k, key, q)] } := State.hereCore_setHere ..

theorem Tended.mgmt {k : BitVec 4} {s t : State} (h : Tended k s t) : t.mgmt = s.mgmt := by rw [h.rest]
theorem Tended.flight {k : BitVec 4} {s t : State} (h : Tended k s t) : t.flight = s.flight := by rw [h.rest]

/-- An actor stays at rest when it loses messages, and its log gains no returned one. -/
theorem atRest_of_subset {s t : State} {a b : Actor} (h : AtRest s a) (hi : b.aid = a.aid) (hw : t.base (homeOf a.aid) = s.base (homeOf a.aid))
    (hb : ∀ x ∈ b.box, x ∈ a.box) (hl : ∀ p ∈ b.log, ∀ x, p.entry = .returned x → p ∈ a.log) : AtRest t b := by
  obtain ⟨h1, h2, h3⟩ := h
  refine ⟨fun x hx => h1 x (hb x hx), ?_, fun p hp hs x he => h3 p (hl p hp x he) hs x he⟩
  rw [hi, hw]; exact h2

/-! ## Anti-messages (R278) -/

section
variable {s : State} {n : Nat} {l : Loc} {e : BitVec 4} {m : Msg}

/-- An anti-message for a resident actor of a core that runs meets it there. -/
theorem execAntiMessage_resident (hp : s.packet n = some (.msg (.ep l e) m)) (ha : m.hdr.anti = true) (hf : m.hdr.fails = false) (hh : s.halted l.core = false)
    (hl : s.locOf m.rcpt = some l) (ho : s.overrun m.rcpt = false) :
    execAntiMessage n s = .next ((s.take n l.core.toNat).at l.core (s.take n l.core.toNat).cx fun u => u.antiAt l.slot e m) := by
  unfold execAntiMessage
  simp [hp, ha, hf, State.away, hh, hl, ho]

theorem Actor.waits_annihilate (a : Actor) (k : Key) : (a.annihilate k).waits k = false := by
  unfold Actor.waits Actor.annihilate
  simp only [List.any_eq_false, List.mem_filter]
  rintro x ⟨-, h⟩ g
  simp [g] at h

theorem Actor.returned_of_annihilate {a : Actor} {k : Key} {p : Placed} {x : Held} (hp : p ∈ (a.annihilate k).log) (he : p.entry = .returned x) : p ∈ a.log := by
  obtain ⟨q, hq, rfl⟩ := List.mem_map.1 hp
  revert he
  split
  · split
    · exact fun he => by cases he
    · exact fun _ => hq
  · exact fun _ => hq

/-- The positive that waits is annihilated. -/
theorem antiMessage_annihilates (hex : execAntiMessage n s = .next ((s.take n l.core.toNat).at l.core (s.take n l.core.toNat).cx fun u => u.antiAt l.slot e m))
    (hr : AtRest s (s.residentAt l)) (hw : (s.residentAt l).waits m.hdr.key = true) :
    Happens (.antiMessage n) s fun t => (t.residentAt l).waits m.hdr.key = false ∧ Counted s t 0x3088 ∧ RegsKept s t ∧ StoreKept s t := by
  have hd : (s.arrived n l.core.toNat l.core).antiAt l.slot e m =
      (((s.arrived n l.core.toNat l.core).setActorAt l.slot ((s.residentAt l).annihilate m.hdr.key)).count 0x3088).settle l.slot := by
    unfold State.antiAt
    simp [hw]
  rw [State.take_at, hd] at hex
  have hq : Quiet (s.arrived n l.core.toNat l.core) _ := (Quiet.setActorAt _ l.slot ((s.residentAt l).annihilate m.hdr.key)).trans (.count _ 0x3088)
  have hg : (((s.arrived n l.core.toNat l.core).setActorAt l.slot ((s.residentAt l).annihilate m.hdr.key)).count 0x3088).mgmt =
      ((s.arrived n l.core.toNat l.core).count 0x3088).mgmt := rfl
  have ha : (((s.arrived n l.core.toNat l.core).setActorAt l.slot ((s.residentAt l).annihilate m.hdr.key)).count 0x3088).actorAt l.slot =
      (s.residentAt l).annihilate m.hdr.key := by rw [State.actorAt_count, State.actorAt_setActorAt_same]
  have hb : ∀ b, (((s.arrived n l.core.toNat l.core).setActorAt l.slot ((s.residentAt l).annihilate m.hdr.key)).count 0x3088).base b = s.base b :=
    State.arrived_base s n _ l.core
  generalize State.count _ _ = u at hex hq hg ha hb
  have hr' : AtRest u (u.actorAt l.slot) := by
    rw [ha]
    exact atRest_of_subset hr rfl (hb _) (fun x hx => (List.mem_filter.1 hx).1) fun p hp x => Actor.returned_of_annihilate hp
  have hq' := hq.trans (State.settle_atRest_quiet hr')
  obtain ⟨hregs, hstore, -⟩ := hq'.toCalm.arrived (s.take n l.core.toNat).here (s.take n l.core.toNat).cx
  refine ⟨_, hex, ?_, ?_, hregs, hstore⟩
  · rw [State.residentAt_at hq'.here, State.settle_atRest_actorAt hr', ha, Actor.waits_annihilate]
  · unfold Counted
    rw [← State.arrived_mgmt s n l.core.toNat l.core]
    show look 0 0x3088 (u.settle l.slot).mgmt.counters = _
    rw [(u.settle_tended l.slot).mgmt, hg]
    exact State.count_value _ _

/-- The activation that consumed the positive is to be rolled back; the anti-message waits in the core's store. -/
theorem antiMessage_calls {key : Key} (hex : execAntiMessage n s = .next ((s.take n l.core.toNat).at l.core (s.take n l.core.toNat).cx fun u => u.antiAt l.slot e m))
    (hw : (s.residentAt l).waits m.hdr.key = false) (hlen : (s.core l.core).antis.length < 64) (hc : consumerIn m.hdr.key (s.residentAt l).log false = some key) :
    Happens (.antiMessage n) s fun t => (t.core l.core).called = (s.core l.core).called ++ [(l.slot, key, true)] ∧
      (t.core l.core).antis = (s.core l.core).antis ++ [((s.residentAt l).aid, m.hdr)] ∧ PadsKept s t ∧ RegsKept s t ∧ StoreKept s t := by
  have hd : (s.arrived n l.core.toNat l.core).antiAt l.slot e m =
      ((s.arrived n l.core.toNat l.core).setHere { s.core l.core with antis := (s.core l.core).antis ++ [((s.residentAt l).aid, m.hdr)] }).call l.slot key true := by
    unfold State.antiAt State.storeAnti
    simp [hw, hc, hlen]
  rw [State.take_at, hd] at hex
  have hq : Quiet (s.arrived n l.core.toNat l.core) _ :=
    (Quiet.setHere (s.arrived n l.core.toNat l.core) (k := { s.core l.core with antis := (s.core l.core).antis ++ [((s.residentAt l).aid, m.hdr)] })
      (by rw [State.arrived_hereCore]) (by rw [State.arrived_hereCore]) (by rw [State.arrived_hereCore])).trans (.call _ l.slot key true)
  have hcore := State.hereCore_call ((s.arrived n l.core.toNat l.core).setHere { s.core l.core with antis := (s.core l.core).antis ++ [((s.residentAt l).aid, m.hdr)] })
    l.slot key true
  rw [State.hereCore_setHere] at hcore
  generalize State.call _ _ _ _ = v at hex hq hcore
  obtain ⟨hregs, hstore, -⟩ := hq.toCalm.arrived (s.take n l.core.toNat).here (s.take n l.core.toNat).cx
  have hhere : v.here = l.core := hq.here
  refine ⟨_, hex, ?_, ?_, hq.arrived_padsKept _ _, hregs, hstore⟩ <;> rw [State.core_at hhere, hcore]

end

/-! ## Acknowledgements (R175, R181) -/

/-- A control message for a resident actor changes it at its core. -/
theorem State.control_resident {s : State} {who : AId} {l : Loc} (h : s.locOf who = some l) (f : Actor → Actor) (g : State → BitVec 4 → State) :
    s.control who f g = s.at l.core s.cx fun t => (g (t.setDevice l.slot (f (t.actorAt l.slot))) l.slot).wakeHere := by
  unfold State.control; rw [h]

/-- Group endpoints closed one after another: every other endpoint is as it was, and the actor lives on as it did. -/
theorem foldl_close_ep {l : List (BitVec 4)} {a : Actor} :
    (l.foldl (fun a e => (a.setEp e { a.ep e with status := .closed }).freeRun e) a).retired = a.retired ∧
      ∀ j, j ∉ l → (l.foldl (fun a e => (a.setEp e { a.ep e with status := .closed }).freeRun e) a).ep j = a.ep j ∧
        (l.foldl (fun a e => (a.setEp e { a.ep e with status := .closed }).freeRun e) a).auxOf j = a.auxOf j := by
  induction l generalizing a with
  | nil => exact ⟨rfl, fun _ _ => ⟨rfl, rfl⟩⟩
  | cons e l ih =>
    obtain ⟨hr, hj⟩ := ih (a := (a.setEp e { a.ep e with status := .closed }).freeRun e)
    refine ⟨hr, fun j hm => ?_⟩
    obtain ⟨hne, hm⟩ := List.ne_and_not_mem_of_not_mem_cons hm
    obtain ⟨h1, h2⟩ := hj j hm
    refine ⟨h1.trans ?_, h2.trans ?_⟩
    · rw [Actor.ep_freeRun, Actor.ep_setEp, if_neg hne]
    · unfold Actor.freeRun; rw [Actor.auxOf_setAux, if_neg hne, Actor.auxOf_setEp]

theorem State.closeLeft_retired (s : State) (a : Actor) : (s.closeLeft a).retired = a.retired := foldl_close_ep.1

/-- The end of what an actor has left closes no endpoint that is not closing. -/
theorem State.closeLeft_ep (s : State) {a : Actor} {e : BitVec 4} (h : (a.ep e).status ≠ .closing) :
    (s.closeLeft a).ep e = a.ep e ∧ (s.closeLeft a).auxOf e = a.auxOf e := by
  refine foldl_close_ep.2 e fun hm => ?_
  have := (List.mem_filter.1 hm).2
  unfold State.hasLeft at this
  simp [h] at this

theorem State.freeDiversions_eq (s : State) (a : Actor) : s.freeDiversions a = { a with divertRun := (s.freeDiversions a).divertRun } := by
  unfold State.freeDiversions; split <;> rfl

/-- The end of an activation leaves an actor that is not retired where it is. -/
theorem State.reap_alive {s : State} {k : BitVec 4} (h : (s.actorAt k).retired = false) :
    s.reap k = s.setActorAt k (s.freeDiversions (s.closeLeft (s.actorAt k))) := by
  unfold State.reap
  dsimp only
  rw [if_neg]
  rw [State.freeDiversions_eq]
  dsimp only
  rw [State.closeLeft_retired, h]
  simp

/-- The same for an endpoint that is not closing: it stays as it is. -/
theorem State.reap_alive_ep {s : State} {k e : BitVec 4} (h : (s.actorAt k).retired = false) (he : ((s.actorAt k).ep e).status ≠ .closing) :
    Quiet s (s.reap k) ∧ ((s.reap k).actorAt k).ep e = (s.actorAt k).ep e ∧ ((s.reap k).actorAt k).auxOf e = (s.actorAt k).auxOf e := by
  obtain ⟨h1, h2⟩ := s.closeLeft_ep he
  rw [State.reap_alive h, State.actorAt_setActorAt_same, State.freeDiversions_eq]
  exact ⟨.setActorAt .., h1, h2⟩

section
variable {s : State} {n : Nat} {l : Loc} {e : BitVec 4} {who : AId} {move : Bool}

/-- What an acknowledgement makes of its actor. -/
def Actor.acknowledged (e : BitVec 4) (move : Bool) (a : Actor) : Actor :=
  if move then (if (a.ep e).status = .connecting ∧ (a.auxOf e).holdDirect ∧ (a.auxOf e).asked.isNone then a.setEp e { a.ep e with status := .opened } else a)
  else if (a.ep e).status = .closing ∧ (a.auxOf e).closeLeft then (a.setEp e { a.ep e with status := .closed }).freeRun e else a

theorem Actor.acknowledged_retired (a : Actor) : (a.acknowledged e move).retired = a.retired := by
  unfold Actor.acknowledged
  split <;> split <;> rfl

/-- An acknowledgement that a closing endpoint waits for. -/
theorem Actor.acknowledged_closing {a : Actor} (hc : (a.ep e).status = .closing) (hl : (a.auxOf e).closeLeft = true) :
    a.acknowledged e false = (a.setEp e { a.ep e with status := .closed }).freeRun e := by
  unfold Actor.acknowledged
  rw [if_neg Bool.false_ne_true, if_pos ⟨hc, hl⟩]

/-- An acknowledgement that an endpoint which has been moved waits for. -/
theorem Actor.acknowledged_moved {a : Actor} (hc : (a.ep e).status = .connecting) (hd : (a.auxOf e).holdDirect = true) (hn : (a.auxOf e).asked = none) :
    a.acknowledged e true = a.setEp e { a.ep e with status := .opened } := by
  unfold Actor.acknowledged
  rw [if_pos rfl, if_pos ⟨hc, hd, by rw [hn]; rfl⟩]

theorem execAcknowledgement_resident (hp : s.packet n = some (.ack (.ep l e) who move)) (hh : s.halted l.core = false) (hl : s.locOf who = some l) :
    execAcknowledgement n s = .next ((s.take n l.core.toNat).at l.core (s.take n l.core.toNat).cx fun t =>
      (((t.setDevice l.slot ((t.actorAt l.slot).acknowledged e move)).reap l.slot).syncDir (t.setDevice l.slot ((t.actorAt l.slot).acknowledged e move)).here).wakeHere) := by
  rw [← State.control_resident (by rw [State.take_locOf]; exact hl) (Actor.acknowledged e move) fun u k => (u.reap k).syncDir u.here]
  unfold execAcknowledgement
  simp only [hp, State.away, State.barred, Dest.core?, hh]
  rfl

/-- An acknowledgement that leaves its endpoint open or closed: the endpoint is as the acknowledgement makes it, and nothing else changes. -/
theorem acknowledgement_happens (hp : s.packet n = some (.ack (.ep l e) who move)) (hh : s.halted l.core = false) (hl : s.locOf who = some l)
    (hr : (s.residentAt l).retired = false) (he : (((s.residentAt l).acknowledged e move).ep e).status ≠ .closing) :
    Happens (.acknowledgement n) s fun t => (t.residentAt l).ep e = ((s.residentAt l).acknowledged e move).ep e ∧
      (t.residentAt l).auxOf e = ((s.residentAt l).acknowledged e move).auxOf e ∧ PadsKept s t ∧ RegsKept s t ∧ StoreKept s t := by
  have hex := execAcknowledgement_resident hp hh hl
  rw [State.take_at, State.arrived_actorAt] at hex
  have hq : Quiet (s.arrived n l.core.toNat l.core) _ := Quiet.setDevice _ l.slot ((s.residentAt l).acknowledged e move)
  have ha : ((s.arrived n l.core.toNat l.core).setDevice l.slot ((s.residentAt l).acknowledged e move)).actorAt l.slot = _ := State.actorAt_setDevice ..
  generalize State.setDevice _ _ _ = u at hex hq ha
  obtain ⟨hq1, h1, h2⟩ := State.reap_alive_ep (s := u) (k := l.slot) (e := e) (by rw [ha, Actor.carry_retired, Actor.acknowledged_retired]; exact hr) (by rw [ha]; exact he)
  rw [ha, Actor.carry_ep] at h1
  rw [ha, Actor.carry_auxOf] at h2
  rw [← hq1.here] at hex
  replace hq := (hq.trans hq1).trans (.syncDir _)
  rw [← State.actorAt_syncDir] at h1 h2
  generalize (u.reap l.slot).syncDir _ = v at hex hq h1 h2
  obtain ⟨hregs, hstore, -⟩ := hq.toCalm.arrived_wakeHere (s.take n l.core.toNat).here (s.take n l.core.toNat).cx
  have hhere : v.wakeHere.here = l.core := hq.here
  refine ⟨_, hex, ?_, ?_, hq.arrived_padsKept_wakeHere _ _, hregs, hstore⟩
  · rw [State.residentAt_at hhere, State.actorAt_wakeHere, h1]
  · rw [State.residentAt_at hhere, State.actorAt_wakeHere, h2]

end

end Sys2Proof.Machine
end

section
namespace Sys2Proof.Machine
open Sys2Proof.Safety

/-! ## What a move sends (R182) -/

theorem onWay_post (s : State) (st : Nat) (v : Word) (p : Packet) : OnWay (s.post st v p) p := ⟨_, List.mem_append_right _ (List.mem_singleton_self _), rfl⟩

theorem OnWay.post {s : State} {p : Packet} (h : OnWay s p) (st : Nat) (v : Word) (q : Packet) : OnWay (s.post st v q) p := by
  obtain ⟨f, hf, e⟩ := h
  exact ⟨f, List.mem_append_left _ hf, e⟩

/-- The peer of a moved endpoint leads to the new location. -/
theorem Actor.follow_ep {a : Actor} {here : BitVec 12} {m : BitVec 4} {v : Move} (h : (a.ep m).status = .opened ∨ (a.ep m).status = .closing) :
    (a.follow here m v).ep m = { a.ep m with peer := v.loc.peer v.ep, pkind := (PKind.seen .actor 0 v.mod here).1, pmod := (PKind.seen .actor 0 v.mod here).2 } ∧
      (a.follow here m v).auxOf m = { a.auxOf m with peerId := v.id } := by
  have hs : ¬ ((a.ep m).status = .free ∨ (a.ep m).status = .closed ∨ (a.ep m).status = .armed) := by rcases h with h | h <;> simp [h]
  unfold Actor.follow
  dsimp only
  rw [if_neg hs]
  exact ⟨Actor.ep_setEp_same .., Actor.auxOf_setAux_same ..⟩

section
variable {s : State} {n : Nat} {q : Loc} {k : BitVec 4} {who : AId} {v : Move}

/-- A relocation notice that its peer takes: the peer follows, and the marker and the acknowledgement are sent. -/
theorem execRelocationNotice_resident (hp : s.packet n = some (.reloc (.ep q k) who v)) (hh : s.halted q.core = false) (h1 : s.first n (.reloc (.ep q k) who v) = true)
    (hl : s.locOf who = some q) (hf : ((s.residentAt q).auxOf k).forwardTo = none)
    (ho : ((s.residentAt q).ep k).status = .opened ∨ ((s.residentAt q).ep k).status = .closing) :
    execRelocationNotice n s = .next ((((s.take n q.core.toNat).at q.core (s.take n q.core.toNat).cx fun t =>
      (t.setDevice q.slot ((t.actorAt q.slot).follow s.coords k v)).wakeHere).post q.core.toNat (BitVec.allOnes 64)
        (.marker (s.endOf v.oldMod v.old v.oldEp) ⟨who.tenant, v.oldId⟩ false who.id v)).post q.core.toNat (BitVec.allOnes 64)
        (.ack (s.endOf v.mod v.loc v.ep) ⟨who.tenant, v.id⟩ true)) := by
  have ha : (s.actorOf who).getD Actor.zero = s.residentAt q := by unfold State.actorOf; rw [hl]; rfl
  rw [← State.control_resident (by rw [State.take_locOf]; exact hl) (fun a => a.follow s.coords k v) fun u _ => u]
  unfold execRelocationNotice
  simp only [hp, State.away, State.barred, Dest.core?, hh, h1, ha, Dest.endpoint, Dest.station, hf]
  rcases ho with ho | ho <;> simp [ho]

/-- What a relocation notice does (R182). -/
theorem relocationNotice_happens (hp : s.packet n = some (.reloc (.ep q k) who v)) (hh : s.halted q.core = false) (h1 : s.first n (.reloc (.ep q k) who v) = true)
    (hl : s.locOf who = some q) (hf : ((s.residentAt q).auxOf k).forwardTo = none)
    (ho : ((s.residentAt q).ep k).status = .opened ∨ ((s.residentAt q).ep k).status = .closing) :
    Happens (.relocationNotice n) s fun t => ((t.residentAt q).ep k).peer = v.loc.peer v.ep ∧ ((t.residentAt q).auxOf k).peerId = v.id ∧
      (v.mod = s.coords → ((t.residentAt q).ep k).pkind = .actor) ∧ (v.mod ≠ s.coords → ((t.residentAt q).ep k).pkind = .remote ∧ ((t.residentAt q).ep k).pmod = v.mod) ∧
      OnWay t (.marker (if v.oldMod = s.coords then .ep v.old v.oldEp else .link v.oldMod v.old v.oldEp) ⟨who.tenant, v.oldId⟩ false who.id v) ∧
      OnWay t (.ack (if v.mod = s.coords then .ep v.loc v.ep else .link v.mod v.loc v.ep) ⟨who.tenant, v.id⟩ true) ∧ PadsKept s t ∧ RegsKept s t ∧ StoreKept s t := by
  have hex := execRelocationNotice_resident hp hh h1 hl hf ho
  rw [State.take_at, State.arrived_actorAt] at hex
  obtain ⟨hep, haux⟩ := Actor.follow_ep (here := s.coords) (v := v) ho
  have hq : Quiet (s.arrived n q.core.toNat q.core) _ := Quiet.setDevice _ q.slot ((s.residentAt q).follow s.coords k v)
  have ha : ((s.arrived n q.core.toNat q.core).setDevice q.slot ((s.residentAt q).follow s.coords k v)).actorAt q.slot = _ := State.actorAt_setDevice ..
  generalize State.setDevice _ _ _ = u at hex hq ha
  obtain ⟨hregs, hstore, -⟩ := hq.toCalm.arrived_wakeHere (s.take n q.core.toNat).here (s.take n q.core.toNat).cx
  have hpads := hq.arrived_padsKept_wakeHere (s.take n q.core.toNat).here (s.take n q.core.toNat).cx
  have hhere : u.wakeHere.here = q.core := hq.here
  have hr := State.residentAt_at hhere (s.take n q.core.toNat).here (s.take n q.core.toNat).cx
  rw [State.actorAt_wakeHere, ha] at hr
  have hE := (congrArg (fun a => Actor.ep a k) hr).trans hep
  have hA := (congrArg (fun a => Actor.auxOf a k) hr).trans haux
  generalize { u.wakeHere with here := _, cx := _ } = w at hex hregs hstore hpads hE hA
  refine ⟨_, hex, congrArg EpRec.peer hE, congrArg EpAux.peerId hA, fun h => (congrArg EpRec.pkind hE).trans ?_,
    fun h => ⟨(congrArg EpRec.pkind hE).trans ?_, (congrArg EpRec.pmod hE).trans ?_⟩, OnWay.post (onWay_post ..) .., onWay_post .., hpads, hregs, hstore⟩
  all_goals simp [PKind.seen, h]

end


/-! ## A forwarding request (R182) -/

theorem Mailed.onWay_postMsg (s : State) (st : Nat) (d : Dest) (m : Msg) :
    ∃ x, OnWay (s.postMsg st d m) (.msg d x) ∧ x.payload = m.payload ∧ x.hdr.key = m.hdr.key ∧ x.rcpt = m.rcpt :=
  ⟨_, onWay_post .., rfl, rfl, rfl⟩

/-- Messages forwarded one after another: each is on its way to the new location. -/
theorem foldl_forward (st : Nat) (v : Move) (l : List Held) (s : State) :
    Mailed s (l.foldl (fun t h => t.forward st v h.msg) s) ∧ (∀ p, OnWay s p → OnWay (l.foldl (fun t h => t.forward st v h.msg) s) p) ∧
      ∀ h ∈ l, ∃ m, OnWay (l.foldl (fun t h => t.forward st v h.msg) s) (.msg v.dest m) ∧ m.payload = h.msg.payload ∧ m.hdr.key = h.msg.hdr.key ∧
        m.rcpt = ⟨h.msg.rcpt.tenant, v.id⟩ := by
  induction l generalizing s with
  | nil => exact ⟨.refl s, fun _ h => h, fun h hm => by cases hm⟩
  | cons x l ih =>
    obtain ⟨hm, hk, ho⟩ := ih (s.forward st v x.msg)
    refine ⟨(Mailed.postMsg ..).trans hm, fun p hp => hk p (OnWay.post hp ..), fun h hh => ?_⟩
    rcases List.mem_cons.1 hh with rfl | hh
    · obtain ⟨m, hw, h1, h2, h3⟩ := Mailed.onWay_postMsg s st v.dest (v.forwarded s.coords h.msg)
      exact ⟨m, hk _ hw, h1, h2, h3⟩
    · exact ho h hh

theorem Mailed.base {s t : State} (h : Mailed s t) (b : Nat) : t.base b = s.base b := by obtain ⟨_, _, _, rfl⟩ := h; rfl

/-- What an old location makes of its actor: the messages of the endpoint that has moved are gone from its box. -/
theorem Actor.forwards_actor (a : Actor) (st : Nat) (e : BitVec 4) (v : Move) (s : State) :
    ((a.forwards st e v s).2.auxOf e).forwardTo = some v ∧ (a.forwards st e v s).2.box = a.box.filter (fun h => ! (h.ep = e && ! h.consumed && h.msg.kind.isOwn)) ∧
      (a.forwards st e v s).2.log = a.log ∧ (a.forwards st e v s).2.aid = a.aid := by
  unfold Actor.forwards
  refine ⟨?_, rfl, rfl, rfl⟩
  rw [Actor.auxOf_setAux_same]

section
variable {s : State} {n : Nat} {tenant : BitVec 4} {v : Move} {q : Loc}

theorem execForwardingRequest_resident (hp : s.packet n = some (.forwardReq tenant v)) (hm : v.oldMod = s.coords) (hh : s.halted v.old.core = false)
    (hl : s.locOf ⟨tenant, v.oldId⟩ = some q) :
    execForwardingRequest n s = .next ((s.take n v.old.core.toNat).at q.core (s.take n v.old.core.toNat).cx fun u =>
      (((u.actorAt q.slot).forwards u.here.toNat v.oldEp v u).1.setDevice q.slot ((u.actorAt q.slot).forwards u.here.toNat v.oldEp v u).2).settle q.slot) := by
  unfold execForwardingRequest
  simp [hp, hm, hh, hl]

/-- What a forwarding request does at the old location (R182). -/
theorem forwardingRequest_happens (hp : s.packet n = some (.forwardReq tenant v)) (hm : v.oldMod = s.coords) (hh : s.halted v.old.core = false)
    (hl : s.locOf ⟨tenant, v.oldId⟩ = some q) (hr : AtRest s (s.residentAt q)) :
    Happens (.forwardingRequest n) s fun t => ((t.residentAt q).auxOf v.oldEp).forwardTo = some v ∧ PadsKept s t ∧ RegsKept s t ∧ StoreKept s t ∧
      ∀ h ∈ (s.residentAt q).box, (h.ep = v.oldEp ∧ h.consumed = false ∧ h.msg.kind.isOwn = true → h ∉ (t.residentAt q).box ∧
        ∃ m, OnWay t (.msg (.fwd v.mod v.loc v.ep) m) ∧ m.payload = h.msg.payload ∧ m.hdr.key = h.msg.hdr.key ∧ m.rcpt = ⟨h.msg.rcpt.tenant, v.id⟩) ∧
        (h.ep ≠ v.oldEp ∨ h.consumed = true ∨ h.msg.kind.isOwn = false → h ∈ (t.residentAt q).box) := by
  have hex := execForwardingRequest_resident hp hm hh hl
  rw [State.take_at, State.arrived_actorAt] at hex
  obtain ⟨hmail, -, hway⟩ := foldl_forward (s.arrived n v.old.core.toNat q.core).here.toNat v
    ((s.residentAt q).box.filter fun h => h.ep = v.oldEp && ! h.consumed && h.msg.kind.isOwn) (s.arrived n v.old.core.toNat q.core)
  change Mailed _ ((s.residentAt q).forwards (s.arrived n v.old.core.toNat q.core).here.toNat v.oldEp v (s.arrived n v.old.core.toNat q.core)).1 at hmail
  change ∀ h ∈ _, ∃ m, OnWay ((s.residentAt q).forwards (s.arrived n v.old.core.toNat q.core).here.toNat v.oldEp v (s.arrived n v.old.core.toNat q.core)).1 _ ∧ _ at hway
  obtain ⟨hto, hbox, hlog, haid⟩ := (s.residentAt q).forwards_actor (s.arrived n v.old.core.toNat q.core).here.toNat v.oldEp v (s.arrived n v.old.core.toNat q.core)
  generalize Actor.forwards _ _ _ _ _ = p at hex hmail hway hto hbox hlog haid
  have hq := hmail.quiet.trans (.setDevice p.1 q.slot p.2)
  have ha : (p.1.setDevice q.slot p.2).actorAt q.slot = (s.residentAt q).carry p.2 := by
    rw [State.actorAt_setDevice, hmail.actorAt, State.arrived_actorAt]
  have hb : (p.1.setDevice q.slot p.2).base (homeOf (s.residentAt q).aid) = s.base (homeOf (s.residentAt q).aid) := by
    rw [← State.arrived_base s n v.old.core.toNat q.core, ← hmail.base]; rfl
  have hr' : AtRest (p.1.setDevice q.slot p.2) ((p.1.setDevice q.slot p.2).actorAt q.slot) := by
    rw [ha]
    refine atRest_of_subset hr haid hb (fun x hx => ?_) fun y hy x he => hlog ▸ Actor.returned_of_carry hy he
    rw [Actor.carry_box, hbox] at hx
    exact (List.mem_filter.1 hx).1
  have hfl : (p.1.setDevice q.slot p.2).flight = p.1.flight := rfl
  generalize p.1.setDevice q.slot p.2 = u at hex hq ha hr' hfl
  have hq' := hq.trans (State.settle_atRest_quiet hr')
  have hact := (State.settle_atRest_actorAt hr').trans ha
  have hfl' := (u.settle_tended q.slot).flight.trans hfl
  generalize u.settle q.slot = w at hex hq' hact hfl'
  obtain ⟨hregs, hstore, -⟩ := hq'.toCalm.arrived (s.take n v.old.core.toNat).here (s.take n v.old.core.toNat).cx
  have hres := (State.residentAt_at hq'.here (s.take n v.old.core.toNat).here (s.take n v.old.core.toNat).cx).trans hact
  refine ⟨_, hex, ?_, hq'.arrived_padsKept _ _, hregs, hstore, fun h hh => ?_⟩
  · rw [hres, Actor.carry_auxOf, hto]
  rw [hres, Actor.carry_box, hbox]
  constructor
  · rintro ⟨he, hc, ho⟩
    refine ⟨by simp [he, hc, ho], ?_⟩
    obtain ⟨m, ⟨f, hf, hfp⟩, hrest⟩ := hway h (by simp [hh, he, hc, ho])
    exact ⟨m, ⟨f, hfl' ▸ hf, hfp⟩, hrest⟩
  · rintro (he | hc | ho)
    · simp [hh, he]
    · simp [hh, hc]
    · simp [hh, ho]

end

/-! ## The marker at the new location (R182) -/

theorem Actor.moved_auxOf (a : Actor) (e : BitVec 4) : ((a.moved e).auxOf e).holdDirect = false := by
  show ((a.setAux e _).auxOf e).holdDirect = false
  rw [Actor.auxOf_setAux_same]

theorem Actor.moved_box {a : Actor} {e : BitVec 4} {h : Held} (hm : h ∈ (a.moved e).box) (he : h.ep = e) : h.direct = false := by
  rcases List.mem_append.1 hm with hm | hm
  · simpa [he] using (List.mem_filter.1 hm).2
  · obtain ⟨x, -, rfl⟩ := List.mem_map.1 hm
    rfl

section
variable {s : State} {n : Nat} {q : Loc} {k : BitVec 4} {who : AId} {p : BitVec 24} {v : Move}

theorem execForwardingEndMarker_new (hp : s.packet n = some (.marker (.ep q k) who true p v)) (hh : s.halted q.core = false)
    (h1 : s.first n (.marker (.ep q k) who true p v) = true) (hl : s.locOf who = some q) :
    execForwardingEndMarker n s = .next ((s.take n q.core.toNat).at q.core (s.take n q.core.toNat).cx fun t =>
      ((t.setDevice q.slot ((t.actorAt q.slot).moved k)).settle q.slot).wakeHere) := by
  rw [← State.control_resident (by rw [State.take_locOf]; exact hl) (fun a => a.moved k) fun u k => u.settle k]
  unfold execForwardingEndMarker
  simp only [hp, State.away, State.barred, Dest.core?, hh, h1, Dest.endpoint, Dest.station]
  rfl

/-- What the marker ends at the new location (R182). -/
theorem forwardingEndMarker_happens (hp : s.packet n = some (.marker (.ep q k) who true p v)) (hh : s.halted q.core = false)
    (h1 : s.first n (.marker (.ep q k) who true p v) = true) (hl : s.locOf who = some q) :
    Happens (.forwardingEndMarker n) s fun t => ((t.residentAt q).auxOf k).holdDirect = false ∧ (∀ h ∈ (t.residentAt q).box, h.ep = k → h.direct = false) ∧
      RegsKept s t ∧ StoreKept s t := by
  have hex := execForwardingEndMarker_new hp hh h1 hl
  rw [State.take_at, State.arrived_actorAt] at hex
  have hc : Calm (s.arrived n q.core.toNat q.core) _ := (Quiet.setDevice _ q.slot ((s.residentAt q).moved k)).toCalm
  have ha : ((s.arrived n q.core.toNat q.core).setDevice q.slot ((s.residentAt q).moved k)).actorAt q.slot = _ := State.actorAt_setDevice ..
  generalize State.setDevice _ _ _ = u at hex hc ha
  have ht := u.settle_tended q.slot
  replace hc := hc.trans ht.calm
  generalize u.settle q.slot = w at hex hc ht
  obtain ⟨hregs, hstore, -⟩ := hc.arrived_wakeHere (s.take n q.core.toNat).here (s.take n q.core.toNat).cx
  have hhere : w.wakeHere.here = q.core := hc.here
  refine ⟨_, hex, ?_, fun h hm he => ?_, hregs, hstore⟩
  · rw [State.residentAt_at hhere, State.actorAt_wakeHere, ht.auxOf, ha, Actor.carry_auxOf, Actor.moved_auxOf]
  · rw [State.residentAt_at hhere, State.actorAt_wakeHere] at hm
    rcases ht.direct h hm with hd | ⟨y, hy, hye, hyd⟩
    · exact hd
    · rw [ha, Actor.carry_box] at hy
      exact hyd ▸ Actor.moved_box hy (hye.trans he)

end

end Sys2Proof.Machine
end

section
namespace Sys2Proof.Machine
open Sys2Proof.Safety

/-! ## Fences that are met (R235, R266) -/

/-- What the contexts woken and the focus given back leave of work at a core that has left every context. -/
theorem Still.focused_wakeHere {s v : State} {c : CoreId} {x : BitVec 2} (h : Still { s with here := c, cx := x } v) :
    RegsKept s { v.wakeHere with here := s.here, cx := s.cx } ∧ OtherCores s { v.wakeHere with here := s.here, cx := s.cx } c := by
  refine ⟨h.regsKept_wakeHere, fun j hj => ?_⟩
  have : j ≠ v.here := by rw [h.here]; exact hj
  exact (v.core_setHere_ne _ this).trans (h.other j hj)

theorem Still.of_cores {s t : State} (hh : t.here = s.here) (hc : t.cores = s.cores) : Still s t := by
  have core : ∀ c, t.core c = s.core c := fun c => by unfold State.core; rw [hc]
  exact ⟨hh, by unfold State.hereCore; rw [hh, core], fun c _ => core c⟩

theorem Still.setHere (s : State) {k : Core} (h : k.ctxs = s.hereCore.ctxs) : Still s (s.setHere k) := (Calm.setHere s h).toStill

/-- A page written into the Depot: no core has changed. -/
theorem State.persistPage_still {s : State} {p : Nat} {r : State × Nat} (h : s.persistPage p = .ok r) : Still s r.1 := by
  unfold State.persistPage at h
  dsimp only at h
  repeat' split at h
  all_goals cases h
  all_goals exact .of_cores rfl rfl

/-- What a durable fence does for its pages leaves every context. -/
theorem State.makeDurable_still (s : State) (k : BitVec 4) (pages : List Nat) : Still s (s.makeDurable k pages) := by
  unfold State.makeDurable
  generalize pages.eraseDups = l
  induction l generalizing s with
  | nil => exact .refl s
  | cons p l ih =>
    refine Still.trans ?_ (ih _)
    dsimp only
    split
    · next u n e => exact State.persistPage_still e
    · exact (Quiet.setActorAt ..).toStill

/-- A map with one value replaced has an entry of a kind where it had one, when the new value is of the kind as the old one was. -/
theorem any_put {α : Type} {f : Nat × α → Bool} {d x : α} {k : Nat} {m : List (Nat × α)} (hx : f (k, x) = f (k, look d k m)) (hd : f (k, d) = false) :
    (put k x m).any f = m.any f := by
  induction m with
  | nil => simpa [put, look, hd] using hx
  | cons p m ih =>
    obtain ⟨j, y⟩ := p
    unfold put
    split
    · rw [List.any_cons, hx]
      rcases look_mem d k ((j, y) :: m) with e | e
      · rw [e, hd, Bool.false_or]
      · cases hf : f (k, look d k ((j, y) :: m)) with
        | false => rfl
        | true => exact (List.any_eq_true.2 ⟨_, e, hf⟩).symm
    · split
      · next h => subst h; rw [List.any_cons, List.any_cons, hx]; simp [look]
      · next h => rw [List.any_cons, List.any_cons, ih (by rw [hx]; simp [look, h])]

/-- The module with another list of what waits behind fences at the core in focus. -/
def State.withFenced (s : State) (l : List Deferred) : State := s.setHere { s.hereCore with fenced := l }

theorem State.withFenced_still (s : State) (l : List Deferred) : Still s (s.withFenced l) := .setHere s rfl
@[simp] theorem State.withFenced_fenced (s : State) (l : List Deferred) : (s.withFenced l).hereCore.fenced = l := by unfold State.withFenced; rw [State.hereCore_setHere]
@[simp] theorem State.withFenced_actorAt (s : State) (l : List Deferred) (k : BitVec 4) : (s.withFenced l).actorAt k = s.actorAt k := State.actorAt_setHere _ (by rfl) k

/-- What a fence waits for does not depend on what waits behind fences. -/
theorem State.withFenced_fenceMet (s : State) (l : List Deferred) (who : AId) (kind : FenceKind) (sc : BitVec 4) (before : BitVec 40) :
    (s.withFenced l).fenceMet who kind sc before = s.fenceMet who kind sc before := by
  have any : ∀ f : Nat × Core → Bool, f (s.here.toNat, { s.hereCore with fenced := l }) = f (s.here.toNat, s.hereCore) → f (s.here.toNat, Core.reset) = false →
      (s.withFenced l).cores.any f = s.cores.any f := fun f h1 h2 => any_put h1 h2
  unfold State.fenceMet
  simp only [State.copies, List.any_flatMap]
  rw [any _ (by rfl) (by rfl), any _ (by rfl) (by rfl)]
  rfl

/-- A fence that leaves takes nothing with it. -/
theorem State.release_fence (s : State) (k : BitVec 4) (kind : FenceKind) (sc : BitVec 4) (before : BitVec 40) (pages : List Nat) :
    Still s (s.release k (.fence kind sc before pages)) ∧ (s.release k (.fence kind sc before pages)).hereCore.fenced = s.hereCore.fenced := by
  have hd : s.release k (.fence kind sc before pages) = ((s.setDevice k (s.actorAt k)).settle k).syncDir ((s.setDevice k (s.actorAt k)).settle k).here := by
    rw [((s.setDevice k (s.actorAt k)).settle_tended k).here]; rfl
  have ht := (s.setDevice k (s.actorAt k)).settle_tended k
  rw [hd]
  refine ⟨((Quiet.setDevice ..).toStill.trans ht.calm.toStill).trans (Quiet.syncDir _).toStill, ?_⟩
  obtain ⟨d, i, h, e⟩ := State.syncDir_eq ((s.setDevice k (s.actorAt k)).settle k) ((s.setDevice k (s.actorAt k)).settle k).here
  rw [e]
  show (State.setHere _ _).hereCore.fenced = _
  rw [State.hereCore_setHere]
  show ((s.setDevice k (s.actorAt k)).settle k).hereCore.fenced = _
  rw [ht.core]
  unfold State.setDevice
  rw [State.core_setActorAt]

section
variable {s : State} {c : CoreId} {k : BitVec 4} {d : Deferred} {kind : FenceKind} {sc : BitVec 4} {before : BitVec 40} {pages : List Nat}

/-- A fence that is met and is not durable lets what waits behind it go. -/
theorem fenceConditionMet_release {u : State} {l : List Deferred} (hk : d.slot = k) (hi : d.item = .fence kind sc before pages)
    (hm : u.fenceMet (u.actorAt k).aid kind sc before = true) (hsc : sc ≠ 10) :
    ∃ v, Still u v ∧ execFenceConditionMet.release u l [d] = .next (v.withFenced l).wakeHere := by
  have hl : (u.withFenced l).mayLeave ((u.withFenced l).actorAt k).aid (.fence kind sc before pages) = true := by
    simp only [State.mayLeave, State.seqHeld, Item.seq, State.withFenced_fenceMet, State.withFenced_actorAt, hm, Bool.and_true]
    simpa using hsc
  obtain ⟨hst, hf⟩ := State.release_fence (u.withFenced l) k kind sc before pages
  refine ⟨_, (u.withFenced_still l).trans hst, ?_⟩
  have hr : (u.withFenced l).releaseFrom d.slot ([d].map fun x => x.item) = ((u.withFenced l).release k (.fence kind sc before pages), []) := by
    simp only [List.map_cons, List.map_nil, hk, hi, State.releaseFrom, hl, if_true]
  unfold State.withFenced at hr
  unfold execFenceConditionMet.release
  simp only [hr]
  rw [State.withFenced_fenced] at hf
  unfold State.withFenced at hf ⊢
  simp [hf]

/-- A fence that is met at a core: what stood behind it is gone from the list. -/
theorem execFenceConditionMet_met {u : State} (hu : u = { s with here := c, cx := 0 }) (hs : u.hereCore.stopped = false)
    (hd : (u.hereCore.fenced.filter fun x => x.slot = k) = [d]) (hi : d.item = .fence kind sc before pages)
    (hm : u.fenceMet (u.actorAt k).aid kind sc before = true) (hw : ∀ p ∈ pages, u.walking p = false) :
    ∃ v, Still u v ∧ execFenceConditionMet c k s =
      .next { (v.withFenced (u.hereCore.fenced.filter fun x => x.slot ≠ k)).wakeHere with here := s.here, cx := s.cx } := by
  have hk : d.slot = k := by simpa using (List.mem_filter.1 (hd ▸ List.mem_singleton_self d : d ∈ u.hereCore.fenced.filter fun x => x.slot = k)).2
  have hany : pages.any u.walking = false := List.any_eq_false.2 fun p hp => by simp [hw p hp]
  unfold execFenceConditionMet State.atOut
  rw [← hu]
  simp only [hs, hd, hi, hm, hany]
  by_cases hsc : sc = 10
  · exact ⟨u.makeDurable k pages, u.makeDurable_still k pages, by rw [if_pos hsc, List.append_nil]; rfl⟩
  · obtain ⟨v, hv, hr⟩ := fenceConditionMet_release (u := u) (l := u.hereCore.fenced.filter fun x => x.slot ≠ k) hk hi hm hsc
    exact ⟨v, hv, by rw [if_neg hsc, hr]; rfl⟩

/-- What stands behind a fence that is met is gone from the list. -/
theorem fenceConditionMet_happens {u : State} (hu : u = { s with here := c, cx := 0 }) (hs : u.hereCore.stopped = false)
    (hd : (u.hereCore.fenced.filter fun x => x.slot = k) = [d]) (hi : d.item = .fence kind sc before pages)
    (hm : u.fenceMet (u.actorAt k).aid kind sc before = true) (hw : ∀ p ∈ pages, u.walking p = false) :
    Happens (.fenceConditionMet c k) s fun t => (t.core c).fenced = (s.core c).fenced.filter (fun x => x.slot ≠ k) ∧ RegsKept s t ∧ OtherCores s t c := by
  obtain ⟨v, hst, hex⟩ := execFenceConditionMet_met hu hs hd hi hm hw
  have hst' := hst.trans (v.withFenced_still (u.hereCore.fenced.filter fun x => x.slot ≠ k))
  have hf := v.withFenced_fenced (u.hereCore.fenced.filter fun x => x.slot ≠ k)
  generalize v.withFenced _ = w at hex hst' hf
  subst hu
  obtain ⟨hregs, hother⟩ := hst'.focused_wakeHere
  have hhere : w.wakeHere.here = c := hst'.here
  refine ⟨_, hex, ?_, hregs, hother⟩
  rw [State.core_at hhere]
  unfold State.wakeHere
  rw [State.hereCore_setHere]
  exact hf

end

end Sys2Proof.Machine
end

section
open Sys2Proof Sys2Proof.Machine Sys2Proof.Safety

/-- Settles O51: a message by the three places where it may land, an anti-message by whether its positive waits, and each of the other packets by what its actor makes of it. -/
theorem arrivals : Obligations.Arrivals := by
  unfold Obligations.Arrivals
  refine ⟨?message, ?anti, ?ack, ?reloc, ?forward, ?marker, ?fence⟩
  case message =>
    rintro s n l e m a hp ha hf h1 hh hk ho hl rfl hs hb hg hr hi
    have o : Open (s.arrived n l.core.toNat l.core) l.slot m.hdr.key := .arrived hs hb hg hr hi
    have hex := execMessageArrival_resident hp ha hf h1 hh hk ho hl hs
    exact ⟨fun h hland hw => messageArrival_kept o hex hland hw,
      fun hm hc hn => messageArrival_gone o hex hm (Actor.land_closed hm hc hn),
      fun _ hd hland => messageArrival_full o hex hd hland⟩
  case anti =>
    rintro s n l e m a hp ha hf hh hl ho rfl hr
    have hex := execAntiMessage_resident hp ha hf hh hl ho
    exact ⟨fun hw => antiMessage_annihilates hex hr hw, fun hw hn key hc => antiMessage_calls hex hw hn hc⟩
  case ack =>
    rintro s n l e who move a hp hh hl rfl hr
    constructor
    · rintro rfl hc hx
      have h := Actor.acknowledged_closing hc hx
      obtain ⟨t, hex, hE, hA, hpads, hregs, hstore⟩ := acknowledgement_happens hp hh hl hr (by simp [h])
      exact ⟨t, hex, by rw [hE, h]; simp, by rw [hA, h]; simp, hpads, hregs, hstore⟩
    · rintro rfl hc hd hx
      have h := Actor.acknowledged_moved hc hd hx
      obtain ⟨t, hex, hE, -, hpads, hregs, -⟩ := acknowledgement_happens hp hh hl hr (by simp [h])
      exact ⟨t, hex, by rw [hE, h]; simp, hpads, hregs⟩
  case reloc =>
    rintro s n q k who v a hp hh h1 hl rfl hf ho
    exact relocationNotice_happens hp hh h1 hl hf ho
  case forward =>
    rintro s n tenant v q a hp hm hh hl rfl hr
    exact forwardingRequest_happens hp hm hh hl hr
  case marker =>
    intro s n q k who p v hp hh h1 hl
    exact forwardingEndMarker_happens hp hh h1 hl
  case fence =>
    intro s u c k d kind sc before pages hu hs hd hi hm hw
    exact fenceConditionMet_happens hu hs hd hi hm hw

end

section
namespace Sys2Proof.Machine
open Sys2Proof.Safety

/-! ## What dispatch chooses (R29, R32, R167, R363) -/

theorem leastBy_mem {lt : Held → Held → Bool} {l : List Held} {h : Held} (e : leastBy lt l = some h) : h ∈ l := by
  induction l generalizing h with
  | nil => cases e
  | cons x l ih =>
    unfold leastBy at e
    split at e
    · next y hy =>
      split at e <;> cases e
      · exact List.mem_cons_of_mem _ (ih hy)
      · exact List.mem_cons_self
    · cases e; exact List.mem_cons_self

/-- The next message of an actor is the oldest of its buffer, at an endpoint that takes it. -/
theorem State.nextOf_acceptable {s : State} {k : BitVec 4} {h : Held} (e : s.nextOf k = some h) : s.hereCore.acceptable (s.actorAt k) h = true := by
  unfold State.nextOf at e
  dsimp only at e
  split at e
  · exact (Bool.and_eq_true_iff.1 (List.mem_filter.1 (leastBy_mem e)).2).1
  · exact (List.mem_filter.1 (leastBy_mem (Option.filter_eq_some_iff.1 e).1)).2
  · exact (Bool.and_eq_true_iff.1 (Option.filter_eq_some_iff.1 e).2).1

theorem Core.acceptable_opened {c : Core} {a : Actor} {h : Held} (e : c.acceptable a h = true) (ho : h.msg.kind.isOwn = true) : (a.ep h.ep).status = .opened := by
  unfold Core.acceptable Core.takes at e
  simp only [Bool.and_eq_true, Bool.or_eq_true, decide_eq_true_eq, ho, Bool.not_true, Bool.false_eq_true, false_or] at e
  exact e.1.1.2.1.1

/-- A choice between what has been chosen and the next candidate chooses a candidate. -/
theorem foldl_choice_mem {α : Type} {f : Option α → α → Option α} (hf : ∀ m x, f m x = some x ∨ f m x = m) (l : List α) (m : Option α) {x : α} (e : l.foldl f m = some x) :
    x ∈ l ∨ m = some x := by
  induction l generalizing m with
  | nil => exact .inr e
  | cons y l ih =>
    rcases ih _ e with h | h
    · exact .inl (List.mem_cons_of_mem _ h)
    · rcases hf m y with g | g
      · rw [g] at h; cases h; exact .inl List.mem_cons_self
      · exact .inr (g ▸ h)

theorem State.chosen_nextOf {s : State} {t k : BitVec 4} {h : Held} (e : s.chosen t = some (k, h)) : s.nextOf k = some h := by
  unfold State.chosen at e
  rcases foldl_choice_mem (fun m y => by cases m with
    | none => exact .inl rfl
    | some z => exact ite_eq_or_eq ..) _ none e with hm | hm
  · obtain ⟨i, -, hi⟩ := List.mem_filterMap.1 hm
    dsimp only at hi
    split at hi
    · obtain ⟨y, hy, hp⟩ := Option.map_eq_some_iff.1 hi
      cases hp; exact hy
    · cases hi
  · cases hm

/-- What the table walk finds, it finds for the tenant of an entry. -/
theorem Core.walk_has {α : Type} {c : Core} {has : BitVec 4 → Option α} {x : α} (e : c.walk has = some x) : ∃ t, has t = some x := by
  unfold Core.walk at e
  split at e
  · cases e
  · next f hf =>
    split at e
    · next y hy => exact ⟨f.tenant, by rw [hy, e]⟩
    · split at e
      · obtain ⟨i, -, hi⟩ := List.exists_of_findSome?_eq_some e
        split at hi
        · next g hg => exact ⟨g.tenant, hi⟩
        · cases hi
      · cases e

theorem State.dispatchChoice_nextOf {s : State} {k : BitVec 4} {h : Held} {x : BitVec 2} (e : s.dispatchChoice = some (k, h, x)) : s.nextOf k = some h := by
  unfold State.dispatchChoice at e
  split at e
  · cases e
  · split at e
    · next hw hx =>
      cases e
      obtain ⟨t, ht⟩ := Core.walk_has hw
      exact State.chosen_nextOf ht
    · cases e

/-- A message of a channel is dispatched at an open endpoint. -/
theorem State.dispatchChoice_opened {s : State} {k : BitVec 4} {h : Held} {x : BitVec 2} (e : s.dispatchChoice = some (k, h, x)) (ho : h.msg.kind.isOwn = true) :
    ((s.actorAt k).ep h.ep).status = .opened := Core.acceptable_opened (State.nextOf_acceptable (State.dispatchChoice_nextOf e)) ho

/-! ## The records of a dispatch (R365) -/

/-- The core in focus has given a message in this cycle. -/
def State.dispatching (s : State) : State := s.setHere { s.hereCore with dispatched := some s.time }

@[simp] theorem State.dispatching_actorAt (s : State) (k : BitVec 4) : s.dispatching.actorAt k = s.actorAt k := State.actorAt_setHere _ (by rfl) k
@[simp] theorem State.dispatching_hereCore (s : State) : s.dispatching.hereCore = { s.hereCore with dispatched := some s.time } := State.hereCore_setHere ..

theorem State.dispatching_setHere (s : State) (c : Core) : (s.setHere c).dispatching = s.setHere { c with dispatched := some s.time } := by
  unfold State.dispatching
  rw [State.setHere_setHere, State.hereCore_setHere]; rfl

theorem State.setHere_dispatching (s : State) (c : Core) : s.dispatching.setHere c = s.setHere c := State.setHere_setHere ..

theorem State.dispatching_setBase (s : State) (b : Nat) (k : Base) : (s.setBase b k).dispatching = s.dispatching.setBase b k := rfl

theorem State.dispatching_setLogged (s : State) (k : BitVec 4) (a : Actor) : s.dispatching.setLogged k a = (s.setLogged k a).dispatching := by
  unfold State.setLogged State.setActorAt
  rw [State.dispatching_setBase, State.dispatching_setHere, State.setHere_dispatching, State.dispatching_hereCore]
  rfl

theorem State.dispatching_log (s : State) (k : BitVec 4) (r : LogRec) : s.dispatching.log k r = (s.log k r).map State.dispatching := by
  unfold State.log
  rw [State.dispatching_actorAt, show s.dispatching.spillRoom (s.actorAt k).aid = s.spillRoom (s.actorAt k).aid from rfl]
  cases (s.actorAt k).record r (s.spillRoom (s.actorAt k).aid) with
  | none => rfl
  | some p => exact congrArg some (s.dispatching_setLogged k p.1)

theorem State.dispatching_writePad (s : State) (n : Nat) (l : List Byte) :
    s.dispatching.setHere (s.dispatching.hereCore.writePad n l) = (s.setHere (s.hereCore.writePad n l)).dispatching := by
  rw [State.dispatching_setHere, State.setHere_dispatching, State.dispatching_hereCore]; rfl

theorem State.dispatching_logHeld (s : State) (k : BitVec 4) (r : LogRec) (l : List Byte) :
    s.dispatching.logHeld k r l = (s.logHeld k r l).map fun x => (x.1.dispatching, x.2) := by
  unfold State.logHeld
  rw [State.dispatching_actorAt, show s.dispatching.spillRoom (s.actorAt k).aid = s.spillRoom (s.actorAt k).aid from rfl]
  cases (s.actorAt k).record r (s.spillRoom (s.actorAt k).aid) with
  | none => rfl
  | some p =>
    dsimp only [Option.map_some]
    rw [State.dispatching_setLogged]
    congr 2
    rw [State.dispatching_writePad]
    exact (apply_ite State.dispatching _ _ _).symm

/-- A record of a dispatch written: a message of the history with its payload. -/
def State.logRec (s : State) (k : BitVec 4) (r : LogRec) : Option State :=
  match r with
  | .history h => (s.logHeld k r h.msg.payload).map fun x => x.1
  | r => s.log k r

theorem State.logEach_cons (s : State) (k : BitVec 4) (r : LogRec) (l : List LogRec) : s.logEach k (r :: l) = (s.logRec k r).bind fun t => t.logEach k l := by
  have bind : ∀ o : Option State, (match o with
      | some t => t.logEach k l
      | none => none) = o.bind fun t => t.logEach k l := by rintro (_ | t) <;> rfl
  cases r <;> exact bind _

theorem State.dispatching_logRec (s : State) (k : BitVec 4) (r : LogRec) : s.dispatching.logRec k r = (s.logRec k r).map State.dispatching := by
  unfold State.logRec
  split
  · rw [State.dispatching_logHeld, Option.map_map, Option.map_map]; rfl
  · exact s.dispatching_log k _

/-- The records of a dispatch do not depend on what the core has dispatched. -/
theorem State.dispatching_logEach (l : List LogRec) (s : State) (k : BitVec 4) : s.dispatching.logEach k l = (s.logEach k l).map State.dispatching := by
  induction l generalizing s with
  | nil => rfl
  | cons r l ih =>
    rw [State.logEach_cons, State.logEach_cons, State.dispatching_logRec]
    cases s.logRec k r with
    | none => rfl
    | some t => exact ih t

theorem State.logRec_tended {s t : State} {k : BitVec 4} {r : LogRec} (h : s.logRec k r = some t) : Tended k s t := by
  unfold State.logRec at h
  split at h
  · obtain ⟨x, hx, rfl⟩ := Option.map_eq_some_iff.1 h
    exact State.logHeld_tended hx
  · unfold State.log at h
    split at h
    · next a _ e =>
      cases h
      have hb : a.box = (s.actorAt k).box := by rw [Actor.record_eq e]
      exact .setLogged k s (by rw [Actor.record_eq e]) fun y hy => .inr ⟨y, hb ▸ hy, rfl, rfl⟩
    · cases h

theorem State.logEach_tended {l : List LogRec} {s t : State} {k : BitVec 4} (h : s.logEach k l = some t) : Tended k s t := by
  induction l generalizing s with
  | nil => cases h; exact .refl k _
  | cons r l ih =>
    rw [State.logEach_cons] at h
    obtain ⟨u, hu, ht⟩ := Option.bind_eq_some_iff.1 h
    exact (State.logRec_tended hu).trans (ih ht)

/-- The records of a dispatch that the log takes, after the core has noted the dispatch. -/
theorem State.logStart_dispatching {s : State} {k : BitVec 4} {h : Held} {cls : BitVec 6} (e : (s.logStart k h cls false).2 = true) :
    ∃ t : State, s.dispatching.logStart k h cls false = (t, true) ∧ Tended k s.dispatching t := by
  have hr : s.dispatching.startRecords k h cls false = s.startRecords k h cls false := by
    unfold State.startRecords; rw [State.dispatching_actorAt]; rfl
  unfold State.logStart at e
  dsimp only at e
  split at e
  · next u hu =>
    have hd : s.dispatching.logEach k (s.dispatching.startRecords k h cls false) = some u.dispatching := by
      rw [hr, State.dispatching_logEach, hu]; rfl
    exact ⟨u.dispatching, by unfold State.logStart; simp only [hd], State.logEach_tended hd⟩
  · cases e

end Sys2Proof.Machine
end

section
namespace Sys2Proof.Machine
open Sys2Proof.Safety

/-! ## The context of an activation (R18, R32, R97, R189) -/

theorem State.hereCore_setCtxAt (s : State) (x : BitVec 2) (y : Ctx) : (s.setCtxAt x y).hereCore = { s.hereCore with ctxs := s.hereCore.ctxs.set x.toNat y } :=
  State.hereCore_setHere s _

theorem State.ctxAt_setCtxAt (s : State) (x z : BitVec 2) (y : Ctx) : (s.setCtxAt x y).ctxAt z = if z = x then y else s.ctxAt z := by
  show (s.setCtxAt x y).hereCore.ctxs[z.toNat] = _
  simp only [State.hereCore_setCtxAt]
  split
  · next h => subst h; exact Vector.getElem_set_self _
  · next h => exact Vector.getElem_set_ne x.isLt z.isLt fun g => h (BitVec.eq_of_toNat_eq g.symm)

@[simp] theorem State.actorAt_setCtxAt (s : State) (x : BitVec 2) (y : Ctx) (k : BitVec 4) : (s.setCtxAt x y).actorAt k = s.actorAt k :=
  State.actorAt_eq_of_here (by rw [State.hereCore_setCtxAt]) k

/-- The registers of an activation that starts. -/
theorem startCtx_g {old : Ctx} {a : Actor} {img : Nat} {k : BitVec 4} {h : Held} {cls : BitVec 6} {v : Word} {trig : Trigger} {now : Nat}
    (hd : ∀ r d w y, h.msg.kind ≠ .diversion r d w y) {y : Ctx} (e : y = startCtx old a img k h cls v trig now) :
    y.g[1] = h.addr.setWidth 64 ∧ y.g[2] = BitVec.ofNat 64 h.msg.payload.length ∧ y.g[3] = h.ep.setWidth 64 ∧ y.g[4] = cls.setWidth 64 ∧
      y.g[5] = h.msg.hdr.key.sender.setWidth 64 ∧ y.g[6] = startState h trig.after ∧ ∀ r : Fin 32, r.val = 0 ∨ 7 ≤ r.val → y.g[r] = 0 := by
  subst e
  unfold startCtx
  refine ⟨rfl, rfl, ?_, rfl, rfl, rfl, fun r hr => ?_⟩
  · show BitVec.setWidth 64 (match h.msg.kind with
      | .diversion _ _ _ _ => 15
      | _ => h.ep) = _
    split
    · next e => exact absurd e (hd _ _ _ _)
    · rfl
  obtain ⟨r, hlt⟩ := r
  simp only [Fin.getElem_fin, Vector.getElem_set, Vector.getElem_replicate]
  dsimp only at hr
  repeat rw [if_neg (by omega)]

/-- What the last register of an activation holds: the state after the advance, the close-point of a notice, or the status of a reply. -/
theorem startState_plain {h : Held} {r : EpRec} (e : h.msg.kind = .plain) :
    startState h r = if h.msg.hdr.close then r.cpoint.setWidth 64 else r.state.setWidth 64 := by
  unfold startState; rw [e]

theorem startState_status {h : Held} {r : EpRec} {n : BitVec 9} {v : Word} (e : h.msg.kind.status = some (n, v)) : startState h r = n.setWidth 64 := by
  unfold startState
  unfold MsgKind.status at e
  split at e <;> cases e <;> next g => rw [g]

/-! ## Dispatch (R18, R32, R176, R341) -/

/-- The actor of an activation that starts: its endpoint has advanced, and the message stands as consumed in its buffer. -/
def Actor.starting (a : Actor) (h : Held) (r : EpRec) : Actor :=
  { a.setEp h.ep r with box := a.box.map fun y => if y = h then { h with consumed := true } else y }

/-- An activation started in a context, once its records are written. -/
def State.started (s : State) (x : BitVec 2) (k : BitVec 4) (h : Held) (cls : BitVec 6) (r : EpRec) : State :=
  let t := s.setActorAt k ((s.actorAt k).starting h r)
  t.dispatching.setCtxAt x (startCtx (t.dispatching.ctxAt x) (t.dispatching.actorAt k) (t.hereCore.imageBase (s.actorAt k).aid.tenant (s.actorAt k).image) k
    { h with consumed := true } cls 0 ⟨{ h with consumed := true }, false, r, 0, 0⟩ t.time)

section
variable {s t : State} {k : BitVec 4} {x : BitVec 2} {h : Held} {q : EpRec}

theorem State.begin_started {cls : BitVec 6} (hl : s.logStart k h cls false = (t, true)) (hs : ∀ n v, h.msg.kind.status = some (n, v) → n.toNat < 0x1C0 ∨ 0x1E0 ≤ n.toNat) :
    s.begin x k h cls q none 0 = if h.msg.hdr.close then (t.started x k h cls q).ackClose k h.ep else t.started x k h cls q := by
  have hm : (h.msg.kind.status.filter fun y => decide (0x1C0 ≤ y.1.toNat) && decide (y.1.toNat < 0x1E0)) = none := by
    rw [Option.filter_eq_none_iff]
    rintro ⟨n, v⟩ e
    have := hs n v e
    simp only [Bool.and_eq_true, decide_eq_true_eq, not_and]
    omega
  unfold State.begin
  simp only [Option.isSome_none, hl, hm]
  rfl

theorem State.give_started (hb : (s.actorAt k).badFor h.ep h.msg.hdr.cls = false) (hq : s.hereCore.advanceBy ((s.actorAt k).ep h.ep) h = .ok q)
    (hh : (s.actorAt k).isHandler h.msg.hdr.cls = true) (hl : s.dispatching.logStart k h h.msg.hdr.cls false = (t, true))
    (hs : ∀ n v, h.msg.kind.status = some (n, v) → n.toNat < 0x1C0 ∨ 0x1E0 ≤ n.toNat) :
    s.give x k h = if h.msg.hdr.close then (t.started x k h h.msg.hdr.cls q).ackClose k h.ep else t.started x k h h.msg.hdr.cls q := by
  rw [← State.begin_started hl hs]
  have hq' : s.dispatching.hereCore.advanceBy ((s.actorAt k).ep h.ep) h = .ok q := by rw [State.dispatching_hereCore]; exact hq
  unfold State.dispatching at hq'
  unfold State.give
  simp only [hb, hq', hh]
  rfl

/-- The step, in the focus of its core: the chosen message is given. -/
theorem exec_dispatch {u : State} {c : CoreId} (hu : u = { s with here := c, cx := 0 }) (hd : u.dispatchChoice = some (k, h, x)) (hc : (u.actorAt k).counts h = false) :
    exec (if h.msg.hdr.close then .closeNotice c k h.ep else .activationDispatch c) s = .next { u.give x k h with here := s.here, cx := s.cx } := by
  cases hcl : h.msg.hdr.close with
  | true =>
    show execCloseNotice c k h.ep s = _
    unfold execCloseNotice State.atOut
    rw [← hu]
    simp [hd, hcl, hc]
  | false =>
    show execActivationDispatch c s = _
    unfold execActivationDispatch State.atOut
    rw [← hu]
    simp [hd, hcl, hc]

theorem Quiet.dispatching (s : State) : Quiet s s.dispatching := .setHere s rfl rfl rfl

/-- An activation that starts: its context, and what stays as it was. -/
theorem State.started_ctx (ht : Tended k s.dispatching t) (cls : BitVec 6) :
    (t.started x k h cls q).ctxAt x = startCtx (s.ctxAt x) (s.actorAt k) (s.hereCore.imageBase (s.actorAt k).aid.tenant (s.actorAt k).image) k
        { h with consumed := true } cls 0 ⟨{ h with consumed := true }, false, q, 0, 0⟩ s.time ∧
      (∀ z, z ≠ x → (t.started x k h cls q).ctxAt z = s.ctxAt z) ∧ (∀ d, d ≠ s.here → (t.started x k h cls q).core d = s.core d) ∧
      (t.started x k h cls q).here = s.here ∧ (t.started x k h cls q).actorAt k = (t.actorAt k).starting h q := by
  have hc : Calm s (t.setActorAt k ((t.actorAt k).starting h q)).dispatching :=
    (((Quiet.dispatching s).toCalm.trans ht.calm).trans (Quiet.setActorAt ..).toCalm).trans (Quiet.dispatching _).toCalm
  have hi : (t.setActorAt k ((t.actorAt k).starting h q)).hereCore.images = s.hereCore.images := by
    rw [State.core_setActorAt, ht.core, State.dispatching_hereCore]
  have ha : (t.setActorAt k ((t.actorAt k).starting h q)).dispatching.actorAt k = (t.actorAt k).starting h q := by
    rw [State.dispatching_actorAt, State.actorAt_setActorAt]
  have hta := ht.actor
  rw [State.dispatching_actorAt] at hta
  have himg : ∀ n m, (t.setActorAt k ((t.actorAt k).starting h q)).hereCore.imageBase n m = s.hereCore.imageBase n m := fun n m => by
    unfold Core.imageBase; rw [hi]
  unfold State.started
  dsimp only
  refine ⟨?_, fun z hz => ?_, fun d hd => ?_, hc.here, ?_⟩
  · rw [State.ctxAt_setCtxAt, if_pos rfl, hc.ctxAt_eq, ha, himg, show (t.setActorAt k _).time = s.time from hc.time, hta]
    rfl
  · rw [State.ctxAt_setCtxAt, if_neg hz, hc.ctxAt_eq]
  · rw [← hc.other d hd]
    exact State.core_setCore_ne _ (by rw [hc.here]; exact hd) _
  · rw [State.actorAt_setCtxAt, ha]

/-- The destination of an endpoint is that of its peer, as long as it waits for no child. -/
theorem Actor.dest_congr {a b : Actor} {e : BitVec 4} (hi : b.aid = a.aid) (hk : (b.ep e).pkind = (a.ep e).pkind) (hp : (b.ep e).peer = (a.ep e).peer)
    (hm : (b.ep e).pmod = (a.ep e).pmod)
    (hs : (b.ep e).status = .connecting ∧ (b.auxOf e).spawning ↔ (a.ep e).status = .connecting ∧ (a.auxOf e).spawning) : b.dest e = a.dest e := by
  unfold Actor.dest
  simp only [hi, hk, hp, hm, hs]

/-- A close notice closes its endpoint with the cause that it has. -/
theorem Core.advanceBy_close {c : Core} {r : EpRec} (hk : h.msg.kind = .plain) (hc : h.msg.hdr.close = true) (hq : c.advanceBy r h = .ok q) :
    q = { r with status := .closed, state := (c.view r.itin r.state).close, cpoint := (c.view r.itin r.state).close, ccause := h.cause, cbypeer := true, rcvd := r.rcvd + 1 } := by
  unfold Core.advanceBy at hq
  simp only [hk, hc] at hq
  split at hq <;> cases hq
  rfl

end

end Sys2Proof.Machine
end

section
namespace Sys2Proof.Machine
open Sys2Proof.Safety

/-! ## What a dispatch leaves -/

section
variable {s u : State} {c : CoreId} {k : BitVec 4} {x : BitVec 2} {h : Held} {q : EpRec}

/-- The step of a dispatch: the context, the endpoint, the acknowledgement of a notice, and what stays as it was. -/
theorem dispatch_started (hu : u = { s with here := c, cx := 0 }) (hd : u.dispatchChoice = some (k, h, x)) (hc : (u.actorAt k).counts h = false)
    (hb : (u.actorAt k).badFor h.ep h.msg.hdr.cls = false) (hq : u.hereCore.advanceBy ((u.actorAt k).ep h.ep) h = .ok q)
    (hh : (u.actorAt k).isHandler h.msg.hdr.cls = true) (hl : (u.logStart k h h.msg.hdr.cls false).2 = true)
    (hs : ∀ n v, h.msg.kind.status = some (n, v) → n.toNat < 0x1C0 ∨ 0x1E0 ≤ n.toNat) :
    ∃ (v : State) (b : Actor), exec (if h.msg.hdr.close then .closeNotice c k h.ep else .activationDispatch c) s = .next { v with here := s.here, cx := s.cx } ∧ v.here = c ∧
      v.ctxAt x = startCtx (u.ctxAt x) (u.actorAt k) (u.hereCore.imageBase (u.actorAt k).aid.tenant (u.actorAt k).image) k
        { h with consumed := true } h.msg.hdr.cls 0 ⟨{ h with consumed := true }, false, q, 0, 0⟩ u.time ∧
      (∀ z, z ≠ x → v.ctxAt z = u.ctxAt z) ∧ (∀ d, d ≠ c → v.core d = u.core d) ∧ v.actorAt k = b.starting h q ∧
      b = { u.actorAt k with box := b.box, log := b.log, logNext := b.logNext } ∧
      (h.msg.hdr.close = true → OnWay v (.ack ((b.starting h q).dest h.ep) ((b.starting h q).peerOf h.ep) false)) := by
  obtain ⟨t, hlt, ht⟩ := State.logStart_dispatching hl
  obtain ⟨hx, hz, ho, hhere, ha⟩ := State.started_ctx (x := x) (h := h) (q := q) ht h.msg.hdr.cls
  have hex := exec_dispatch hu hd hc
  rw [State.give_started hb hq hh hlt hs] at hex
  have hta := ht.actor
  rw [State.dispatching_actorAt] at hta
  have hhere' : u.here = c := by rw [hu]
  rw [hhere'] at ho
  refine ⟨_, t.actorAt k, hex, ?_⟩
  generalize t.started x k h h.msg.hdr.cls q = w at hx hz ho hhere ha
  cases hcl : h.msg.hdr.close with
  | true => exact ⟨hhere.trans hhere', hx, hz, ho, ha, hta, fun _ => by rw [← ha]; exact onWay_post ..⟩
  | false => exact ⟨hhere.trans hhere', hx, hz, ho, ha, hta, fun g => by cases g⟩

/-- The endpoint that a notice has closed is acknowledged where its peer is. -/
theorem Actor.starting_dest {a b : Actor} {core : Core} (hb : b = { a with box := b.box, log := b.log, logNext := b.logNext }) (hk : h.msg.kind = .plain)
    (hc : h.msg.hdr.close = true) (hq : core.advanceBy (a.ep h.ep) h = .ok q) (ho : (a.ep h.ep).status = .opened) :
    (b.starting h q).dest h.ep = a.dest h.ep ∧ (b.starting h q).peerOf h.ep = a.peerOf h.ep := by
  have he : (b.starting h q).ep h.ep = q := Actor.ep_setEp_same ..
  have hq' := Core.advanceBy_close hk hc hq
  have hi : (b.starting h q).aid = a.aid := by rw [hb]; rfl
  refine ⟨Actor.dest_congr hi (by rw [he, hq']) (by rw [he, hq']) (by rw [he, hq']) (by rw [he, hq', ho]; simp), ?_⟩
  unfold Actor.peerOf
  rw [hi, show (b.starting h q).auxOf h.ep = b.auxOf h.ep from rfl, hb]
  rfl

end

/-! ## Loans (R342) -/

theorem State.ctxOf_eq {s t : State} (h : ∀ x, t.ctxAt x = s.ctxAt x) (k : BitVec 4) : t.ctxOf k = s.ctxOf k := by
  unfold State.ctxOf; simp only [h]

/-- A loan reaches the borrower, and the context where its activation runs. -/
theorem State.lend_reaches (s : State) (k : BitVec 4) :
    ((s.lend k).actorAt k).lent = s.loanOf (s.actorAt k).aid ∧ (s.lend k).here = s.here ∧ (∀ d, d ≠ s.here → (s.lend k).core d = s.core d) ∧
      ∀ x, (s.ctxOf k = some x → (s.lend k).ctxAt x =
          { s.ctxAt x with prioEff := if (s.ctxAt x).prioBase.ult (s.loanOf (s.actorAt k).aid) then s.loanOf (s.actorAt k).aid else (s.ctxAt x).prioBase }) ∧
        (s.ctxOf k ≠ some x → (s.lend k).ctxAt x = s.ctxAt x) := by
  have hq := Quiet.setActorAt s k { s.actorAt k with lent := s.loanOf (s.actorAt k).aid }
  have ha := s.actorAt_setActorAt k { s.actorAt k with lent := s.loanOf (s.actorAt k).aid }
  have ho := State.ctxOf_eq hq.ctxAt_eq k
  unfold State.lend
  dsimp only
  rw [ho]
  generalize s.setActorAt k _ = t at hq ha
  cases hx : s.ctxOf k with
  | none => exact ⟨by rw [ha], hq.here, hq.other, fun x => ⟨fun e => (nomatch e), fun _ => hq.ctxAt_eq x⟩⟩
  | some y =>
    refine ⟨by rw [State.actorAt_setCtxAt, ha], hq.here, fun d hd => ?_, fun x => ⟨fun e => ?_, fun e => ?_⟩⟩
    · rw [← hq.other d hd]
      exact State.core_setCore_ne _ (by rw [hq.here]; exact hd) _
    · cases e
      rw [State.ctxAt_setCtxAt, if_pos rfl, hq.ctxAt_eq]
    · rw [State.ctxAt_setCtxAt, if_neg fun g => e (by rw [g]), hq.ctxAt_eq]

/-! ## Counted messages (R380) -/

theorem countedWord_left (v : Word) (fail : Bool) : (countedWord v fail).extractLsb' 32 16 = v.extractLsb' 32 16 - 1 := by
  unfold countedWord
  dsimp only
  generalize v.extractLsb' 32 16 - 1 = l
  generalize v.extractLsb' 16 16 + _ = f
  generalize v.setWidth 16 + _ = o
  ext i hi
  simp only [BitVec.getElem_extractLsb', BitVec.getLsbD_append, show ¬ 32 + i < 16 by omega, show ¬ 32 + i - 16 < 16 by omega, show 32 + i - 16 - 16 = i by omega, hi]
  simp [BitVec.getLsbD_eq_getElem hi]

theorem countedWord_eq (v : Word) (fail : Bool) : countedWord v fail = v.extractLsb' 48 16 ++ (v.extractLsb' 32 16 - 1) ++
    (if fail then v.extractLsb' 16 16 + 1 ++ v.setWidth 16 else v.extractLsb' 16 16 ++ (v.setWidth 16 + 1)) := by
  unfold countedWord
  cases fail <;> exact BitVec.append_assoc.trans (by simp)

/-- A message of a counter consumed without an activation: it is gone from the box, and its endpoint stands as the advance left it. -/
def Actor.countedBy (a : Actor) (h : Held) (q : EpRec) (j : JReg) (now : Nat) : Actor :=
  (({ a.setEp h.ep q with jreg := j, freedAt := now } : Actor).endTaken [h]).endNotice h (({ a.setEp h.ep q with jreg := j, freedAt := now } : Actor).ep h.ep).bufbase

theorem Actor.endNotice_eq (a : Actor) (h : Held) (n : BitVec 18) : a.endNotice h n = { a with aux := (a.endNotice h n).aux } := by
  unfold Actor.endNotice
  split
  · rfl
  · split
    · split <;> rfl
    · rfl

section
variable {s u : State} {c : CoreId} {k : BitVec 4} {h : Held} {q : EpRec} {a : Actor} {w : Nat} {v : Word} {j : JReg} {now : Nat}

theorem Actor.countedBy_ep : (a.countedBy h q j now).ep h.ep = q := by
  unfold Actor.countedBy
  rw [Actor.endNotice_eq]
  exact Actor.ep_setEp_same ..

theorem Actor.countedBy_aid : (a.countedBy h q j now).aid = a.aid := by
  unfold Actor.countedBy
  rw [Actor.endNotice_eq]; rfl

theorem Actor.countedBy_box {x : Held} (hx : x ∈ (a.countedBy h q j now).box) : x ∈ a.box := by
  unfold Actor.countedBy at hx
  rw [Actor.endNotice_eq] at hx
  exact (List.mem_filter.1 hx).1

/-- What a counter leaves in the log as returned was there. -/
theorem Actor.countedBy_returned {p : Placed} {x : Held} (hp : p ∈ (a.countedBy h q j now).log) (he : p.entry = .returned x) : p ∈ a.log := by
  unfold Actor.countedBy at hp
  rw [Actor.endNotice_eq] at hp
  obtain ⟨y, hy, rfl⟩ := List.mem_map.1 hp
  revert he
  split
  · split
    · exact fun he => by cases he
    · exact fun _ => hy
  · exact fun _ => hy

/-- The mask of a counter after a message. -/
def JReg.marked (j : JReg) (h : Held) : JReg := { j with mask := if h.msg.hdr.close then j.mask else j.mask ||| (1 <<< h.ep.toNat) }

/-- A message counted at its core: its endpoint and the counter's word. -/
def State.counting (u : State) (k : BitVec 4) (h : Held) (q : EpRec) : State :=
  let t := u.setActorAt k ((u.actorAt k).countedBy h q ((u.actorAt k).jreg.marked h) u.time)
  t.setHere (t.hereCore.writePad (8 * (u.actorAt k).jreg.word.toNat) (leBytes (countedWord (u.word64 (u.actorAt k).jreg.word.toNat) h.msg.hdr.close).toNat 8))

/-- The same, with the acknowledgement of a notice. -/
def State.countIt (u : State) (k : BitVec 4) (h : Held) (q : EpRec) : State :=
  if h.msg.hdr.close then (u.counting k h q).ackClose k h.ep else u.counting k h q

theorem execCountedMessage_counted (hu : u = { s with here := c, cx := 0 }) (hi : u.idle k = true) (hs : u.hereCore.stopped = false) (hn : u.nextOf k = some h)
    (hc : (u.actorAt k).counts h = true) (hw : w = (u.actorAt k).jreg.word.toNat) (hbad : w ∉ u.hereCore.badPad) (hv : v = u.word64 w) (harm : v.getLsbD 63 = true)
    (hq : u.hereCore.advanceBy ((u.actorAt k).ep h.ep) h = .ok q) (hleft : v.extractLsb' 32 16 ≠ 1) (hb : (u.actorAt k).badFor h.ep (v.extractLsb' 56 6) = false)
    (hd : (u.actorAt k).disc ≠ .timed) :
    execCountedMessage c k s = .next { ((u.countIt k h q).settle k).syncDir (u.countIt k h q).here with here := s.here, cx := s.cx } := by
  have hz : (countedWord v h.msg.hdr.close).extractLsb' 32 16 ≠ 0 := by
    rw [countedWord_left]
    intro e
    exact hleft (by rw [← BitVec.sub_add_cancel (v.extractLsb' 32 16) 1, e]; rfl)
  have hnx : (if u.idle k ∧ ! u.hereCore.stopped then u.nextOf k else none) = some h := by simp [hi, hs, hn]
  have hbad' : u.hereCore.badPad.contains w = false := by simpa using hbad
  subst hv hw
  unfold execCountedMessage State.atOut
  rw [← hu]
  simp only [hnx, hc, hbad', harm, hb, hq, if_neg hz, if_neg hd]
  rfl

end

end Sys2Proof.Machine
end

section
namespace Sys2Proof.Machine
open Sys2Proof.Safety

/-- A doubleword written reads as it was written. -/
theorem Mem.word_setBytes (m : Mem) (n : Nat) (x : Word) : BitVec.ofNat 64 (leNat ((m.setBytes n (leBytes x.toNat 8)).bytes n 8)) = x := by
  have h := Mem.bytes_setBytes m n (leBytes x.toNat 8)
  rw [leBytes_length] at h
  rw [h, leNat_leBytes, show 256 ^ 8 = 2 ^ 64 from rfl, Nat.mod_eq_of_lt x.isLt, BitVec.ofNat_toNat, BitVec.setWidth_eq]

/-- A doubleword where no word is in error. -/
theorem Core.sound_of_badIn {k : Core} {w : Nat} (h : k.badIn (8 * w) 8 = none) : w ∉ k.badPad := by
  have hm : w ∈ wordsOf (8 * w) 8 := by
    simp only [wordsOf, List.mem_range', Nat.reduceEqDiff, if_false]
    exact ⟨0, by omega, by omega⟩
  simpa using List.find?_eq_none.1 h w hm

section
variable {s u : State} {c : CoreId} {k : BitVec 4} {h : Held} {q : EpRec}

/-- What a counted message changes at its core: the word of its counter and its actor. -/
theorem State.counting_changes (u : State) (k : BitVec 4) (h : Held) (q : EpRec) : Calm u (u.counting k h q) ∧
    (u.counting k h q).actorAt k = (u.actorAt k).countedBy h q ((u.actorAt k).jreg.marked h) u.time ∧ (∀ b, (u.counting k h q).base b = u.base b) ∧
      (u.counting k h q).word64 (u.actorAt k).jreg.word.toNat = countedWord (u.word64 (u.actorAt k).jreg.word.toNat) h.msg.hdr.close := by
  have hq := Quiet.setActorAt u k ((u.actorAt k).countedBy h q ((u.actorAt k).jreg.marked h) u.time)
  have ha := u.actorAt_setActorAt k ((u.actorAt k).countedBy h q ((u.actorAt k).jreg.marked h) u.time)
  have hb : ∀ b, (u.setActorAt k ((u.actorAt k).countedBy h q ((u.actorAt k).jreg.marked h) u.time)).base b = u.base b := fun _ => rfl
  unfold State.counting
  dsimp only
  generalize u.setActorAt k _ = t at hq ha hb
  refine ⟨hq.toCalm.trans (.setHere t rfl), ?_, hb, ?_⟩
  · rw [State.actorAt_setHere _ (by rfl), ha]
  · unfold State.word64
    rw [State.hereCore_setHere]
    exact Mem.word_setBytes ..

theorem State.countIt_changes (u : State) (k : BitVec 4) (h : Held) (q : EpRec) : Calm u (u.countIt k h q) ∧
    (u.countIt k h q).actorAt k = (u.actorAt k).countedBy h q ((u.actorAt k).jreg.marked h) u.time ∧ (∀ b, (u.countIt k h q).base b = u.base b) ∧
      (u.countIt k h q).word64 (u.actorAt k).jreg.word.toNat = countedWord (u.word64 (u.actorAt k).jreg.word.toNat) h.msg.hdr.close := by
  obtain ⟨hcalm, hrest⟩ := u.counting_changes k h q
  unfold State.countIt
  split
  · exact ⟨hcalm.trans (Quiet.post ..).toCalm, hrest⟩
  · exact ⟨hcalm, hrest⟩

/-- A counted message that leaves its counter armed: the word counts it, its endpoint has advanced, and no context has changed (R380). -/
theorem countedMessage_happens {w : Nat} {v : Word} (hu : u = { s with here := c, cx := 0 }) (hi : u.idle k = true) (hs : u.hereCore.stopped = false)
    (hn : u.nextOf k = some h) (hc : (u.actorAt k).counts h = true) (hw : w = (u.actorAt k).jreg.word.toNat) (hbad : w ∉ u.hereCore.badPad) (hv : v = u.word64 w)
    (harm : v.getLsbD 63 = true) (hq : u.hereCore.advanceBy ((u.actorAt k).ep h.ep) h = .ok q) (hleft : v.extractLsb' 32 16 ≠ 1)
    (hb : (u.actorAt k).badFor h.ep (v.extractLsb' 56 6) = false) (hd : (u.actorAt k).disc ≠ .timed) (hr : AtRest u (u.actorAt k)) :
    Happens (.countedMessage c k) s fun t => State.word64 { t with here := c } w = countedWord v h.msg.hdr.close ∧ (t.residentAt ⟨c, k⟩).ep h.ep = q ∧
      (∀ z, ctxOn t c z = ctxOn s c z) ∧ OtherCores s t c := by
  have hex := execCountedMessage_counted hu hi hs hn hc hw hbad hv harm hq hleft hb hd
  obtain ⟨hcalm, hact, hbase, hword⟩ := u.countIt_changes k h q
  rw [← hw, ← hv] at hword
  generalize u.countIt k h q = t at hex hcalm hact hbase hword
  have hr' : AtRest t (t.actorAt k) := by
    rw [hact]
    refine atRest_of_subset hr Actor.countedBy_aid (hbase _) (fun x hx => Actor.countedBy_box hx) fun p hp x he => Actor.countedBy_returned hp he
  have hset := State.settle_atRest_quiet hr'
  have hsact := State.settle_atRest_actorAt hr'
  rw [← hset.here] at hex
  generalize t.settle k = r at hex hset hsact
  have hall := hset.trans (Quiet.syncDir r)
  have hract := (r.actorAt_syncDir k).trans (hsact.trans hact)
  generalize r.syncDir r.here = y at hex hall hract
  have hy := hcalm.trans hall.toCalm
  have hhere : y.here = c := by rw [hy.here, hu]
  have hp : (y.core c).pad = t.hereCore.pad := by rw [← hall.pad, State.hereCore, hhere]
  subst hu
  refine ⟨_, hex, ?_, ?_, fun z => hy.ctxOn_eq c z, hy.other⟩
  · rw [← hword]
    show BitVec.ofNat 64 (leNat ((y.core c).pad.bytes (8 * w) 8)) = _
    rw [hp]; rfl
  · rw [State.residentAt_at (l := ⟨c, k⟩) hhere, hract, Actor.countedBy_ep]

end

end Sys2Proof.Machine

open Sys2Proof Sys2Proof.Machine Sys2Proof.Safety

/-- Settles O49: a dispatch by the context that it starts, a counted message by its counter's word, a loan by where the borrower runs. -/
theorem dispatching : Obligations.Dispatching := by
  unfold Obligations.Dispatching
  refine ⟨?dispatch, ?counted, ?loan⟩
  case dispatch =>
    rintro s u c k h x q a hu rfl hd hc hb hq hh hl hs hdiv
    obtain ⟨v, b, hex, hhere, hx, hz, ho, ha, hbe, hack⟩ := dispatch_started hu hd hc hb hq hh hl hs
    have hy : v.ctxAt x = ctxOn { v with here := s.here, cx := s.cx } c x := by rw [← hhere]; rfl
    obtain ⟨h1, h2, h3, h4, h5, h6, h0⟩ := startCtx_g (h := { h with consumed := true }) hdiv hx
    replace h6 : (v.ctxAt x).g[6] = startState h q := h6
    have hctx : ∀ z, u.ctxAt z = ctxOn s c z := by subst hu; exact fun _ => rfl
    have hres := State.residentAt_at (l := ⟨c, k⟩) hhere s.here s.cx
    refine ⟨_, hex, v.ctxAt x, hy, by rw [hx]; rfl, by rw [hx]; rfl, by rw [hx]; rfl, by rw [hx]; rfl, h1, h2, h3, h4, h5, h0, fun hk hc => ?_, fun hk hc => ?_,
      fun n v hk => ?_, by rw [hx]; rfl, by rw [hx]; rfl, by rw [hx]; rfl, by rw [hx]; rfl, by rw [hx]; rfl, by rw [hx]; rfl, by rw [hx]; rfl, by rw [hx]; rfl,
      by rw [hx, ← hctx]; rfl, fun z hz' => ?_, fun d hne => ?_, ?_, fun hc hk => ?_⟩
    · rw [h6, startState_plain hk, if_neg (by rw [hc]; exact Bool.false_ne_true)]
    · rw [h6, startState_plain hk, if_pos hc]
    · rw [h6, startState_status hk]
    · rw [← hctx, ← hz z hz', ← hhere]; rfl
    · subst hu; exact ho d hne
    · rw [hres, ha]
      exact Actor.ep_setEp_same ..
    · have hopen := State.dispatchChoice_opened hd (by rw [hk]; rfl)
      obtain ⟨hdest, hpeer⟩ := Actor.starting_dest hbe hk hc hq hopen
      have hway := hack hc
      rw [hdest, hpeer] at hway
      rw [Core.advanceBy_close hk hc hq]
      exact ⟨rfl, rfl, hway⟩
  case counted =>
    rintro s u c k h q a w v hu rfl hi hs hn hc hw hbad hv harm hq hleft hb hd hr -
    obtain ⟨t, hex, hword, hrest⟩ := countedMessage_happens hu hi hs hn hc hw (Core.sound_of_badIn hbad) hv harm hq hleft hb hd hr
    exact ⟨t, hex, hword.trans (countedWord_eq ..), hrest⟩
  case loan =>
    rintro s u c k hu hk
    obtain ⟨hl, hhere, ho, hx⟩ := u.lend_reaches k
    have hex : exec (.priorityLoan c k) s = .next { u.lend k with here := s.here, cx := s.cx } := by
      show execPriorityLoan c k s = _
      unfold execPriorityLoan State.atOut
      rw [← hu]
      simp only [hk]; rfl
    have hhere' : u.here = c := by rw [hu]
    rw [hhere'] at ho hhere
    generalize u.lend k = v at hl hhere ho hx hex
    have hctx : ∀ x, ctxOn { v with here := s.here, cx := s.cx } c x = v.ctxAt x := fun x => by rw [← hhere]; rfl
    refine ⟨_, hex, ?_, ?_, fun x => ?_⟩
    · rw [State.residentAt_at (l := ⟨c, k⟩) hhere]; exact hl
    · subst hu; exact ho
    · rw [hctx]
      subst hu
      exact hx x
end

section
namespace Sys2Proof.Machine
open Sys2Proof.Safety

/-! ## What a send changes of its actor (R162, R165) -/

/-- An actor that has sent a message of VRT v on an endpoint, by the tables of a core. -/
def Actor.sendingOn (a : Actor) (core : Core) (e : BitVec 4) (nx : BitVec 6) (v : Word) : Actor :=
  let q := core.advanced (a.ep e) nx
  { (a.setEp e { q with sent := q.sent + 1, lastvrt := if a.disc = .untimed then q.lastvrt else v }) with seq := a.seq + 1 }

theorem Actor.sendingOn_ep (a : Actor) (core : Core) (e j : BitVec 4) (nx : BitVec 6) (v : Word) : (a.sendingOn core e nx v).ep j =
    if j = e then { core.advanced (a.ep e) nx with sent := (a.ep e).sent + 1, lastvrt := if a.disc = .untimed then (a.ep e).lastvrt else v } else a.ep j :=
  Actor.ep_setEp ..

/-- Whether a record has room does not depend on the endpoints and the sequence of its actor. -/
theorem Actor.record_sendingOn (a : Actor) (core : Core) (e : BitVec 4) (nx : BitVec 6) (v : Word) (r : LogRec) (room : Nat) :
    ((a.sendingOn core e nx v).record r room).isSome = (a.record r room).isSome := by
  unfold Actor.record
  simp only [show (a.sendingOn core e nx v).roomFor r = a.roomFor r from rfl, show (a.sendingOn core e nx v).log = a.log from rfl,
    show (a.sendingOn core e nx v).logNext = a.logNext from rfl, show (a.sendingOn core e nx v).ringUnits = a.ringUnits from rfl]
  cases a.roomFor r <;> simp only [apply_ite Option.isSome, Option.isSome_none, Option.isSome_some]

/-- An actor as another stands, but for what the device tends and the LASTVRT of one endpoint: what a send on that endpoint leaves. -/
structure SentOn (a b : Actor) (core : Core) (e : BitVec 4) (nx : BitVec 6) : Prop where
  ep : b.ep e = { core.advanced (a.ep e) nx with sent := (a.ep e).sent + 1, lastvrt := (b.ep e).lastvrt }
  others : ∀ j, j ≠ e → b.ep j = a.ep j
  seq : b.seq = a.seq + 1

theorem Actor.sendingOn_sentOn (a : Actor) (core : Core) (e : BitVec 4) (nx : BitVec 6) (v : Word) : SentOn a (a.sendingOn core e nx v) core e nx where
  ep := by rw [Actor.sendingOn_ep, if_pos rfl]
  others j hj := by rw [Actor.sendingOn_ep, if_neg hj]
  seq := rfl

theorem SentOn.advanced {s t : State} {e : BitVec 4} {nx : BitVec 6} (h : SentOn s.actor t.actor s.hereCore e nx) : OtherEpsKept s t e ∧ Advanced s t e nx := by
  refine ⟨h.others, ?_, ?_, ?_, ?_, ?_, h.seq⟩ <;> rw [h.ep] <;> rfl

/-! ## What stays as it was -/

theorem Logged.quiet {s t : State} (h : Logged s t) : Quiet s t where
  here := h.here
  ctxs := by unfold State.hereCore; rw [h.here, h.core]
  other := h.other
  cx := h.cx
  time := by rw [h.rest]
  store := ⟨h.dram, by rw [h.rest], by rw [h.rest], by rw [h.rest], by rw [h.rest]⟩
  pad := h.pad
  full := by unfold State.hereCore; rw [h.here, h.core]

/-- Work at the core in focus that changes nothing but that core and the base of its actor, and no byte of a memory. -/
structure Within (s t : State) : Prop where
  rest : t = { s with cores := t.cores, bases := t.bases }
  other : ∀ c, c ≠ s.here → t.core c = s.core c
  dram : ∀ b, (t.base b).dram = (s.base b).dram
  pad : t.hereCore.pad = s.hereCore.pad

theorem Within.here {s t : State} (h : Within s t) : t.here = s.here := by rw [h.rest]

theorem Within.trans {s t u : State} (h : Within s t) (g : Within t u) : Within s u where
  rest := by rw [g.rest, h.rest]
  other c hc := (g.other c (h.here ▸ hc)).trans (h.other c hc)
  dram b := (g.dram b).trans (h.dram b)
  pad := g.pad.trans h.pad

theorem Within.setHere (s : State) {k : Core} (h : k.pad = s.hereCore.pad) : Within s (s.setHere k) :=
  ⟨rfl, fun _ hc => s.core_setHere_ne k hc, fun _ => rfl, by rw [State.hereCore_setHere, h]⟩

theorem Within.setCtx (s : State) (x : Ctx) : Within s (s.setCtx x) := .setHere s rfl

theorem Logged.within {s t : State} (h : Logged s t) : Within s t := ⟨h.rest, h.other, h.dram, h.pad⟩

theorem Within.kept {s t : State} (h : Within s t) : PadKept s t 0 0 ∧ ElsewhereSame s t := by
  refine ⟨fun x _ => by rw [h.pad], h.other, h.dram, ?_⟩
  rw [h.rest]
  exact ⟨rfl, rfl, rfl, rfl, rfl, rfl, rfl⟩

/-- An instruction that ends: its context goes on, its staging queue as it stands. -/
theorem State.advance_nextAlone {s t : State} {l : List Item} (hh : t.here = s.here) (hx : t.cx = s.cx)
    (hc : ∀ y, t.ctxAt y = if y = s.cx then { s.ctx with staging := l } else s.ctxAt y) :
    NextAlone s (t.advance 4) ∧ (t.advance 4).ctx.staging = l ∧ (t.advance 4).actor = t.actorAt s.ctx.slot := by
  have ht : t.ctx = { s.ctx with staging := l } := by
    show t.ctxAt t.cx = _
    rw [hx, hc, if_pos rfl]
  have ha : (t.advance 4).ctx = { t.ctx with pc := t.ctx.pc + 4, retired := t.ctx.retired + 1 } := State.ctx_setCtx t _
  refine ⟨⟨hh, hx, fun y => ?_⟩, by rw [ha, ht], ?_⟩
  · rw [ha, ht]
    show (t.setCtx { t.ctx with pc := t.ctx.pc + 4, retired := t.ctx.retired + 1 }).ctxAt y = _
    rw [State.ctxAt_setCtx, hx, hc, ht]
    split <;> rfl
  · show (t.advance 4).actorAt (t.advance 4).ctx.slot = _
    rw [ha, ht]
    exact State.actorAt_setCtx ..

end Sys2Proof.Machine
end

section
namespace Sys2Proof.Machine
open Sys2Proof.Safety

/-! ## A send that stays at the core (R163, R273, R277) -/

theorem State.queue_room {s : State} {it : Item} (h : HasRoom s it) (k : State → Out) : s.queue it k = k (s.enqueue it) := by
  unfold HasRoom at h
  unfold State.queue
  dsimp only
  split at h
  · next hd => rw [if_pos hd, if_neg (by omega)]
  · next hd => rw [if_neg hd, if_neg (by omega)]

/-- Whether a record can be saved depends on its actor's log and on the room at its home base. -/
theorem State.saveEp_isSome {s t : State} {k e : BitVec 4} (ha : t.actorAt k = s.actorAt k) (hb : ∀ b, t.base b = s.base b) :
    (t.saveEp k e).isSome = (s.saveEp k e).isSome := by
  unfold State.saveEp
  dsimp only
  rw [ha]
  split
  · rfl
  · rw [State.log_isSome, State.log_isSome, ha]
    unfold State.spillRoom
    rw [hb]

/-- What an item queued leaves, and where it stands. -/
theorem State.enqueue_queued (s : State) (it : Item) : Within s (s.enqueue it) ∧ (s.enqueue it).cx = s.cx ∧ (∀ k, (s.enqueue it).actorAt k = s.actorAt k) ∧
    (∀ y, (s.enqueue it).ctxAt y = if y = s.cx then { s.ctx with staging := (s.enqueue it).ctx.staging } else s.ctxAt y) ∧ Queued s (s.enqueue it) it := by
  rw [State.enqueue_cases]
  unfold Queued
  split
  · have hq : Quiet s (s.setHere { s.hereCore with deferral := s.hereCore.deferral ++ [⟨s.ctx.slot, s.ctx.key, it⟩] }) := .setHere s rfl rfl rfl
    refine ⟨.setHere s rfl, rfl, State.actorAt_setHere s (by rfl), fun y => ?_, by rw [State.hereCore_setHere], by rw [hq.ctx_eq]⟩
    rw [hq.ctxAt_eq, hq.ctx_eq]
    split
    · next h => subst h; rfl
    · rfl
  · refine ⟨.setCtx s _, rfl, State.actorAt_setCtx s _, fun y => ?_, by rw [State.ctx_setCtx], by rw [State.deferral_setCtx]⟩
    rw [State.ctxAt_setCtx, State.ctx_setCtx]

theorem SentOn.congr {a a' b b' : Actor} {core : Core} {e : BitVec 4} {nx : BitVec 6} (h : SentOn a b core e nx) (ha : a'.eps = a.eps) (hs : a'.seq = a.seq)
    (hb : b'.ep e = { b.ep e with lastvrt := (b'.ep e).lastvrt }) (ho : ∀ j, j ≠ e → b'.ep j = b.ep j) (hq : b'.seq = b.seq) : SentOn a' b' core e nx := by
  have hep : ∀ j, a'.ep j = a.ep j := fun j => by unfold Actor.ep; simp only [ha]
  exact ⟨by rw [hb, h.ep, hep], fun j hj => by rw [ho j hj, h.others j hj, hep], by rw [hq, h.seq, hs]⟩

section
variable {s : State} {e : BitVec 4} {nx : BitVec 6} {v : Word}

/-- An endpoint changed by a send, its record saved first. -/
theorem changeEp_sent {core : Core} (h : (s.saveEp s.ctx.slot e).isSome = true) (k : State → Out) : ∃ u, s.saveEp s.ctx.slot e = some u ∧ Logged s u ∧
    changeEp e (fun a => a.sendingOn core e nx v) s k = k (u.setActor (u.actor.sendingOn core e nx v)) ∧
      SentOn s.actor (u.actor.sendingOn core e nx v) core e nx ∧ u.actor = { s.actor with log := u.actor.log, logNext := u.actor.logNext } := by
  obtain ⟨u, hu⟩ := Option.isSome_iff_exists.1 h
  have hl := State.saveEp_logged hu
  have ha : u.actor = { s.actor with log := u.actor.log, logNext := u.actor.logNext } := by
    unfold State.actor
    rw [hl.ctx]
    exact hl.actor _
  refine ⟨u, hu, hl, ?_, ?_, ha⟩
  · unfold changeEp
    rw [hu, orNoRoom_some]
  · exact (Actor.sendingOn_sentOn u.actor core e nx v).congr (by rw [ha]) (by rw [ha]) rfl (fun _ _ => rfl) rfl

theorem send_queued {it : Item} (hs : SavesEp s e) (hr : HasRoom s it) :
    ∃ t, (s.queue it fun t => changeEp e (fun a => a.sendingOn s.hereCore e nx v) t fun t => .next (t.advance 4)) = .next t ∧ NextAlone s t ∧
      SentOn s.actor t.actor s.hereCore e nx ∧ PadKept s t 0 0 ∧ ElsewhereSame s t ∧ Queued s t it := by
  rw [State.queue_room hr]
  obtain ⟨hwith, hcx, hact, hctx, hq⟩ := s.enqueue_queued it
  have hbase : ∀ b, (s.enqueue it).base b = s.base b := fun b => by rw [State.enqueue_cases]; split <;> rfl
  generalize s.enqueue it = t at hwith hcx hact hctx hq hbase
  have hslot : t.ctx.slot = s.ctx.slot := by
    show (t.ctxAt t.cx).slot = _
    rw [hcx, hctx, if_pos rfl]
  have hact' : t.actor = s.actor := by unfold State.actor; rw [hslot, hact]
  obtain ⟨u, hu, hl, hex, hsent, -⟩ := changeEp_sent (nx := nx) (v := v) (core := s.hereCore) (s := t) (e := e) (by rw [hslot, State.saveEp_isSome (hact _) hbase]; exact hs)
    fun t => .next (t.advance 4)
  rw [hact'] at hsent
  have hw : Within s (u.setActor (u.actor.sendingOn s.hereCore e nx v)) := (hwith.trans hl.within).trans (.setHere u rfl)
  have hqw : Quiet t (u.setActor (u.actor.sendingOn s.hereCore e nx v)) := hl.quiet.trans (.setActorAt ..)
  have ha : (u.setActor (u.actor.sendingOn s.hereCore e nx v)).actorAt s.ctx.slot = u.actor.sendingOn s.hereCore e nx v := by
    unfold State.setActor
    rw [hl.ctx, hslot, State.actorAt_setActorAt]
  have hdef : (u.setActor (u.actor.sendingOn s.hereCore e nx v)).hereCore.deferral = t.hereCore.deferral := by
    unfold State.setActor
    rw [State.core_setActorAt]
    unfold State.hereCore
    rw [hl.here, hl.core]
  generalize u.setActor _ = w at hex hw hqw ha hdef
  obtain ⟨hn, hst, hwa⟩ := State.advance_nextAlone (s := s) (t := w) (l := t.ctx.staging) hw.here (hqw.cx.trans hcx) fun y => by rw [hqw.ctxAt_eq]; exact hctx y
  obtain ⟨hp, hel⟩ := (hw.trans (Within.setCtx w _)).kept
  refine ⟨w.advance 4, hex, hn, by rw [hwa, ha]; exact hsent, hp, hel, ?_⟩
  unfold Queued at hq ⊢
  rw [show (w.advance 4).hereCore.deferral = t.hereCore.deferral from (State.deferral_setCtx ..).trans hdef, hst]
  exact hq

end

end Sys2Proof.Machine
end

section
namespace Sys2Proof.Machine
open Sys2Proof.Safety

/-! ## A message that leaves at once (R163, R235, R276) -/

/-- A message as it leaves the actor that has it: its destination stands in it as the endpoint's peer does. -/
def Actor.addressed (a : Actor) (e : BitVec 4) (m : Msg) : Msg :=
  { m with hdr := { m.hdr with dest := (a.ep e).peer.extractLsb' 4 20 }, rcpt := a.peerOf e }

/-- An actor whose message of VRT v has left. -/
def Actor.left (a : Actor) (e : BitVec 4) (v : Word) : Actor := a.setEp e { a.ep e with lastvrt := maxWord v (a.ep e).lastvrt }

section
variable {s : State} {k e : BitVec 4} {m : Msg}

theorem State.release_eq (h : (s.actorAt k).sendable e = true) : s.release k (.msg e m .fixed) =
    ((((s.postMsg s.here.toNat ((s.actorAt k).dest e) ((s.actorAt k).addressed e m)).setDevice k ((s.actorAt k).left e m.hdr.key.vrt)).settle k).syncDir s.here) := by
  unfold State.release leaveItem
  simp only [h]
  rfl

/-- What a message that leaves changes: it is on its way, and its endpoint has its VRT. -/
theorem State.release_msg (h : (s.actorAt k).sendable e = true) : Calm s (s.release k (.msg e m .fixed)) ∧
    (∃ f c, (s.release k (.msg e m .fixed)).flight = s.flight ++ [⟨f, m.hdr.key.vrt, .msg ((s.actorAt k).dest e)
      { (s.actorAt k).addressed e m with hdr := { ((s.actorAt k).addressed e m).hdr with colour := c } }⟩]) ∧
    (∀ j, ((s.release k (.msg e m .fixed)).actorAt k).ep j = ((s.actorAt k).left e m.hdr.key.vrt).ep j) ∧
    ((s.release k (.msg e m .fixed)).actorAt k).seq = (s.actorAt k).seq := by
  rw [State.release_eq h]
  have hq : Quiet s ((s.postMsg s.here.toNat ((s.actorAt k).dest e) ((s.actorAt k).addressed e m)).setDevice k ((s.actorAt k).left e m.hdr.key.vrt)) :=
    (Quiet.postMsg ..).trans (.setDevice ..)
  have ha : ((s.postMsg s.here.toNat ((s.actorAt k).dest e) ((s.actorAt k).addressed e m)).setDevice k ((s.actorAt k).left e m.hdr.key.vrt)).actorAt k =
      (s.actorAt k).carry ((s.actorAt k).left e m.hdr.key.vrt) := by rw [State.actorAt_setDevice, State.actorAt_postMsg]
  have hf : ((s.postMsg s.here.toNat ((s.actorAt k).dest e) ((s.actorAt k).addressed e m)).setDevice k ((s.actorAt k).left e m.hdr.key.vrt)).flight =
      (s.postMsg s.here.toNat ((s.actorAt k).dest e) ((s.actorAt k).addressed e m)).flight := rfl
  generalize State.setDevice _ _ _ = u at hq ha hf
  have ht := u.settle_tended k
  have hhere : (u.settle k).here = s.here := ht.here.trans hq.here
  rw [← hhere]
  refine ⟨(hq.toCalm.trans ht.calm).trans (Quiet.syncDir _).toCalm, ⟨_, _, (ht.flight.trans hf).trans (State.flight_post ..)⟩, fun j => ?_, ?_⟩
  · rw [State.actorAt_syncDir, ht.ep, ha, Actor.carry_ep]
  · rw [State.actorAt_syncDir, ht.actor, ha]
    rfl

end

section
variable {s : State} {e : BitVec 4} {nx : BitVec 6} {v : Word} {m : Msg}

/-- Whether an endpoint may send does not depend on its state. -/
theorem Actor.sendable_of_canSend {a b : Actor} {core : Core} (h : canSend a e (a.ep e) = true) (hs : SentOn a b core e nx) (hx : (b.auxOf e) = a.auxOf e) : b.sendable e = true := by
  have hst : (b.ep e).status = (a.ep e).status := by rw [hs.ep]; rfl
  unfold canSend isOpen at h
  unfold Actor.sendable
  simp only [hst, hx]
  simp only [Bool.or_eq_true, Bool.and_eq_true, decide_eq_true_eq] at h ⊢
  rcases h with h | h
  · exact .inl (.inl (.inl h))
  · exact .inr h

/-- The output record of a message has room where one had it before the send changed its actor. -/
theorem State.logOutput_logged {t : State} {core : Core} {d : Dest} (hc : t.ctx = s.ctx) (ht : ∀ h w d, (t.log s.ctx.slot (.output h w d)).isSome = true) :
    ∃ w, (t.setActor (t.actor.sendingOn core e nx v)).logOutput m d = some w ∧ Logged (t.setActor (t.actor.sendingOn core e nx v)) w := by
  unfold State.logOutput
  split
  · exact ⟨_, rfl, .refl _⟩
  · have hslot : (t.setActor (t.actor.sendingOn core e nx v)).ctx.slot = s.ctx.slot := by
      rw [← hc, ← (Quiet.setActorAt t t.ctx.slot (t.actor.sendingOn core e nx v)).ctx_eq]; rfl
    have hr : ((t.setActor (t.actor.sendingOn core e nx v)).log s.ctx.slot (.output m.hdr m.rcpt d)).isSome = true := by
      rw [← ht m.hdr m.rcpt d, State.log_isSome, State.log_isSome]
      unfold State.setActor State.actor
      rw [hc, State.actorAt_setActorAt, Actor.record_sendingOn]
      rfl
    obtain ⟨w, hw⟩ := Option.isSome_iff_exists.1 hr
    exact ⟨w, by rw [hslot]; exact hw, State.log_logged hw⟩

/-- A message that may leave leaves, unless it waits behind what stands behind a fence. -/
theorem send_leaves (hc : canSend s.actor e (s.actor.ep e) = true) (hs : SavesEp s e)
    (hl : ∀ u, s.saveEp s.ctx.slot e = some u → ∀ h w d, (u.log s.ctx.slot (.output h w d)).isSome = true) (d : Dest) :
    ∃ x, (changeEp e (fun a => a.sendingOn s.hereCore e nx v) s fun t => orNoRoom (t.logOutput m d) t fun t => .next ((t.leaveNow (.msg e m .fixed)).advance 4)) =
        .next (x.advance 4) ∧ Calm s x ∧ SentOn s.actor (x.actorAt s.ctx.slot) s.hereCore e nx ∧
      ((∀ y ∈ s.hereCore.fenced, y.slot ≠ s.ctx.slot) → ∃ f c, x.flight = s.flight ++ [⟨f, m.hdr.key.vrt, .msg (s.actor.dest e)
        { s.actor.addressed e m with hdr := { (s.actor.addressed e m).hdr with colour := c } }⟩]) := by
  obtain ⟨u, hu, hlu, hex, hsent, hua⟩ := changeEp_sent (nx := nx) (v := v) (core := s.hereCore) hs
    fun t => orNoRoom (t.logOutput m d) t fun t => .next ((t.leaveNow (.msg e m .fixed)).advance 4)
  rw [hex]
  obtain ⟨w, hw, hlw⟩ := State.logOutput_logged (s := s) (e := e) (nx := nx) (v := v) (m := m) (core := s.hereCore) (d := d) hlu.ctx (hl u hu)
  rw [hw, orNoRoom_some]
  have hq : Quiet s w := (hlu.quiet.trans (.setActorAt u u.ctx.slot _)).trans hlw.quiet
  have hwa : w.actorAt s.ctx.slot = { u.actor.sendingOn s.hereCore e nx v with log := (w.actorAt s.ctx.slot).log, logNext := (w.actorAt s.ctx.slot).logNext } := by
    have := hlw.actor s.ctx.slot
    unfold State.setActor at this
    rwa [hlu.ctx, State.actorAt_setActorAt] at this
  have hsw : SentOn s.actor (w.actorAt s.ctx.slot) s.hereCore e nx := hsent.congr rfl rfl (by rw [hwa]; rfl) (fun j _ => by rw [hwa]; rfl) (by rw [hwa])
  have haux : (w.actorAt s.ctx.slot).auxOf e = s.actor.auxOf e := by rw [hwa, hua]; rfl
  have haid : (w.actorAt s.ctx.slot).aid = s.actor.aid := by rw [hwa, hua]; rfl
  have hflight : w.flight = s.flight := by rw [hlw.rest]; show u.flight = _; rw [hlu.rest]
  have hfenced : w.hereCore.fenced = s.hereCore.fenced := by
    unfold State.hereCore
    rw [hlw.core, hlw.here]
    show (u.setActorAt u.ctx.slot _).hereCore.fenced = _
    rw [State.core_setActorAt]
    unfold State.hereCore
    rw [hlu.core, hlu.here]
  have hctx := hq.ctx_eq
  unfold State.leaveNow
  rw [hctx]
  split
  · next hf =>
    refine ⟨_, rfl, hq.toCalm.trans (Calm.setHere w (by rfl)), by rw [State.actorAt_setHere w (by rfl)]; exact hsw, fun hn => ?_⟩
    obtain ⟨y, hy, hys⟩ := List.any_eq_true.1 hf
    exact absurd (by simpa using hys) (hn y (hfenced ▸ hy))
  · obtain ⟨hcalm, ⟨f, c, hfl⟩, hep, hseq⟩ := State.release_msg (m := m) (Actor.sendable_of_canSend hc hsw haux)
    have hdest : (w.actorAt s.ctx.slot).dest e = s.actor.dest e :=
      Actor.dest_congr haid (by rw [hsw.ep]; rfl) (by rw [hsw.ep]; rfl) (by rw [hsw.ep]; rfl) (by rw [hsw.ep, haux]; rfl)
    have haddr : (w.actorAt s.ctx.slot).addressed e m = s.actor.addressed e m := by
      unfold Actor.addressed Actor.peerOf
      rw [haux, haid, hsw.ep]; rfl
    rw [hdest, haddr, hflight] at hfl
    refine ⟨_, rfl, hq.toCalm.trans hcalm, hsw.congr rfl rfl ?_ (fun j hj => ?_) hseq, fun _ => ⟨f, c, hfl⟩⟩
    · rw [hep]
      unfold Actor.left
      rw [Actor.ep_setEp_same]
    · rw [hep]
      unfold Actor.left
      rw [Actor.ep_setEp, if_neg hj]

end

end Sys2Proof.Machine
end

section
namespace Sys2Proof.Machine
open Sys2Proof.Safety

/-! ## A send (R28, R161, R162, R165) -/

section
variable {s : State} {e : BitVec 4} {cls : BitVec 6} {label join : Bool} {payload : List Byte} {nx : BitVec 6} {v : Word} {rule : VrtRule}

/-- Whether a message of an endpoint leaves at once. -/
def State.sendLeaves (s : State) (e : BitVec 4) : Bool :=
  s.sendsNow (s.actor.ep e) && ! false && ! s.tooFar s.actor.aid s.actor.seq s.actor.seq && ! s.stayed e

theorem State.sendLeaves_iff : s.sendLeaves e = true ↔ LeavesNow s e := by
  unfold State.sendLeaves LeavesNow
  simp [and_assoc]

/-- The message of a send. -/
def State.outgoing (s : State) (e : BitVec 4) (cls : BitVec 6) (label join : Bool) (payload : List Byte) (v : Word) : Msg :=
  ⟨{ s.actor.header e v cls payload.length s.ctx.prioEff with label := label, join := join, deleg := false, irrev := ! (s.sendLeaves e && s.actor.disc = .timed) },
    payload, .plain, s.actor.peerOf e⟩

theorem State.outgoing_carries (s : State) (e : BitVec 4) (cls : BitVec 6) (label join : Bool) (payload : List Byte) (v : Word) :
    Carries s (s.outgoing e cls label join payload v) e cls label false join payload := ⟨rfl, rfl, rfl, rfl, rfl, rfl, rfl, rfl, rfl, rfl, rfl, rfl⟩

theorem sendMsg_eq (hv : s.sendVrt (s.actor.ep e).lastvrt = .ok (rule, v)) (k : State → Out) : sendMsg e cls .plain label join false payload nx false s k =
    if s.sendLeaves e then changeEp e (fun a => a.sendingOn s.hereCore e nx v) s fun t =>
      orNoRoom (t.logOutput (s.outgoing e cls label join payload v) (s.actor.dest e)) t fun t => k (t.leaveNow (.msg e (s.outgoing e cls label join payload v) rule))
    else s.queue (.msg e (s.outgoing e cls label join payload v) rule) fun t => changeEp e (fun a => a.sendingOn s.hereCore e nx v) t k := by
  unfold sendMsg
  simp only [hv]
  rfl

/-- What leaves at once has the VRT that it had at issue. -/
theorem State.sendVrt_fixed {last : Word} (hv : s.sendVrt last = .ok (rule, v)) (hd : s.actor.disc ≠ .untimed) : rule = .fixed := by
  unfold State.sendVrt at hv
  simp only [hd, if_false] at hv
  repeat' split at hv
  all_goals cases hv
  rfl

/-- Without a VRT there is none to send with. -/
theorem State.sendVrt_zero {last : Word} (h : s.ctx.vout = 0) : s.sendVrt last = .error (0x140, if s.actor.disc = .untimed then s.hereCore.vmile else s.ctx.vnow) := by
  unfold State.sendVrt
  dsimp only
  rw [if_pos h, h]
  exact congrArg (fun x => Except.error (0x140, x)) (BitVec.add_zero _)

theorem State.sendLeaves_disc (h : s.sendLeaves e = true) : s.actor.disc ≠ .untimed := by
  intro hd
  have := (State.sendLeaves_iff.1 h).1
  unfold State.sendsNow at this
  simp [hd] at this

/-- A send that has passed its checks (R162 to R165). -/
theorem sends_of_sendMsg {i : Instr} (hi : exec i s = sendMsg e cls .plain label join false payload nx false s fun t => .next (t.advance 4))
    (hv : s.sendVrt (s.actor.ep e).lastvrt = .ok (rule, v)) (hc : canSend s.actor e (s.actor.ep e) = true) (hs : SavesEp s e)
    (hl : ∀ u, s.saveEp s.ctx.slot e = some u → ∀ h w d, (u.log s.ctx.slot (.output h w d)).isSome = true)
    (hr : ¬ LeavesNow s e → ∀ m, m.payload.length ≤ 4096 → HasRoom s (.msg e m rule)) (hn : payload.length ≤ 4096) :
    Sends i s e cls label join payload nx v := by
  unfold Sends
  rw [hi, sendMsg_eq hv]
  split
  · next hnow =>
    obtain rfl := State.sendVrt_fixed hv (State.sendLeaves_disc hnow)
    obtain ⟨x, hex, hcalm, hsent, hfl⟩ := send_leaves (nx := nx) (v := v) (m := s.outgoing e cls label join payload v) hc hs hl (s.actor.dest e)
    obtain ⟨hnext, hst, hact⟩ := State.advance_nextAlone (s := s) (t := x) (l := s.ctx.staging) hcalm.here hcalm.cx fun y => by
      rw [hcalm.ctxAt_eq]
      split
      · next h => subst h; rfl
      · rfl
    obtain ⟨hother, hadv⟩ := SentOn.advanced (s := s) (t := x.advance 4) (by rw [hact]; exact hsent)
    refine ⟨_, hex, hnext, hother, hadv, fun hno => absurd (State.sendLeaves_iff.1 hnow) hno, fun _ hf => ⟨hst, ?_⟩⟩
    obtain ⟨f, c, hx⟩ := hfl hf
    exact ⟨f, _, _, hx, rfl, rfl, s.outgoing_carries e cls label join payload v⟩
  · next hnow =>
    have hno : ¬ LeavesNow s e := fun h => hnow (State.sendLeaves_iff.2 h)
    obtain ⟨t, hex, hnext, hsent, hpad, helse, hq⟩ := send_queued (nx := nx) (v := v) hs (hr hno (s.outgoing e cls label join payload v) hn)
    obtain ⟨hother, hadv⟩ := hsent.advanced
    exact ⟨t, hex, hnext, hother, hadv, fun _ => ⟨hpad, helse, _, rule, hq, s.outgoing_carries e cls label join payload v⟩, fun h => absurd h hno⟩

end

/-! ### Its checks (R161, R166) -/

section
variable {s : State} {e : BitVec 4} {v : View} {kind : BitVec 3} {x : Word}

theorem withStatus_inState (h : InState s e kind v) {ok : EpRec → Bool} (hk : ok (s.actor.ep e) = true) (k : EpRec → Out) : withStatus ok e s k = k (s.actor.ep e) := by
  obtain ⟨hbad, hp, hi, -, -⟩ := h
  obtain ⟨hb, -⟩ | ⟨-, hs⟩ := soundEp_cases e s (if ok (s.actor.ep e) && ((s.actor.ep e).pkind ≠ .collective || isIdle (s.actor.ep e)) then
      if s.hereCore.badItins.contains (s.actor.ep e).itin.toNat ∧ ((s.actor.ep e).status = .opened ∨ (s.actor.ep e).status = .connecting)
      then .next (trapWith none none 0x1C4 0 s) else k (s.actor.ep e)
    else epTrap 0x0C7 e s)
  · exact absurd hb hbad
  · refine Eq.trans hs ?_
    rw [if_pos (by simp [hk, hp]), if_neg]
    rintro ⟨hm, ho⟩
    exact hi ho (by simpa using hm)

theorem withKind_inState (h : InState s e kind v) (k : View → Out) : withKind kind e s k = k v := by
  obtain ⟨-, -, -, rfl, hk⟩ := h
  unfold withKind
  rw [if_pos hk]

theorem sendLen_eq (x : Word) : sendLen x = x.toNat % 2 ^ 13 := by unfold sendLen; rw [BitVec.toNat_setWidth]

theorem sendOk_iff {lim : Nat} : sendOk x lim = true ↔ x.toNat < 2 ^ 17 ∧ x.toNat / 2 ^ 13 % 8 = 0 ∧ x.toNat % 2 ^ 13 ≤ lim := by
  unfold sendOk
  rw [sendLen_eq]
  simp only [Bool.and_eq_true, decide_eq_true_eq, and_assoc]
  omega

/-- A send whose state, class, bound, length and payload stand. -/
theorem sendChecked_inState (h : InState s e 0 v) {data : Nat → Except (BitVec 9 × Word) (List Byte)} {p : List Byte}
    (hb : s.hereCore.bounded (s.actor.ep e).itin v.then0 (s.actor.ep e).loop = false) (hmin : v.min ≤ x.toNat % 2 ^ 13) (hmax : x.toNat % 2 ^ 13 ≤ v.max)
    (hp : data (x.toNat % 2 ^ 13) = .ok p) (hd : s.depotRefused (s.actor.ep e) p = none) :
    sendChecked e v.cls x s data = sendMsg e v.cls .plain false (x.getLsbD 16) false p v.then0 false s fun t => .next (t.advance 4) := by
  unfold sendChecked
  rw [withKind_inState h]
  dsimp only
  rw [sendLen_eq, if_neg (by simp [hb]), if_neg (by omega), hp]
  dsimp only
  rw [hd]

theorem linesAll_of_onLines {f : Nat → Bool} {a n : Nat} (h : OnLines a n fun l => f l = true) : linesAll f a n = true := by
  unfold linesAll
  rcases Nat.eq_zero_or_pos n with rfl | hn
  · rfl
  · simp only [Bool.or_eq_true, List.all_eq_true, List.mem_range'_1]
    exact .inr fun l hl => h l hl.1 (by omega)

theorem badIn_of_sound {a n : Nat} (h : Sound s a n) : s.hereCore.badIn a n = none := by
  refine List.find?_eq_none.2 fun w hw hc => ?_
  unfold wordsOf at hw
  split at hw
  · cases hw
  · have := h w (by simpa using hc)
    rw [List.mem_range'_1] at hw
    omega

/-- The payload of a send in the scratchpad. -/
theorem scratchPayload_readable {a d : Word} {n : Nat} (h : n = 0 ∨ Readable s a n 8 ∧ Sound s a.toNat n) :
    scratchPayload a d s n = .ok (if n = 0 then [] else s.readBytes a.toNat n) := by
  unfold scratchPayload
  by_cases hn : n = 0
  · rw [if_pos hn, if_pos hn]
  · obtain ⟨⟨hz, hal, hwin, hlines⟩, hsound⟩ := h.resolve_left hn
    rw [if_neg hn, if_neg (by omega), if_neg (by omega), if_neg (by simp [hz]), if_neg (by simp [linesAll_of_onLines hlines]), badIn_of_sound hsound, if_neg hn]

theorem State.readBytes_length (s : State) (a n : Nat) : (s.readBytes a n).length = n := by
  induction n generalizing a with
  | zero => rfl
  | succ n ih => rw [State.readBytes, List.length_cons, ih]

end

end Sys2Proof.Machine

open Sys2Proof Sys2Proof.Machine Sys2Proof.Safety

/-- Settles O33: each send by its checks, then by what the message does that passes them. -/
theorem sending : Obligations.Sending := by
  unfold Obligations.Sending
  rintro s c b a q ti l e v x v0 n rule len rfl rfl hc hs hlen hl hr
  refine ⟨?sends, ?label, ?range, ?vrt⟩
  case sends =>
    rintro hst rfl hb hv
    refine ⟨?send, ?sendv, ?sendt⟩
    case send =>
      rintro p rfl hd hn hread
      obtain ⟨h1, h2, h3, h4, h5⟩ := (hlen 4096).1 hn
      refine sends_of_sendMsg ?_ hv hc hs hl hr ?_
      · show execSend v.cls b a e s = _
        unfold execSend
        rw [withStatus_inState hst hc, sendOk_iff.2 ⟨h1, h2, h3⟩]
        exact sendChecked_inState hst hb h4 h5 (scratchPayload_readable hread) hd
      · split
        · exact Nat.zero_le _
        · rw [State.readBytes_length]; exact h3
    case sendv =>
      rintro p rfl hd hn
      obtain ⟨h1, h2, h3, h4, h5⟩ := (hlen 128).1 hn
      refine sends_of_sendMsg ?_ hv hc hs hl hr (by rw [leBytes_length]; omega)
      show execSendv v.cls b q e s = _
      unfold execSendv
      simp only [withStatus_inState hst hc, sendOk_iff.2 ⟨h1, h2, h3⟩]
      exact sendChecked_inState (data := fun n => .ok (leBytes (s.v q).toNat n)) hst hb h4 h5 rfl hd
    case sendt =>
      rintro p rfl hd hn hh hm ht
      obtain ⟨h1, h2, h3, h4, h5⟩ := (hlen 2048).1 hn
      refine sends_of_sendMsg ?_ hv hc hs hl hr (by rw [leBytes_length]; omega)
      have hmq : (s.hereCore.mq.any fun m => m.ctx = s.cx) = false := by simpa using hm
      show execSendt v.cls b ti e s = _
      unfold execSendt
      rw [withStatus_inState hst hc, sendOk_iff.2 ⟨h1, h2, h3⟩, hh, hmq]
      exact sendChecked_inState (data := fun n => if s.hereCore.tileBad ti (0, n) then .error (0x1C3, 0) else .ok (leBytes (s.hereCore.tile ti).data.toNat n))
        hst hb h4 h5 (by simp only [ht]; rfl) hd
  case label =>
    rintro hst nx hnx hb hv
    refine sends_of_sendMsg ?_ hv hc hs hl hr (by simp)
    show execSelLabel l e s = _
    unfold execSelLabel
    rw [withStatus_inState hst hc, withKind_inState hst, hnx]
    dsimp only
    rw [hb, BitVec.ofNat_toNat]
    rfl
  case range =>
    rintro hst hnx
    show execSelLabel l e s = _
    unfold execSelLabel
    rw [withStatus_inState hst hc, withKind_inState hst, hnx]
    obtain ⟨-, -, -, rfl, hk⟩ := hst
    unfold refuse
    dsimp only
    rw [hk]
    rfl
  case vrt =>
    rintro hst nx hnx hb hv
    show execSelLabel l e s = _
    unfold execSelLabel
    rw [withStatus_inState hst hc, withKind_inState hst, hnx]
    dsimp only
    rw [hb]
    unfold sendMsg
    simp only [State.sendVrt_zero hv]
    rfl
end

section
/-! # The decoder and the encoder

The word of an instruction is put together field by field, and the decoder reads the same fields (R45 to R56). `Row.slices` cuts the word of
each row into its fields and the bits that the decoder tests; a word that agrees with the encoder's slice by slice is the encoder's. -/

namespace Sys2Proof

/-! ## Fields of a word: reading one where another was put -/

theorem fld_eq_iff {a b lo n : Nat} : fld a lo n = fld b lo n ↔ a / 2 ^ lo % 2 ^ n = b / 2 ^ lo % 2 ^ n := by
  simp [fld, ← BitVec.toNat_inj]

theorem fld_eq_zero_iff {w lo n : Nat} : fld w lo n = 0 ↔ w / 2 ^ lo % 2 ^ n = 0 := by
  simp [fld, ← BitVec.toNat_inj]

/-- A field put below bit `m` of a word that is zero there leaves the bits above. -/
theorem put_div_of_dvd {n : Nat} {w d lo : Nat} {x : BitVec n} (hd : 2 ^ (lo + n) ∣ d) (h : fld w lo n = 0) : put w x lo / d = w / d := by
  obtain ⟨c, rfl⟩ := hd
  rw [fld_eq_zero_iff] at h
  rw [← Nat.div_div_eq_div_mul, ← Nat.div_div_eq_div_mul, Nat.pow_add, ← Nat.div_div_eq_div_mul, ← Nat.div_div_eq_div_mul]
  unfold put
  rw [Nat.add_mul_div_right _ _ (Nat.two_pow_pos lo), Nat.add_div (Nat.two_pow_pos n), h, Nat.div_eq_of_lt x.isLt, Nat.mod_eq_of_lt x.isLt,
    if_neg (by have := x.isLt; omega)]
  rfl

/-- A field put leaves the bits below it. -/
theorem put_mod_of_dvd {n : Nat} {w m lo : Nat} {x : BitVec n} (hm : m ∣ 2 ^ lo) : put w x lo % m = w % m := by
  obtain ⟨c, hc⟩ := hm
  rw [put, hc, Nat.mul_left_comm, Nat.add_mul_mod_self_left]

theorem put_div_mod_of_dvd {n : Nat} {w d m lo : Nat} {x : BitVec n} (hm : d * m ∣ 2 ^ lo) : put w x lo / d % m = w / d % m := by
  rw [← Nat.mod_mul_right_div_self, put_mod_of_dvd hm, Nat.mod_mul_right_div_self]

theorem fld_put_same {n : Nat} {w lo : Nat} {x : BitVec n} (h : fld w lo n = 0) : fld (put w x lo) lo n = x := by
  rw [fld_eq_zero_iff] at h
  apply BitVec.eq_of_toNat_eq
  simp [fld, put, Nat.add_mul_div_right _ _ (Nat.two_pow_pos lo), Nat.add_mod, h]

theorem fld_put_below {n : Nat} {w lo m len : Nat} {x : BitVec n} (h : m + len ≤ lo) : fld (put w x lo) m len = fld w m len := by
  rw [fld_eq_iff, put_div_mod_of_dvd (by rw [← Nat.pow_add]; exact Nat.pow_dvd_pow _ h)]

theorem fld_put_above {n : Nat} {w lo m len : Nat} {x : BitVec n} (hd : lo + n ≤ m) (h : fld w lo n = 0) : fld (put w x lo) m len = fld w m len := by
  rw [fld_eq_iff, put_div_of_dvd (Nat.pow_dvd_pow _ hd) h]

/-! ## Words slice by slice -/

/-- Two words agree on consecutive slices of the lengths given, from bit `lo` up, and above them. -/
def SameSlices (a b : Nat) : Nat → List Nat → Prop
  | lo, [] => a / 2 ^ lo = b / 2 ^ lo
  | lo, n :: l => fld a lo n = fld b lo n ∧ SameSlices a b (lo + n) l

theorem SameSlices.div_eq {a b lo : Nat} {l : List Nat} (h : SameSlices a b lo l) : a / 2 ^ lo = b / 2 ^ lo := by
  induction l generalizing lo with
  | nil => exact h
  | cons n l ih =>
    obtain ⟨hn, hl⟩ := h
    have high := ih hl
    rw [Nat.pow_add, ← Nat.div_div_eq_div_mul, ← Nat.div_div_eq_div_mul] at high
    rw [← Nat.div_add_mod (a / 2 ^ lo) (2 ^ n), ← Nat.div_add_mod (b / 2 ^ lo) (2 ^ n), high, fld_eq_iff.1 hn]

/-- The lengths of the slices of a row's word, from bit 0 up: an operand field each, or bits that the decoder tests together (R45 to R53). -/
def Row.slices : Row → List Nat
  | .add | .sub | .and | .or | .xor | .andn | .orn | .sll | .srl | .sra | .rol | .ror | .slt | .sltn | .seq | .sne | .mul | .mulh | .mulhn | .div
  | .divn | .rem | .remn | .min | .max | .minn | .maxn | .sel | .bext | .bextn | .bins | .fmin | .fmax | .fsgnj | .ffma | .ffms | .fnfma | .fcmpeq
  | .fcmplt | .fcmple | .aadd | .aswap | .acas => [8, 5, 5, 5, 5, 4]
  | .clz | .ctz | .pop | .rev8 | .sxb | .sxh | .sxw | .zxb | .zxh | .zxw | .fabs | .fneg | .fmvFG | .fmvGF | .fcls | .fcvtFBf16 | .fcvtFHf | .frecip
  | .frsq | .ldb | .ldbn | .ldh | .ldhn | .ldw | .ldwn | .ldd | .ldf | .ldsync | .ldpeek | .stb | .sth | .stw | .std | .stf | .stfill | .clrfull
  | .badd | .bset | .bget => [8, 5, 5, 10, 4]
  | .slli | .srli | .srai => [8, 5, 5, 6, 4, 4]
  | .addi | .andi | .ori | .xori | .slti | .jalr | .dbnz => [8, 5, 5, 14]
  | .lui | .lpc => [8, 5, 19]
  | .bEq | .bNe | .bLt | .bGe | .bLtn | .bGen | .bBset | .bBclr => [8, 5, 5, 3, 11]
  | .j | .jal => [8, 24]
  | .fadd | .fsub | .fmul | .fdiv | .fcvtFG | .fcvtGF | .fscal => [8, 5, 5, 5, 2, 3, 4]
  | .fsqrt | .fround | .fcvtBf16F | .fcvtHfF => [8, 5, 5, 7, 3, 4]
  | .ldbits => [8, 5, 5, 5, 1, 1, 3, 4]
  | .stbits => [8, 5, 5, 5, 1, 4, 4]
  | .vadd | .vsub | .vmul | .vmulh | .vmulhn | .vmin | .vmax | .vminn | .vmaxn | .vand | .vor | .vxor | .vsll | .vsrl | .vsra | .vadds | .vaddsn
  | .vsubs | .vsubsn | .vavg | .vcmpeq | .vcmplt | .vcmpltn => [2, 2, 4, 4, 4, 4, 4, 3, 5]
  | .vabs => [2, 2, 4, 4, 4, 8, 3, 5]
  | .vdot4 | .vfdiv | .vcvt | .vcvtsc | .vredsum | .vredmax | .vredmin => [8, 4, 4, 4, 4, 3, 5]
  | .vfadd | .vfsub | .vfmul | .vffma | .vffms | .vfmin | .vfmax | .vfcmpeq | .vfcmplt | .vfcmple | .vfscale => [2, 4, 2, 4, 4, 4, 4, 3, 5]
  | .vfabs | .vfneg | .vfrecip | .vfrsq | .vfexp2 | .vfclass => [2, 4, 2, 4, 4, 8, 3, 5]
  | .vfsqrt => [8, 4, 4, 8, 3, 5]
  | .vsplat | .vsplatf => [8, 4, 5, 3, 4, 3, 5]
  | .vext | .vmpop => [8, 5, 3, 4, 7, 5]
  | .vins => [8, 4, 5, 3, 7, 5]
  | .vperm | .vcompress | .vexpand | .vmerge => [8, 4, 4, 4, 2, 2, 3, 5]
  | .vslide | .vmand | .vmor => [8, 4, 4, 4, 7, 5]
  | .vtopk | .vtopkM => [8, 4, 4, 4, 1, 1, 5, 5]
  | .vmnot => [8, 4, 4, 11, 5]
  | .vld | .vst => [8, 4, 5, 1, 2, 4, 3, 5]
  | .vldx | .vstx => [8, 4, 5, 4, 2, 1, 3, 5]
  | .vldbits => [8, 4, 2, 2, 4, 2, 1, 1, 3, 5]
  | .tcfg => [8, 3, 5, 10, 6]
  | .trel | .tzero => [8, 3, 15, 6]
  | .tldrow | .tldcol | .tstrow | .tstcol => [8, 3, 4, 1, 5, 5, 6]
  | .tload | .tstore | .mmaBf16 | .mmaHf | .mmaE4e4 | .mmaE4e5 | .mmaE5e4 | .mmaE5e5 | .mmaBf16e4 | .mmaI8 | .mmaTi8 | .mmaTbf16 => [8, 3, 5, 5, 5, 6]
  | .twait => [8, 18, 6]
  | .connect | .accept | .send | .recv | .spawn | .mrd | .mwr | .mamo | .cpget | .cpput | .cpgath | .cpscat | .cpfill | .cpcvt | .gjoin | .gred
  | .gbcast | .grs | .gag => [8, 4, 5, 5, 6, 4]
  | .sendv => [8, 4, 4, 1, 5, 6, 4]
  | .sendt => [8, 4, 3, 2, 5, 6, 4]
  | .selLabel => [8, 4, 10, 2, 4, 4]
  | .offer | .probe => [8, 4, 5, 11, 4]
  | .close => [8, 4, 10, 5, 1, 4]
  | .sendep => [8, 4, 4, 6, 6, 4]
  | .recvep => [8, 4, 4, 12, 4]
  | .estate => [8, 4, 5, 5, 2, 4, 4]
  | .cpwait | .gleave => [8, 4, 16, 4]
  | .budget | .jarm | .jdis | .capgive | .capchk => [8, 5, 5, 6, 2, 4, 2]
  | .commit | .halt => [8, 16, 2, 4, 2]
  | .done | .doneRetire => [8, 10, 1, 5, 2, 4, 2]
  | .vnow | .vmile => [8, 5, 17, 2]
  | .vset | .prio | .sysrd | .syswr | .sysbs | .sysbc => [8, 5, 5, 12, 2]
  | .gwait => [8, 4, 10, 6, 4]
  | .fenceAcq | .fenceRel | .fenceFull | .fenceSc => [8, 10, 4, 2, 2, 4, 2]
  | .trap => [8, 10, 5, 1, 2, 4, 2]
  | _ => []

/-- The encoder gives a word back when it agrees with it slice by slice. -/
theorem encode_of_slices {r : Row} {v w : Nat} (he : encode (r.build w) = some (4, v)) (h : SameSlices v w 0 r.slices) : encode (r.build w) = some
    (4, w) := by
  have hv := h.div_eq
  rw [pow_zero, Nat.div_one, Nat.div_one] at hv
  rw [he, hv]

theorem slices_of_byte {w c : Nat} (h : w % 256 = c) : w % 4 = c % 4 ∧ w / 4 % 4 = c / 4 % 4 ∧ w / 16 % 16 = c / 16 ∧ w / 64 % 4 = c / 64 := by omega

/-! ## What the decoder accepts is what the encoder gives -/

/-- Majors 0x00 to 0x15. -/
theorem encode_of_row32_scalar {w : Nat} {r : Row} (hw : w / 4294967296 = 0) (hb : w % 256 < 0x60) (h : row32 w = .ok r) :
    encode (r.build w) = some (4, w) := by
  unfold row32 at h
  split at h
  case h_37 => cases h
  all_goals try omega
  all_goals
    simp only [dec03, dec07, dec0B, dec0F, dec13, dec17, dec1B, dec1F, dec23, dec27, dec2B, dec2F, dec33, dec37, dec3B, dec43, dec47, dec4B, dec4F,
        dec53, dec57, Nat.reducePow] at h
    clear hb
    repeat' split at h
  all_goals cases h
  all_goals
    refine encode_of_slices rfl ?_
    conv => arg 4; whnf
    simp (decide := true) only [SameSlices, fld_put_same, fld_put_above, fld_put_below, fld_eq_zero_iff, put_div_of_dvd, Nat.reduceAdd, true_and]
  all_goals simp only [fld_eq_iff, Nat.reducePow, Nat.reduceDiv, Nat.reduceMod, Nat.div_one, and_self, *]

theorem encode_of_row32_lanes {w : Nat} {r : Row} (hw : w / 4294967296 = 0) (hb : 0x60 ≤ w % 256 ∧ w % 256 < 0x6D) (h : row32 w = .ok r) :
    encode (r.build w) = some (4, w) := by
  unfold row32 at h
  split at h
  case h_37 => cases h
  all_goals try omega
  all_goals
    have hs := slices_of_byte ‹w % 256 = _›
    simp only [dec63, dec67, Nat.reducePow] at h
    clear hb
    repeat' split at h
  all_goals cases h
  all_goals
    refine encode_of_slices rfl ?_
    conv => arg 4; whnf
    simp (decide := true) only [SameSlices, fld_put_same, fld_put_above, fld_put_below, fld_eq_zero_iff, put_div_of_dvd, Nat.reduceAdd, true_and]
  all_goals simp only [fld_eq_iff, Nat.reducePow, Nat.reduceDiv, Nat.reduceMod, Nat.div_one, and_self, *]

theorem encode_of_row32_floatLanes {w : Nat} {r : Row} (hw : w / 4294967296 = 0) (hb : 0x6D ≤ w % 256 ∧ w % 256 < 0x7B) (h : row32 w = .ok r) :
    encode (r.build w) = some (4, w) := by
  unfold row32 at h
  split at h
  case h_37 => cases h
  all_goals try omega
  all_goals
    have hs := slices_of_byte ‹w % 256 = _›
    simp only [dec6F, dec77, Nat.reducePow] at h
    clear hb
    repeat' split at h
  all_goals cases h
  all_goals
    refine encode_of_slices rfl ?_
    conv => arg 4; whnf
    simp (decide := true) only [SameSlices, fld_put_same, fld_put_above, fld_put_below, fld_eq_zero_iff, put_div_of_dvd, Nat.reduceAdd, true_and]
  all_goals simp only [fld_eq_iff, Nat.reducePow, Nat.reduceDiv, Nat.reduceMod, Nat.div_one, and_self, *]

theorem encode_of_row32_tile {w : Nat} {r : Row} (hw : w / 4294967296 = 0) (hb : 0x7B ≤ w % 256 ∧ w % 256 < 0xB0 ∨ w % 256 = 0xCB) (h : row32 w =
    .ok r) :
    encode (r.build w) = some (4, w) := by
  unfold row32 at h
  split at h
  case h_37 => cases h
  all_goals try omega
  all_goals
    simp only [dec7B, dec83, dec87, decA3, decCB, Nat.reducePow] at h
    clear hb
    repeat' split at h
  all_goals cases h
  all_goals
    refine encode_of_slices rfl ?_
    conv => arg 4; whnf
    simp (decide := true) only [SameSlices, fld_put_same, fld_put_above, fld_put_below, fld_eq_zero_iff, put_div_of_dvd, Nat.reduceAdd, true_and]
  all_goals simp only [fld_eq_iff, Nat.reducePow, Nat.reduceDiv, Nat.reduceMod, Nat.div_one, and_self, true_and, and_true, *]
  all_goals omega

theorem encode_of_row32_memory {w : Nat} {r : Row} (hw : w / 4294967296 = 0) (hb : 0xB0 ≤ w % 256 ∧ w % 256 < 0xC0) (h : row32 w = .ok r) (hf :
    r.fieldsOk w = true) :
    encode (r.build w) = some (4, w) := by
  unfold row32 at h
  split at h
  case h_37 => cases h
  all_goals try omega
  all_goals
    simp only [decB3, decB7, Nat.reducePow] at h
    clear hb
    repeat' split at h
  all_goals cases h
  case' h_7.isTrue.refl => replace hf : (true && decide (w / 2 ^ 8 % 16 = 15)) = true := hf
  all_goals have he : w / 256 % 16 = 15 := of_decide_eq_true (Bool.and_eq_true_iff.1 hf).2
  all_goals
    refine encode_of_slices rfl ?_
    conv => arg 4; whnf
    simp (decide := true) only [SameSlices, fld_put_same, fld_put_above, fld_put_below, fld_eq_zero_iff, put_div_of_dvd, Nat.reduceAdd, true_and]
  all_goals simp only [fld_eq_iff, Nat.reducePow, Nat.reduceDiv, Nat.reduceMod, Nat.div_one, and_self, *]

theorem encode_of_row32_system {w : Nat} {r : Row} (hw : w / 4294967296 = 0) (hb : 0xC0 ≤ w % 256 ∧ w % 256 ≠ 0xCB) (h : row32 w = .ok r) :
    encode (r.build w) = some (4, w) := by
  unfold row32 at h
  split at h
  case h_37 => cases h
  all_goals try omega
  all_goals
    simp only [decC3, decD3, Nat.reducePow] at h
    clear hb
    repeat' split at h
  all_goals cases h
  all_goals
    refine encode_of_slices rfl ?_
    conv => arg 4; whnf
    simp (decide := true) only [SameSlices, fld_put_same, fld_put_above, fld_put_below, fld_eq_zero_iff, put_div_of_dvd, Nat.reduceAdd, true_and]
  all_goals simp only [fld_eq_iff, Nat.reducePow, Nat.reduceDiv, Nat.reduceMod, Nat.div_one, and_self, true_and, and_true, *]
  all_goals lia

/-! ## What the encoder gives is what the decoder accepts -/

/-- The rows of majors 0x00 to 0x15. -/
def Row.scalars : List Row :=
  [.add, .sub, .and, .or, .xor, .andn, .orn, .sll, .srl, .sra, .rol, .ror, .slt, .sltn, .seq, .sne, .mul, .mulh, .mulhn, .div, .divn, .rem, .remn,
    .min, .max, .minn, .maxn, .sel, .clz, .ctz, .pop, .rev8, .bext, .bextn, .bins, .sxb, .sxh, .sxw, .zxb, .zxh, .zxw, .slli, .srli, .srai, .addi,
    .andi, .ori, .xori, .slti, .lui, .lpc, .bEq, .bNe, .bLt, .bGe, .bLtn, .bGen, .bBset, .bBclr, .j, .jal, .jalr, .dbnz, .fadd, .fsub, .fmul, .fdiv,
    .fsqrt, .fmin, .fmax, .fabs, .fneg, .fsgnj, .ffma, .ffms, .fnfma, .fcmpeq, .fcmplt, .fcmple, .fcvtFG, .fcvtGF, .fmvFG, .fmvGF, .fcls, .fround,
    .fcvtFBf16, .fcvtBf16F, .fcvtFHf, .fcvtHfF, .fscal, .frecip, .frsq, .ldb, .ldbn, .ldh, .ldhn, .ldw, .ldwn, .ldd, .ldf, .ldsync, .ldpeek, .stb,
    .sth, .stw, .std, .stf, .stfill, .clrfull, .aadd, .aswap, .acas, .ldbits, .stbits, .badd, .bset, .bget]

/-- The rows whose word holds an integer element type in bits [3:2] (R50). -/
def Row.intLanes : List Row :=
  [.vadd, .vsub, .vmul, .vmulh, .vmulhn, .vmin, .vmax, .vminn, .vmaxn, .vand, .vor, .vxor, .vsll, .vsrl, .vsra, .vabs, .vadds, .vaddsn, .vsubs,
    .vsubsn, .vavg, .vcmpeq, .vcmplt, .vcmpltn]

/-- The rows whose word holds a floating element type in bits [5:2] (R50). -/
def Row.floatLanes : List Row :=
  [.vfadd, .vfsub, .vfmul, .vffma, .vffms, .vfmin, .vfmax, .vfabs, .vfneg, .vfrecip, .vfrsq, .vfexp2, .vfclass, .vfscale, .vfcmpeq, .vfcmplt,
    .vfcmple]

/-- The rows that name a system register (R188). -/
def Row.sysregs : List Row :=
  [.sysrd, .syswr, .sysbs, .sysbc]

/-- The other rows of majors 0x18 to 0x21. -/
def Row.lanes : List Row :=
  [.vdot4, .vfdiv, .vfsqrt, .vcvt, .vcvtsc, .vsplat, .vsplatf, .vext, .vins, .vperm, .vslide, .vcompress, .vexpand, .vmerge, .vredsum, .vredmax,
    .vredmin, .vtopk, .vtopkM, .vmand, .vmor, .vmnot, .vmpop, .vld, .vst, .vldx, .vstx, .vldbits, .tcfg, .trel, .tzero, .tldrow, .tldcol, .tstrow,
    .tstcol, .tload, .tstore, .twait, .mmaBf16, .mmaHf, .mmaE4e4, .mmaE4e5, .mmaE5e4, .mmaE5e5, .mmaBf16e4, .mmaI8, .mmaTi8, .mmaTbf16]

/-- The other rows of majors 0x28 to 0x34. -/
def Row.requests : List Row :=
  [.connect, .accept, .send, .sendv, .sendt, .selLabel, .recv, .offer, .probe, .close, .sendep, .recvep, .estate, .spawn, .mrd, .mwr, .mamo, .cpget,
    .cpput, .cpgath, .cpscat, .cpfill, .cpcvt, .cpwait, .budget, .commit, .done, .doneRetire, .jarm, .jdis, .capgive, .capchk, .vnow, .vset, .vmile,
    .prio, .gjoin, .gleave, .gwait, .gred, .gbcast, .grs, .gag, .fenceAcq, .fenceRel, .fenceFull, .fenceSc, .trap, .halt]

/-- The rows of 16-bit words. -/
def Row.compact : List Row :=
  [.cAdd, .cSub, .cAnd, .cOr, .cXor, .cMv, .cLdd, .cStd, .cAddi, .cLi, .cSlli, .cSrli, .cSrai, .cAndi, .cOri, .cXori, .cBeqz, .cBnez, .cBltz, .cBgez,
    .cJ, .cJr, .cDbnz, .cDone]

theorem Row.cover (r : Row) : r ∈ Row.scalars ∨ r ∈ Row.intLanes ∨ r ∈ Row.floatLanes ∨ r ∈ Row.sysregs ∨ r ∈ Row.lanes ∨ r ∈ Row.requests ∨ r ∈
    Row.compact := by
  cases r <;> decide +kernel

theorem Row.not_compact_of_encode {w v : Nat} : ∀ r ∈ Row.compact, encode (r.build w) ≠ some (4, v) := by
  unfold Row.compact
  repeat' refine List.forall_mem_cons.2 ⟨?_, ?_⟩
  on_goal -1 => exact List.forall_mem_nil _
  all_goals intro h; cases h

theorem row32_of_encode_scalar {w : Nat} : ∀ r ∈ Row.scalars, encode (r.build w) = some (4, w) → row32 w = .ok r := by
  unfold Row.scalars
  repeat' refine List.forall_mem_cons.2 ⟨?_, ?_⟩
  on_goal -1 => exact List.forall_mem_nil _
  all_goals
    intro h
    obtain ⟨-, hv⟩ := Prod.mk.inj (Option.some.inj h)
    rw [← hv]
    simp (decide := true) only [row32, dec03, dec07, dec0B, dec0F, dec13, dec17, dec1B, dec1F, dec23, dec27, dec2B, dec2F, dec33, dec37, dec3B,
        dec43, dec47, dec4B, dec4F, dec53, dec57, fld_put_below, fld_eq_zero_iff, put_mod_of_dvd, put_div_of_dvd,
        put_div_mod_of_dvd, Nat.reduceMod, Nat.reducePow, Nat.reduceDiv, Nat.reduceMul, Nat.reduceAdd, if_true]

theorem row32_of_encode_lanes {w : Nat} : ∀ r ∈ Row.lanes, encode (r.build w) = some (4, w) → row32 w = .ok r := by
  unfold Row.lanes
  repeat' refine List.forall_mem_cons.2 ⟨?_, ?_⟩
  on_goal -1 => exact List.forall_mem_nil _
  all_goals
    intro h
    obtain ⟨-, hv⟩ := Prod.mk.inj (Option.some.inj h)
    rw [← hv]
    simp (decide := true) only [row32, dec63, dec77, dec7B, dec83, dec87, fld_put_below, fld_eq_zero_iff, put_mod_of_dvd,
        put_div_of_dvd, put_div_mod_of_dvd, Nat.reduceMod, Nat.reducePow, Nat.reduceDiv, Nat.reduceMul, Nat.reduceAdd, if_true, if_false, and_self]

theorem row32_of_encode_request {w : Nat} : ∀ r ∈ Row.requests, encode (r.build w) = some (4, w) → row32 w = .ok r := by
  unfold Row.requests
  repeat' refine List.forall_mem_cons.2 ⟨?_, ?_⟩
  on_goal -1 => exact List.forall_mem_nil _
  all_goals
    intro h
    obtain ⟨-, hv⟩ := Prod.mk.inj (Option.some.inj h)
    rw [← hv]
    simp (decide := true) only [row32, decA3, decB3, decB7, decC3, decCB, decD3, fld_put_below, fld_eq_zero_iff, put_mod_of_dvd,
        put_div_of_dvd, put_div_mod_of_dvd, Nat.reduceMod, Nat.reducePow, Nat.reduceDiv, Nat.reduceMul, Nat.reduceAdd, if_true, if_false, and_self]

theorem sysreg_le {a : BitVec 12} (h : sysregAssigned a = true) : a.toNat ≤ 0x200 := by
  unfold sysregAssigned at h
  split at h
  all_goals first | omega | cases h

theorem row32_of_encode_sysreg {w : Nat} (hs : sysregAssigned (fld w 18 12) = true) : ∀ r ∈ Row.sysregs, encode (r.build w) = some (4, w) → row32 w
    = .ok r := by
  have hne : w / 67108864 % 16 ≠ 15 := by
    have hle := sysreg_le hs
    rw [fld, BitVec.toNat_ofNat] at hle
    omega
  unfold Row.sysregs
  repeat' refine List.forall_mem_cons.2 ⟨?_, ?_⟩
  on_goal -1 => exact List.forall_mem_nil _
  all_goals
    intro h
    obtain ⟨-, hv⟩ := Prod.mk.inj (Option.some.inj h)
    rw [← hv] at hne ⊢
    simp (decide := true) only [row32, decD3, fld_put_below, fld_eq_zero_iff, put_mod_of_dvd, put_div_of_dvd, put_div_mod_of_dvd,
        Nat.reduceMod, Nat.reducePow, Nat.reduceDiv, Nat.reduceMul, Nat.reduceAdd, if_true] at hne ⊢
    simp only [hne, if_false]

theorem sysreg_of_fieldsOk {w : Nat} : ∀ r ∈ Row.sysregs, r.fieldsOk w = true → sysregAssigned (fld w 18 12) = true := by
  unfold Row.sysregs
  repeat' refine List.forall_mem_cons.2 ⟨id, ?_⟩
  exact List.forall_mem_nil _

theorem elementType_int {w : Nat} : ∀ r ∈ Row.intLanes, r.fieldsOk w = true → (fld w 2 2).toNat < 3 := by
  unfold Row.intLanes
  iterate 21 refine List.forall_mem_cons.2 ⟨fun h => of_decide_eq_true h, ?_⟩
  iterate 3 refine List.forall_mem_cons.2 ⟨fun h => of_decide_eq_true (Bool.and_eq_true_iff.1 h).1, ?_⟩
  exact List.forall_mem_nil _

theorem byte_int {x : Nat} {t : BitVec 2} {w : Nat} (hv : put x t 2 = w) (ht : t.toNat < 3) (hx : x % 256 = 0x63) :
    w % 256 = 0x63 ∨ w % 256 = 0x67 ∨ w % 256 = 0x6B := by
  unfold put at hv; omega

theorem row32_of_encode_int {w : Nat} (ht : (fld w 2 2).toNat < 3) :
    ∀ r ∈ Row.intLanes, encode (r.build w) = some (4, w) → row32 w = .ok r := by
  unfold Row.intLanes
  repeat' refine List.forall_mem_cons.2 ⟨?_, ?_⟩
  on_goal -1 => exact List.forall_mem_nil _
  all_goals
    intro h
    obtain ⟨-, hv⟩ := Prod.mk.inj (Option.some.inj h)
    have hb := byte_int hv ht (by simp (decide := true) only [put_mod_of_dvd, Nat.reduceMod])
    rcases hb with hb | hb | hb
    all_goals
      simp only [row32, hb]
      rw [← hv]
      simp (decide := true) only [dec63, dec67, fld_put_below, fld_eq_zero_iff, put_div_of_dvd, put_div_mod_of_dvd,
          Nat.reduceMod, Nat.reducePow, Nat.reduceDiv, Nat.reduceMul, Nat.reduceAdd, if_true]

theorem elementType_float {w : Nat} : ∀ r ∈ Row.floatLanes, r.fieldsOk w = true → 11 ≤ (fld w 2 4).toNat ∧ (fld w 2 4).toNat < 14 := by
  unfold Row.floatLanes
  iterate 14 refine List.forall_mem_cons.2 ⟨fun h => ⟨of_decide_eq_true (Bool.and_eq_true_iff.1 h).1, of_decide_eq_true (Bool.and_eq_true_iff.1
      h).2⟩, ?_⟩
  iterate 3 refine List.forall_mem_cons.2 ⟨fun h => ⟨of_decide_eq_true (Bool.and_eq_true_iff.1 (Bool.and_eq_true_iff.1 h).1).1, of_decide_eq_true
      (Bool.and_eq_true_iff.1 (Bool.and_eq_true_iff.1 h).1).2⟩, ?_⟩
  exact List.forall_mem_nil _

theorem byte_float {x : Nat} {t : BitVec 4} {w : Nat} (hv : put x t 2 = w) (ht : 11 ≤ t.toNat ∧ t.toNat < 14) (hx : x % 256 = 0x43) :
    w % 256 = 0x6F ∨ w % 256 = 0x73 ∨ w % 256 = 0x77 := by
  unfold put at hv; omega

theorem row32_of_encode_float {w : Nat} (ht : 11 ≤ (fld w 2 4).toNat ∧ (fld w 2 4).toNat < 14) :
    ∀ r ∈ Row.floatLanes, encode (r.build w) = some (4, w) → row32 w = .ok r := by
  unfold Row.floatLanes
  repeat' refine List.forall_mem_cons.2 ⟨?_, ?_⟩
  on_goal -1 => exact List.forall_mem_nil _
  all_goals
    intro h
    obtain ⟨-, hv⟩ := Prod.mk.inj (Option.some.inj h)
    have hb := byte_float hv ht (by simp (decide := true) only [put_mod_of_dvd, Nat.reduceMod])
    rcases hb with hb | hb | hb
    all_goals
      simp only [row32, hb]
      rw [← hv]
      simp (decide := true) only [dec6F, dec77, fld_put_below, fld_eq_zero_iff, put_div_of_dvd, put_div_mod_of_dvd,
          Nat.reduceMod, Nat.reducePow, Nat.reduceDiv, Nat.reduceMul, Nat.reduceAdd, if_true]

/-! ## The instruction of a row's word -/

/-- The row of an instruction with an encoding. -/
def Instr.row : Instr → Row
  | .add .. => .add | .sub .. => .sub | .and .. => .and | .or .. => .or | .xor .. => .xor | .andn .. => .andn | .orn .. => .orn | .sll .. => .sll
  | .srl .. => .srl | .sra .. => .sra | .rol .. => .rol | .ror .. => .ror | .slt .. => .slt | .sltn .. => .sltn | .seq .. => .seq | .sne .. => .sne
  | .mul .. => .mul | .mulh .. => .mulh | .mulhn .. => .mulhn | .div .. => .div | .divn .. => .divn | .rem .. => .rem | .remn .. => .remn
  | .min .. => .min | .max .. => .max | .minn .. => .minn | .maxn .. => .maxn | .sel .. => .sel | .clz .. => .clz | .ctz .. => .ctz | .pop .. => .pop
  | .rev8 .. => .rev8 | .bext .. => .bext | .bextn .. => .bextn | .bins .. => .bins | .sxb .. => .sxb | .sxh .. => .sxh | .sxw .. => .sxw
  | .zxb .. => .zxb | .zxh .. => .zxh | .zxw .. => .zxw | .slli .. => .slli | .srli .. => .srli | .srai .. => .srai | .addi .. => .addi
  | .andi .. => .andi | .ori .. => .ori | .xori .. => .xori | .slti .. => .slti | .lui .. => .lui | .lpc .. => .lpc | .bEq .. => .bEq
  | .bNe .. => .bNe | .bLt .. => .bLt | .bGe .. => .bGe | .bLtn .. => .bLtn | .bGen .. => .bGen | .bBset .. => .bBset | .bBclr .. => .bBclr
  | .j .. => .j | .jal .. => .jal | .jalr .. => .jalr | .dbnz .. => .dbnz | .fadd .. => .fadd | .fsub .. => .fsub | .fmul .. => .fmul
  | .fdiv .. => .fdiv | .fsqrt .. => .fsqrt | .fmin .. => .fmin | .fmax .. => .fmax | .fabs .. => .fabs | .fneg .. => .fneg | .fsgnj .. => .fsgnj
  | .ffma .. => .ffma | .ffms .. => .ffms | .fnfma .. => .fnfma | .fcmpeq .. => .fcmpeq | .fcmplt .. => .fcmplt | .fcmple .. => .fcmple
  | .fcvtFG .. => .fcvtFG | .fcvtGF .. => .fcvtGF | .fmvFG .. => .fmvFG | .fmvGF .. => .fmvGF | .fcls .. => .fcls | .fround .. => .fround
  | .fcvtFBf16 .. => .fcvtFBf16 | .fcvtBf16F .. => .fcvtBf16F | .fcvtFHf .. => .fcvtFHf | .fcvtHfF .. => .fcvtHfF | .fscal .. => .fscal
  | .frecip .. => .frecip | .frsq .. => .frsq | .ldb .. => .ldb | .ldbn .. => .ldbn | .ldh .. => .ldh | .ldhn .. => .ldhn | .ldw .. => .ldw
  | .ldwn .. => .ldwn | .ldd .. => .ldd | .ldf .. => .ldf | .ldsync .. => .ldsync | .ldpeek .. => .ldpeek | .stb .. => .stb | .sth .. => .sth
  | .stw .. => .stw | .std .. => .std | .stf .. => .stf | .stfill .. => .stfill | .clrfull .. => .clrfull | .aadd .. => .aadd | .aswap .. => .aswap
  | .acas .. => .acas | .ldbits .. => .ldbits | .stbits .. => .stbits | .badd .. => .badd | .bset .. => .bset | .bget .. => .bget | .vadd .. => .vadd
  | .vsub .. => .vsub | .vmul .. => .vmul | .vmulh .. => .vmulh | .vmulhn .. => .vmulhn | .vmin .. => .vmin | .vmax .. => .vmax | .vminn .. => .vminn
  | .vmaxn .. => .vmaxn | .vand .. => .vand | .vor .. => .vor | .vxor .. => .vxor | .vsll .. => .vsll | .vsrl .. => .vsrl | .vsra .. => .vsra
  | .vabs .. => .vabs | .vadds .. => .vadds | .vaddsn .. => .vaddsn | .vsubs .. => .vsubs | .vsubsn .. => .vsubsn | .vavg .. => .vavg
  | .vdot4 .. => .vdot4 | .vcmpeq .. => .vcmpeq | .vcmplt .. => .vcmplt | .vcmpltn .. => .vcmpltn | .vfadd .. => .vfadd | .vfsub .. => .vfsub
  | .vfmul .. => .vfmul | .vffma .. => .vffma | .vffms .. => .vffms | .vfmin .. => .vfmin | .vfmax .. => .vfmax | .vfabs .. => .vfabs
  | .vfneg .. => .vfneg | .vfdiv .. => .vfdiv | .vfsqrt .. => .vfsqrt | .vfrecip .. => .vfrecip | .vfrsq .. => .vfrsq | .vfexp2 .. => .vfexp2
  | .vfcmpeq .. => .vfcmpeq | .vfcmplt .. => .vfcmplt | .vfcmple .. => .vfcmple | .vfclass .. => .vfclass | .vfscale .. => .vfscale
  | .vcvt .. => .vcvt | .vcvtsc .. => .vcvtsc | .vsplat .. => .vsplat | .vsplatf .. => .vsplatf | .vext .. => .vext | .vins .. => .vins
  | .vperm .. => .vperm | .vslide .. => .vslide | .vcompress .. => .vcompress | .vexpand .. => .vexpand | .vmerge .. => .vmerge
  | .vredsum .. => .vredsum | .vredmax .. => .vredmax | .vredmin .. => .vredmin | .vtopk .. => .vtopk | .vtopkM .. => .vtopkM | .vmand .. => .vmand
  | .vmor .. => .vmor | .vmnot .. => .vmnot | .vmpop .. => .vmpop | .vld .. => .vld | .vst .. => .vst | .vldx .. => .vldx | .vstx .. => .vstx
  | .vldbits .. => .vldbits | .tcfg .. => .tcfg | .trel .. => .trel | .tzero .. => .tzero | .tldrow .. => .tldrow | .tldcol .. => .tldcol
  | .tstrow .. => .tstrow | .tstcol .. => .tstcol | .tload .. => .tload | .tstore .. => .tstore | .twait => .twait | .mmaBf16 .. => .mmaBf16
  | .mmaHf .. => .mmaHf | .mmaE4e4 .. => .mmaE4e4 | .mmaE4e5 .. => .mmaE4e5 | .mmaE5e4 .. => .mmaE5e4 | .mmaE5e5 .. => .mmaE5e5
  | .mmaBf16e4 .. => .mmaBf16e4 | .mmaI8 .. => .mmaI8 | .mmaTi8 .. => .mmaTi8 | .mmaTbf16 .. => .mmaTbf16 | .connect .. => .connect
  | .accept .. => .accept | .send .. => .send | .sendv .. => .sendv | .sendt .. => .sendt | .selLabel .. => .selLabel | .recv .. => .recv
  | .offer .. => .offer | .probe .. => .probe | .close .. => .close | .sendep .. => .sendep | .recvep .. => .recvep | .estate .. => .estate
  | .spawn .. => .spawn | .mrd .. => .mrd | .mwr .. => .mwr | .mamo .. => .mamo | .cpget .. => .cpget | .cpput .. => .cpput | .cpgath .. => .cpgath
  | .cpscat .. => .cpscat | .cpfill .. => .cpfill | .cpcvt .. => .cpcvt | .cpwait => .cpwait | .gjoin .. => .gjoin | .gleave .. => .gleave
  | .gwait .. => .gwait | .gred .. => .gred | .gbcast .. => .gbcast | .grs .. => .grs | .gag .. => .gag | .vnow .. => .vnow | .vset .. => .vset
  | .vmile .. => .vmile | .prio .. => .prio | .budget .. => .budget | .commit => .commit | .done => .done | .doneRetire => .doneRetire
  | .jarm .. => .jarm | .jdis .. => .jdis | .capgive .. => .capgive | .capchk .. => .capchk | .sysrd .. => .sysrd | .syswr .. => .syswr
  | .sysbs .. => .sysbs | .sysbc .. => .sysbc | .fenceAcq .. => .fenceAcq | .fenceRel .. => .fenceRel | .fenceFull .. => .fenceFull
  | .fenceSc .. => .fenceSc | .trap .. => .trap | .halt => .halt | .cAdd .. => .cAdd | .cSub .. => .cSub | .cAnd .. => .cAnd | .cOr .. => .cOr
  | .cXor .. => .cXor | .cMv .. => .cMv | .cLdd .. => .cLdd | .cStd .. => .cStd | .cAddi .. => .cAddi | .cLi .. => .cLi | .cSlli .. => .cSlli
  | .cSrli .. => .cSrli | .cSrai .. => .cSrai | .cAndi .. => .cAndi | .cOri .. => .cOri | .cXori .. => .cXori | .cBeqz .. => .cBeqz
  | .cBnez .. => .cBnez | .cBltz .. => .cBltz | .cBgez .. => .cBgez | .cJ .. => .cJ | .cJr .. => .cJr | .cDbnz .. => .cDbnz | .cDone => .cDone
  | _ => .add

/-- The words of an instruction: how long they are, their length tag (R42), and that nothing stands above them. -/
theorem word_of_encode {i : Instr} {n w : Nat} (h : encode i = some (n, w)) : n = 4 ∧ w % 4 = 3 ∧ w / 2 ^ 32 = 0 ∨ n = 2 ∧ w % 4 ≠ 3 ∧ w / 2 ^ 16 =
    0 := by
  cases i
  all_goals cases h
  all_goals simp (decide := true) only [fld_put_below, fld_eq_zero_iff, put_div_of_dvd, put_mod_of_dvd, true_and,
      false_and, true_or, false_or]

/-- The fields of an instruction read back from its word. -/
theorem build_row {i : Instr} {n w : Nat} (h : encode i = some (n, w)) : i.row.build w = i := by
  cases i
  all_goals cases h
  all_goals conv_lhs => whnf
  all_goals simp (decide := true) only [fld_put_same, fld_put_above, fld_put_below, fld_eq_zero_iff]

/-- Reserved field values of a word the encoder gives are those of its instruction: e15 stands in the word alone (R48). -/
theorem fieldsOk_of_encode {r : Row} {n w : Nat} (h : encode (r.build w) = some (n, w)) (hf : (r.build w).wellFormed = true) : r.fieldsOk w = true
    := by
  cases r
  case mrd | mwr | mamo | cpget | cpput | cpgath | cpscat | cpfill | cpcvt =>
    refine Bool.and_eq_true_iff.2 ⟨hf, decide_eq_true ?_⟩
    rw [← (Prod.mk.inj (Option.some.inj h)).2]
    simp (decide := true) only [put_div_mod_of_dvd]
  case cpwait =>
    refine decide_eq_true ?_
    rw [← (Prod.mk.inj (Option.some.inj h)).2]
    decide
  all_goals exact hf

theorem wellFormed_of_fieldsOk {r : Row} {w : Nat} (hf : r.fieldsOk w = true) : (r.build w).wellFormed = true := by
  cases r
  case mrd | mwr | mamo | cpget | cpput | cpgath | cpscat | cpfill | cpcvt => exact (Bool.and_eq_true_iff.1 hf).1
  case cpwait => rfl
  all_goals exact hf

theorem encode_of_row16 {w : Nat} {r : Row} (hw : w / 65536 = 0) (h : row16 w = .ok r) : encode (r.build w) = some (2, w) := by
  unfold row16 at h
  repeat' split at h
  all_goals cases h
  case h_24.isTrue.refl => exact congrArg (fun v => some (2, v)) (by omega : 30 = w)
  all_goals
    refine congrArg (fun v => some (2, v)) ?_
    simp only [put, fld, BitVec.toNat_ofNat]
    omega

theorem row16_of_encode {w : Nat} {r : Row} (h : encode (r.build w) = some (2, w)) : row16 w = .ok r := by
  cases r
  all_goals obtain ⟨hn, hv⟩ := Prod.mk.inj (Option.some.inj h)
  all_goals cases hn
  all_goals
    rw [← hv]
    simp (decide := true) only [row16, fld_put_below, fld_eq_zero_iff, put_mod_of_dvd, put_div_of_dvd, put_div_mod_of_dvd,
        Nat.reduceMod, Nat.reducePow, Nat.reduceDiv, if_true]

theorem encode_of_row32 {w : Nat} {r : Row} (hw : w / 4294967296 = 0) (h : row32 w = .ok r) (hf : r.fieldsOk w = true) : encode (r.build w) = some
    (4, w) := by
  rcases lt_or_ge (w % 256) 0x60 with h1 | h1
  · exact encode_of_row32_scalar hw h1 h
  rcases lt_or_ge (w % 256) 0x6D with h2 | h2
  · exact encode_of_row32_lanes hw ⟨h1, h2⟩ h
  rcases lt_or_ge (w % 256) 0x7B with h3 | h3
  · exact encode_of_row32_floatLanes hw ⟨h2, h3⟩ h
  by_cases h4 : w % 256 < 0xB0 ∨ w % 256 = 0xCB
  · exact encode_of_row32_tile hw (h4.imp_left fun h => ⟨h3, h⟩) h
  push Not at h4
  obtain ⟨h4, h5⟩ := h4
  rcases lt_or_ge (w % 256) 0xC0 with h6 | h6
  · exact encode_of_row32_memory hw ⟨h4, h6⟩ h hf
  · exact encode_of_row32_system hw ⟨h6, h5⟩ h

theorem row32_of_encode {w : Nat} {r : Row} (hf : r.fieldsOk w = true) (h : encode (r.build w) = some (4, w)) : row32 w = .ok r := by
  rcases r.cover with hr | hr | hr | hr | hr | hr | hr
  · exact row32_of_encode_scalar r hr h
  · exact row32_of_encode_int (elementType_int r hr hf) r hr h
  · exact row32_of_encode_float (elementType_float r hr hf) r hr h
  · exact row32_of_encode_sysreg (sysreg_of_fieldsOk r hr hf) r hr h
  · exact row32_of_encode_lanes r hr h
  · exact row32_of_encode_request r hr h
  · exact absurd h (Row.not_compact_of_encode r hr)

/-! ## The decoder on a table word -/

theorem decodeTableWord_eq {nbits w v : Nat} (hv : w % 2 ^ nbits = v) (hlt : v < 2 ^ 32) :
    decodeTableWord nbits w = if v % 4 = 3 then (decodeWord true v).toOption else (decodeWord false (v % 65536)).toOption := by
  have h4 : v % 256 % 4 = v % 4 := by omega
  have hl : v % 256 + 256 * (v / 256 % 256) + 65536 * (v / 256 / 256 % 256) + 16777216 * (v / 256 / 256 / 256 % 256) = v := by omega
  have hs : v % 256 + 256 * (v / 256 % 256) = v % 65536 := by omega
  rw [decodeTableWord, hv]
  by_cases htag : v % 4 = 3
  · simp only [wordBytes, decodeBytes, BitVec.toNat_ofNat, Nat.reducePow, h4, htag, if_true, hl]
    cases decodeWord true v <;> rfl
  · simp only [wordBytes, decodeBytes, BitVec.toNat_ofNat, Nat.reducePow, h4, htag, if_false, hs]
    cases decodeWord false (v % 65536) <;> rfl

theorem scanWord_ok {long : Bool} {w : Nat} {r : Row} :
    scanWord long w = .ok r ↔ (if long then row32 w else row16 w) = .ok r ∧ r.fieldsOk w = true := by
  unfold scanWord
  split
  next r' hr =>
    rw [hr]
    by_cases hf : r'.fieldsOk w = true
    · simp only [hf, if_true, Except.ok.injEq]
      constructor
      · rintro rfl; exact ⟨rfl, hf⟩
      · exact fun h => h.1
    · simp only [hf, if_false, reduceCtorEq, Except.ok.injEq, false_iff, not_and, Bool.false_eq_true]
      rintro rfl; exact hf
  next e he => simp [he]

/-- What the scanner accepts is a word that the encoder gives for a well-formed instruction (R54, R55). -/
theorem decodeWord_ok_iff {long : Bool} {n w : Nat} {i : Instr} (hn : n = if long then 4 else 2) (hw : w < 2 ^ (8 * n)) :
    decodeWord long w = .ok i ↔ i.wellFormed = true ∧ encode i = some (n, w) := by
  have henc : ∀ {r : Row}, (if long then row32 w else row16 w) = .ok r ∧ r.fieldsOk w = true ↔ (r.build w).wellFormed = true ∧ encode (r.build w) =
      some (n, w) := by
    intro r
    cases long
    · obtain rfl : n = 2 := hn
      refine ⟨fun ⟨h, hf⟩ => ⟨wellFormed_of_fieldsOk hf, encode_of_row16 (by omega) h⟩, fun ⟨hf, h⟩ => ⟨row16_of_encode h, fieldsOk_of_encode h hf⟩⟩
    · obtain rfl : n = 4 := hn
      refine ⟨fun ⟨h, hf⟩ => ⟨wellFormed_of_fieldsOk hf, encode_of_row32 (by omega) h hf⟩, fun ⟨hf, h⟩ => ?_⟩
      exact ⟨row32_of_encode (fieldsOk_of_encode h hf) h, fieldsOk_of_encode h hf⟩
  constructor
  · intro h
    cases hs : scanWord long w with
    | error e => simp [decodeWord, hs, Except.map] at h
    | ok r =>
      obtain rfl : r.build w = i := by simpa [decodeWord, hs, Except.map] using h
      exact henc.1 (scanWord_ok.1 hs)
  · rintro ⟨hf, h⟩
    obtain hb := build_row h
    rw [← hb] at hf h
    rw [decodeWord, scanWord_ok.2 (henc.2 ⟨hf, h⟩), Except.map, hb]

/-- Settles O2: the word is the scanner's, and the fields read back from it. -/
theorem decodeOfEncode : Obligations.DecodeOfEncode := by
  intro i n w hf h
  rcases word_of_encode h with ⟨rfl, htag, htop⟩ | ⟨rfl, htag, htop⟩
  · have hw : w < 2 ^ 32 := by omega
    rw [decodeTableWord_eq (Nat.mod_eq_of_lt hw) hw, if_pos htag, (decodeWord_ok_iff (long := true) rfl hw).2 ⟨hf, h⟩]
    rfl
  · have hw : w < 2 ^ 16 := by omega
    rw [decodeTableWord_eq (Nat.mod_eq_of_lt hw) (by omega), if_neg htag, Nat.mod_eq_of_lt (b := 65536) hw, (decodeWord_ok_iff (long := false) rfl
        hw).2 ⟨hf, h⟩]
    rfl

/-- Settles O3: what the scanner accepts is the encoder's word, by the tables major by major. -/
theorem encodeOfDecode : Obligations.EncodeOfDecode := by
  intro nbits w i hn hw h
  have h32 : w < 2 ^ 32 := by rcases hn with rfl | rfl <;> omega
  rw [decodeTableWord_eq (Nat.mod_eq_of_lt hw) h32] at h
  split at h
  · cases hd : decodeWord true w with
    | error e => simp [hd, Except.toOption] at h
    | ok j =>
      obtain rfl : j = i := by simpa [hd, Except.toOption] using h
      obtain ⟨hf, he⟩ := (decodeWord_ok_iff (long := true) (n := 4) rfl h32).1 hd
      exact ⟨hf, 4, by rw [he, Nat.mod_eq_of_lt h32]⟩
  · cases hd : decodeWord false (w % 65536) with
    | error e => simp [hd, Except.toOption] at h
    | ok j =>
      obtain rfl : j = i := by simpa [hd, Except.toOption] using h
      obtain ⟨hf, he⟩ := (decodeWord_ok_iff (long := false) (n := 2) rfl (Nat.mod_lt _ (by decide))).1 hd
      exact ⟨hf, 2, he⟩

/-- Settles O1: each word is the encoder's word of its instruction, so it decodes to it. -/
theorem wordsDecode : Obligations.WordsDecode :=
  ⟨decodeOfEncode _ 4 _ rfl rfl, decodeOfEncode _ 4 _ rfl rfl, decodeOfEncode _ 4 _ rfl rfl, decodeOfEncode _ 4 _ rfl rfl,
    decodeOfEncode _ 4 _ rfl rfl, decodeOfEncode _ 4 _ rfl rfl, decodeOfEncode _ 4 _ rfl rfl, decodeOfEncode _ 4 _ rfl rfl,
    decodeOfEncode _ 4 _ rfl rfl, decodeOfEncode _ 4 _ rfl rfl⟩

end Sys2Proof
end

section
/-! # The fetch and the step (02_instruction_formats.md R42, R54, R58) -/

namespace Sys2Proof.Machine

theorem decodeWord_eq_ok {long : Bool} {w : Nat} {i : Instr} (h : decodeWord long w = .ok i) : ∃ r, scanWord long w = .ok r ∧ r.build w = i := by
  unfold decodeWord at h
  cases hs : scanWord long w with
  | error e => rw [hs] at h; cases h
  | ok r => rw [hs] at h; exact ⟨r, rfl, Except.ok.inj h⟩

/-- The bytes at a PC that decode are the word the fetch takes; those behind it are the rest. -/
theorem Core.codeWord_of_decodeBytes {k : Core} {pc : BitVec 16} {i : Instr} {rest : List Byte}
    (h : decodeBytes (k.code.bytes pc.toNat 4) = .ok (i, rest)) :
    ∃ r, scanWord (k.codeWord pc).1 (k.codeWord pc).2 = .ok r ∧ r.build (k.codeWord pc).2 = i ∧ rest.length = if (k.codeWord pc).1 then 0 else 2 := by
  simp only [Mem.bytes, decodeBytes] at h
  simp only [Core.codeWord, Core.codeBytes, Mem.bytes, leNat, lengthOf]
  generalize k.code.byte pc.toNat = b0 at *
  generalize k.code.byte (pc.toNat + 1) = b1 at *
  generalize k.code.byte (pc.toNat + 1 + 1) = b2 at *
  generalize k.code.byte (pc.toNat + 1 + 1 + 1) = b3 at *
  have htag : (b0.toNat + 256 * (b1.toNat + 256 * 0)) % 4 = b0.toNat % 4 := by omega
  rw [htag]
  split at h
  next h3 =>
    have hw : b0.toNat + 256 * (b1.toNat + 256 * (b2.toNat + 256 * (b3.toNat + 256 * 0))) =
        b0.toNat + 256 * b1.toNat + 65536 * b2.toNat + 16777216 * b3.toNat := by omega
    simp only [h3, if_true, hw]
    cases hd : decodeWord true (b0.toNat + 256 * b1.toNat + 65536 * b2.toNat + 16777216 * b3.toNat) with
    | error e => rw [hd] at h; cases h
    | ok j =>
      rw [hd] at h
      cases h
      obtain ⟨r, hr, hb⟩ := decodeWord_eq_ok hd
      exact ⟨r, hr, hb, rfl⟩
  next h3 =>
    simp only [h3, if_false, Nat.mul_zero, Nat.add_zero, reduceCtorEq, Nat.reduceEqDiff]
    cases hd : decodeWord false (b0.toNat + 256 * b1.toNat) with
    | error e => rw [hd] at h; cases h
    | ok j =>
      rw [hd] at h
      cases h
      obtain ⟨r, hr, hb⟩ := decodeWord_eq_ok hd
      exact ⟨r, hr, hb, rfl⟩

/-- The fetch takes the row whose word stands at the PC, when no word that it touches is in error. -/
theorem State.fetch_ins {s : State} {m : Image} {i : Instr} {rest : List Byte} (hm : s.image = some m) (hpc : s.ctx.pc.toNat < m.base + m.len)
    (hd : decodeBytes (s.hereCore.code.bytes s.ctx.pc.toNat 4) = .ok (i, rest))
    (hbad : ∀ w ∈ s.hereCore.badCode, 8 * w + 8 ≤ s.ctx.pc.toNat ∨ s.ctx.pc.toNat + (4 - rest.length) ≤ 8 * w) :
    ∃ r w, s.fetch = .ins r w ∧ r.build w = i := by
  obtain ⟨r, hr, hb, hlen⟩ := Core.codeWord_of_decodeBytes hd
  refine ⟨r, _, ?_, hb⟩
  have first : s.ctx.pc.toNat / 8 ∉ s.hereCore.badCode := fun hw => by
    have := hbad _ hw
    split at hlen <;> omega
  have second : ¬ ((s.hereCore.codeWord s.ctx.pc).1 = true ∧ (s.ctx.pc.toNat + 2) / 8 ∈ s.hereCore.badCode) := fun ⟨hl, hw⟩ => by
    have := hbad _ hw
    rw [hl, if_pos rfl] at hlen
    omega
  unfold State.fetch
  simp only [hm, List.contains_iff_mem, if_neg (not_le.2 hpc), if_neg (not_or.2 ⟨first, second⟩), hr]

theorem State.fetch_past {s : State} {m : Image} (hm : s.image = some m) (hpc : m.base + m.len ≤ s.ctx.pc.toNat) : s.fetch = .past := by
  simp [State.fetch, hm, hpc]

theorem State.fetch_bad {s : State} {m : Image} (hm : s.image = some m) (hpc : s.ctx.pc.toNat < m.base + m.len)
    (hbad : s.ctx.pc.toNat / 8 ∈ s.hereCore.badCode) : s.fetch = .bad := by
  unfold State.fetch
  simp only [hm, if_neg (not_le.2 hpc), List.contains_iff_mem, hbad, true_or, if_true]

/-- A context stopped by a trap holds the trap record. -/
theorem trapWith_phase (close : Option (BitVec 4 × BitVec 6 × BitVec 6)) (killed : Option (BitVec 9)) (cause : BitVec 9) (detail : Word) (s : State) :
    (trapWith close killed cause detail s).ctx.phase = .trapping (trapRecord s.ctx cause detail) close killed := by
  unfold trapWith
  rw [State.ctx_setCtx]

end Sys2Proof.Machine
end

section
open Sys2Proof Sys2Proof.Machine

/-- Settles O4: the fetch takes the row of the decoded instruction, whose run is its `exec`. -/
theorem stepRunsDecoded : Obligations.StepRunsDecoded := by
  refine ⟨?issue, ?cycle, ?event⟩
  case issue =>
    rintro s x m i rest _ hx hm rfl hpc hd hbad hnil
    obtain ⟨r, w, hf, rfl⟩ := State.fetch_ins (s := { s with cx := x }) hm hpc hd hbad
    have hi : State.issueOne { s with cx := x } = exec (r.build w) { s with cx := x } := by
      unfold State.issueOne
      rw [hf, ← runRow_exec]
    have hs : step s = s.issue := by rw [step, hnil]
    rw [hs, State.issue, hx, ← hi]
  case cycle =>
    intro s l hl
    rw [step, hl]
    rfl
  case event =>
    intro s i l hl he
    have hs : isStep i = true := by rw [isStep, he]; rfl
    rw [step, hl]
    exact if_pos hs

/-- Settles O5: past the end the fetch finds no word, and a word in error at the PC goes before any decoding. -/
theorem fetchTraps : Obligations.FetchTraps := by
  intro s m hm
  constructor
  · intro hpc
    have hi : s.issueOne = raiseOpen 0x1A2 s := by rw [State.issueOne, State.fetch_past hm hpc]
    exact ⟨_, Config.unnamedDetail _ s.tick, hi, trapWith_phase none none 0x1A2 _ { s with tick := s.tick + 1 }⟩
  · intro hpc hbad
    have hi : s.issueOne = raise 0x1C2 (s.ctx.pc.setWidth 64) s := by rw [State.issueOne, State.fetch_bad hm hpc hbad]
    exact ⟨_, hi, trapWith_phase none none 0x1C2 _ s⟩
end

section
/-! # The canonical form of the memories (R43, R200, R221)

A memory changes through a byte or a run of bytes written, a range made unspecified or cleared, and a page put into a frame, each of which keeps
its form (`Mem.set_wf` and the lemmas beside it). The lemmas below carry that through the model in its own order, one for each function that
answers a state, a core or an outcome: it changes a memory by these operations alone, or leaves all four kinds of memory to the functions that it
calls, whose lemmas its proof names. -/

namespace Sys2Proof.Machine
open Sys2Proof.Safety

/-! ## The form of a core and of an outcome -/

/-- A core whose scratchpad and code store are in canonical form. -/
def Core.Canonical (k : Core) : Prop := k.pad.wf = true ∧ k.code.wf = true

/-- The cores of a list have their memories in canonical form. -/
def CanonicalCores (l : List (Nat × Core)) : Prop := ∀ c ∈ l, c.2.Canonical

/-- The stacks of a list of bases are in canonical form. -/
def CanonicalBases (l : List (Nat × Base)) : Prop := ∀ b ∈ l, b.2.dram.wf = true

/-- The windows of a list of host endpoints are in canonical form. -/
def CanonicalHosts (l : List HostEp) : Prop := ∀ h ∈ l, h.window.wf = true

/-- The form of a state speaks of four of its fields only: a change of another leaves it. -/
theorem canonical_iff {s : State} : Canonical s ↔ CanonicalCores s.cores ∧ CanonicalBases s.bases ∧ s.hostMem.wf = true ∧ CanonicalHosts s.hosts :=
    Iff.rfl

/-- An outcome whose state, where it goes on, is in canonical form. -/
def Out.Canonical (o : Out) : Prop := ∀ t, o = .next t → Safety.Canonical t

/-- A step of a launch, done or refused, whose state is in canonical form. -/
def LaunchCanonical (r : Except (BitVec 9 × State) State) : Prop :=
  (∀ t, r = .ok t → Safety.Canonical t) ∧ ∀ x, r = .error x → Safety.Canonical x.2

theorem Out.canonical_next {s : State} : Out.Canonical (.next s) ↔ Safety.Canonical s :=
  ⟨fun h => h s rfl, by rintro h t ⟨⟩; exact h⟩

theorem Out.canonical_fault {f : Fault} : Out.Canonical (.fault f) := by rintro t ⟨⟩

theorem Out.canonical_refused {r : Refusal} : Out.Canonical (.refused r) := by rintro t ⟨⟩

section
variable {s : State}

theorem canonical_core {c : CoreId} (hs : Canonical s) : (s.core c).Canonical := by
  obtain ⟨cores, -, -, -⟩ := hs
  unfold State.core
  rcases look_mem Core.reset c.toNat s.cores with e | e
  · rw [e]; exact ⟨Mem.empty_wf, Mem.empty_wf⟩
  · exact cores _ e

theorem canonical_hereCore (hs : Canonical s) : s.hereCore.Canonical := canonical_core hs

theorem canonical_dram {b : Nat} (hs : Canonical s) : (s.base b).dram.wf = true := by
  obtain ⟨-, bases, -, -⟩ := hs
  unfold State.base
  rcases look_mem Base.reset b s.bases with e | e
  · rw [e]; exact Mem.empty_wf
  · exact bases _ e

theorem canonical_setCore {c : CoreId} {k : Core} (hs : Canonical s) (hk : k.Canonical) : Canonical (s.setCore c k) := by
  obtain ⟨cores, bases, host, windows⟩ := hs
  refine ⟨fun x hx => ?_, bases, host, windows⟩
  rcases mem_put hx with rfl | hx
  · exact hk
  · exact cores x hx

theorem canonical_setHere {k : Core} (hs : Canonical s) (hk : k.Canonical) : Canonical (s.setHere k) := canonical_setCore hs hk

theorem canonical_setBase {b : Nat} {k : Base} (hs : Canonical s) (hk : k.dram.wf = true) : Canonical (s.setBase b k) := by
  obtain ⟨cores, bases, host, windows⟩ := hs
  refine ⟨cores, fun x hx => ?_, host, windows⟩
  rcases mem_put hx with rfl | hx
  · exact hk
  · exact bases x hx

theorem canonicalCores_map {f : Nat × Core → Nat × Core} {l : List (Nat × Core)} (hl : CanonicalCores l)
    (hf : ∀ c, c.2.Canonical → (f c).2.Canonical) :
    CanonicalCores (l.map f) := by
  intro x hx
  obtain ⟨y, hy, rfl⟩ := List.mem_map.1 hx
  exact hf y (hl y hy)

theorem canonicalBases_map {f : Nat × Base → Nat × Base} {l : List (Nat × Base)} (hl : CanonicalBases l)
    (hf : ∀ b, b.2.dram.wf = true → (f b).2.dram.wf = true) :
    CanonicalBases (l.map f) := by
  intro x hx
  obtain ⟨y, hy, rfl⟩ := List.mem_map.1 hx
  exact hf y (hl y hy)

theorem canonicalHosts_map {f : HostEp → HostEp} {l : List HostEp} (hl : CanonicalHosts l) (hf : ∀ h, h.window.wf = true → (f h).window.wf = true) :
    CanonicalHosts (l.map f) := by
  intro x hx
  obtain ⟨y, hy, rfl⟩ := List.mem_map.1 hx
  exact hf y (hl y hy)

end

/-! ## Folds -/

section
variable {α β : Type}

theorem canonical_foldl {f : State → α → State} {l : List α} {s : State} (hs : Canonical s) (hf : ∀ t x, Canonical t → Canonical (f t x)) :
    Canonical (l.foldl f s) := by
  induction l generalizing s with
  | nil => exact hs
  | cons x l ih => exact ih (hf s x hs)

theorem canonical_foldl_fst {f : State × β → α → State × β} {l : List α} {p : State × β} (hp : Canonical p.1)
    (hf : ∀ q x, Canonical q.1 → Canonical (f q x).1) :
    Canonical (l.foldl f p).1 := by
  induction l generalizing p with
  | nil => exact hp
  | cons x l ih => exact ih (hf p x hp)

theorem Core.canonical_foldl {f : Core → α → Core} {l : List α} {k : Core} (hk : k.Canonical) (hf : ∀ m x, m.Canonical → (f m x).Canonical) :
    (l.foldl f k).Canonical := by
  induction l generalizing k with
  | nil => exact hk
  | cons x l ih => exact ih (hf k x hk)

end
end Sys2Proof.Machine

namespace Sys2Proof.Machine
open Sys2Proof.Safety

section
variable {s : State}

/-! ### Contexts -/

theorem canonical_setCtx (hs : Canonical s) : Canonical (s.setCtx x) := by
  unfold State.setCtx
  grind [Core.Canonical, canonical_core, canonical_setCore]

/-! ### Registers and the focus -/

theorem canonical_setG (hs : Canonical s) : Canonical (s.setG d v) := by
  unfold State.setG
  grind [canonical_setCtx]

theorem canonical_setF (hs : Canonical s) : Canonical (s.setF d v) := by
  unfold State.setF
  grind [canonical_setCtx]

theorem canonical_setP (hs : Canonical s) : Canonical (s.setP d v) := by
  unfold State.setP
  grind [canonical_setCtx]

theorem canonical_setB (hs : Canonical s) : Canonical (s.setB d v) := by
  unfold State.setB
  grind [canonical_setCtx]

theorem canonical_setV (hs : Canonical s) : Canonical (s.setV d v) := by
  unfold State.setV
  grind [canonical_setCtx]

theorem canonical_setFlags (hs : Canonical s) : Canonical (s.setFlags fl) := by
  unfold State.setFlags
  grind [canonical_setCtx]

theorem canonical_goto (hs : Canonical s) : Canonical (s.goto pc) := by
  unfold State.goto
  grind [canonical_setCtx]

theorem canonical_advance (hs : Canonical s) : Canonical (s.advance n) := by
  unfold State.advance
  grind [canonical_goto]

theorem canonical_stall (hs : Canonical s) : Canonical (s.stall w) := by
  unfold State.stall
  grind [canonical_setCtx]

theorem canonical_writeG (hs : Canonical s) : Out.Canonical (writeG n d v s) := by
  unfold writeG
  grind [Out.canonical_next, canonical_advance, canonical_setG]

theorem canonical_writeF (hs : Canonical s) : Out.Canonical (writeF d v s) := by
  unfold writeF
  grind [Out.canonical_next, canonical_advance, canonical_setFlags, canonical_setF]

theorem canonical_draw (hs : Canonical s) : Canonical (s.draw mode) := by
  unfold State.draw
  grind [canonical_setCtx]

/-! ### Cores, logs and traps -/

theorem canonical_setCtxAt (hs : Canonical s) : Canonical (s.setCtxAt x k) := by
  unfold State.setCtxAt
  grind [Core.Canonical, canonical_core, canonical_setCore]

theorem canonical_setActorAt (hs : Canonical s) : Canonical (s.setActorAt k a) := by
  unfold State.setActorAt
  grind [Core.Canonical, canonical_hereCore, canonical_setHere]

theorem canonical_setActor (hs : Canonical s) : Canonical (s.setActor a) := by
  unfold State.setActor
  grind [canonical_setActorAt]

theorem canonical_atCore {f : State → State} (hs : Canonical s) (hf : ∀ t, Canonical t → Canonical (f t)) : Canonical (s.at c x f) := by
  unfold State.at
  grind [canonical_iff]

theorem canonical_atOut {f : State → Out} (hs : Canonical s) (hf : ∀ t, Canonical t → Out.Canonical (f t)) : Out.Canonical (s.atOut c x f) := by
  unfold State.atOut
  grind [canonical_iff, Out.canonical_next, Out.canonical_fault, Out.canonical_refused]

theorem canonical_notEnabled : Out.Canonical (notEnabled name) := by
  unfold notEnabled
  grind [Out.canonical_refused]

theorem canonical_wakeHere (hs : Canonical s) : Canonical s.wakeHere := by
  unfold State.wakeHere
  grind [Core.Canonical, canonical_hereCore, canonical_setHere]

theorem canonical_count (hs : Canonical s) : Canonical (s.count off) := by
  unfold State.count
  grind [canonical_iff]

theorem Core.canonical_setFull {k : Core} (hk : k.Canonical) : (k.setFull w v).Canonical := by
  unfold Core.setFull
  grind [Core.Canonical]

theorem Core.canonical_fillWords {k : Core} (hk : k.Canonical) : (k.fillWords v l).Canonical := by
  induction l generalizing k with
  | nil => exact hk
  | cons w l ih => exact ih (Core.canonical_setFull hk)

theorem Base.canonical_spilledBy {b : Base} (hb : b.dram.wf = true) : (b.spilledBy a).dram.wf = true := by
  unfold Base.spilledBy
  grind

theorem canonical_setLogged (hs : Canonical s) : Canonical (s.setLogged k a) := by
  unfold State.setLogged
  grind [canonical_dram, canonical_setBase, canonical_setActorAt, Base.canonical_spilledBy]

theorem canonical_log (e : s.log k r = some t) (hs : Canonical s) : Canonical t := by
  unfold State.log at e
  grind [canonical_setLogged]

theorem canonical_saveLine (e : s.saveLine k line = some t) (hs : Canonical s) : Canonical t := by
  unfold State.saveLine at e
  grind [canonical_hereCore, → canonical_log]

theorem canonical_saveLines (e : s.saveLines k l = some t) (hs : Canonical s) : Canonical t := by
  induction l generalizing s with
  | nil => exact Option.some.inj e ▸ hs
  | cons n l ih =>
    unfold State.saveLines at e
    grind [→ canonical_saveLine]

theorem canonical_saveEp (he : s.saveEp k e = some t) (hs : Canonical s) : Canonical t := by
  unfold State.saveEp at he
  grind [→ canonical_log]

theorem Core.canonical_writePad {k : Core} (hk : k.Canonical) : (k.writePad addr bytes).Canonical := by
  unfold Core.writePad
  grind [Core.Canonical, Mem.setBytes_wf]

theorem canonical_store (e : s.store k addr bytes = some t) (hs : Canonical s) : Canonical t := by
  unfold State.store at e
  grind [canonical_hereCore, canonical_setHere, → canonical_saveLines, Core.canonical_writePad]

theorem canonical_storeFull (e : s.storeFull k w v = some t) (hs : Canonical s) : Canonical t := by
  unfold State.storeFull at e
  grind [canonical_hereCore, canonical_setHere, → canonical_saveLine, Core.canonical_setFull]

theorem Core.canonical_stopEngines {k : Core} (hk : k.Canonical) : (k.stopEngines x).Canonical := by
  unfold Core.stopEngines
  grind [Core.Canonical]

theorem canonical_trapWith (hs : Canonical s) : Canonical (trapWith close killed cause detail s) := by
  unfold trapWith
  grind [canonical_hereCore, canonical_setHere, canonical_wakeHere, Core.canonical_stopEngines, canonical_setCtx]

theorem canonical_raise (hs : Canonical s) : Out.Canonical (raise cause detail s) := by
  unfold raise
  grind [Out.canonical_next, canonical_trapWith]

theorem canonical_soundEp {k : Out} (hs : Canonical s) (hk : Out.Canonical k) : Out.Canonical (soundEp e s k) := by
  unfold soundEp
  grind [canonical_raise]

theorem canonical_badAccess (hs : Canonical s) : Out.Canonical (badAccess base b addr s) := by
  unfold badAccess
  grind [canonical_raise]

theorem canonical_raiseOpen (hs : Canonical s) : Out.Canonical (raiseOpen cause s) := by
  unfold raiseOpen
  grind [canonical_iff, canonical_raise]

theorem canonical_orNoRoom {r : Option State} {k : State → Out} (hr : ∀ t, r = some t → Canonical t) (hs : Canonical s)
    (hk : ∀ t, Canonical t → Out.Canonical (k t)) :
    Out.Canonical (orNoRoom r s k) := by
  unfold orNoRoom
  grind [canonical_raise]

/-! ### Integer instructions -/

theorem canonical_divide (hs : Canonical s) : Out.Canonical (divide k b a d s) := by
  unfold divide
  grind [canonical_raise, canonical_writeG]

theorem canonical_execBadd (hs : Canonical s) : Out.Canonical (execBadd a d s) := by
  unfold execBadd
  grind [Out.canonical_next, canonical_advance, canonical_setB]

theorem canonical_execBset (hs : Canonical s) : Out.Canonical (execBset a d s) := by
  unfold execBset
  grind [Out.canonical_next, canonical_advance, canonical_setB]

/-! ### Local memory -/

theorem canonical_loadWith {f : Nat → Out} (hs : Canonical s) (hf : ∀ x, Out.Canonical (f x)) : Out.Canonical (loadWith k i a s f) := by
  unfold loadWith
  grind [canonical_hereCore, canonical_badAccess, canonical_raise]

theorem canonical_loadG (hs : Canonical s) : Out.Canonical (loadG n sg k i a d s) := by
  unfold loadG
  grind [canonical_loadWith, canonical_writeG]

theorem canonical_loadFull (hs : Canonical s) : Out.Canonical (loadFull take i a d s) := by
  unfold loadFull
  grind [canonical_hereCore, Out.canonical_next, canonical_stall, canonical_loadWith, canonical_orNoRoom, → canonical_storeFull,
    canonical_writeG]

theorem canonical_storeAt (hs : Canonical s) : Out.Canonical (storeAt n k addr v fill s) := by
  unfold storeAt
  grind [canonical_hereCore, Out.canonical_next, canonical_setHere, canonical_badAccess, canonical_raise, canonical_orNoRoom,
    → canonical_store, canonical_advance, Core.canonical_setFull]

theorem canonical_execLdf (hs : Canonical s) : Out.Canonical (execLdf i a d s) := by
  unfold execLdf
  grind [Out.canonical_next, canonical_loadWith, canonical_advance, canonical_setF]

theorem canonical_execClrfull (hs : Canonical s) : Out.Canonical (execClrfull i a s) := by
  unfold execClrfull
  grind [Out.canonical_next, canonical_badAccess, canonical_orNoRoom, → canonical_storeFull, canonical_advance]

theorem canonical_atomic {f : Word → Option Word} (hs : Canonical s) : Out.Canonical (atomic a d f s) := by
  unfold atomic
  grind [canonical_hereCore, canonical_badAccess, canonical_raise, canonical_orNoRoom, → canonical_store, canonical_writeG]

theorem canonical_bumpB (hs : Canonical s) : Canonical (s.bumpB inc r b n) := by
  unfold State.bumpB
  grind [canonical_setB]

theorem canonical_execLdbits (hs : Canonical s) : Out.Canonical (execLdbits sg n w a d s) := by
  unfold execLdbits
  grind [canonical_hereCore, Out.canonical_next, canonical_badAccess, canonical_raise, canonical_advance, canonical_setG, canonical_bumpB]

theorem canonical_execStbits (hs : Canonical s) : Out.Canonical (execStbits n w a d s) := by
  unfold execStbits
  grind [canonical_hereCore, Out.canonical_next, canonical_badAccess, canonical_raise, canonical_orNoRoom, → canonical_store,
    canonical_advance, canonical_bumpB]

/-! ### The vector engine -/

theorem canonical_issueV (hs : Canonical s) : Out.Canonical (issueV c s) := by
  unfold issueV
  grind [Core.Canonical, canonical_hereCore, Out.canonical_next, canonical_setHere, canonical_stall, canonical_advance]

theorem canonical_issueSpan (hs : Canonical s) : Out.Canonical (issueSpan write cause addr i s) := by
  unfold issueSpan
  grind [canonical_badAccess, canonical_issueV]

theorem canonical_issueGather (hs : Canonical s) : Out.Canonical (issueGather write cause p w x g i s) := by
  unfold issueGather
  grind [canonical_badAccess, canonical_issueV]

theorem canonical_execVldbits (hs : Canonical s) : Out.Canonical (execVldbits p n m w b d s) := by
  unfold execVldbits
  grind [canonical_hereCore, Out.canonical_next, canonical_badAccess, canonical_stall, canonical_issueV, canonical_bumpB]

theorem canonical_trapAt_pc (hs : Canonical s) : Canonical (trapAt pc cause detail s) := by
  unfold trapAt
  grind [canonical_trapWith, canonical_setCtx]

theorem canonical_lanesTo {f : Nat → Rounded} (hs : Canonical s) : Canonical (s.lanesTo w p d f) := by
  unfold State.lanesTo
  grind [canonical_setFlags, canonical_setV]

theorem canonical_runInt (hs : Canonical s) : Canonical (runInt k p b a d t s) := by
  unfold runInt
  grind [canonical_lanesTo]

theorem canonical_runICmp (hs : Canonical s) : Canonical (runICmp k p b a d t s) := by
  unfold runICmp
  grind [canonical_setP]

theorem canonical_runFloat (hs : Canonical s) : Canonical (runFloat k F mode p c b a d s) := by
  unfold runFloat
  grind [canonical_lanesTo, canonical_setCtx]

theorem canonical_runFCmp (hs : Canonical s) : Canonical (runFCmp k p b a d t s) := by
  unfold runFCmp
  grind [canonical_foldl, canonical_setFlags, canonical_setP]

theorem canonical_runVcvt (hs : Canonical s) : Canonical (runVcvt mode p t st a d s) := by
  unfold runVcvt
  grind [canonical_foldl, canonical_setFlags, canonical_setV, canonical_setCtx]

theorem canonical_runQuant (hs : Canonical s) : Canonical (runQuant F c a d s) := by
  unfold runQuant
  grind [canonical_foldl, canonical_setFlags, canonical_setV]

theorem canonical_runDequant (hs : Canonical s) : Canonical (runDequant F c a d s) := by
  unfold runDequant
  grind [canonical_foldl, canonical_setFlags, canonical_setV]

theorem canonical_runReduce (hs : Canonical s) : Canonical (runReduce k p t a d s) := by
  unfold runReduce
  grind [canonical_setFlags, canonical_setV]

theorem canonical_topkInto (hs : Canonical s) : Canonical (topkInto F k d cands s) := by
  unfold topkInto
  grind [canonical_setV]

theorem Core.canonical_pokeAll {k : Core} (hk : k.Canonical) : (k.pokeAll l).Canonical := by
  induction l generalizing k with
  | nil => exact hk
  | cons c l ih => exact ih ⟨Mem.set_wf _ _ hk.1, hk.2⟩

theorem canonical_storeAll (hs : Canonical s) : Canonical (s.storeAll pc ws) := by
  unfold State.storeAll
  grind [Core.Canonical, canonical_hereCore, canonical_setHere, canonical_trapAt_pc, → canonical_saveLines, Core.canonical_pokeAll]

theorem canonical_readsOk {f : State → State} (hs : Canonical s) (hf : ∀ t, Canonical t → Canonical (f t)) : Canonical (s.readsOk pc addrs f) := by
  unfold State.readsOk
  grind [canonical_hereCore, canonical_trapAt_pc]

theorem canonical_runVector (hs : Canonical s) : Canonical (runVector c s) := by
  unfold runVector
  grind [canonical_runInt, canonical_lanesTo, canonical_runICmp, canonical_runFloat, canonical_runFCmp, canonical_runVcvt,
    canonical_runQuant, canonical_runDequant, canonical_setG, canonical_setV, canonical_runReduce, canonical_topkInto, canonical_setP,
    canonical_readsOk, canonical_storeAll]

theorem canonical_execVectorCommandExecution (hs : Canonical s) : Out.Canonical (execVectorCommandExecution c s) := by
  unfold execVectorCommandExecution
  grind [Core.Canonical, canonical_core, canonical_hereCore, Out.canonical_next, canonical_setHere, canonical_notEnabled, canonical_atCore,
    canonical_wakeHere, canonical_runVector]

/-! ### The matrix engine -/

theorem Core.canonical_setTile {k : Core} (hk : k.Canonical) : (k.setTile t x).Canonical := by
  unfold Core.setTile
  grind [Core.Canonical]

theorem canonical_tileTrap (hs : Canonical s) : Out.Canonical (tileTrap cause t s) := by
  unfold tileTrap
  grind [canonical_raise]

theorem canonical_issueM (hs : Canonical s) : Out.Canonical (issueM c s) := by
  unfold issueM
  grind [Core.Canonical, canonical_hereCore, Out.canonical_next, canonical_setHere, canonical_stall, canonical_advance]

theorem canonical_onTile {f : BitVec 13 → Out} (hs : Canonical s) (hf : ∀ x, Out.Canonical (f x)) : Out.Canonical (onTile t s f) := by
  unfold onTile
  grind [canonical_hereCore, canonical_tileTrap]

theorem canonical_execTcfg (hs : Canonical s) : Out.Canonical (execTcfg a t s) := by
  unfold execTcfg
  grind [Core.Canonical, canonical_hereCore, Out.canonical_next, canonical_setHere, canonical_tileTrap, canonical_stall,
    Core.canonical_setTile, canonical_issueM]

theorem canonical_execTrel (hs : Canonical s) : Out.Canonical (execTrel t s) := by
  unfold execTrel
  grind [canonical_onTile, canonical_issueM]

theorem canonical_execTzero (hs : Canonical s) : Out.Canonical (execTzero t s) := by
  unfold execTzero
  grind [canonical_onTile, canonical_issueM]

theorem canonical_rowIndex {f : BitVec 13 → Out} (hs : Canonical s) (hf : ∀ x, Out.Canonical (f x)) : Out.Canonical (rowIndex b t s f) := by
  unfold rowIndex
  grind [canonical_onTile, canonical_tileTrap]

theorem canonical_colIndex {f : BitVec 13 → Out} (hs : Canonical s) (hf : ∀ x, Out.Canonical (f x)) : Out.Canonical (colIndex b t s f) := by
  unfold colIndex
  grind [canonical_onTile, canonical_tileTrap]

theorem canonical_execTldrow (hs : Canonical s) : Out.Canonical (execTldrow b v t s) := by
  unfold execTldrow
  grind [canonical_rowIndex, canonical_issueM]

theorem canonical_execTldcol (hs : Canonical s) : Out.Canonical (execTldcol b v t s) := by
  unfold execTldcol
  grind [canonical_colIndex, canonical_issueM]

theorem canonical_execTstrow (hs : Canonical s) : Out.Canonical (execTstrow b v t s) := by
  unfold execTstrow
  grind [canonical_rowIndex, canonical_issueM]

theorem canonical_execTstcol (hs : Canonical s) : Out.Canonical (execTstcol b v t s) := by
  unfold execTstcol
  grind [canonical_colIndex, canonical_issueM]

theorem canonical_tileMove {f : BitVec 13 → Nat → Out} (hs : Canonical s) (hf : ∀ x y, Out.Canonical (f x y)) :
    Out.Canonical (tileMove write b a t s f) := by
  unfold tileMove
  grind [canonical_onTile, canonical_tileTrap, canonical_raise]

theorem canonical_execTload (hs : Canonical s) : Out.Canonical (execTload b a t s) := by
  unfold execTload
  grind [canonical_hereCore, canonical_tileMove, canonical_raise, canonical_issueM]

theorem canonical_execTstore (hs : Canonical s) : Out.Canonical (execTstore b a t s) := by
  unfold execTstore
  grind [canonical_hereCore, Out.canonical_next, canonical_tileMove, canonical_stall, canonical_orNoRoom, → canonical_saveLines,
    canonical_issueM]

theorem canonical_execTwait (hs : Canonical s) : Out.Canonical (execTwait s) := by
  unfold execTwait
  grind [canonical_hereCore, Out.canonical_next, canonical_stall, canonical_advance]

theorem canonical_issueMma (hs : Canonical s) : Out.Canonical (issueMma op i c b a t s) := by
  unfold issueMma
  grind [canonical_hereCore, canonical_tileTrap, canonical_raise, canonical_issueM]

theorem canonical_setTile (hs : Canonical s) : Canonical (s.setTile t v) := by
  unfold State.setTile
  grind [canonical_hereCore, canonical_setHere, Core.canonical_setTile]

theorem Core.canonical_freshTile {k : Core} (hk : k.Canonical) : (k.freshTile t r).Canonical := by
  unfold Core.freshTile
  grind [Core.Canonical]

theorem canonical_renewTile (hs : Canonical s) : Canonical (s.renewTile t v) := by
  unfold State.renewTile
  grind [canonical_hereCore, canonical_setHere, canonical_setTile, Core.canonical_freshTile]

theorem canonical_runMma (hs : Canonical s) : Canonical (runMma op c b a t s) := by
  unfold runMma
  grind [canonical_hereCore, canonical_trapAt_pc, canonical_setFlags, canonical_setTile]

theorem canonical_readTile {f : Tile → State} (hs : Canonical s) (hf : ∀ x, Canonical (f x)) : Canonical (readTile c t rs s f) := by
  unfold readTile
  grind [canonical_hereCore, canonical_trapAt_pc]

theorem canonical_storeRows {k : Core} (hk : k.Canonical) : (storeRows v base pitch l k).Canonical := by
  induction l generalizing k with
  | nil => exact hk
  | cons r l ih => exact ih (Core.canonical_fillWords (Core.canonical_writePad hk))

theorem canonical_runMatrix (hs : Canonical s) : Canonical (runMatrix c s) := by
  unfold runMatrix
  grind [canonical_hereCore, canonical_setHere, canonical_renewTile, Core.canonical_setTile, Core.canonical_freshTile, canonical_setTile,
    canonical_readTile, canonical_setV, canonical_storeRows, canonical_runMma]

theorem canonical_execMatrixCommandExecution (hs : Canonical s) : Out.Canonical (execMatrixCommandExecution c s) := by
  unfold execMatrixCommandExecution
  grind [Core.Canonical, canonical_core, canonical_hereCore, Out.canonical_next, canonical_setHere, canonical_notEnabled, canonical_atCore,
    canonical_wakeHere, canonical_runMatrix]

/-! ### Stations and what leaves a core -/

theorem canonical_setDevice (hs : Canonical s) : Canonical (s.setDevice k a) := by
  unfold State.setDevice
  grind [canonical_setActorAt]

theorem canonical_setSaved (hs : Canonical s) : Canonical (s.setSaved x) := by
  unfold State.setSaved
  grind [canonical_dram, canonical_setBase, Base.canonical_spilledBy]

theorem canonical_setStation (hs : Canonical s) : Canonical (s.setStation n x) := by
  unfold State.setStation
  grind [canonical_iff]

theorem canonical_cutAt (hs : Canonical s) : Canonical (s.cutAt st c) := by
  unfold State.cutAt
  grind [canonical_iff, canonical_setStation]

theorem canonical_countIn (hs : Canonical s) : Canonical (s.countIn st c) := by
  unfold State.countIn
  grind [canonical_cutAt, canonical_setStation]

theorem canonical_post (hs : Canonical s) : Canonical (s.post st v p) := by
  unfold State.post
  grind [canonical_iff, canonical_setStation]

theorem canonical_postMsg (hs : Canonical s) : Canonical (s.postMsg st d m) := by
  unfold State.postMsg
  grind [canonical_post]

theorem canonical_take (hs : Canonical s) : Canonical (s.take n st) := by
  unfold State.take
  grind [canonical_iff, canonical_countIn]

theorem canonical_enqueue (hs : Canonical s) : Canonical (s.enqueue it) := by
  unfold State.enqueue
  grind [Core.Canonical, canonical_hereCore, canonical_setHere, canonical_setCtx]

theorem canonical_queue {k : State → Out} (hs : Canonical s) (hk : ∀ t, Canonical t → Out.Canonical (k t)) : Out.Canonical (s.queue it k) := by
  unfold State.queue
  grind [canonical_hereCore, Out.canonical_next, canonical_raiseOpen, canonical_stall, canonical_enqueue]

theorem Core.canonical_emptyWords {k : Core} (hk : k.Canonical) : (k.emptyWords lo hi).Canonical := by
  unfold Core.emptyWords
  grind [Core.Canonical]

theorem Core.canonical_landed {k : Core} (hk : k.Canonical) : (k.landed h).Canonical := by
  unfold Core.landed
  grind [Core.canonical_emptyWords, Core.canonical_writePad]

theorem canonical_call (hs : Canonical s) : Canonical (s.call k key orEqual) := by
  unfold State.call
  grind [Core.Canonical, canonical_hereCore, canonical_setHere]

theorem canonical_logHeld (e : s.logHeld k r payload = some t) (hs : Canonical s) : Canonical t.1 := by
  unfold State.logHeld at e
  grind [canonical_hereCore, canonical_setHere, canonical_setLogged, Core.canonical_writePad]

theorem canonical_fetchBack (hs : Canonical s) : Canonical (s.fetchBack k) := by
  unfold State.fetchBack
  grind [canonical_foldl, → canonical_logHeld, canonical_setLogged]

theorem canonical_settle (hs : Canonical s) : Canonical (s.settle k) := by
  unfold State.settle
  grind [canonical_hereCore, canonical_dram, canonical_foldl, canonical_setBase, canonical_setHere, canonical_fetchBack,
    canonical_setActorAt, canonical_call, Core.canonical_landed, Core.canonical_foldl]

theorem canonical_settleSaved (hs : Canonical s) : Canonical (s.settleSaved x a) := by
  unfold State.settleSaved
  grind [canonical_dram, canonical_foldl, canonical_setBase, canonical_setSaved]

theorem canonical_onActor {f : CoreId → Nat → Word → State → Actor → State × Actor} (hs : Canonical s)
    (hf : ∀ x y z t v, Canonical t → Canonical (f x y z t v).1) :
    Canonical (s.onActor who f) := by
  unfold State.onActor
  grind [canonical_hereCore, canonical_atCore, canonical_wakeHere, canonical_settle, canonical_setDevice, canonical_settleSaved]

theorem canonical_strand {sa : State × Actor} (hsa : Canonical sa.1) : Canonical (strand st mile x sa).1 := by
  unfold strand
  grind [canonical_iff, canonical_postMsg, canonical_post]

theorem canonical_strandAll (hs : Canonical s) : Canonical (strandAll st mile e s a).1 := by
  unfold strandAll
  grind [canonical_foldl, canonical_strand, canonical_foldl_fst]

theorem canonical_lend (hs : Canonical s) : Canonical (s.lend k) := by
  unfold State.lend
  grind [canonical_setActorAt, canonical_setCtxAt]

theorem canonical_syncDir (hs : Canonical s) : Canonical (s.syncDir c) := by
  unfold State.syncDir
  grind [Core.Canonical, canonical_core, canonical_setCore]

theorem canonical_leaveItem (hs : Canonical s) : Canonical (leaveItem l st m pad badPad it a s).1 := by
  unfold leaveItem
  grind [canonical_iff, Core.Canonical, canonical_core, canonical_setCore, canonical_strand, canonical_count, canonical_postMsg,
    canonical_strandAll, canonical_post]

theorem canonical_release (hs : Canonical s) : Canonical (s.release k it) := by
  unfold State.release
  grind [canonical_hereCore, canonical_leaveItem, canonical_syncDir, canonical_settle, canonical_setDevice, canonical_lend]

theorem canonical_releaseFrom (hs : Canonical s) : Canonical (s.releaseFrom k l).1 := by
  induction l generalizing s with
  | nil => exact hs
  | cons it l ih =>
    unfold State.releaseFrom
    grind [canonical_release]

theorem canonical_releaseAll (hs : Canonical s) : Canonical (s.releaseAll k key items) := by
  unfold State.releaseAll
  grind [Core.Canonical, canonical_hereCore, canonical_foldl, canonical_setHere, canonical_releaseFrom]

/-! ### Pages -/

theorem canonical_setLeaf (hs : Canonical s) : Canonical (s.setLeaf p l) := by
  unfold State.setLeaf
  grind [canonical_iff]

theorem canonical_setCap (hs : Canonical s) : Canonical (s.setCap p c) := by
  unfold State.setCap
  grind [canonical_iff]

theorem canonical_mapPage (hs : Canonical s) : Canonical (s.mapPage p) := by
  unfold State.mapPage
  grind [canonical_iff, canonical_dram, canonical_setBase]

/-! ### Channels at issue -/

theorem canonical_epTrap (hs : Canonical s) : Out.Canonical (epTrap cause e s) := by
  unfold epTrap
  grind [canonical_raise]

theorem canonical_refuse (hs : Canonical s) : Out.Canonical (refuse reason e s) := by
  unfold refuse
  grind [Out.canonical_next, canonical_trapWith]

theorem canonical_withStatus {ok : EpRec → Bool} {k : EpRec → Out} (hs : Canonical s) (hk : ∀ x, Out.Canonical (k x)) :
    Out.Canonical (withStatus ok e s k) := by
  unfold withStatus
  grind [canonical_hereCore, Out.canonical_next, canonical_soundEp, canonical_trapWith, canonical_epTrap]

theorem canonical_withKind {k : View → Out} (hs : Canonical s) (hk : ∀ x, Out.Canonical (k x)) : Out.Canonical (withKind kind e s k) := by
  unfold withKind
  grind [canonical_refuse]

theorem canonical_changeEp {f : Actor → Actor} {k : State → Out} (hs : Canonical s) (hk : ∀ t, Canonical t → Out.Canonical (k t)) :
    Out.Canonical (changeEp e f s k) := by
  unfold changeEp
  grind [canonical_orNoRoom, → canonical_saveEp, canonical_setActor]

theorem canonical_leaveNow (hs : Canonical s) : Canonical (s.leaveNow it) := by
  unfold State.leaveNow
  grind [Core.Canonical, canonical_hereCore, canonical_setHere, canonical_release]

theorem canonical_logOutput (e : s.logOutput m d = some t) (hs : Canonical s) : Canonical t := by
  unfold State.logOutput at e
  grind [→ canonical_log]

theorem canonical_sendMsg {k : State → Out} (hs : Canonical s) (hk : ∀ t, Canonical t → Out.Canonical (k t)) :
    Out.Canonical (sendMsg e cls kind label join deleg payload nx queueAlways s k) := by
  unfold sendMsg
  grind [canonical_hereCore, canonical_raise, canonical_changeEp, canonical_orNoRoom, → canonical_logOutput, canonical_leaveNow,
    canonical_queue]

theorem canonical_sendChecked {data : Nat → Except (BitVec 9 × Word) (List Sys2Proof.Byte)} (hs : Canonical s) :
    Out.Canonical (sendChecked e cls x s data) := by
  unfold sendChecked
  grind [canonical_hereCore, Out.canonical_next, canonical_withKind, canonical_refuse, canonical_raise, canonical_sendMsg,
    canonical_advance]

theorem canonical_execSend (hs : Canonical s) : Out.Canonical (execSend c b a e s) := by
  unfold execSend
  grind [canonical_withStatus, canonical_epTrap, canonical_sendChecked]

theorem canonical_execSendv (hs : Canonical s) : Out.Canonical (execSendv c b v e s) := by
  unfold execSendv
  grind [canonical_withStatus, canonical_epTrap, canonical_sendChecked]

theorem canonical_execSendt (hs : Canonical s) : Out.Canonical (execSendt c b t e s) := by
  unfold execSendt
  grind [canonical_hereCore, Out.canonical_next, canonical_withStatus, canonical_epTrap, canonical_tileTrap, canonical_stall,
    canonical_sendChecked]

theorem canonical_execSelLabel (hs : Canonical s) : Out.Canonical (execSelLabel l e s) := by
  unfold execSelLabel
  grind [canonical_hereCore, Out.canonical_next, canonical_withStatus, canonical_withKind, canonical_refuse, canonical_sendMsg,
    canonical_advance]

theorem canonical_consume (hs : Canonical s) : Canonical (s.consume k h byRecv) := by
  unfold State.consume
  grind [canonical_setActorAt]

theorem canonical_takeMsg {k : State → Out} (hs : Canonical s) (hk : ∀ t, Canonical t → Out.Canonical (k t)) :
    Out.Canonical (takeMsg e h nx s k) := by
  unfold takeMsg
  extract_lets log
  have hlog : ∀ u, log s = some u → Canonical u := by
    intro u hu
    unfold log at hu
    split at hu
    · obtain ⟨x, hx, rfl⟩ := Option.map_eq_some_iff.1 hu
      exact canonical_logHeld hx hs
    · exact Option.some.inj hu ▸ hs
  exact canonical_orNoRoom hlog hs fun t ht => canonical_changeEp ht fun u hu => hk _ (canonical_setCtx (canonical_consume hu))

theorem canonical_withOldest {k : View → Held → Out} (hs : Canonical s) (hk : ∀ x y, Out.Canonical (k x y)) :
    Out.Canonical (withOldest kind e s k) := by
  unfold withOldest
  grind [Out.canonical_next, canonical_withStatus, canonical_withKind, canonical_stall, canonical_refuse, canonical_fetchBack]

theorem canonical_execRecv (hs : Canonical s) : Out.Canonical (execRecv b a e s) := by
  unfold execRecv
  grind [canonical_hereCore, Out.canonical_next, canonical_withOldest, canonical_refuse, canonical_takeMsg, canonical_advance,
    canonical_setG]

theorem canonical_execOffer (hs : Canonical s) : Out.Canonical (execOffer a e s) := by
  unfold execOffer
  grind [canonical_hereCore, Out.canonical_next, canonical_withOldest, canonical_refuse, canonical_takeMsg, canonical_advance,
    canonical_setG]

theorem canonical_execProbe (hs : Canonical s) : Out.Canonical (execProbe a e s) := by
  unfold execProbe
  grind [canonical_withStatus, canonical_writeG]

theorem canonical_withItin {k : BitVec 7 → Out} (hs : Canonical s) (hk : ∀ x, Out.Canonical (k x)) : Out.Canonical (withItin x e s k) := by
  unfold withItin
  grind [canonical_hereCore, Out.canonical_next, canonical_epTrap, canonical_trapWith]

theorem canonical_queueRequest {it : Key → VrtRule → Item} {f : Actor → Actor} (hs : Canonical s) : Out.Canonical (queueRequest e it f s) := by
  unfold queueRequest
  grind [Out.canonical_next, canonical_raise, canonical_queue, canonical_changeEp, canonical_syncDir, canonical_advance]

theorem canonical_execConnect (hs : Canonical s) : Out.Canonical (execConnect c b a e s) := by
  unfold execConnect
  grind [canonical_withStatus, canonical_epTrap, canonical_withItin, canonical_queueRequest]

theorem canonical_execAccept (hs : Canonical s) : Out.Canonical (execAccept c b a e s) := by
  unfold execAccept
  grind [Out.canonical_next, canonical_withStatus, canonical_epTrap, canonical_withItin, canonical_queue, canonical_advance]

theorem canonical_execSpawn (hs : Canonical s) : Out.Canonical (execSpawn c b a e s) := by
  unfold execSpawn
  grind [canonical_withStatus, canonical_epTrap, canonical_withItin, canonical_queueRequest]

theorem canonical_execClose (hs : Canonical s) : Out.Canonical (execClose k e s) := by
  unfold execClose
  grind [Out.canonical_next, canonical_withStatus, canonical_changeEp, canonical_advance, canonical_queue]

theorem canonical_execSendep (hs : Canonical s) : Out.Canonical (execSendep c m e s) := by
  unfold execSendep
  grind [canonical_hereCore, Out.canonical_next, canonical_withStatus, canonical_soundEp, canonical_epTrap, canonical_withKind,
    canonical_refuse, canonical_raise, canonical_sendMsg, canonical_changeEp, canonical_advance]

theorem canonical_execRecvep (hs : Canonical s) : Out.Canonical (execRecvep m e s) := by
  unfold execRecvep
  refine canonical_withOldest hs fun v h => ?_
  extract_lets r w
  split
  · exact canonical_refuse hs
  refine canonical_soundEp hs ?_
  grind [canonical_epTrap, canonical_takeMsg, canonical_queue, canonical_changeEp, canonical_trapWith, canonical_advance, canonical_syncDir,
      Out.canonical_next]

/-! ### Memory requests at issue -/

theorem canonical_issueRequest {it : Key → VrtRule → Item} (hs : Canonical s) : Out.Canonical (issueRequest limit addr rd pages it s) := by
  unfold issueRequest
  grind [canonical_hereCore, Out.canonical_next, canonical_soundEp, canonical_raise, canonical_setCtx, canonical_stall, canonical_changeEp,
    canonical_advance, canonical_leaveNow, canonical_queue]

theorem canonical_readWrite (hs : Canonical s) : Out.Canonical (readWrite write c b a s) := by
  unfold readWrite
  grind [canonical_hereCore, canonical_raise, canonical_issueRequest]

theorem canonical_execMamo (hs : Canonical s) : Out.Canonical (execMamo c b a s) := by
  unfold execMamo
  grind [canonical_raise, canonical_issueRequest]

theorem canonical_copyCommand (hs : Canonical s) : Out.Canonical (copyCommand op c b a s) := by
  unfold copyCommand
  grind [canonical_raise, canonical_issueRequest]

theorem canonical_execCpwait (hs : Canonical s) : Out.Canonical (execCpwait s) := by
  unfold execCpwait
  grind [Out.canonical_next, canonical_stall, canonical_advance]

/-! ### The system instructions -/

theorem canonical_setSysreg {f : Word → Word} (hs : Canonical s) : Canonical (s.setSysreg n f) := by
  unfold State.setSysreg
  grind [canonical_setCtx]

theorem canonical_sysWrite {f : Word → Word} (hs : Canonical s) : Out.Canonical (sysWrite n v clear f s) := by
  unfold sysWrite
  grind [Out.canonical_next, canonical_raise, canonical_advance, canonical_setActor, canonical_setSysreg]

theorem canonical_execVset (hs : Canonical s) : Out.Canonical (execVset a s) := by
  unfold execVset
  grind [Out.canonical_next, canonical_advance, canonical_setCtx]

theorem canonical_execVmile (hs : Canonical s) : Out.Canonical (execVmile d s) := by
  unfold execVmile
  grind [canonical_hereCore, canonical_writeG]

theorem canonical_execPrio (hs : Canonical s) : Out.Canonical (execPrio a s) := by
  unfold execPrio
  grind [Out.canonical_next, canonical_raise, canonical_advance, canonical_setCtx]

theorem canonical_execBudget (hs : Canonical s) : Out.Canonical (execBudget a s) := by
  unfold execBudget
  grind [Out.canonical_next, canonical_raise, canonical_advance, canonical_setCtx]

theorem canonical_saveJreg (e : s.saveJreg k = some t) (hs : Canonical s) : Canonical t := by
  unfold State.saveJreg at e
  grind [→ canonical_log]

theorem canonical_storeWord {k : State → Out} (hs : Canonical s) (hk : ∀ t, Canonical t → Out.Canonical (k t)) :
    Out.Canonical (storeWord w v s k) := by
  unfold storeWord
  grind [canonical_orNoRoom, → canonical_store]

theorem canonical_disarmCounter (hs : Canonical s) : Out.Canonical (disarm w s) := by
  unfold disarm
  grind [canonical_hereCore, Out.canonical_next, canonical_raise, canonical_orNoRoom, → canonical_saveJreg, canonical_storeWord,
    canonical_advance, canonical_setActor]

theorem canonical_execJarm (hs : Canonical s) : Out.Canonical (execJarm c a d s) := by
  unfold execJarm
  grind [canonical_hereCore, Out.canonical_next, canonical_badAccess, canonical_disarmCounter, canonical_storeWord, canonical_advance,
    canonical_setActor, canonical_orNoRoom, → canonical_saveJreg, canonical_raise]

theorem canonical_execJdis (hs : Canonical s) : Out.Canonical (execJdis a s) := by
  unfold execJdis
  grind [canonical_badAccess, canonical_disarmCounter]

theorem canonical_execCommit (hs : Canonical s) : Out.Canonical (execCommit s) := by
  unfold execCommit
  grind [Out.canonical_next, canonical_advance, canonical_setCtx, canonical_setLogged, canonical_releaseAll]

theorem canonical_reinject {k : State → Out} (hs : Canonical s) (hk : ∀ t, Canonical t → Out.Canonical (k t)) : Out.Canonical (reinject s k) := by
  unfold reinject
  grind [canonical_hereCore, canonical_raise, canonical_queue]

theorem canonical_finish (hs : Canonical s) : Out.Canonical (finish n retire s) := by
  unfold finish
  grind [Out.canonical_next, canonical_epTrap, canonical_reinject, canonical_advance, canonical_setCtx]

theorem canonical_execCapgive (hs : Canonical s) : Out.Canonical (execCapgive a d s) := by
  unfold execCapgive
  grind [canonical_raise, canonical_issueRequest]

theorem canonical_execCapchk (hs : Canonical s) : Out.Canonical (execCapchk a d s) := by
  unfold execCapchk
  grind [Out.canonical_next, canonical_raise, canonical_advance, canonical_post, canonical_setCtx]

theorem canonical_fenceOp (hs : Canonical s) : Out.Canonical (fenceOp kind scope s) := by
  unfold fenceOp
  grind [Out.canonical_next, canonical_setCtx, canonical_advance, canonical_enqueue, canonical_releaseAll]

theorem canonical_execTrap (hs : Canonical s) : Out.Canonical (execTrap d s) := by
  unfold execTrap
  grind [Out.canonical_next, canonical_advance, canonical_setCtx, canonical_raise]

theorem canonical_trip (hs : Canonical s) : Canonical (s.trip p) := by
  unfold State.trip
  grind [canonical_iff]

theorem canonical_execHalt (hs : Canonical s) : Out.Canonical (execHalt s) := by
  unfold execHalt
  grind [canonical_hereCore, Out.canonical_next, canonical_advance, canonical_trip, canonical_raise]

/-! ### Closes, kills and links -/

theorem canonical_dies (hs : Canonical s) : Canonical (s.dies st gk who) := by
  unfold State.dies
  grind [canonical_iff, canonical_post]

theorem canonical_shut (hs : Canonical s) : Canonical (shut st mile e cause cp state v prio s a).1 := by
  unfold shut
  grind [canonical_dies, canonical_strandAll, canonical_postMsg]

theorem canonical_machineClose (hs : Canonical s) : Canonical (machineClose c st mile cause e s a).1 := by
  unfold machineClose
  grind [canonical_shut]

theorem canonical_closeAll {which : EpRec → Bool} (hs : Canonical s) : Canonical (closeAll c st mile cause which s a).1 := by
  unfold closeAll
  grind [canonical_foldl, canonical_machineClose, canonical_foldl_fst]

theorem Core.canonical_vacate {k : Core} (hk : k.Canonical) : (k.vacate n).Canonical := by
  unfold Core.vacate
  grind [Core.Canonical]

theorem canonical_dropWaiting (hs : Canonical s) : Canonical (s.dropWaiting who) := by
  unfold State.dropWaiting
  grind [canonical_dram, canonical_foldl, canonical_setBase, canonical_count]

theorem canonical_reap (hs : Canonical s) : Canonical (s.reap k) := by
  unfold State.reap
  grind [canonical_hereCore, canonical_dram, canonical_setBase, canonical_setHere, canonical_setActorAt, canonical_dropWaiting,
    canonical_syncDir, Core.canonical_vacate]

theorem canonical_killWaiting (hs : Canonical s) : Canonical (s.killWaiting st who q) := by
  unfold State.killWaiting
  grind [canonical_dram, canonical_foldl, canonical_setBase, canonical_post]

theorem canonical_killChannels (hs : Canonical s) : Canonical (killChannels c st mile cause s a).1 := by
  unfold killChannels
  grind [canonical_iff, canonical_foldl, canonical_dropWaiting, canonical_killWaiting, canonical_strand, canonical_closeAll,
    canonical_machineClose, canonical_foldl_fst]

theorem canonical_killAt (hs : Canonical s) : Canonical (s.killAt k cause) := by
  unfold State.killAt
  grind [canonical_hereCore, canonical_dram, canonical_setBase, canonical_setHere, canonical_killChannels, canonical_syncDir,
    Core.canonical_vacate]

theorem canonical_divert (hs : Canonical s) : Canonical (s.divert m trec) := by
  unfold State.divert
  grind [canonical_postMsg, canonical_count]

theorem canonical_setPort (hs : Canonical s) : Canonical (s.setPort l p) := by
  unfold State.setPort
  grind [canonical_iff]

theorem canonical_loseMsg (hs : Canonical s) : Canonical (s.loseMsg st m) := by
  unfold State.loseMsg
  grind [canonical_count, canonical_strand]

theorem canonical_losePacket (hs : Canonical s) : Canonical (s.losePacket st x2) := by
  unfold State.losePacket
  grind [canonical_loseMsg]

theorem canonical_loseLink (hs : Canonical s) : Canonical (s.loseLink l) := by
  unfold State.loseLink
  grind [canonical_hereCore, canonical_foldl, canonical_atCore, canonical_closeAll, canonical_setDevice, canonical_setSaved]

theorem canonical_putOut (e : s.putOut l v pkt = some t) (hs : Canonical s) : Canonical t := by
  unfold State.putOut at e
  grind [canonical_iff, canonical_loseLink, canonical_losePacket, canonical_setPort, canonical_setStation]

theorem canonical_toLink (e : s.toLink n pkt = some t) (hs : Canonical s) : Canonical t := by
  unfold State.toLink at e
  grind [→ canonical_putOut, canonical_take]

theorem canonical_onLink {r : Option State} (hr : ∀ t, r = some t → Canonical t) : Out.Canonical (onLink name r) := by
  unfold onLink
  grind [Out.canonical_next, canonical_notEnabled]

/-! ### Arrivals -/

theorem canonical_discardAt (hs : Canonical s) : Canonical (s.discardAt k m) := by
  unfold State.discardAt
  grind [canonical_hereCore, canonical_strand, canonical_count, canonical_setActorAt]

theorem canonical_hold (hs : Canonical s) : Canonical (s.hold k h) := by
  unfold State.hold
  grind [canonical_hereCore, canonical_setHere, canonical_setDevice, canonical_settle, Core.canonical_landed, canonical_call]

theorem canonical_closeDone (hs : Canonical s) : Canonical (s.closeDone k e) := by
  unfold State.closeDone
  grind [canonical_syncDir, canonical_reap, canonical_setDevice]

theorem canonical_antiFor (e : s.antiFor k m = some t) (hs : Canonical s) : Canonical t := by
  unfold State.antiFor at e
  grind [Core.Canonical, canonical_hereCore, canonical_dram, canonical_setBase, canonical_setHere, canonical_setActorAt]

theorem canonical_waitHome (hs : Canonical s) : Canonical (s.waitHome who e m) := by
  unfold State.waitHome
  grind [canonical_dram, canonical_setBase]

theorem canonical_forward (hs : Canonical s) : Canonical (s.forward st v m) := by
  unfold State.forward
  grind [canonical_postMsg]

theorem canonical_closeHere (hs : Canonical s) : Canonical (s.closeHere k e cause) := by
  unfold State.closeHere
  grind [canonical_hereCore, canonical_machineClose, canonical_setDevice]

theorem canonical_deliver (hs : Canonical s) : Canonical (s.deliver k e fwd m) := by
  unfold State.deliver
  have h1 : Canonical { s with tick := s.tick + 1 } := hs
  dsimp only
  generalize { s with tick := s.tick + 1 } = s at *
  split
  · grind [canonical_antiFor, canonical_count]
  split
  · exact canonical_reap (canonical_discardAt h1)
  split
  · exact canonical_closeHere (canonical_discardAt h1)
  split
  case h_7 => 
    split
    · split
      next t addr hlog =>
        have ht := canonical_logHeld hlog h1
        grind [canonical_setActorAt, canonical_call, canonical_wakeHere]
      next => exact canonical_discardAt h1
    · exact canonical_setActorAt (canonical_closeHere (canonical_discardAt h1))
  all_goals grind [canonical_discardAt, canonical_forward, canonical_waitHome, canonical_settle, canonical_setActorAt, canonical_closeDone,
      canonical_wakeHere, canonical_hold]

theorem canonical_deliverSaved (hs : Canonical s) : Canonical (s.deliverSaved x e fwd m) := by
  unfold State.deliverSaved
  grind [canonical_iff, canonical_dram, canonical_setBase, canonical_strand, canonical_count, canonical_setSaved, canonical_forward,
    canonical_waitHome, canonical_settleSaved, Mem.setBytes_wf, canonical_machineClose]

theorem canonical_passOn (hs : Canonical s) : Canonical (s.passOn st m atHome) := by
  unfold State.passOn
  grind [canonical_postMsg, canonical_loseMsg]

theorem canonical_chanClose (hs : Canonical s) : Canonical (s.chanClose n c) := by
  unfold State.chanClose
  grind [canonical_iff, canonical_post]

theorem canonical_dropTake (hs : Canonical s) : Canonical (s.dropTake k) := by
  unfold State.dropTake
  grind [canonical_iff, canonicalBases_map]

theorem canonical_setCkSlot (hs : Canonical s) : Canonical (s.setCkSlot i seq x) := by
  unfold State.setCkSlot
  grind [canonical_iff]

theorem canonical_stopTake (hs : Canonical s) : Canonical (s.stopTake k) := by
  unfold State.stopTake
  grind [canonical_iff, canonical_dropTake, canonical_setCkSlot]

theorem canonical_depotTake (hs : Canonical s) : Canonical (depotTake ch m s) := by
  unfold depotTake
  grind [canonical_iff, canonical_foldl, canonical_count, canonical_stopTake, canonical_chanClose]

theorem canonical_execMessageArrival (hs : Canonical s) : Out.Canonical (execMessageArrival n s) := by
  unfold execMessageArrival
  grind [canonical_core, Out.canonical_next, canonical_notEnabled, canonical_loseMsg, canonical_take, canonical_atCore, canonical_deliver,
    canonical_passOn, canonical_onLink, → canonical_toLink, canonical_deliverSaved, canonical_depotTake]

theorem canonical_storeAnti (hs : Canonical s) : Canonical (s.storeAnti k h) := by
  unfold State.storeAnti
  grind [Core.Canonical, canonical_hereCore, canonical_dram, canonical_setBase, canonical_setHere, → canonical_log]

theorem canonical_antiAt (hs : Canonical s) : Canonical (s.antiAt k e m) := by
  unfold State.antiAt
  grind [canonical_settle, canonical_count, canonical_setActorAt, canonical_call, canonical_storeAnti, canonical_forward]

theorem canonical_antiSaved (hs : Canonical s) : Canonical (s.antiSaved x e m) := by
  unfold State.antiSaved
  grind [canonical_count, canonical_settleSaved, canonical_forward, canonical_setSaved]

theorem canonical_execAntiMessage (hs : Canonical s) : Out.Canonical (execAntiMessage n s) := by
  unfold execAntiMessage
  grind [canonical_iff, Out.canonical_next, canonical_foldl, canonical_notEnabled, canonical_count, canonical_take, canonical_atCore,
    canonical_antiAt, canonical_antiSaved, canonical_onLink, → canonical_toLink, canonical_dropTake]

theorem canonical_control {f : Actor → Actor} {g : State → BitVec 4 → State} (hs : Canonical s) (hg : ∀ t y, Canonical t → Canonical (g t y)) :
    Canonical (s.control who f g) := by
  unfold State.control
  grind [canonical_atCore, canonical_wakeHere, canonical_setDevice, canonical_setSaved]

theorem canonical_execAcknowledgement (hs : Canonical s) : Out.Canonical (execAcknowledgement n s) := by
  unfold execAcknowledgement
  grind [canonical_iff, Out.canonical_next, canonical_take, canonical_onLink, → canonical_toLink, canonical_notEnabled, canonical_control,
    canonical_syncDir, canonical_reap, canonicalHosts_map]

theorem Actor.canonical_forwards {a : Actor} (hs : Canonical s) : Canonical (a.forwards st e v s).1 := by
  unfold Actor.forwards
  grind [canonical_foldl, canonical_forward]

theorem canonical_execRelocationNotice (hs : Canonical s) : Out.Canonical (execRelocationNotice n s) := by
  unfold execRelocationNotice
  grind (splits := 24) [canonical_iff, Out.canonical_next, canonical_notEnabled, canonical_onLink, → canonical_toLink, canonical_take, canonical_post,
    canonical_control, canonicalHosts_map]

theorem canonical_execForwardingRequest (hs : Canonical s) : Out.Canonical (execForwardingRequest n s) := by
  unfold execForwardingRequest
  grind [Out.canonical_next, canonical_onLink, → canonical_toLink, canonical_notEnabled, canonical_take, canonical_atCore,
    Actor.canonical_forwards, canonical_settle, canonical_setDevice, canonical_settleSaved]

theorem canonical_execForwardingEndMarker (hs : Canonical s) : Out.Canonical (execForwardingEndMarker n s) := by
  unfold execForwardingEndMarker
  grind [Out.canonical_next, canonical_notEnabled, canonical_onLink, → canonical_toLink, canonical_take, canonical_control,
    canonical_syncDir, canonical_post, canonical_settle]

/-! ### Activations -/

theorem canonical_ackClose (hs : Canonical s) : Canonical (s.ackClose k e) := by
  unfold State.ackClose
  grind [canonical_post]

theorem canonical_logEach (e : s.logEach k l = some t) (hs : Canonical s) : Canonical t := by
  induction l generalizing s with
  | nil => exact Option.some.inj e ▸ hs
  | cons r l ih =>
    unfold State.logEach at e
    dsimp only at e
    split at e
    next u hu =>
      refine ih e ?_
      split at hu
      · obtain ⟨x, hx, rfl⟩ := Option.map_eq_some_iff.1 hu
        exact canonical_logHeld hx hs
      · exact canonical_log hu hs
    next => cases e

theorem canonical_logStart (hs : Canonical s) : Canonical (s.logStart k h cls join).1 := by
  unfold State.logStart
  grind [→ canonical_logEach, canonical_setLogged]

theorem canonical_begin (hs : Canonical s) : Canonical (s.begin x k h cls r join jstat) := by
  unfold State.begin
  grind [canonical_iff, Core.Canonical, canonical_hereCore, canonical_setHere, canonical_logStart, canonical_setActorAt,
    Core.canonical_writePad, canonical_setCtxAt, canonical_ackClose, canonical_trapWith, Core.canonical_foldl]

theorem canonical_turnAway (hs : Canonical s) : Canonical (s.turnAway k h cause) := by
  unfold State.turnAway
  grind [canonical_iff, canonical_setActorAt, canonical_settle, canonical_count, canonical_divert]

theorem canonical_trapEnd (hs : Canonical s) : Canonical (s.trapEnd k trec close trigger undone v prio) := by
  unfold State.trapEnd
  grind [canonical_hereCore, canonical_setHere, canonical_setActorAt, Core.canonical_writePad, canonical_shut, canonical_divert,
    canonical_count, canonical_trip]

theorem canonical_trapAt (hs : Canonical s) : Canonical (s.trapAt k h trec close) := by
  unfold State.trapAt
  grind [canonical_hereCore, canonical_logStart, canonical_settle, canonical_setActorAt, canonical_trapEnd]

theorem canonical_refuseAt (hs : Canonical s) : Canonical (s.refuseAt k h cause) := by
  unfold State.refuseAt
  grind [canonical_iff, canonical_trapAt]

theorem canonical_give (hs : Canonical s) : Canonical (s.give x k h) := by
  unfold State.give
  grind [Core.Canonical, canonical_hereCore, canonical_setHere, canonical_refuseAt, canonical_begin, canonical_ackClose,
    canonical_setActorAt, canonical_syncDir, canonical_turnAway]

theorem canonical_execActivationDispatch (hs : Canonical s) : Out.Canonical (execActivationDispatch c s) := by
  unfold execActivationDispatch
  grind [Out.canonical_next, canonical_atOut, canonical_notEnabled, canonical_give]

theorem canonical_execCloseNotice (hs : Canonical s) : Out.Canonical (execCloseNotice c k e s) := by
  unfold execCloseNotice
  grind [Out.canonical_next, canonical_atOut, canonical_give, canonical_notEnabled]

theorem canonical_disarm (hs : Canonical s) : Canonical (s.disarm k) := by
  unfold State.disarm
  refine canonical_setActorAt ?_
  split
  · cases hl : s.log k (.jreg (s.actorAt k).jreg) with
    | none => exact canonical_setLogged hs
    | some t => exact canonical_log hl hs
  · exact hs

theorem canonical_execCountedMessage (hs : Canonical s) : Out.Canonical (execCountedMessage c k s) := by
  unfold execCountedMessage
  extract_lets no
  refine canonical_atOut hs fun t ht => ?_
  extract_lets a w old
  have htick : Canonical { t with tick := t.tick + 1 } := ht
  have hbegin : ∀ x h cls r join jstat, Canonical (t.begin x k h cls r join jstat) := fun _ _ _ _ _ _ => canonical_begin ht
  split
  case h_1 => exact canonical_notEnabled
  case h_2 h _ =>
    split
    · exact canonical_notEnabled
    split
    · exact Out.canonical_next.2 (canonical_trapAt htick)
    split
    · exact Out.canonical_next.2 (canonical_disarm ht)
    split
    · exact Out.canonical_next.2 (canonical_refuseAt ht)
    split
    case h_1 => exact Out.canonical_next.2 (canonical_refuseAt ht)
    case h_2 q =>
      dsimp only
      split
      · split
        case h_2 => exact canonical_notEnabled
        split
        case isFalse => exact canonical_notEnabled
        split
        · exact Out.canonical_next.2 (canonical_begin ht)
        · have hpad {m : Core} (hm : m.Canonical) {d : Option Nat} {x : Word} : ({ m.writePad (8 * w) (leBytes x.toNat 8) with dispatched := d } :
            Core).Canonical :=
            Core.canonical_writePad hm
          have hset {b : Actor} : Canonical (t.setActorAt k b) := canonical_setActorAt ht
          refine Out.canonical_next.2 (canonical_syncDir (canonical_turnAway ?_))
          split
          · exact canonical_ackClose (canonical_setHere hset (hpad (canonical_hereCore hset)))
          · exact canonical_setHere hset (hpad (canonical_hereCore hset))
      · have hlogged : ∀ u, (if a.disc = .timed then t.logEach k (t.startRecords k h h.msg.hdr.cls true) else some t) = some u → Canonical u := by
          grind [→ canonical_logEach]
        generalize (if a.disc = .timed then t.logEach k (t.startRecords k h h.msg.hdr.cls true) else some t) = logged at *
        cases logged with
        | none => exact Out.canonical_next.2 (canonical_trapAt htick)
        | some u =>
          have hu := hlogged u rfl
          grind [Out.canonical_next, canonical_setActorAt, canonical_setHere, canonical_hereCore, Core.canonical_writePad, canonical_ackClose,
            canonical_settle, canonical_syncDir]

theorem canonical_undo (hs : Canonical s) : Canonical (s.undo k r) := by
  unfold State.undo
  grind [Core.Canonical, canonical_hereCore, canonical_foldl, canonical_setHere, Core.canonical_writePad, Core.canonical_setFull,
    canonical_setActorAt, canonical_postMsg, Core.canonical_foldl]

theorem canonical_scatter (hs : Canonical s) : Canonical (s.scatter k) := by
  unfold State.scatter
  grind [canonical_iff, Core.Canonical, canonical_hereCore, canonical_foldl, canonical_setHere, Mem.forget_wf, Core.canonical_foldl]

theorem canonical_undoNewest (hs : Canonical s) : Canonical (s.undoNewest k low all) := by
  unfold State.undoNewest
  grind [canonical_foldl, canonical_undo, canonical_setActorAt]

theorem canonical_dropRequests (hs : Canonical s) : Canonical (s.dropRequests k low items) := by
  unfold State.dropRequests
  grind [canonical_setActorAt]

theorem canonical_undoEnded (hs : Canonical s) : Canonical (State.undoEnded k low undone n s) := by
  induction n generalizing s with
  | zero => exact hs
  | succ n ih =>
    unfold State.undoEnded
    grind [canonical_undoNewest, canonical_setActorAt]

theorem canonical_meetAntis (hs : Canonical s) : Canonical (s.meetAntis k) := by
  unfold State.meetAntis
  grind [canonical_foldl, → canonical_antiFor, canonical_count, canonical_setActorAt]

theorem canonical_rollback (hs : Canonical s) : Canonical (s.rollback k) := by
  unfold State.rollback
  grind [Core.Canonical, canonical_hereCore, canonical_setHere, canonical_killAt, canonical_undoEnded, canonical_count, canonical_scatter,
    canonical_dropRequests, canonical_fetchBack, canonical_setLogged, canonical_syncDir, canonical_wakeHere, canonical_settle,
    canonical_meetAntis]

theorem canonical_execRollback (hs : Canonical s) : Out.Canonical (execRollback c k s) := by
  unfold execRollback
  grind [canonical_hereCore, Out.canonical_next, canonical_atOut, canonical_rollback, canonical_notEnabled]

theorem canonical_freeContext (hs : Canonical s) : Canonical (s.freeContext x) := by
  unfold State.freeContext
  grind [canonical_hereCore, canonical_setHere, Core.canonical_stopEngines, canonical_setCtxAt]

theorem canonical_conclude (hs : Canonical s) : Canonical (s.conclude x retire pending) := by
  unfold State.conclude
  grind [canonical_fetchBack, canonical_setLogged, canonical_freeContext, canonical_syncDir, canonical_wakeHere, canonical_reap,
    canonical_settle]

theorem canonical_execDoneRelease (hs : Canonical s) : Out.Canonical (execDoneRelease c x s) := by
  unfold execDoneRelease
  grind [canonical_hereCore, Out.canonical_next, canonical_notEnabled, canonical_atOut, canonical_releaseFrom, canonical_setCtx,
    canonical_conclude]

theorem Core.canonical_relanded {k : Core} (hk : k.Canonical) : (k.relanded h).Canonical := by
  unfold Core.relanded
  grind [Core.canonical_landed]

theorem canonical_trapNow (hs : Canonical s) : Canonical (s.trapNow x trec close) := by
  unfold State.trapNow
  grind [Core.Canonical, canonical_hereCore, canonical_foldl, canonical_setHere, canonical_undoNewest, canonical_undo,
    canonical_setActorAt, Core.canonical_relanded, canonical_dropRequests, canonical_scatter, canonical_trapEnd, canonical_setLogged,
    canonical_freeContext, canonical_syncDir, canonical_wakeHere, canonical_reap, canonical_settle, Core.canonical_foldl]

theorem canonical_execTrapSequence (hs : Canonical s) : Out.Canonical (execTrapSequence c x s) := by
  unfold execTrapSequence
  grind [Out.canonical_next, canonical_atOut, canonical_notEnabled, canonical_killAt, canonical_trapNow, canonical_conclude]

theorem canonical_trapHeld (hs : Canonical s) : Canonical (s.trapHeld k p key) := by
  unfold State.trapHeld
  grind [Core.Canonical, canonical_hereCore, canonical_setHere, canonical_undoNewest, canonical_scatter, canonical_dropRequests,
    canonical_setActorAt, canonical_trapEnd, canonical_fetchBack, canonical_setLogged, canonical_killAt, canonical_syncDir,
    canonical_wakeHere, canonical_reap, canonical_settle]

theorem canonical_execBudgetExhausted (hs : Canonical s) : Out.Canonical (execBudgetExhausted c x s) := by
  unfold execBudgetExhausted
  grind [canonical_hereCore, canonical_atOut, canonical_notEnabled, canonical_raise]

theorem canonical_killSaved (hs : Canonical s) : Canonical (s.killSaved x cause) := by
  unfold State.killSaved
  grind [canonical_dram, canonical_setBase, canonical_killChannels, canonical_syncDir]

theorem canonical_execKill (hs : Canonical s) : Out.Canonical (execKill t i s) := by
  unfold execKill
  grind [canonical_iff, canonical_hereCore, Out.canonical_next, canonical_atOut, canonical_notEnabled, canonical_killAt,
    canonical_trapWith, canonical_killSaved]

theorem canonical_execPriorityLoan (hs : Canonical s) : Out.Canonical (execPriorityLoan c k s) := by
  unfold execPriorityLoan
  grind [Out.canonical_next, canonical_atOut, canonical_notEnabled, canonical_lend]

/-! ### The memory peers -/

theorem canonical_fillLine (hs : Canonical s) : Canonical (s.fillLine q ln) := by
  unfold State.fillLine
  grind [canonical_dram, canonical_setBase]

theorem canonical_readGlobal (hs : Canonical s) : Canonical (s.readGlobal q va n).2 := by
  unfold State.readGlobal
  grind [canonical_foldl, canonical_fillLine]

theorem canonical_answer (hs : Canonical s) : Canonical (s.answer st r status payload va) := by
  unfold State.answer
  grind [canonical_postMsg]

theorem canonical_freeE15 (hs : Canonical s) : Canonical (s.freeE15 who seq) := by
  unfold State.freeE15
  grind [canonical_control, canonical_settle]

theorem canonical_snapWrite (hs : Canonical s) : Canonical (s.snapWrite p v off bytes) := by
  unfold State.snapWrite
  grind [canonical_dram, canonical_foldl, canonical_setBase, Mem.setBytes_wf, canonical_setLeaf]

theorem canonical_writeHome (hs : Canonical s) : Canonical (s.writeHome v va bytes) := by
  unfold State.writeHome
  grind [canonical_dram, canonical_setBase, canonical_snapWrite, canonical_setLeaf, Mem.setBytes_wf]

theorem canonical_invalidate (hs : Canonical s) : Canonical (s.invalidate q held ls who seq) := by
  unfold State.invalidate
  grind [canonical_foldl, canonical_post]

theorem canonical_writeWord (hs : Canonical s) : Canonical (s.writeWord r).1 := by
  unfold State.writeWord
  grind [canonical_invalidate, canonical_writeHome]

theorem canonical_acked (hs : Canonical s) : Canonical (s.acked r free) := by
  unfold State.acked
  grind [canonical_post]

theorem canonical_unwrite (hs : Canonical s) : Canonical (s.unwrite r) := by
  unfold State.unwrite
  grind [canonical_foldl, canonical_post]

theorem canonical_faultNotice (hs : Canonical s) : Canonical (s.faultNotice p tenant noFrame) := by
  unfold State.faultNotice
  grind [canonical_dram, canonical_setBase, canonical_postMsg]

theorem canonical_noFrame (hs : Canonical s) : Canonical (s.noFrame h) := by
  unfold State.noFrame
  grind [canonical_foldl, canonical_faultNotice]

theorem canonical_park (hs : Canonical s) : Canonical (s.park p r) := by
  unfold State.park
  grind [canonical_dram, canonical_setBase, canonical_faultNotice, canonical_noFrame]

theorem canonical_readWord (hs : Canonical s) : Canonical (s.readWord st r).1 := by
  unfold State.readWord
  grind [canonical_answer, canonical_readGlobal]

theorem canonical_putRest (hs : Canonical s) : Canonical (s.putRest r segs status flags msg) := by
  unfold State.putRest
  grind [canonical_post]

theorem canonical_perform (hs : Canonical s) : Canonical (s.perform r).1 := by
  unfold State.perform
  grind [canonical_readWord, canonical_unwrite, canonical_answer, canonical_writeWord, canonical_acked, canonical_writeHome,
    canonical_putRest]

theorem canonical_failCopy (hs : Canonical s) : Canonical (s.failCopy c cause detail) := by
  unfold State.failCopy
  grind [Core.Canonical, canonical_core, canonical_setCore, canonical_freeE15, canonical_atCore, canonical_wakeHere, canonical_trapWith]

theorem canonical_fail (hs : Canonical s) : Canonical (s.fail r cause copyCause) := by
  unfold State.fail
  grind [canonical_unwrite, canonical_post, canonical_failCopy, canonical_answer]

theorem canonical_serve (hs : Canonical s) : Canonical (s.serve r).1 := by
  unfold State.serve
  grind [canonical_invalidate, canonical_perform, canonical_atCore, canonical_wakeHere]

theorem canonical_resolve (hs : Canonical s) : Canonical (s.resolve p r) := by
  unfold State.resolve
  grind [canonical_fail, canonical_park]

theorem canonical_unpark (hs : Canonical s) : Canonical (s.unpark p) := by
  unfold State.unpark
  grind [canonical_dram, canonical_foldl, canonical_setBase, canonical_fail]

theorem canonical_translate (hs : Canonical s) : Canonical (s.translate p r) := by
  unfold State.translate
  grind [canonical_dram, canonical_setBase, canonical_resolve]

theorem canonical_stepAt {f : State → State × Option MemReq} (hs : Canonical s) (hf : ∀ t, Canonical t → Canonical (f t).1) :
    Canonical (s.stepAt n st f) := by
  unfold State.stepAt
  grind [canonical_iff, canonical_take]

theorem canonical_cross (hs : Canonical s) : Canonical (s.cross n r) := by
  unfold State.cross
  grind [canonical_dram, canonical_setBase, canonical_stepAt, canonical_post, canonical_take]

theorem canonical_atHome (hs : Canonical s) : Out.Canonical (s.atHome n r) := by
  unfold State.atHome
  grind [Out.canonical_next, canonical_notEnabled, canonical_fail, canonical_take, canonical_stepAt, canonical_serve, canonical_translate]

theorem canonical_fromList (hs : Canonical s) : Out.Canonical (s.fromList h i x) := by
  unfold State.fromList
  grind [canonical_dram, Out.canonical_next, canonical_setBase, canonical_notEnabled, canonical_fail, canonical_serve]

theorem canonical_execMemoryPeerRequest (hs : Canonical s) : Out.Canonical (execMemoryPeerRequest n s) := by
  unfold execMemoryPeerRequest
  grind [Out.canonical_next, canonical_notEnabled, canonical_fromList, canonical_cross, canonical_atHome, canonical_post, canonical_take,
    canonical_answer, canonical_freeE15, canonical_atCore, canonical_wakeHere, canonical_stepAt, canonical_readWord]

theorem canonical_execPageWalk (hs : Canonical s) : Out.Canonical (execPageWalk b n s) := by
  unfold execPageWalk
  grind [canonical_dram, Out.canonical_next, canonical_foldl, canonical_setBase, canonical_notEnabled, canonical_resolve]

theorem canonical_execInvalidation (hs : Canonical s) : Out.Canonical (execInvalidation n s) := by
  unfold execInvalidation
  grind [canonical_dram, Out.canonical_next, canonical_setBase, canonical_notEnabled, canonical_take]

theorem canonical_execHomeAcknowledgement (hs : Canonical s) : Out.Canonical (execHomeAcknowledgement n s) := by
  unfold execHomeAcknowledgement
  grind [canonical_dram, Out.canonical_next, canonical_foldl, canonical_setBase, canonical_take, canonical_freeE15, canonical_notEnabled]

theorem canonical_execParkDeadline (hs : Canonical s) : Out.Canonical (execParkDeadline n s) := by
  unfold execParkDeadline
  grind [canonical_dram, Out.canonical_next, canonical_setBase, canonical_notEnabled, canonical_fail]

theorem canonical_capReport (hs : Canonical s) : Canonical (s.capReport st r status gen) := by
  unfold State.capReport
  grind [canonical_answer]

theorem canonical_execCapabilityHandOver (hs : Canonical s) : Out.Canonical (execCapabilityHandOver n s) := by
  unfold execCapabilityHandOver
  grind [Out.canonical_next, canonical_notEnabled, canonical_take, canonical_answer, canonical_capReport, canonical_post, canonical_setCap,
    canonical_postMsg]

theorem canonical_execCapchkAnswer (hs : Canonical s) : Out.Canonical (execCapchkAnswer n s) := by
  unfold execCapchkAnswer
  grind [Out.canonical_next, canonical_notEnabled, canonical_atCore, canonical_take, canonical_trapWith, canonical_setCtx, canonical_setG]

theorem Core.canonical_engineWrite {k : Core} (hk : k.Canonical) : (k.engineWrite addr bytes).Canonical := by
  unfold Core.engineWrite
  grind [Core.canonical_fillWords, Core.canonical_writePad]

theorem canonical_setCopy (hs : Canonical s) : Canonical (s.setCopy c cmd) := by
  unfold State.setCopy
  grind [Core.Canonical, canonical_core, canonical_setCore]

theorem canonical_logBehind (e : s.logBehind k n l = some t) (hs : Canonical s) : Canonical t := by
  induction l generalizing s with
  | nil => exact Option.some.inj e ▸ hs
  | cons r l ih =>
    unfold State.logBehind at e
    grind [→ canonical_log, canonical_setActorAt]

theorem canonical_saveCopy (e : s.saveCopy k seq addr bytes = some t) (hs : Canonical s) : Canonical t := by
  unfold State.saveCopy at e
  grind [canonical_hereCore, → canonical_saveLines, → canonical_logBehind, canonical_setActorAt]

theorem canonical_copyLands (hs : Canonical s) : Out.Canonical (s.copyLands c cmd bytes) := by
  unfold State.copyLands
  grind [canonical_hereCore, Out.canonical_next, canonical_setHere, canonical_atOut, → canonical_saveCopy, canonical_failCopy,
    Core.canonical_engineWrite, canonical_wakeHere, canonical_setCopy, canonical_answer, canonical_freeE15]

theorem canonical_execCopyCommandExecution (hs : Canonical s) : Out.Canonical (execCopyCommandExecution c s) := by
  unfold execCopyCommandExecution
  grind [canonical_iff, canonical_core, Out.canonical_next, canonical_notEnabled, canonical_failCopy, canonical_copyLands, canonical_post,
    canonical_readGlobal, canonical_setCopy, canonical_atCore, canonical_wakeHere]

theorem canonical_performHost (hs : Canonical s) : Canonical (s.performHost st r).1 := by
  unfold State.performHost
  grind [canonical_iff, canonical_answer, canonical_freeE15, canonical_atCore, canonical_wakeHere, Mem.setBytes_wf]

theorem canonical_execHostReadCompletion (hs : Canonical s) : Out.Canonical (execHostReadCompletion n s) := by
  unfold execHostReadCompletion
  grind [canonical_iff, Out.canonical_next, canonical_notEnabled, canonical_take, canonical_atCore, canonical_answer, canonical_freeE15,
    canonical_wakeHere, canonical_performHost]

theorem canonical_persistPage (e : s.persistPage p = .ok t) (hs : Canonical s) : Canonical t.1 := by
  unfold State.persistPage at e
  grind [canonical_iff, canonical_setLeaf]

theorem canonical_makeDurable (hs : Canonical s) : Canonical (s.makeDurable k pages) := by
  unfold State.makeDurable
  grind [canonical_foldl, → canonical_persistPage, canonical_setActorAt]

theorem canonical_fenceRelease {t : State} (ht : Canonical t) : Out.Canonical (execFenceConditionMet.release t others mine) := by
  unfold execFenceConditionMet.release
  grind [Core.Canonical, canonical_hereCore, Out.canonical_next, canonical_setHere, canonical_notEnabled, canonical_releaseFrom,
    canonical_wakeHere]

theorem canonical_execFenceConditionMet (hs : Canonical s) : Out.Canonical (execFenceConditionMet c k s) := by
  unfold execFenceConditionMet
  grind [Core.Canonical, canonical_hereCore, Out.canonical_next, canonical_setHere, canonical_notEnabled, canonical_atOut,
    canonical_makeDurable, canonical_setCtxAt, canonical_wakeHere, canonical_fenceRelease]

theorem canonical_pageInto (hs : Canonical s) : Canonical (s.pageInto p f) := by
  unfold State.pageInto
  grind [canonical_dram, canonical_setBase, Mem.setPage_wf, canonical_setLeaf]

theorem canonical_execDemandPageIn (hs : Canonical s) : Out.Canonical (execDemandPageIn g s) := by
  unfold execDemandPageIn
  grind [canonical_dram, Out.canonical_next, canonical_foldl, canonical_setBase, canonical_notEnabled, canonical_fail, canonical_noFrame,
    canonical_unpark, canonical_pageInto]

/-! ### Code stores -/

theorem Core.canonical_loadBlock {k : Core} (e : k.loadBlock t b = .ok t') (hk : k.Canonical) : t'.Canonical := by
  unfold Core.loadBlock at e
  grind [Core.Canonical, canonical_foldl]

theorem Core.canonical_loadBlocks {k : Core} (e : k.loadBlocks i l = .ok t) (hk : k.Canonical) : t.Canonical := by
  induction l generalizing k with
  | nil => exact Except.ok.inj e ▸ hk
  | cons b l ih =>
    unfold Core.loadBlocks at e
    grind [→ Core.canonical_loadBlock]

theorem Core.canonical_accept {k : Core} (e : k.accept img blocks = .ok t) (hk : k.Canonical) : t.Canonical := by
  unfold Core.accept at e
  grind [Core.Canonical, → Core.canonical_loadBlocks]

theorem Core.canonical_writeCode {k : Core} (hk : k.Canonical) : (k.writeCode base bytes).Canonical := by
  unfold Core.writeCode
  grind [Core.Canonical, Mem.setBytes_wf]

theorem Core.canonical_unload {k : Core} (hk : k.Canonical) : (k.unload img).Canonical := by
  unfold Core.unload
  grind [Core.Canonical]

theorem canonical_depotReply (hs : Canonical s) : Canonical (s.depotReply r payload) := by
  unfold State.depotReply
  grind [canonical_iff, canonical_postMsg]

theorem canonical_countScan (hs : Canonical s) : Canonical (s.countScan cause) := by
  unfold State.countScan
  grind [canonical_count]

theorem canonical_execCodeLoad (hs : Canonical s) : Out.Canonical (execCodeLoad n s) := by
  unfold execCodeLoad
  extract_lets no
  split
  · exact canonical_notEnabled
  next r _ _ =>
  extract_lets w0 w1 c base t bad
  split
  · exact canonical_notEnabled
  have hbad : ∀ img cause, Out.Canonical (bad s img cause) := fun img cause => Out.canonical_next.2 (canonical_depotReply (canonical_countScan hs))
  have hnext : ∀ bytes x, Out.Canonical (.next (s.setCore c { (s.core c).writeCode base bytes with scan := x })) := fun bytes x =>
    Out.canonical_next.2 (canonical_setCore hs (Core.canonical_writeCode (canonical_core hs)))
  clear_value bad
  repeat' split
  any_goals exact hbad _ _
  · exact canonical_notEnabled
  · exact hnext _ _

theorem canonical_execCodeUnload (hs : Canonical s) : Out.Canonical (execCodeUnload n s) := by
  unfold execCodeUnload
  grind [canonical_core, Out.canonical_next, canonical_setCore, canonical_notEnabled, canonical_depotReply, canonical_syncDir,
    Core.canonical_unload]

theorem canonical_abandonScan (hs : Canonical s) : Canonical (s.abandonScan c) := by
  unfold State.abandonScan
  grind [Core.Canonical, canonical_core, canonical_setCore, canonical_depotReply, canonical_countScan]

theorem canonical_abandonScans (hs : Canonical s) : Canonical s.abandonScans := by
  unfold State.abandonScans
  grind [canonical_foldl, canonical_abandonScan]

theorem canonical_execCodeScan (hs : Canonical s) : Out.Canonical (execCodeScan c s) := by
  unfold execCodeScan
  have hk := canonical_core (c := c) hs
  grind [canonical_notEnabled, Out.canonical_next, canonical_setCore, canonical_syncDir, canonical_countScan, canonical_depotReply, →
      Core.canonical_accept, Core.Canonical]

theorem Core.canonical_clearZones {k : Core} (hk : k.Canonical) : (k.clearZones zones).Canonical := by
  unfold Core.clearZones
  grind [Core.Canonical, canonical_foldl, Mem.clear_wf, Core.canonical_foldl]

theorem Core.canonical_settleActor {k : Core} (hk : k.Canonical) : (k.settleActor slot a data).Canonical := by
  unfold Core.settleActor
  grind [Core.Canonical, canonical_foldl, Core.canonical_clearZones, Core.canonical_writePad, Core.canonical_foldl]

/-! ### Groups at issue -/

theorem canonical_contribute {f : EpRec → EpRec} (hs : Canonical s) : Out.Canonical (contribute e op desc src c f s) := by
  unfold contribute
  grind [Out.canonical_next, canonical_raise, canonical_queue, canonical_changeEp, canonical_advance]

theorem canonical_outstanding {k : Out} (hs : Canonical s) (hk : Out.Canonical k) : Out.Canonical (outstanding e desc s k) := by
  unfold outstanding
  grind [canonical_raise, canonical_raiseOpen]

theorem canonical_waveOp (hs : Canonical s) : Out.Canonical (waveOp op c b a e s) := by
  unfold waveOp
  grind [canonical_soundEp, canonical_raise, canonical_outstanding, canonical_contribute]

theorem canonical_execGjoin (hs : Canonical s) : Out.Canonical (execGjoin c a e s) := by
  unfold execGjoin
  grind [canonical_soundEp, canonical_raise, canonical_queueRequest]

theorem canonical_execGleave (hs : Canonical s) : Out.Canonical (execGleave e s) := by
  unfold execGleave
  grind [canonical_soundEp, canonical_raiseOpen, canonical_contribute]

theorem canonical_execGwait (hs : Canonical s) : Out.Canonical (execGwait c e s) := by
  unfold execGwait
  grind [canonical_soundEp, canonical_raiseOpen, canonical_outstanding, canonical_contribute]

/-! ### Handshakes -/

theorem canonical_drawNumber (hs : Canonical s) : Canonical s.drawNumber.2 := by
  unfold State.drawNumber
  grind [canonical_iff]

theorem window_of_mem {h : HostEp} (hs : Canonical s) (hh : h ∈ s.hosts) : h.window.wf = true := by
  obtain ⟨-, -, -, windows⟩ := hs
  exact windows h hh

theorem window_hostOf (e : s.hostOf n = some g) (hs : Canonical s) : g.window.wf = true := window_of_mem hs (List.mem_of_find?_eq_some e)

theorem canonical_setHost {h : HostEp} (hs : Canonical s) (hh : h.window.wf = true) : Canonical (s.setHost h) := by
  obtain ⟨cores, bases, host, windows⟩ := hs
  exact ⟨cores, bases, host, canonicalHosts_map windows fun x hx => by split <;> assumption⟩

theorem window_admitHost {h : HostEp} (e : s.admitHost h states peer peerId itin = .ok g) (hh : h.window.wf = true) : g.window.wf = true := by
  unfold State.admitHost at e
  grind

theorem canonical_answerTo (hs : Canonical s) : Canonical (s.answerTo st cause c sender kind peer pmod seq) := by
  unfold State.answerTo
  grind [canonical_post]

theorem canonical_connectDepot (hs : Canonical s) : Canonical (s.connectDepot c) := by
  unfold State.connectDepot
  grind [canonical_iff, canonical_drawNumber, canonical_answerTo]

theorem canonical_execConnectRequest (hs : Canonical s) : Out.Canonical (execConnectRequest n s) := by
  unfold execConnectRequest
  split
  case h_2 => exact canonical_notEnabled
  split
  · grind [canonical_notEnabled, Out.canonical_next, canonical_take, canonical_atCore, canonical_setActorAt, canonical_answerTo, canonical_setBase,
      canonical_dram, canonical_drawNumber]
  · exact Out.canonical_next.2 (canonical_connectDepot (canonical_take hs))
  · extract_lets no st t sender
    have ht : Canonical t := canonical_take hs
    split
    · exact Out.canonical_next.2 (canonical_answerTo (canonical_drawNumber ht))
    next h hh =>
      have hw := window_hostOf hh ht
      grind [Out.canonical_next, canonical_answerTo, canonical_setHost, → window_admitHost]
  · exact canonical_onLink fun t ht => canonical_toLink ht hs
  · exact canonical_notEnabled

theorem canonical_syncFor (hs : Canonical s) : Canonical (s.syncFor who) := by
  unfold State.syncFor
  grind [canonical_syncDir]

theorem canonical_execConnectAnswer (hs : Canonical s) : Out.Canonical (execConnectAnswer n s) := by
  unfold execConnectAnswer
  grind [canonical_core, Out.canonical_next, canonical_onLink, → canonical_toLink, canonical_notEnabled, canonical_take, canonical_post,
    canonical_syncFor, canonical_onActor]

theorem canonical_execConnectConfirmation (hs : Canonical s) : Out.Canonical (execConnectConfirmation n s) := by
  unfold execConnectConfirmation
  grind [Out.canonical_next, canonical_notEnabled, canonical_take, canonical_onLink, → canonical_toLink, → window_hostOf,
    canonical_setHost, canonical_onActor]

theorem canonical_execConnectUndo (hs : Canonical s) : Out.Canonical (execConnectUndo n s) := by
  unfold execConnectUndo
  grind [canonical_iff, Out.canonical_next, canonical_notEnabled, canonical_take, canonical_onLink, → canonical_toLink, → window_hostOf,
    canonical_setHost, canonical_onActor]

theorem canonical_child (hs : Canonical s) : Canonical (s.child c arg parent pi).2 := by
  have hy : Canonical s.drawNumber.2.drawNumber.2 := canonical_drawNumber (canonical_drawNumber hs)
  unfold State.child
  dsimp only
  repeat' split
  all_goals exact hy

theorem Core.canonical_child (hs : Safety.Canonical s) : ∀ w n k a, (s.child c arg parent pi).1 = .ok (w, n, k, a) → k.Canonical := by
  unfold State.child
  dsimp only
  intro w n k a e
  repeat' split at e
  all_goals cases e
  exact Core.canonical_settleActor (canonical_core hs)

theorem canonical_dropAhead (hs : Canonical s) : Canonical (State.dropAhead parent x st n s) := by
  induction n generalizing s with
  | zero => exact hs
  | succ n ih =>
    unfold State.dropAhead
    grind [canonical_take, canonical_losePacket]

theorem canonical_execSpawnRequest (hs : Canonical s) : Out.Canonical (execSpawnRequest n s) := by
  unfold execSpawnRequest
  extract_lets no
  split
  case h_2 => exact canonical_notEnabled
  next c arg pi _ _ =>
  extract_lets core t parent y
  split
  · exact canonical_notEnabled
  have ht : Canonical t := canonical_take hs
  split
  · exact Out.canonical_next.2 (canonical_dropAhead ht)
  have hc : Canonical (t.child c arg parent pi).2 := canonical_child ht
  split
  next who slot k p u hu =>
    have hk := Core.canonical_child ht (c := c) (arg := arg) (parent := parent) (pi := pi)
    rw [hu] at hc hk
    have hk' := hk _ _ _ _ rfl
    grind [Out.canonical_next, canonical_onActor, canonical_syncFor, canonical_syncDir, canonical_setCore, canonical_iff, Core.Canonical]
  next e u hu =>
    rw [hu] at hc
    have hd := canonical_drawNumber (canonical_dropAhead (parent := c.actor) (x := c.ep) (st := core.toNat) (n := u.flight.length) hc)
    exact Out.canonical_next.2 (canonical_syncFor (canonical_onActor hd fun x y z t v ht => ht))

/-! ### The Depot -/

theorem canonical_dropLines (hs : Canonical s) : Canonical (s.dropLines p) := by
  unfold State.dropLines
  grind [canonical_iff, canonical_dram, canonical_setBase, canonicalBases_map]

theorem canonical_dropFrame (hs : Canonical s) : Canonical (s.dropFrame p) := by
  unfold State.dropFrame
  grind [canonical_dram, canonical_setBase, Mem.clear_wf]

theorem canonical_discardPage (hs : Canonical s) : Canonical (s.discardPage p) := by
  unfold State.discardPage
  grind [canonical_iff, canonical_dropFrame, canonical_dropLines, canonical_setLeaf]

theorem canonical_withPages {op : Nat → Bool} {k : DepotReq → DepotChan → Out} (hk : ∀ x y, Out.Canonical (k x y)) :
    Out.Canonical (withPages name op n s k) := by
  unfold withPages
  grind [canonical_notEnabled]

theorem canonical_eachPage {f : State → Nat → Except (BitVec 9) (State × Nat)} (hf : ∀ t x, Canonical t → ∀ u, f t x = .ok u → Canonical u.1)
    (hs : Canonical s) :
    Canonical (eachPage f l s n k).1 := by
  induction l generalizing s n k with
  | nil => exact hs
  | cons p l ih =>
    unfold eachPage
    grind

theorem canonical_servePages {f : State → Nat → Except (BitVec 9) (State × Nat)} (hf : ∀ t y, Canonical t → ∀ u, f t y = .ok u → Canonical u.1)
    (hs : Canonical s) :
    Out.Canonical (servePages sectors f r s) := by
  unfold servePages
  grind [Out.canonical_next, canonical_depotReply, canonical_eachPage]

theorem canonical_execPageOut (hs : Canonical s) : Out.Canonical (execPageOut n s) := by
  unfold execPageOut
  grind [canonical_withPages, canonical_servePages, → canonical_persistPage, canonical_dropFrame, canonical_dropLines, canonical_setLeaf]

theorem canonical_execPageIn (hs : Canonical s) : Out.Canonical (execPageIn n s) := by
  unfold execPageIn
  grind [canonical_withPages, canonical_servePages, canonical_noFrame, canonical_unpark, canonical_pageInto]

theorem canonical_execDeposit (hs : Canonical s) : Out.Canonical (execDeposit n s) := by
  unfold execDeposit
  grind [canonical_core, canonical_hereCore, Out.canonical_next, canonical_setHere, canonical_withPages, canonical_depotReply,
    canonical_atCore, canonical_wakeHere, Core.canonical_engineWrite]

theorem canonical_execDiscard (hs : Canonical s) : Out.Canonical (execDiscard n s) := by
  unfold execDiscard
  grind [canonical_withPages, canonical_servePages, canonical_discardPage]

theorem canonical_execPersist (hs : Canonical s) : Out.Canonical (execPersist n s) := by
  unfold execPersist
  grind [canonical_withPages, canonical_servePages, → canonical_persistPage]

theorem canonical_evict (hs : Canonical s) : Canonical (s.evict k toDepot) := by
  unfold State.evict
  grind [canonical_hereCore, canonical_dram, canonical_setBase, canonical_setHere, canonical_syncDir, Core.canonical_vacate]

theorem canonical_execEvictActor (hs : Canonical s) : Out.Canonical (execEvictActor n s) := by
  unfold execEvictActor
  grind (splits := 24) [canonical_hereCore, Out.canonical_next, canonical_withPages, canonical_depotReply, canonical_notEnabled, canonical_atOut,
    canonical_killAt, canonical_evict]

theorem canonical_relocateAll (hs : Canonical s) : Canonical (relocateAll l old s a).1 := by
  unfold relocateAll
  grind [canonical_foldl, canonical_post, canonical_foldl_fst]

theorem canonical_memberMoved (hs : Canonical s) : Canonical (s.memberMoved who l) := by
  unfold State.memberMoved
  grind [canonical_iff]

theorem canonical_lateCalls (hs : Canonical s) : Canonical (s.lateCalls k) := by
  unfold State.lateCalls
  grind [canonical_hereCore, canonical_foldl, canonical_call]

theorem canonical_postConns (hs : Canonical s) : Canonical (s.postConns who) := by
  unfold State.postConns
  grind [canonical_dram, canonical_foldl, canonical_setBase, canonical_post]

theorem canonical_reload (hs : Canonical s) : Canonical (s.reload x l) := by
  unfold State.reload
  extract_lets who h b src a s1 k1 k2 p t
  have h1 : Canonical s1 := canonical_setBase hs (canonical_dram (b := h) hs)
  have hk1 : k1.Canonical := Core.canonical_clearZones (canonical_core h1)
  have hk2 : k2.Canonical := by
    have pads : ∀ (l : List Host.Cell) (m : Mem), m.wf = true → (l.foldl (fun m c => m.set c.1 c.2) m).wf = true := by
      intro l
      induction l with
      | nil => exact fun m hm => hm
      | cons c l ih => exact fun m hm => ih _ (Mem.set_wf _ _ hm)
    exact ⟨pads _ _ hk1.1, hk1.2⟩
  have hp : Canonical p.1 := canonical_relocateAll (canonical_setCore h1 hk2)
  have ht : Canonical t := by
    clear_value p
    have settled : ∀ u, Canonical u →
        Canonical (((x.antis.foldl (fun (u : State) y => u.storeAnti l.slot y.2) ((u.setActorAt l.slot p.2).scatter l.slot)).lateCalls
            l.slot).settle l.slot) :=
      fun u hu => canonical_settle (canonical_lateCalls (canonical_foldl (canonical_scatter (canonical_setActorAt hu)) fun v y hv =>
          canonical_storeAnti hv))
    refine canonical_atCore hp fun u hu => canonical_wakeHere ?_
    split
    · split
      · exact canonical_trapHeld (settled u hu)
      · exact settled u hu
    · exact settled u hu
  exact canonical_syncDir (canonical_syncDir (canonical_postConns (canonical_memberMoved ht)))

theorem canonical_execReloadActor (hs : Canonical s) : Out.Canonical (execReloadActor n s) := by
  unfold execReloadActor
  grind (splits := 24) [canonical_core, canonical_dram, Out.canonical_next, canonical_setBase, canonical_withPages, canonical_depotReply,
    canonical_notEnabled, canonical_killSaved, canonical_reload]

theorem canonical_checkAnswer (hs : Canonical s) : Out.Canonical (s.checkAnswer r status t) := by
  unfold State.checkAnswer
  grind [canonical_iff, Out.canonical_next, canonical_depotReply]

theorem canonical_takeEnds (hs : Canonical s) : Canonical (s.takeEnds k).1 := by
  unfold State.takeEnds
  grind [canonical_setCkSlot, canonical_dropTake]

theorem canonical_execCheckpointTake (hs : Canonical s) : Out.Canonical (execCheckpointTake n s) := by
  unfold execCheckpointTake
  extract_lets no
  split
  · exact canonical_notEnabled
  split
  · split
    · exact canonical_notEnabled
    · exact canonical_checkAnswer (canonical_takeEnds hs)
  split
  · exact canonical_notEnabled
  split
  · exact canonical_notEnabled
  split
  · exact canonical_checkAnswer hs
  · exact Out.canonical_next.2 hs

theorem canonical_execCheckpointRestore (hs : Canonical s) : Out.Canonical (execCheckpointRestore n s) := by
  unfold execCheckpointRestore
  dsimp only
  split
  · exact canonical_notEnabled
  split
  · exact canonical_notEnabled
  split
  · exact canonical_checkAnswer hs
  split
  · exact canonical_checkAnswer hs
  split
  · exact canonical_checkAnswer hs
  split
  · exact canonical_checkAnswer hs
  split
  · exact canonical_notEnabled
  refine canonical_checkAnswer (canonical_foldl (canonical_foldl hs fun t p ht => ?_) fun t b ht => canonical_noFrame ht)
  grind [canonical_dropLines, canonical_pageInto, canonical_setBase, canonical_dram, Mem.setPage_wf, canonical_setLeaf, canonical_unpark]

theorem canonical_execCheckpointQuery (hs : Canonical s) : Out.Canonical (execCheckpointQuery n s) := by
  unfold execCheckpointQuery
  grind [canonical_notEnabled, canonical_checkAnswer]

/-! ### The registry and the waves -/

theorem canonical_setGroup (hs : Canonical s) : Canonical (s.setGroup gk g) := by
  unfold State.setGroup
  grind [canonical_iff]

theorem canonical_joined (hs : Canonical s) : Canonical (s.joined gk m v cause rank) := by
  unfold State.joined
  grind [canonical_onActor]

theorem canonical_form (hs : Canonical s) : Canonical (s.form gk g) := by
  unfold State.form
  grind [canonical_iff, canonical_foldl, canonical_joined, canonical_setGroup]

theorem canonical_execGroupJoinAtRegistry (hs : Canonical s) : Out.Canonical (execGroupJoinAtRegistry n s) := by
  unfold execGroupJoinAtRegistry
  grind [Out.canonical_next, canonical_notEnabled, canonical_take, canonical_joined, canonical_form, canonical_setGroup]

theorem canonical_complete (hs : Canonical s) : Canonical (s.complete st g c v low payload) := by
  unfold State.complete
  grind [canonical_post]

theorem canonical_completeRank (hs : Canonical s) : Canonical (s.completeRank st g w rank) := by
  unfold State.completeRank
  grind [canonical_foldl, canonical_complete]

theorem canonical_tellLeft (hs : Canonical s) : Canonical (s.tellLeft who) := by
  unfold State.tellLeft
  grind [canonical_atCore, canonical_syncDir, canonical_reap, canonical_setSaved]

theorem canonical_settleGroup (hs : Canonical s) : Canonical (s.settleGroup gk) := by
  unfold State.settleGroup
  grind [canonical_iff, canonical_foldl, canonical_setGroup, canonical_tellLeft]

theorem canonical_setWave (hs : Canonical s) : Canonical (s.setWave gk w) := by
  unfold State.setWave
  grind [canonical_settleGroup, canonical_setGroup]

theorem canonical_spoil (hs : Canonical s) : Canonical (s.spoil count c) := by
  unfold State.spoil
  grind [canonical_iff, Core.Canonical, canonical_core, canonical_setCore, Mem.forget_wf]

theorem canonical_failWave (hs : Canonical s) : Canonical (s.failWave gk g w) := by
  unfold State.failWave
  grind [canonical_foldl, canonical_spoil, canonical_completeRank, canonical_setWave, canonical_setGroup]

theorem canonical_tryStart (hs : Canonical s) : Canonical (s.tryStart gk k) := by
  unfold State.tryStart
  grind [canonical_foldl, canonical_setWave, canonical_setGroup, canonical_failWave, canonical_post]

theorem canonical_refuseWave (hs : Canonical s) : Canonical (s.refuseWave g rank c) := by
  unfold State.refuseWave
  grind [canonical_drawNumber, canonical_complete]

theorem canonical_register (hs : Canonical s) : Canonical (s.register c data bad) := by
  unfold State.register
  grind [canonical_settleGroup, canonical_refuseWave, canonical_setGroup, canonical_tryStart, canonical_setWave]

theorem canonical_addChunk (hs : Canonical s) : Canonical (s.addChunk g w c) := by
  unfold State.addChunk
  grind [canonical_foldl, canonical_post, canonical_setWave, canonical_failWave]

theorem canonical_execCollectiveChunk (hs : Canonical s) : Out.Canonical (execCollectiveChunk n s) := by
  unfold execCollectiveChunk
  grind [Out.canonical_next, canonical_register, canonical_take, canonical_addChunk, canonical_notEnabled]

theorem canonical_execResultChunk (hs : Canonical s) : Out.Canonical (execResultChunk n s) := by
  unfold execResultChunk
  split
  case h_2 => exact canonical_notEnabled
  split
  · exact Out.canonical_next.2 (canonical_take hs)
  split
  · exact Out.canonical_next.2 (canonical_take hs)
  split
  · exact Out.canonical_next.2 (canonical_take hs)
  dsimp only
  split
  · exact Out.canonical_next.2 (canonical_take hs)
  split
  · split
    · exact canonical_notEnabled
    · refine Out.canonical_next.2 (canonical_atCore ?_ fun t ht => canonical_wakeHere ht)
      grind [Core.canonical_foldl, Core.canonical_engineWrite, canonical_core, canonical_setWave, canonical_completeRank, canonical_setCore,
          canonical_take]
  · grind [canonical_setWave, canonical_completeRank, canonical_take, Out.canonical_next]

theorem canonical_settleDeath (hs : Canonical s) : Canonical (s.settleDeath gk g rank begun) := by
  unfold State.settleDeath
  grind [canonical_foldl, canonical_refuseWave, canonical_setGroup, canonical_tryStart, canonical_settleGroup, canonical_setWave]

theorem canonical_execMemberDeath (hs : Canonical s) : Out.Canonical (execMemberDeath n s) := by
  unfold execMemberDeath
  grind [canonical_iff, Out.canonical_next, canonical_take, canonical_settleDeath, canonical_setGroup, canonical_notEnabled]

/-! ### Control transfer -/

theorem canonical_branch (hs : Canonical s) : Out.Canonical (branch n taken off s) := by
  unfold branch
  grind [Out.canonical_next, canonical_goto, canonical_advance]

theorem canonical_jumpLink (hs : Canonical s) : Out.Canonical (jumpLink n off a d s) := by
  unfold jumpLink
  grind [Out.canonical_next, canonical_goto, canonical_setG, canonical_raise]

theorem canonical_decBranch (hs : Canonical s) : Out.Canonical (decBranch n off a d s) := by
  unfold decBranch
  grind [Out.canonical_next, canonical_setG, canonical_advance, canonical_goto]

theorem canonical_execJ (hs : Canonical s) : Out.Canonical (execJ o s) := by
  unfold execJ
  grind [Out.canonical_next, canonical_goto]

theorem canonical_execJal (hs : Canonical s) : Out.Canonical (execJal o s) := by
  unfold execJal
  grind [Out.canonical_next, canonical_goto, canonical_setG]

theorem canonical_execCJ (hs : Canonical s) : Out.Canonical (execCJ o s) := by
  unfold execCJ
  grind [Out.canonical_next, canonical_goto]

/-! ### The scalar float instructions -/

theorem canonical_roundInto (hs : Canonical s) : Out.Canonical (roundInto mode d v s) := by
  unfold roundInto
  grind [canonical_writeF, canonical_draw]

theorem canonical_compareInto (hs : Canonical s) : Out.Canonical (compareInto k b a d s) := by
  unfold compareInto
  grind [Out.canonical_next, canonical_advance, canonical_setFlags, canonical_setG]

theorem canonical_execFabs (hs : Canonical s) : Out.Canonical (execFabs a d s) := by
  unfold execFabs
  grind [Out.canonical_next, canonical_advance, canonical_setF]

theorem canonical_execFneg (hs : Canonical s) : Out.Canonical (execFneg a d s) := by
  unfold execFneg
  grind [Out.canonical_next, canonical_advance, canonical_setF]

theorem canonical_execFsgnj (hs : Canonical s) : Out.Canonical (execFsgnj b a d s) := by
  unfold execFsgnj
  grind [Out.canonical_next, canonical_advance, canonical_setF]

theorem canonical_execFcvtGF (hs : Canonical s) : Out.Canonical (execFcvtGF m t a d s) := by
  unfold execFcvtGF
  grind [Out.canonical_next, canonical_advance, canonical_setFlags, canonical_setG, canonical_draw]

theorem canonical_execFmvFG (hs : Canonical s) : Out.Canonical (execFmvFG a d s) := by
  unfold execFmvFG
  grind [Out.canonical_next, canonical_advance, canonical_setF]

/-! ### Milestone rounds -/

theorem canonical_beginTakes (hs : Canonical s) : Canonical (s.beginTakes m) := by
  unfold State.beginTakes
  grind [canonical_iff, canonical_foldl]

theorem canonical_takeResult (hs : Canonical s) : Canonical (s.takeResult r y) := by
  unfold State.takeResult
  grind [canonical_iff, canonical_beginTakes]

theorem canonical_endRound (hs : Canonical s) : Canonical (s.endRound r x) := by
  unfold State.endRound
  grind [canonical_takeResult]

theorem canonical_execMilestoneRoundStart (hs : Canonical s) : Out.Canonical (execMilestoneRoundStart s) := by
  unfold execMilestoneRoundStart
  grind [canonical_iff, Out.canonical_next, canonical_notEnabled]

theorem canonical_execTakeTheCut (hs : Canonical s) : Out.Canonical (execTakeTheCut n s) := by
  unfold execTakeTheCut
  grind [Out.canonical_next, canonical_notEnabled, canonical_cutAt]

theorem canonical_execMilestonePass (hs : Canonical s) : Out.Canonical (execMilestonePass s) := by
  unfold execMilestonePass
  grind [canonical_iff, Out.canonical_next, canonical_notEnabled, canonical_endRound]

theorem canonical_sendWord (e : s.sendWord l w = some t) (hs : Canonical s) : Canonical t := by
  unfold State.sendWord at e
  grind [canonical_iff, canonical_setPort]

theorem canonical_sendDown (e : s.sendDown w = some t) (hs : Canonical s) : Canonical t := by
  unfold State.sendDown at e
  have step : ∀ (l : List Nat) (r : Option State), (∀ u, r = some u → Canonical u) →
      ∀ u, l.foldl (fun t d => t.bind fun t => t.sendWord (4 * d) (.down w)) r = some u → Canonical u := by
    intro l
    induction l with
    | nil => exact fun r hr => hr
    | cons d l ih =>
      intro r hr
      refine ih _ fun u hu => ?_
      obtain ⟨v, hv, hu⟩ := Option.bind_eq_some_iff.1 hu
      exact canonical_sendWord hu (hr v hv)
  exact step _ _ (fun u hu => Option.some.inj hu ▸ hs) t e

theorem canonical_fabricWord (e : s.fabricWord r w = some t) (hs : Canonical s) : Canonical t := by
  unfold State.fabricWord at e
  obtain ⟨u, hu, rfl⟩ := Option.map_eq_some_iff.1 e
  have h := canonical_sendDown hu hs
  split
  · exact canonical_takeResult h
  · exact h

theorem canonical_execFabricRound (hs : Canonical s) : Out.Canonical (execFabricRound s) := by
  unfold execFabricRound
  extract_lets no done
  have hdone : ∀ r, (∀ t, r = some t → Canonical t) → Out.Canonical (done r) := by
    intro r hr
    unfold done
    split
    · exact Out.canonical_next.2 (hr _ rfl)
    · exact canonical_notEnabled
  clear_value done
  split
  case h_2 => exact canonical_notEnabled
  split
  case h_2 => exact canonical_notEnabled
  split
  · exact canonical_notEnabled
  split
  · split
    · exact hdone _ fun t ht => canonical_fabricWord ht hs
    · exact canonical_notEnabled
  split
  · exact canonical_notEnabled
  extract_lets y
  split
  · exact hdone _ fun u hu => canonical_sendWord hu hs
  · exact hdone _ fun u hu => canonical_fabricWord hu hs

theorem canonical_releaseCommitted (hs : Canonical s) : Canonical (s.releaseCommitted k) := by
  unfold State.releaseCommitted
  grind [Core.Canonical, canonical_hereCore, canonical_foldl, canonical_setHere, canonical_releaseAll]

theorem canonical_commitCore (hs : Canonical s) : Canonical (State.commitCore n s) := by
  induction n generalizing s with
  | zero => exact hs
  | succ n ih =>
    unfold State.commitCore
    grind [canonical_trapHeld, canonical_setLogged, canonical_releaseCommitted, canonical_fetchBack, canonical_settle, canonical_reap,
        canonical_syncDir]

theorem Core.canonical_dropSafeAntis {k : Core} (hk : k.Canonical) : Core.Canonical k.dropSafeAntis := by
  unfold Core.dropSafeAntis
  grind [Core.Canonical]

theorem canonical_ripen {before : State} (hs : Canonical s) : Canonical (before.ripen s) := by
  unfold State.ripen
  grind [Core.Canonical, canonical_hereCore, canonical_setHere]

theorem canonical_coreRound (hs : Canonical s) : Canonical (s.coreRound m st) := by
  unfold State.coreRound
  grind [Core.Canonical, canonical_hereCore, canonical_foldl, canonical_setHere, canonical_ripen, canonical_rollback,
    canonical_releaseCommitted, canonical_commitCore, canonical_wakeHere, Core.canonical_dropSafeAntis]

theorem canonical_releaseSaved (e : s.releaseSaved x it = some t) (hs : Canonical s) : Canonical t := by
  unfold State.releaseSaved at e
  grind [canonical_iff, canonical_foldl, → canonical_persistPage, canonical_setSaved, canonical_post, canonical_leaveItem,
    canonical_settleSaved, canonical_foldl_fst]

theorem canonical_releaseSavedAll (hs : Canonical s) : Canonical (State.releaseSavedAll who n s) := by
  induction n generalizing s with
  | zero => exact hs
  | succ n ih =>
    unfold State.releaseSavedAll
    grind [→ canonical_releaseSaved, canonical_setSaved]

theorem canonical_commitSaved (hs : Canonical s) : Canonical (State.commitSaved n m st k s) := by
  induction k generalizing s with
  | zero => exact hs
  | succ k ih =>
    unfold State.commitSaved
    grind [canonical_releaseSavedAll, canonical_setSaved]

theorem canonical_reapSaved (hs : Canonical s) : Canonical (s.reapSaved who) := by
  unfold State.reapSaved
  grind [canonical_dram, canonical_setBase, canonical_dropWaiting, canonical_syncDir, canonical_setSaved]

theorem canonical_markTakes (hs : Canonical s) : Canonical (s.markTakes n old new) := by
  unfold State.markTakes
  grind [canonical_foldl, canonical_setLeaf]

theorem canonical_baseRound (hs : Canonical s) : Canonical (s.baseRound n m st) := by
  unfold State.baseRound
  grind [canonical_dram, canonical_foldl, canonical_setBase, canonical_markTakes, canonical_releaseSavedAll, canonical_commitSaved,
    canonical_reapSaved]

theorem canonical_execRoundCompletion (hs : Canonical s) : Out.Canonical (execRoundCompletion n s) := by
  unfold execRoundCompletion
  grind [canonical_iff, canonical_core, Out.canonical_next, canonical_notEnabled, canonical_atCore, canonical_coreRound,
    canonical_baseRound]

/-! ### The host and the links -/

theorem canonical_setRing (hs : Canonical s) : Canonical (s.setRing r) := by
  unfold State.setRing
  grind [canonical_iff]

theorem canonical_raiseVector (hs : Canonical s) : Canonical (s.raiseVector fn vec) := by
  unfold State.raiseVector
  grind [canonical_iff]

theorem canonical_writeMsix (hs : Canonical s) : Canonical (s.writeMsix fn word v) := by
  unfold State.writeMsix
  grind [canonical_iff]

theorem window_endpointAt (e : s.endpointAt fn i = some g) (hs : Canonical s) : g.window.wf = true := window_of_mem hs (List.mem_of_find?_eq_some e)

theorem canonical_toRing {h : HostEp} (hs : Canonical s) : Canonical (s.toRing h m) := by
  unfold State.toRing
  grind [canonical_iff, canonical_loseMsg, canonical_drawNumber, Mem.setBytes_wf, canonical_setRing, canonical_raiseVector]

theorem canonical_enter {h : HostEp} (hs : Canonical s) (hh : h.window.wf = true) : Canonical (s.enter h cls join vrt payload) := by
  unfold State.enter
  grind [canonical_toRing, canonical_postMsg, canonical_setHost]

theorem canonical_withWrite {k : HostWrite → State → Out} (hs : Canonical s) (hk : ∀ x t, Canonical t → Out.Canonical (k x t)) :
    Out.Canonical (withWrite name s k) := by
  unfold withWrite
  grind [canonical_iff, canonical_notEnabled]

theorem canonical_discardWrite (hs : Canonical s) : Canonical s.discardWrite := by
  unfold State.discardWrite
  grind [canonical_count]

theorem canonical_execCtlWrite (hs : Canonical s) : Out.Canonical (execCtlWrite s) := by
  unfold execCtlWrite
  grind [Out.canonical_next, canonical_withWrite, → window_endpointAt, canonical_discardWrite, canonical_setHost, canonical_notEnabled]

theorem canonical_execHostMessageEntry (hs : Canonical s) : Out.Canonical (execHostMessageEntry n s) := by
  unfold execHostMessageEntry
  grind [Out.canonical_next, → window_hostOf, canonical_notEnabled, canonical_setHost, canonical_discardWrite, canonical_enter]

theorem canonical_execSendWindowWrite (hs : Canonical s) : Out.Canonical (execSendWindowWrite s) := by
  unfold execSendWindowWrite
  grind [Out.canonical_next, canonical_withWrite, → window_endpointAt, canonical_discardWrite, canonical_setHost, Mem.setBytes_wf,
    canonical_notEnabled]

theorem canonical_execHostRingDelivery (hs : Canonical s) : Out.Canonical (execHostRingDelivery n s) := by
  unfold execHostRingDelivery
  grind [Out.canonical_next, canonical_notEnabled, canonical_loseMsg, canonical_take, → window_hostOf, canonical_setHost, canonical_post,
    canonical_toRing]

theorem canonical_makeRing (hs : Canonical s) : Canonical (s.makeRing fn num) := by
  unfold State.makeRing
  grind [canonical_iff, canonical_drawNumber]

theorem canonical_ripenAll {before : State} (hs : Canonical s) : Canonical (before.ripenAll s) := by
  unfold State.ripenAll
  grind [canonical_iff, canonical_foldl, canonical_atCore, canonical_ripen]

theorem canonical_execHostRegisterWrite (hs : Canonical s) : Out.Canonical (execHostRegisterWrite s) := by
  unfold execHostRegisterWrite
  grind [canonical_iff, Out.canonical_next, canonical_notEnabled, canonical_withWrite, canonical_ripenAll, → window_endpointAt,
    canonical_discardWrite, canonical_setHost, canonical_makeRing, canonical_setRing, canonical_writeMsix]

theorem canonical_launchImage (hs : Canonical s) : LaunchCanonical (s.launchImage x) := by
  unfold State.launchImage
  grind [LaunchCanonical, canonical_core, canonical_setCore, canonical_countScan, → Core.canonical_accept, Core.canonical_writeCode,
    canonical_syncDir]

theorem canonical_launchActor (hs : Canonical s) : LaunchCanonical (s.launchActor x) := by
  unfold State.launchActor
  grind [LaunchCanonical, canonical_core, canonical_setCore, Core.canonical_settleActor]

theorem canonical_setResident (hs : Canonical s) : Canonical (s.setResident l a) := by
  unfold State.setResident
  grind [Core.Canonical, canonical_core, canonical_setCore]

theorem canonical_launchConnect (hs : Canonical s) : LaunchCanonical (s.launchConnect x y e i f j) := by
  unfold State.launchConnect
  grind [LaunchCanonical, canonical_core, canonical_syncDir, canonical_setResident]

theorem canonical_launchHost (hs : Canonical s) : LaunchCanonical (s.launchHost x e cls len) := by
  unfold State.launchHost
  have hr : ∀ c, LaunchCanonical (.error (c, s)) := fun c => ⟨by rintro t ⟨⟩, by rintro x ⟨⟩; exact hs⟩
  have ho : ∀ t, Canonical t → LaunchCanonical (.ok t) := fun t ht => ⟨by rintro u ⟨⟩; exact ht, by rintro x ⟨⟩⟩
  dsimp only
  split
  · exact ho s hs
  split
  · exact hr _
  split
  · exact hr _
  next h hh =>
  have hw := window_of_mem hs (List.mem_of_find?_eq_some hh)
  split
  · exact hr _
  split
  · exact hr _
  next g hg =>
    exact ho _ (canonical_syncDir (canonical_setHost (canonical_setResident hs) (window_admitHost (g := g) hg hw)))

theorem canonical_hostConnect (hs : Canonical s) : Canonical (s.hostConnect n l e) := by
  unfold State.hostConnect
  grind [canonical_core, → window_hostOf, → window_admitHost, canonical_setHost, canonical_syncDir, canonical_onActor]

theorem canonical_launchAll {α : Type} {f : State → α → Except (BitVec 9 × State) State} {l : List α}
    (hf : ∀ t x, Canonical t → LaunchCanonical (f t x)) (hs : Canonical s) :
    LaunchCanonical (launchAll f l s) := by
  induction l generalizing s with
  | nil => exact ⟨by rintro t ⟨⟩; exact hs, by rintro x ⟨⟩⟩
  | cons x l ih =>
    have hx := hf s x hs
    unfold launchAll
    unfold LaunchCanonical at hx ⊢
    grind [LaunchCanonical]

theorem canonical_launchSet (hs : Canonical s) : LaunchCanonical (s.launchSet x) := by
  unfold State.launchSet
  extract_lets actor
  have h1 := canonical_launchAll (l := x.images) (fun t y ht => canonical_launchImage (x := y) ht) hs
  split
  next e he => exact ⟨by rintro t ⟨⟩, by rintro y ⟨⟩; exact h1.2 e he⟩
  next s1 hs1 =>
  have h2 := canonical_launchAll (l := x.actors) (fun t y ht => canonical_launchActor (x := y) ht) (h1.1 s1 hs1)
  split
  next e he => exact ⟨by rintro t ⟨⟩, by rintro y ⟨⟩; exact h2.2 e he⟩
  next s2 hs2 =>
  have h3 := canonical_launchAll (l := x.connects) (fun t c ht => canonical_launchConnect (x := actor c.1) (y := actor c.2.2.2.1) (e := c.2.1) (i
      := c.2.2.1)
    (f := c.2.2.2.2.1) (j := c.2.2.2.2.2) ht) (h2.1 s2 hs2)
  split
  next e he => exact ⟨by rintro t ⟨⟩, by rintro y ⟨⟩; exact h3.2 e he⟩
  next s3 hs3 =>
  have h4 := canonical_launchAll (l := x.injects) (fun t c ht => canonical_launchHost (x := actor c.1) (e := c.2.1) (cls := c.2.2.1)
    (len := c.2.2.2.2.length) ht) (h3.1 s3 hs3)
  split
  next e he => exact ⟨by rintro t ⟨⟩, by rintro y ⟨⟩; exact h4.2 e he⟩
  next s4 hs4 => exact ⟨by rintro t ⟨⟩; exact h4.1 s4 hs4, by rintro y ⟨⟩⟩

theorem canonical_launchFailed {before : CoreId → List Image} (hs : Canonical s) : Canonical (s.launchFailed x fresh before c) := by
  unfold State.launchFailed
  grind [canonical_iff, canonical_core, canonical_foldl, canonical_setCore, canonical_atCore, canonical_killAt, canonical_syncDir,
    Core.canonical_unload]

theorem canonical_launchOn (hs : Canonical s) : Canonical (s.launchOn rest) := by
  unfold State.launchOn
  grind [canonical_iff]

theorem canonical_execLaunch (hs : Canonical s) : Out.Canonical (execLaunch s) := by
  unfold execLaunch
  extract_lets no
  split
  · exact canonical_notEnabled
  next x _ _ =>
  split
  case h_1 m rest _ =>
    split
    · exact Out.canonical_next.2 (canonical_launchOn hs)
    next h hh =>
      have hw {v ctl : Word} {busy : Bool} :
          Canonical (s.setHost { h with window := h.window.setBytes 0 (m.data.take 4096), vrt := v, ctl := ctl, busy := busy }) :=
        canonical_setHost hs (Mem.setBytes_wf _ _ (window_hostOf hh hs))
      split
      · exact canonical_notEnabled
      split
      · exact Out.canonical_next.2 (canonical_launchOn (canonical_discardWrite hw))
      split
      · exact Out.canonical_next.2 (canonical_launchFailed hw)
      · exact Out.canonical_next.2 (canonical_launchOn hw)
  case h_2 =>
    have hl : LaunchCanonical (s.launchSet x) := canonical_launchSet hs
    split
    · exact canonical_notEnabled
    split
    next t ht => exact Out.canonical_next.2 (canonical_launchOn (hl.1 t ht))
    next c t ht => exact Out.canonical_next.2 (canonical_launchFailed (hl.2 _ ht))

theorem canonical_fromLink (e : s.fromLink l colour p = some t) (hs : Canonical s) : Canonical t := by
  unfold State.fromLink at e
  grind [canonical_countIn, canonical_loseMsg, → canonical_putOut, canonical_postMsg, canonical_post]

theorem canonical_execLinkFlitReceive (hs : Canonical s) : Out.Canonical (execLinkFlitReceive l s) := by
  unfold execLinkFlitReceive
  dsimp only
  split
  · exact Out.canonical_fault
  split
  · exact canonical_notEnabled
  split
  · exact Out.canonical_next.2 (canonical_setPort hs)
  split
  · exact Out.canonical_next.2 (canonical_setPort hs)
  · refine canonical_onLink fun t ht => ?_
    grind [→ canonical_fromLink, canonical_setPort, canonical_iff]

theorem canonical_execLinkAcknowledgement (hs : Canonical s) : Out.Canonical (execLinkAcknowledgement l s) := by
  unfold execLinkAcknowledgement
  grind [Out.canonical_next, Out.canonical_fault, canonical_notEnabled, canonical_setPort]

theorem canonical_execLinkReplay (hs : Canonical s) : Out.Canonical (execLinkReplay l s) := by
  unfold execLinkReplay
  grind [Out.canonical_next, Out.canonical_fault, canonical_foldl, canonical_notEnabled, canonical_setPort, canonical_loseLink,
    canonical_losePacket, canonical_count]

/-! ### The management core -/

theorem canonical_tableDone (hs : Canonical s) : Canonical (s.tableDone status index) := by
  unfold State.tableDone
  grind [canonical_iff]

theorem canonical_withTable {op : Nat → Bool} {k : Mgmt → Out} (hk : ∀ x, Out.Canonical (k x)) : Out.Canonical (withTable name op s k) := by
  unfold withTable
  grind [canonical_notEnabled]

theorem canonical_tablePages {f : State → Nat → Except Nat State} (hf : ∀ t x, Canonical t → ∀ u, f t x = .ok u → Canonical u) (hs : Canonical s) :
    Canonical (tablePages f l i s) := by
  induction l generalizing s i with
  | nil => exact canonical_tableDone hs
  | cons p l ih =>
    unfold tablePages
    grind [canonical_tableDone]

theorem canonical_ownPage {f : State → Nat → State} (e : ownPage t f s p = .ok t') (hf : ∀ t y, Canonical t → Canonical (f t y))
    (hs : Canonical s) :
    Canonical t' := by
  unfold ownPage at e
  grind

theorem canonical_allocatePage (e : allocatePage m s p = .ok t) (hs : Canonical s) : Canonical t := by
  unfold allocatePage at e
  grind [canonical_setLeaf, canonical_mapPage, canonical_setCap]

theorem canonical_execAllocate (hs : Canonical s) : Out.Canonical (execAllocate s) := by
  unfold execAllocate
  grind [Out.canonical_next, canonical_withTable, canonical_tableDone, canonical_notEnabled, canonical_tablePages, → canonical_allocatePage]

theorem canonical_execFree (hs : Canonical s) : Out.Canonical (execFree s) := by
  unfold execFree
  grind [canonical_iff, Out.canonical_next, canonical_withTable, canonical_notEnabled, canonical_tablePages, → canonical_ownPage,
    canonical_discardPage]

theorem canonical_execSetOrdering (hs : Canonical s) : Out.Canonical (execSetOrdering s) := by
  unfold execSetOrdering
  grind [Out.canonical_next, canonical_withTable, canonical_notEnabled, canonical_tablePages, → canonical_ownPage, canonical_setLeaf,
    canonical_dropLines]

theorem canonical_execSetHolder (hs : Canonical s) : Out.Canonical (execSetHolder s) := by
  unfold execSetHolder
  grind [Out.canonical_next, canonical_withTable, canonical_tablePages, → canonical_ownPage, canonical_setCap]

theorem canonical_onCores {f : Core → Core} (hs : Canonical s) (hf : ∀ k, k.Canonical → Core.Canonical (f k)) : Canonical (s.onCores l f) := by
  unfold State.onCores
  grind [canonical_core, canonical_foldl, canonical_setCore]

theorem canonical_execWriteProtectionEntry (hs : Canonical s) : Out.Canonical (execWriteProtectionEntry s) := by
  unfold execWriteProtectionEntry
  grind [Core.Canonical, Out.canonical_next, canonical_withTable, canonical_tableDone, canonical_onCores]

theorem canonical_execClearProtectionEntry (hs : Canonical s) : Out.Canonical (execClearProtectionEntry s) := by
  unfold execClearProtectionEntry
  grind [Core.Canonical, Out.canonical_next, canonical_withTable, canonical_tableDone, canonical_onCores]

theorem canonical_configDone (hs : Canonical s) : Canonical (s.configDone status) := by
  unfold State.configDone
  grind [canonical_iff]

theorem canonical_execCoreConfigurationRequest (hs : Canonical s) : Out.Canonical (execCoreConfigurationRequest s) := by
  unfold execCoreConfigurationRequest
  grind [Core.Canonical, Out.canonical_next, canonical_notEnabled, canonical_onCores, canonical_configDone]

theorem Core.canonical_turn {k : Core} (hk : k.Canonical) : (k.turn level).Canonical := by
  unfold Core.turn
  grind [Core.Canonical]

theorem canonical_pass (hs : Canonical s) : Canonical s.pass := by
  unfold State.pass
  grind [Core.Canonical, canonical_hereCore, canonical_foldl, canonical_setHere, canonical_setCtxAt, Core.canonical_turn]

theorem canonical_execSlotPointerWrap (hs : Canonical s) : Out.Canonical (execSlotPointerWrap c s) := by
  unfold execSlotPointerWrap
  grind [canonical_hereCore, Out.canonical_next, canonical_atOut, canonical_pass, canonical_notEnabled]

theorem canonical_stopFor (hs : Canonical s) : Canonical (s.stopFor x cause) := by
  unfold State.stopFor
  grind [canonical_iff, canonical_setCtxAt, canonical_trapWith]

theorem canonical_killHere (hs : Canonical s) : Canonical (s.killHere k cause) := by
  unfold State.killHere
  grind [canonical_hereCore, canonical_stopFor, canonical_killAt]

theorem canonical_killAll (hs : Canonical s) : Canonical (s.killAll cause) := by
  unfold State.killAll
  grind [canonical_foldl, canonical_atCore, canonical_killHere, canonical_killSaved]

theorem canonical_thermalStop (hs : Canonical s) : Canonical s.thermalStop := by
  unfold State.thermalStop
  grind [canonical_iff, canonical_killAll]

theorem canonical_execArbiterPeriod (hs : Canonical s) : Out.Canonical (execArbiterPeriod s) := by
  unfold execArbiterPeriod
  grind [canonical_iff, Out.canonical_next, canonical_thermalStop]

theorem canonical_execCoolantSample (hs : Canonical s) : Out.Canonical (execCoolantSample s) := by
  unfold execCoolantSample
  grind [canonical_iff, Out.canonical_next, canonical_thermalStop]

theorem Core.canonical_wiped {k : Core} : k.wiped.Canonical := ⟨Mem.empty_wf, Mem.empty_wf⟩

theorem Base.canonical_wiped {b : Base} : b.wiped.dram.wf = true := Mem.empty_wf

theorem canonical_wipe (hs : Canonical s) : Canonical s.wipe := by
  obtain ⟨cores, bases, host, windows⟩ := canonical_abandonScans hs
  exact ⟨canonicalCores_map cores fun _ _ => Core.canonical_wiped, canonicalBases_map bases fun _ _ => Base.canonical_wiped, host, windows⟩

theorem canonical_beginChange (hs : Canonical s) : Canonical s.beginChange := by
  unfold State.beginChange
  grind [canonical_iff, canonical_killAll]

theorem canonical_execLifeCycleChange (hs : Canonical s) : Out.Canonical (execLifeCycleChange s) := by
  unfold execLifeCycleChange
  grind [canonical_iff, Out.canonical_next, canonical_notEnabled, canonical_beginChange, canonical_wipe, canonical_killAll]

theorem canonical_releaseLayby (hs : Canonical s) : Canonical (s.releaseLayby a) := by
  unfold State.releaseLayby
  grind [canonical_setResident, canonical_setSaved]

theorem canonical_nameLayby (e : s.nameLayby a = some t) (hs : Canonical s) : Canonical t := by
  unfold State.nameLayby at e
  split at e
  · obtain ⟨x, -, rfl⟩ := Option.map_eq_some_iff.1 e
    exact canonical_setResident hs
  · split at e
    · obtain ⟨x, -, rfl⟩ := Option.map_eq_some_iff.1 e
      exact canonical_setSaved hs
    · cases e

theorem canonical_setLayby (hs : Canonical s) : Canonical (s.setLayby t v) := by
  unfold State.setLayby
  extract_lets i old m s1 s2
  have h1 : Canonical s1 := hs
  have h2 : Canonical s2 := by grind [canonical_releaseLayby]
  grind [canonical_iff, → canonical_nameLayby]

theorem canonical_execLaybyWrite (hs : Canonical s) : Out.Canonical (execLaybyWrite s) := by
  unfold execLaybyWrite
  grind [Out.canonical_next, canonical_withWrite, canonical_setLayby, canonical_notEnabled]

theorem canonical_execSavepoolWrite (hs : Canonical s) : Out.Canonical (execSavepoolWrite s) := by
  unfold execSavepoolWrite
  grind [canonical_dram, Out.canonical_next, canonical_setBase, canonical_withWrite, canonical_noFrame, canonical_notEnabled]

theorem canonical_halt (hs : Canonical s) : Canonical s.halt := by
  unfold State.halt
  grind [canonical_iff, Core.Canonical, canonical_hereCore, canonical_setHere]

theorem canonical_onPartition {f : State → State} (hs : Canonical s) (hf : ∀ t, Canonical t → Canonical (f t)) : Canonical (s.onPartition h f) := by
  unfold State.onPartition
  grind [canonical_foldl, canonical_atCore]

theorem canonical_execRoadblockStop (hs : Canonical s) : Out.Canonical (execRoadblockStop h s) := by
  unfold execRoadblockStop
  grind [canonical_iff, Out.canonical_next, canonical_notEnabled, canonical_onPartition, canonical_halt]

theorem canonical_execRoadblockResume (hs : Canonical s) : Out.Canonical (execRoadblockResume h s) := by
  unfold execRoadblockResume
  grind [canonical_iff, Core.Canonical, canonical_hereCore, Out.canonical_next, canonical_setHere, canonical_notEnabled,
    canonical_onPartition]

theorem canonical_restart (hs : Canonical s) : Canonical s.restart := by
  obtain ⟨-, -, host, -⟩ := hs
  refine ⟨(fun c hc => nomatch hc), (fun b hb => nomatch hb), host, fun h hh => ?_⟩
  obtain ⟨x, -, rfl⟩ := List.mem_map.1 hh
  exact Mem.empty_wf

theorem canonical_execReset (hs : Canonical s) : Out.Canonical (execReset s) := by
  unfold execReset
  grind [Out.canonical_next, canonical_restart]

theorem canonical_execLeaveMinimalMode (hs : Canonical s) : Out.Canonical (execLeaveMinimalMode s) := by
  unfold execLeaveMinimalMode
  grind [canonical_iff, Out.canonical_next, canonical_withWrite, canonical_notEnabled, canonical_restart]

theorem canonical_bootFailed (hs : Canonical s) : Out.Canonical (s.bootFailed reason) := by
  unfold State.bootFailed
  grind [canonical_iff, Out.canonical_next, canonical_notEnabled, canonical_restart]

theorem canonical_updateFirmware (hs : Canonical s) : Canonical (s.updateFirmware major minor) := by
  unfold State.updateFirmware
  grind [canonical_iff]

theorem canonical_execScrub (hs : Canonical s) : Out.Canonical (execScrub c a s) := by
  unfold execScrub
  grind [canonical_core, Out.canonical_next, canonical_count]

theorem canonical_execLifetimeSecond (hs : Canonical s) : Out.Canonical (execLifetimeSecond s) := by
  unfold execLifetimeSecond
  grind [Out.canonical_next, canonical_count]

/-! ### The issue of a word -/

/-- Every instruction and every step of the part keeps the canonical form, arm by arm. -/
theorem canonical_exec (hs : Canonical s) : Out.Canonical (exec i s) := by
  cases i
  all_goals dsimp only [exec]
  case add | sub | and | or | xor | andn | orn | sll | srl | sra | rol | ror | slt | sltn | seq | sne | mul | mulh | mulhn | min | max | minn |
      maxn | sel | clz | ctz | pop | rev8 | bext | bextn | bins | sxb | sxh | sxw | zxb | zxh | zxw | slli | srli | srai | addi | andi | ori | xori |
      slti | lui | lpc | bget | cAdd | cSub | cAnd | cOr | cXor | cMv | cAddi | cLi | cSlli | cSrli | cSrai | cAndi | cOri | cXori | estate | sysrd |
      vnow | fmvGF | fcls => exact canonical_writeG hs
  case div | divn | rem | remn => exact canonical_divide hs
  case ldb | ldbn | ldh | ldhn | ldw | ldwn | ldd | cLdd => exact canonical_loadG hs
  case ldsync | ldpeek => exact canonical_loadFull hs
  case stb | sth | stw | std | stf | stfill | cStd => exact canonical_storeAt hs
  case aadd | aswap | acas => exact canonical_atomic hs
  case vadd | vsub | vmul | vmulh | vmulhn | vmin | vmax | vminn | vmaxn | vand | vor | vxor | vsll | vsrl | vsra | vadds | vaddsn | vsubs | vsubsn |
      vavg | vabs | vdot4 | vcmpeq | vcmplt | vcmpltn | vfadd | vfsub | vfmul | vfmin | vfmax | vfscale | vffma | vffms | vfabs | vfneg | vfrecip |
      vfrsq | vfexp2 | vfclass | vfdiv | vfsqrt | vfcmpeq | vfcmplt | vfcmple | vcvt | vcvtsc | vsplat | vsplatf | vext | vins | vperm | vslide |
      vcompress | vexpand | vmerge | vredsum | vredmax | vredmin | vtopk | vtopkM | vmand | vmor | vmnot | vmpop => exact canonical_issueV hs
  case vld | vst => exact canonical_issueSpan hs
  case vldx | vstx => exact canonical_issueGather hs
  case mmaBf16 | mmaHf | mmaE4e4 | mmaE4e5 | mmaE5e4 | mmaE5e5 | mmaBf16e4 | mmaI8 | mmaTi8 | mmaTbf16 => exact canonical_issueMma hs
  case mrd | mwr => exact canonical_readWrite hs
  case cpget | cpput | cpgath | cpscat | cpfill | cpcvt => exact canonical_copyCommand hs
  case syswr | sysbs | sysbc => exact canonical_sysWrite hs
  case done | doneRetire | cDone => exact canonical_finish hs
  case fenceAcq | fenceRel | fenceFull | fenceSc => exact canonical_fenceOp hs
  case gred | gbcast | grs | gag => exact canonical_waveOp hs
  case bEq | bNe | bLt | bGe | bLtn | bGen | bBset | bBclr | cBeqz | cBnez | cBltz | cBgez => exact canonical_branch hs
  case jalr | cJr => exact canonical_jumpLink hs
  case dbnz | cDbnz => exact canonical_decBranch hs
  case fadd | fsub | fmul | fdiv | fsqrt | fcvtFG | fround | fcvtBf16F | fcvtHfF | fscal => exact canonical_roundInto hs
  case fmin | fmax | ffma | ffms | fnfma | fcvtFBf16 | fcvtFHf | frecip | frsq => exact canonical_writeF hs
  case fcmpeq | fcmplt | fcmple => exact canonical_compareInto hs
  case badd => exact canonical_execBadd hs
  case bset => exact canonical_execBset hs
  case ldf => exact canonical_execLdf hs
  case clrfull => exact canonical_execClrfull hs
  case ldbits => exact canonical_execLdbits hs
  case stbits => exact canonical_execStbits hs
  case vldbits => exact canonical_execVldbits hs
  case vectorCommandExecution => exact canonical_execVectorCommandExecution hs
  case tcfg => exact canonical_execTcfg hs
  case trel => exact canonical_execTrel hs
  case tzero => exact canonical_execTzero hs
  case tldrow => exact canonical_execTldrow hs
  case tldcol => exact canonical_execTldcol hs
  case tstrow => exact canonical_execTstrow hs
  case tstcol => exact canonical_execTstcol hs
  case tload => exact canonical_execTload hs
  case tstore => exact canonical_execTstore hs
  case twait => exact canonical_execTwait hs
  case matrixCommandExecution => exact canonical_execMatrixCommandExecution hs
  case send => exact canonical_execSend hs
  case sendv => exact canonical_execSendv hs
  case sendt => exact canonical_execSendt hs
  case selLabel => exact canonical_execSelLabel hs
  case recv => exact canonical_execRecv hs
  case offer => exact canonical_execOffer hs
  case probe => exact canonical_execProbe hs
  case connect => exact canonical_execConnect hs
  case accept => exact canonical_execAccept hs
  case spawn => exact canonical_execSpawn hs
  case close => exact canonical_execClose hs
  case sendep => exact canonical_execSendep hs
  case recvep => exact canonical_execRecvep hs
  case mamo => exact canonical_execMamo hs
  case cpwait => exact canonical_execCpwait hs
  case vset => exact canonical_execVset hs
  case vmile => exact canonical_execVmile hs
  case prio => exact canonical_execPrio hs
  case budget => exact canonical_execBudget hs
  case jarm => exact canonical_execJarm hs
  case jdis => exact canonical_execJdis hs
  case commit => exact canonical_execCommit hs
  case capgive => exact canonical_execCapgive hs
  case capchk => exact canonical_execCapchk hs
  case trap => exact canonical_execTrap hs
  case halt => exact canonical_execHalt hs
  case messageArrival => exact canonical_execMessageArrival hs
  case antiMessage => exact canonical_execAntiMessage hs
  case acknowledgement => exact canonical_execAcknowledgement hs
  case relocationNotice => exact canonical_execRelocationNotice hs
  case forwardingRequest => exact canonical_execForwardingRequest hs
  case forwardingEndMarker => exact canonical_execForwardingEndMarker hs
  case activationDispatch => exact canonical_execActivationDispatch hs
  case closeNotice => exact canonical_execCloseNotice hs
  case countedMessage => exact canonical_execCountedMessage hs
  case rollback => exact canonical_execRollback hs
  case doneRelease => exact canonical_execDoneRelease hs
  case trapSequence => exact canonical_execTrapSequence hs
  case budgetExhausted => exact canonical_execBudgetExhausted hs
  case kill => exact canonical_execKill hs
  case priorityLoan => exact canonical_execPriorityLoan hs
  case memoryPeerRequest => exact canonical_execMemoryPeerRequest hs
  case pageWalk => exact canonical_execPageWalk hs
  case invalidation => exact canonical_execInvalidation hs
  case homeAcknowledgement => exact canonical_execHomeAcknowledgement hs
  case parkDeadline => exact canonical_execParkDeadline hs
  case capabilityHandOver => exact canonical_execCapabilityHandOver hs
  case capchkAnswer => exact canonical_execCapchkAnswer hs
  case copyCommandExecution => exact canonical_execCopyCommandExecution hs
  case hostReadCompletion => exact canonical_execHostReadCompletion hs
  case fenceConditionMet => exact canonical_execFenceConditionMet hs
  case demandPageIn => exact canonical_execDemandPageIn hs
  case codeLoad => exact canonical_execCodeLoad hs
  case codeUnload => exact canonical_execCodeUnload hs
  case codeScan => exact canonical_execCodeScan hs
  case gjoin => exact canonical_execGjoin hs
  case gleave => exact canonical_execGleave hs
  case gwait => exact canonical_execGwait hs
  case connectRequest => exact canonical_execConnectRequest hs
  case connectAnswer => exact canonical_execConnectAnswer hs
  case connectConfirmation => exact canonical_execConnectConfirmation hs
  case connectUndo => exact canonical_execConnectUndo hs
  case spawnRequest => exact canonical_execSpawnRequest hs
  case pageOut => exact canonical_execPageOut hs
  case pageIn => exact canonical_execPageIn hs
  case deposit => exact canonical_execDeposit hs
  case discard => exact canonical_execDiscard hs
  case persist => exact canonical_execPersist hs
  case evictActor => exact canonical_execEvictActor hs
  case reloadActor => exact canonical_execReloadActor hs
  case checkpointTake => exact canonical_execCheckpointTake hs
  case checkpointRestore => exact canonical_execCheckpointRestore hs
  case checkpointQuery => exact canonical_execCheckpointQuery hs
  case groupJoinAtRegistry => exact canonical_execGroupJoinAtRegistry hs
  case collectiveChunk => exact canonical_execCollectiveChunk hs
  case resultChunk => exact canonical_execResultChunk hs
  case memberDeath => exact canonical_execMemberDeath hs
  case j => exact canonical_execJ hs
  case jal => exact canonical_execJal hs
  case cJ => exact canonical_execCJ hs
  case fabs => exact canonical_execFabs hs
  case fneg => exact canonical_execFneg hs
  case fsgnj => exact canonical_execFsgnj hs
  case fcvtGF => exact canonical_execFcvtGF hs
  case fmvFG => exact canonical_execFmvFG hs
  case milestoneRoundStart => exact canonical_execMilestoneRoundStart hs
  case takeTheCut => exact canonical_execTakeTheCut hs
  case milestonePass => exact canonical_execMilestonePass hs
  case fabricRound => exact canonical_execFabricRound hs
  case roundCompletion => exact canonical_execRoundCompletion hs
  case ctlWrite => exact canonical_execCtlWrite hs
  case hostMessageEntry => exact canonical_execHostMessageEntry hs
  case sendWindowWrite => exact canonical_execSendWindowWrite hs
  case hostRingDelivery => exact canonical_execHostRingDelivery hs
  case hostRegisterWrite => exact canonical_execHostRegisterWrite hs
  case launch => exact canonical_execLaunch hs
  case linkFlitReceive => exact canonical_execLinkFlitReceive hs
  case linkAcknowledgement => exact canonical_execLinkAcknowledgement hs
  case linkReplay => exact canonical_execLinkReplay hs
  case allocate => exact canonical_execAllocate hs
  case free => exact canonical_execFree hs
  case setOrdering => exact canonical_execSetOrdering hs
  case setHolder => exact canonical_execSetHolder hs
  case writeProtectionEntry => exact canonical_execWriteProtectionEntry hs
  case clearProtectionEntry => exact canonical_execClearProtectionEntry hs
  case coreConfigurationRequest => exact canonical_execCoreConfigurationRequest hs
  case slotPointerWrap => exact canonical_execSlotPointerWrap hs
  case arbiterPeriod => exact canonical_execArbiterPeriod hs
  case coolantSample => exact canonical_execCoolantSample hs
  case lifeCycleChange => exact canonical_execLifeCycleChange hs
  case laybyWrite => exact canonical_execLaybyWrite hs
  case savepoolWrite => exact canonical_execSavepoolWrite hs
  case roadblockStop => exact canonical_execRoadblockStop hs
  case roadblockResume => exact canonical_execRoadblockResume hs
  case reset => exact canonical_execReset hs
  case leaveMinimalMode => exact canonical_execLeaveMinimalMode hs
  case scrub => exact canonical_execScrub hs
  case lifetimeSecond => exact canonical_execLifetimeSecond hs

theorem canonical_issueOne (hs : Canonical s) : Out.Canonical s.issueOne := by
  unfold State.issueOne
  split
  · rw [runRow_exec]; exact canonical_exec hs
  · exact canonical_raiseOpen hs
  · exact canonical_raise hs
  · exact Out.canonical_fault

theorem canonical_stallOf (e : s.stallOf x = some t) (hs : Canonical s) : Canonical t := by
  unfold State.stallOf at e
  have hi : Out.Canonical (State.issueOne { s with cx := x }) := canonical_issueOne hs
  split at e
  next u hu =>
    split at e
    · cases e
    · cases e
      exact hi u hu
  next => cases e

/-! ### The issue cycle -/

theorem canonical_noteStall (hs : Canonical s) : Canonical (s.noteStall x) := by
  unfold State.noteStall
  split
  · cases h : s.stallOf x with
    | none => exact hs
    | some t => exact canonical_stallOf h hs
  · exact hs

theorem canonical_noteStalls (hs : Canonical s) : Canonical s.noteStalls := by
  unfold State.noteStalls
  grind [canonical_foldl, canonical_noteStall]

theorem canonical_cycleEnd (hs : Canonical s) : Canonical s.cycleEnd := by
  unfold State.cycleEnd
  grind [canonical_iff, canonical_noteStalls, canonical_pass]

theorem canonical_thenCycle {x0 : Out} (hx0 : Out.Canonical x0) : Out.Canonical (thenCycle x0) := by
  unfold thenCycle
  grind [Out.canonical_next, Out.canonical_fault, Out.canonical_refused, canonical_cycleEnd]

theorem canonical_issue (hs : Canonical s) : Out.Canonical s.issue := by
  unfold State.issue
  grind [canonical_iff, Out.canonical_next, canonical_cycleEnd, canonical_thenCycle, canonical_issueOne]

/-! ### The turns of the agenda -/

theorem canonical_upset (hs : Canonical s) : Out.Canonical (s.upset x1) := by
  unfold State.upset
  grind [canonical_iff, Core.Canonical, canonical_core, canonical_dram, Out.canonical_next, Out.canonical_fault, canonical_setCore,
    canonical_setBase, canonical_notEnabled, canonical_setSaved, canonical_count]

theorem canonical_replace (hs : Canonical s) : Out.Canonical (s.replace b n) := by
  unfold State.replace
  grind [canonical_dram, Out.canonical_next, canonical_setBase, canonical_notEnabled]

theorem canonical_partition (hs : Canonical s) : Out.Canonical (s.partition c t first count) := by
  unfold State.partition
  grind [Core.Canonical, canonical_core, Out.canonical_next, canonical_setCore, canonical_notEnabled]

theorem canonical_addHost (hs : Canonical s) : Out.Canonical (s.addHost n t) := by
  unfold State.addHost
  split
  · exact canonical_notEnabled
  · obtain ⟨cores, bases, host, windows⟩ := hs
    refine Out.canonical_next.2 ⟨cores, bases, host, fun h hh => ?_⟩
    rcases List.mem_append.1 hh with hh | hh
    · exact windows h hh
    · rw [List.mem_singleton.1 hh]; exact Mem.empty_wf

theorem canonical_giveVectors (hs : Canonical s) : Out.Canonical (s.giveVectors fn count) := by
  unfold State.giveVectors
  grind [canonical_iff, Out.canonical_next, Out.canonical_fault, canonical_notEnabled]

theorem canonical_takeTurn (hs : Canonical s) : ∀ t, Out.Canonical (s.takeTurn t)
  | .cycle => canonical_issue hs
  | .event i => by
    show Out.Canonical (if isStep i then exec i s else notEnabled "EVENT")
    split
    · exact canonical_exec hs
    · exact canonical_notEnabled
  | .focus c => Out.canonical_next.2 hs
  | .elapse n => Out.canonical_next.2 hs
  | .upset u => canonical_upset hs
  | .sensor c => Out.canonical_next.2 hs
  | .die t => Out.canonical_next.2 hs
  | .replace b n => canonical_replace hs
  | .hostWrite w => by
    show Out.Canonical (if s.mgmt.minimal ∧ w.second then notEnabled "HOST_WRITE" else .next { s with hostIn := s.hostIn ++ [w] })
    split
    · exact canonical_notEnabled
    · exact Out.canonical_next.2 hs
  | .flitIn l f => by
    show Out.Canonical (if 12 ≤ l then .fault .noSuchPart else .next (s.setPort l { s.port l with rx := (s.port l).rx ++ [f] }))
    split
    · exact Out.canonical_fault
    · exact Out.canonical_next.2 hs
  | .ackIn l q => by
    show Out.Canonical (if 12 ≤ l then .fault .noSuchPart else .next (s.setPort l { s.port l with acks := (s.port l).acks ++ [q] }))
    split
    · exact Out.canonical_fault
    · exact Out.canonical_next.2 hs
  | .replayIn l q => by
    show Out.Canonical (if 12 ≤ l then .fault .noSuchPart else .next (s.setPort l { s.port l with replays := (s.port l).replays ++ [q] }))
    split
    · exact Out.canonical_fault
    · exact Out.canonical_next.2 hs
  | .request x => Out.canonical_next.2 hs
  | .partition c t first count => canonical_partition hs
  | .hostEnd n t => canonical_addHost hs
  | .hostConnect n l e => Out.canonical_next.2 (canonical_hostConnect hs)
  | .vectors fn count => canonical_giveVectors hs
  | .firmware x y => Out.canonical_next.2 (canonical_updateFirmware hs)
  | .torus c n => Out.canonical_next.2 hs
  | .bootFails r => canonical_bootFailed hs

end
end Sys2Proof.Machine
end

section
open Sys2Proof Sys2Proof.Machine Sys2Proof.Safety

/-- Settles O7: an empty agenda issues, and every turn of it keeps the form. -/
theorem canonicalKept : Obligations.CanonicalKept := by
  intro s t hs ht
  unfold step at ht
  split at ht
  · exact canonical_issue hs t ht
  next turn rest _ => exact canonical_takeTurn (s := { s with agenda := rest }) hs turn t ht
end

section
/-! The Depot's other services: how the engine's answer leaves on its channel and what it leaves alone, then one part for each service (R57, R211, R212, R258 to R265). -/

namespace Sys2Proof.Machine
open Sys2Proof.Safety

/-! ## An answer of the Depot engine (R251, R252) -/

/-- The engine has worked on its queue and its channels and has sent; nothing else has changed. -/
def Answered (s t : State) : Prop := ∃ q ch fl st n, t = { s with depotQ := q, chans := ch, flight := fl, stations := st, tick := n }

/-- An answer with a payload is on its way on a channel. -/
def AnswerSent (t : State) (c : DepotChan) (payload : List Byte) : Prop :=
  ∃ m, OnWay t (.msg (.ep c.loc c.ep) m) ∧ m.kind = .plain ∧ m.payload = payload

theorem State.depotReply_answered (s : State) (r : DepotReq) (payload : List Byte) : Answered s (s.depotReply r payload) := by
  unfold State.depotReply
  dsimp only
  split
  · exact ⟨_, _, _, _, _, rfl⟩
  · split
    · split <;> exact ⟨_, _, _, _, _, rfl⟩
    · exact ⟨_, _, _, _, _, rfl⟩

theorem State.depotReply_sent {s : State} {r : DepotReq} {c : DepotChan} (hc : s.chan r.chan = some c) (hl : c.live = true) (payload : List Byte) :
    AnswerSent (s.depotReply r payload) c payload := by
  unfold State.depotReply
  dsimp only
  rw [show ∀ q, State.chan { s with depotQ := q } r.chan = some c from fun _ => hc]
  dsimp only
  rw [if_neg (by simp [hl])]
  exact ⟨_, onWay_post .., rfl, rfl⟩

section
variable {s t : State}

theorem Answered.quiet (h : Answered s t) : Quiet s t := by
  obtain ⟨_, _, _, _, _, rfl⟩ := h
  exact .of_same rfl rfl rfl rfl rfl rfl rfl rfl rfl

theorem Answered.cores (h : Answered s t) : t.cores = s.cores := by obtain ⟨_, _, _, _, _, rfl⟩ := h; rfl
theorem Answered.core (h : Answered s t) (c : CoreId) : t.core c = s.core c := by obtain ⟨_, _, _, _, _, rfl⟩ := h; rfl
theorem Answered.base (h : Answered s t) (b : Nat) : t.base b = s.base b := by obtain ⟨_, _, _, _, _, rfl⟩ := h; rfl
theorem Answered.takes (h : Answered s t) : t.takes = s.takes := by obtain ⟨_, _, _, _, _, rfl⟩ := h; rfl
theorem Answered.validSlot (h : Answered s t) (i : Nat) : t.validSlot i = s.validSlot i := by obtain ⟨_, _, _, _, _, rfl⟩ := h; rfl
theorem Answered.mgmt (h : Answered s t) : t.mgmt = s.mgmt := by obtain ⟨_, _, _, _, _, rfl⟩ := h; rfl
theorem Answered.savedOf (h : Answered s t) (a : AId) : t.savedOf a = s.savedOf a := by obtain ⟨_, _, _, _, _, rfl⟩ := h; rfl
theorem Answered.residentAt (h : Answered s t) (l : Loc) : t.residentAt l = s.residentAt l := by obtain ⟨_, _, _, _, _, rfl⟩ := h; rfl

end

/-- What a request that is served says of the queue and of its channel. -/
theorem State.served_some {s : State} {n : Nat} {v : Service} {r : DepotReq} {c : DepotChan} (h : s.served n v = some (r, c)) :
    s.depotQ[n]? = some r ∧ s.chan r.chan = some c ∧ ∀ k ∈ s.takes, k.req ≠ r := by
  unfold State.served at h
  split at h
  · cases h
  · next q hq =>
    split at h
    · cases h
    · next d hd =>
      split at h
      · next hk =>
        obtain ⟨rfl, rfl⟩ := Prod.mk.inj (Option.some.inj h)
        exact ⟨hq, hd, by simpa using hk.2.2.2.2.2⟩
      · cases h

/-- The answer of a served request leaves on its channel, whatever the service has changed but the channels. -/
theorem State.served_sent {s u : State} {n : Nat} {v : Service} {r : DepotReq} {c : DepotChan} (h : s.served n v = some (r, c)) (hl : c.live = true)
    (hu : u.chans = s.chans) (payload : List Byte) : AnswerSent (u.depotReply r payload) c payload := by
  obtain ⟨-, hc, -⟩ := State.served_some h
  refine State.depotReply_sent ?_ hl payload
  unfold State.chan at hc ⊢
  rw [hu]; exact hc

/-! ## Work on one core -/

/-- Work on one core that leaves every register, every scratchpad and the memories of the module as they were. -/
structure WorkAt (c : CoreId) (s t : State) : Prop where
  other : OtherCores s t c
  ctxs : (t.core c).ctxs = (s.core c).ctxs
  pad : (t.core c).pad = (s.core c).pad
  full : (t.core c).full = (s.core c).full
  store : StoreKept s t

namespace WorkAt
variable {c : CoreId} {s t u : State}

theorem trans (h : WorkAt c s t) (g : WorkAt c t u) : WorkAt c s u where
  other d hd := (g.other d hd).trans (h.other d hd)
  ctxs := g.ctxs.trans h.ctxs
  pad := g.pad.trans h.pad
  full := g.full.trans h.full
  store := storeKept_trans h.store g.store

theorem of_cores (hc : t.cores = s.cores) (hs : StoreKept s t) : WorkAt c s t := by
  have core : ∀ d, t.core d = s.core d := fun d => by unfold State.core; rw [hc]
  exact ⟨fun d _ => core d, by rw [core], by rw [core], by rw [core], hs⟩

theorem setCore {k : Core} (h : k.ctxs = (s.core c).ctxs) (hp : k.pad = (s.core c).pad) (hf : k.full = (s.core c).full) : WorkAt c s (s.setCore c k) where
  other _ hd := State.core_setCore_ne s hd k
  ctxs := by rw [State.core_setCore, h]
  pad := by rw [State.core_setCore, hp]
  full := by rw [State.core_setCore, hf]
  store := storeKept_refl s

theorem syncDir : WorkAt c s (s.syncDir c) := by
  obtain ⟨d, i, h, e⟩ := s.syncDir_eq c
  rw [e]
  exact setCore rfl rfl rfl

theorem answered (h : Answered s t) : WorkAt c s t := of_cores h.cores h.quiet.toCalm.store

theorem regsKept (h : WorkAt c s t) : RegsKept s t := fun d x => by
  have e : (t.core d).ctxs = (s.core d).ctxs := by
    by_cases e : d = c
    · rw [e, h.ctxs]
    · rw [h.other d e]
  have : ctxOn t d x = ctxOn s d x := by
    show (t.core d).ctxs[x.toNat] = (s.core d).ctxs[x.toNat]
    simp only [e]
  rw [this]

theorem padsKept (h : WorkAt c s t) : PadsKept s t := fun d => by
  by_cases e : d = c
  · rw [e, h.pad, h.full]; exact ⟨rfl, rfl⟩
  · rw [h.other d e]; exact ⟨rfl, rfl⟩

end WorkAt

end Sys2Proof.Machine
end

section
namespace Sys2Proof.Machine
open Sys2Proof.Safety

/-! ## Checkpoints (R262 to R265) -/

theorem exec_checkpointTake (n : Nat) (s : State) : exec (.checkpointTake n) s = execCheckpointTake n s := rfl
theorem exec_checkpointRestore (n : Nat) (s : State) : exec (.checkpointRestore n) s = execCheckpointRestore n s := rfl
theorem exec_checkpointQuery (n : Nat) (s : State) : exec (.checkpointQuery n) s = execCheckpointQuery n s := rfl

/-- What an answer of the checkpoint service says: its status, and a word of which a property holds. -/
def CheckSent (t : State) (c : DepotChan) (status : BitVec 9) (ok : Nat → Prop) : Prop :=
  ∃ m, OnWay t (.msg (.ep c.loc c.ep) m) ∧ m.kind = .plain ∧ leNat (m.payload.take 8) % 512 = status.toNat ∧ ok (leNat ((m.payload.drop 8).take 8))

theorem checkReply_status (tag : Nat) (status : BitVec 9) (t : Option Word) : leNat ((checkReply tag status t).take 8) % 512 = status.toNat := by
  have h : (checkReply tag status t).take 8 = leBytes (freeWord tag 0 / 512 * 512 + status.toNat) 8 := by
    unfold checkReply
    rw [List.append_assoc, List.append_assoc, List.take_append_of_le_length (by rw [leBytes_length]), List.take_of_length_le (by rw [leBytes_length])]
  rw [h, leNat_leBytes]
  have := status.isLt
  omega

theorem checkReply_time (tag : Nat) (status : BitVec 9) (t : Word) : leNat (((checkReply tag status (some t)).drop 8).take 8) = t.toNat := by
  have h : ((checkReply tag status (some t)).drop 8).take 8 = leBytes t.toNat 8 := by
    unfold checkReply
    rw [List.append_assoc, List.append_assoc, List.drop_append_of_le_length (by rw [leBytes_length]), List.drop_of_length_le (by rw [leBytes_length]),
      List.nil_append, List.take_append_of_le_length (by rw [leBytes_length])]
    exact List.take_of_length_le (by rw [leBytes_length])
  rw [h, leNat_leBytes]
  exact Nat.mod_eq_of_lt t.isLt

/-- An answer of the checkpoint service leaves everything but the queue and the channels as it was, and leaves on a live channel. -/
theorem State.checkAnswer_next (s : State) (r : DepotReq) (status : BitVec 9) (x : Option Word) :
    ∃ t, s.checkAnswer r status x = .next t ∧ Answered s t ∧ ∀ c, s.chan r.chan = some c → c.live = true →
      CheckSent t c status fun w => ∀ y, x = some y → w = y.toNat := by
  obtain ⟨q, ch, fl, st, n, e⟩ := State.depotReply_answered { s with tick := s.tick + 1 } r (checkReply s.tick status x)
  refine ⟨_, rfl, ⟨q, ch, fl, st, n, e⟩, fun c hc hl => ?_⟩
  obtain ⟨m, hw, hk, hp⟩ := State.depotReply_sent (s := { s with tick := s.tick + 1 }) (r := r) hc hl (checkReply s.tick status x)
  refine ⟨m, hw, hk, by rw [hp]; exact checkReply_status .., fun y hy => ?_⟩
  rw [hp, hy]; exact checkReply_time ..

section
variable {s : State} {n : Nat} {r : DepotReq} {ch : DepotChan}

/-- An answer of the checkpoint service to the request that it serves, with nothing else done. -/
theorem checkAnswer_happens {i : Instr} {status : BitVec 9} {x : Option Word} (hs : s.served n .checkpoint = some (r, ch)) (hl : ch.live = true)
    (hi : exec i s = s.checkAnswer r status x) :
    Happens i s fun t => CheckSent t ch status (fun w => ∀ y, x = some y → w = y.toNat) ∧ Answered s t := by
  obtain ⟨t, e, ha, hm⟩ := s.checkAnswer_next r status x
  obtain ⟨-, hc, -⟩ := State.served_some hs
  exact ⟨t, hi.trans e, hm ch hc hl, ha⟩

theorem CheckSent.imp {t : State} {status : BitVec 9} {ok ok' : Nat → Prop} (h : CheckSent t ch status ok) (hi : ∀ w, ok w → ok' w) : CheckSent t ch status ok' := by
  obtain ⟨m, hw, hk, hp, ho⟩ := h
  exact ⟨m, hw, hk, hp, hi _ ho⟩

/-- A served request is no take's. -/
theorem State.served_noTake {v : Service} (hs : s.served n v = some (r, ch)) : (s.takes.find? fun k => k.req = r) = none := by
  obtain ⟨-, -, ht⟩ := State.served_some hs
  exact List.find?_eq_none.2 fun k hk => by simpa using ht k hk

/-- A request that asks for a take that is refused: it is answered. -/
theorem execCheckpointTake_refused {c : BitVec 9} (hs : s.served n .checkpoint = some (r, ch)) (hop : r.word 3 / 2 ^ 60 = 0) (hk : s.takeOf r = .error c) :
    execCheckpointTake n s = s.checkAnswer r c none := by
  obtain ⟨hq, -, -⟩ := State.served_some hs
  have hne : ¬ (r.word 3 / 2 ^ 60 = 1 ∨ r.word 3 / 2 ^ 60 = 2) := by omega
  unfold execCheckpointTake
  simp only [hq, State.served_noTake hs, hs, hne, hk, if_false]

/-- A take that is accepted stands among the takes of the engine. -/
theorem execCheckpointTake_taken {k : Take} (hs : s.served n .checkpoint = some (r, ch)) (hop : r.word 3 / 2 ^ 60 = 0) (hk : s.takeOf r = .ok k) :
    execCheckpointTake n s = .next { s with takes := s.takes ++ [k] } := by
  obtain ⟨hq, -, -⟩ := State.served_some hs
  have hne : ¬ (r.word 3 / 2 ^ 60 = 1 ∨ r.word 3 / 2 ^ 60 = 2) := by omega
  unfold execCheckpointTake
  simp only [hq, State.served_noTake hs, hs, hne, hk, if_false]

/-- The fields of a take within their limits (R262, log 103). -/
theorem State.takeOf_fields (hop : r.word 3 / 2 ^ 60 = 0) (hz : r.word 3 / 65536 % 2 ^ 44 = 0) (h1 : r.word 1 % 64 = 0) (h2 : r.word 2 ≠ 0) (h3 : r.word 2 < 2 ^ 24) :
    ¬ (3 ≤ r.word 3 / 2 ^ 60 ∨ r.word 3 / 65536 % 2 ^ 44 ≠ 0 ∨ r.word 1 % 64 ≠ 0 ∨ r.word 2 = 0 ∨ 2 ^ 24 ≤ r.word 2) := by
  omega

theorem State.takeOf_passed (hf : ¬ (3 ≤ r.word 3 / 2 ^ 60 ∨ r.word 3 / 65536 % 2 ^ 44 ≠ 0 ∨ r.word 1 % 64 ≠ 0 ∨ r.word 2 = 0 ∨ 2 ^ 24 ≤ r.word 2))
    (ht : BitVec.ofNat 64 (r.word 0) ≤ r.milestone) : s.takeOf r = .error 0x1AD := by
  have : r.milestone.ult (BitVec.ofNat 64 (r.word 0)) = false := by
    exact decide_eq_false (Nat.not_lt.2 ht)
  unfold State.takeOf
  dsimp only
  rw [if_neg hf, this]
  rfl

theorem State.takeOf_ok {ps : List (Nat × Bool)} (hf : ¬ (3 ≤ r.word 3 / 2 ^ 60 ∨ r.word 3 / 65536 % 2 ^ 44 ≠ 0 ∨ r.word 1 % 64 ≠ 0 ∨ r.word 2 = 0 ∨ 2 ^ 24 ≤ r.word 2))
    (ht : r.milestone < BitVec.ofNat 64 (r.word 0)) (hl : s.listRefused r (r.word 1) (r.word 2) = none) (hp : s.pageList (r.word 1) (r.word 2) = some ps)
    (ho : s.foreign r (ps.map fun p => p.1) = false) : s.takeOf r = .ok ⟨r, BitVec.ofNat 16 (r.word 3), BitVec.ofNat 64 (r.word 0), ps⟩ := by
  have : r.milestone.ult (BitVec.ofNat 64 (r.word 0)) = true := decide_eq_true ht
  unfold State.takeOf
  dsimp only
  rw [if_neg hf, this, hl, hp]
  dsimp only
  rw [ho]
  rfl

/-- A query answers T of the valid slot, or 2^64 − 1. -/
theorem checkpointQuery_happens (hs : s.served n .checkpoint = some (r, ch)) (hl : ch.live = true) (hz : r.word 3 / 65536 % 2 ^ 44 = 0) (hop : r.word 3 / 2 ^ 60 = 2) :
    Happens (.checkpointQuery n) s fun t =>
      CheckSent t ch 0 (fun w => w = (((s.validSlot (r.word 3 % 65536)).map fun x => x.t).getD (BitVec.allOnes 64)).toNat) ∧ Answered s t := by
  have hi : execCheckpointQuery n s = s.checkAnswer r 0 (some (((s.validSlot (r.word 3 % 65536)).map fun x => x.t).getD (BitVec.allOnes 64))) := by
    unfold execCheckpointQuery
    rw [hs]
    dsimp only
    rw [hop, hz]
    rfl
  obtain ⟨t, e, hm, ha⟩ := checkAnswer_happens hs hl ((exec_checkpointQuery n s).trans hi)
  exact ⟨t, e, hm.imp fun w h => h _ rfl, ha⟩

/-- A restore of an identifier without a valid slot is refused. -/
theorem checkpointRestore_none (hs : s.served n .checkpoint = some (r, ch)) (hl : ch.live = true) (hz : r.word 3 / 65536 % 2 ^ 44 = 0) (hop : r.word 3 / 2 ^ 60 = 1)
    (hv : s.validSlot (r.word 3 % 65536) = none) : Happens (.checkpointRestore n) s fun t => CheckSent t ch 0x1AE (fun _ => True) ∧ Answered s t := by
  have hi : execCheckpointRestore n s = s.checkAnswer r 0x1AE none := by
    unfold execCheckpointRestore
    dsimp only
    rw [hs]
    dsimp only
    rw [hop, hz, hv]
    rfl
  obtain ⟨t, e, hm, ha⟩ := checkAnswer_happens hs hl ((exec_checkpointRestore n s).trans hi)
  exact ⟨t, e, hm.imp fun _ _ => trivial, ha⟩

end

/-! ### The end of a take (R265) -/

section
variable {s : State} {id : Nat}

/-- The number that the next take of an identifier gets is above that of every valid slot. -/
theorem State.nextCheckpoint_above (hm : ∀ x, s.validSlot id = some x → x.seq ≠ BitVec.allOnes 64) :
    ((s.ckSlots id).1.valid = true → (s.ckSlots id).1.seq.toNat < (s.nextCheckpoint id).toNat) ∧
      ((s.ckSlots id).2.valid = true → (s.ckSlots id).2.seq.toNat < (s.nextCheckpoint id).toNat) := by
  have succ : ∀ x, s.validSlot id = some x → (s.nextCheckpoint id).toNat = x.seq.toNat + 1 := fun x hx => by
    have hne := hm x hx
    have hlt : x.seq.toNat + 1 < 2 ^ 64 := by
      have := x.seq.isLt
      have : x.seq.toNat ≠ 2 ^ 64 - 1 := fun h => hne (BitVec.eq_of_toNat_eq (by rw [h]; rfl))
      omega
    unfold State.nextCheckpoint
    rw [hx]
    dsimp only
    rw [BitVec.toNat_add]
    exact Nat.mod_eq_of_lt hlt
  generalize hx : (s.ckSlots id).1 = x
  generalize hy : (s.ckSlots id).2 = y
  have hv : s.validSlot id = if x.valid ∧ (! y.valid ∨ y.seq.toNat < x.seq.toNat) then some x else if y.valid then some y else none := by
    unfold State.validSlot; dsimp only; rw [hx, hy]
  generalize (s.nextCheckpoint id).toNat = q at succ ⊢
  split at hv
  · next h =>
    have := succ x hv
    obtain ⟨h1, h2⟩ := h
    refine ⟨fun _ => by omega, fun hy => ?_⟩
    simp only [hy, Bool.not_true, Bool.false_eq_true, false_or] at h2
    omega
  · next h =>
    split at hv
    · next h2 =>
      have := succ y hv
      refine ⟨fun hx => ?_, fun _ => by omega⟩
      simp only [hx, h2, Bool.not_true, Bool.false_eq_true, false_or, true_and] at h
      omega
    · next h2 =>
      refine ⟨fun hx => ?_, fun hy => absurd hy h2⟩
      simp [hx, h2] at h

/-- A slot written under the number that follows is the valid slot of its identifier. -/
theorem State.validSlot_setCkSlot {u : State} {x : CkSlot} (hu : u.ckSlots id = s.ckSlots id) (hm : ∀ x, s.validSlot id = some x → x.seq ≠ BitVec.allOnes 64)
    (hx : x.valid = true) (hq : x.seq = s.nextCheckpoint id) : (u.setCkSlot id (s.nextCheckpoint id) x).validSlot id = some x := by
  obtain ⟨h1, h2⟩ := State.nextCheckpoint_above hm
  have hs : (u.setCkSlot id (s.nextCheckpoint id) x).ckSlots id =
      if (s.nextCheckpoint id).toNat % 2 = 1 then ((s.ckSlots id).1, x) else (x, (s.ckSlots id).2) := by
    rw [← hu]; exact look_put_same ..
  unfold State.validSlot
  dsimp only
  rw [hs]
  rw [← hq] at h1 h2
  by_cases ho : (s.nextCheckpoint id).toNat % 2 = 1
  · rw [if_pos ho]
    have hn : ¬ ((s.ckSlots id).1.valid = true ∧ ((! x.valid) = true ∨ x.seq.toNat < (s.ckSlots id).1.seq.toNat)) := by
      rintro ⟨g1, g2⟩
      have := h1 g1
      rcases g2 with g2 | g2
      · simp [hx] at g2
      · omega
    exact (if_neg hn).trans (if_pos hx)
  · rw [if_neg ho]
    refine if_pos ⟨hx, ?_⟩
    by_cases g : (s.ckSlots id).2.valid = true
    · exact .inr (h2 g)
    · exact .inl (by simpa using g)

/-- A slot written and written again under the same number is the slot written last. -/
theorem State.setCkSlot_setCkSlot_ckSlots (u : State) (q : Word) (x y : CkSlot) :
    ((u.setCkSlot id q x).setCkSlot id q y).ckSlots id = (u.setCkSlot id q y).ckSlots id := by
  have h : ∀ (v : State) z, (v.setCkSlot id q z).ckSlots id = if q.toNat % 2 = 1 then ((v.ckSlots id).1, z) else (z, (v.ckSlots id).2) :=
    fun v z => look_put_same ..
  rw [h, h, h]
  split <;> rfl

end
end Sys2Proof.Machine
end

section
namespace Sys2Proof.Machine
open Sys2Proof.Safety

/-- The slot that a take writes when it ends well. -/
def State.takenSlot (s : State) (k : Take) : CkSlot :=
  let pages := k.pages.map fun p => (p.1, p.2, if p.2 then narrowed (s.snapshot k p.1) else s.snapshot k p.1)
  ⟨slotHeader (s.nextCheckpoint k.id.toNat) k.t pages, pages, false⟩

theorem State.takenSlot_seq (s : State) (k : Take) : (s.takenSlot k).seq = s.nextCheckpoint k.id.toNat := by
  have h : ((s.takenSlot k).header.drop 8).take 8 = leBytes (s.nextCheckpoint k.id.toNat).toNat 8 := rfl
  rw [CkSlot.seq, h, leNat_leBytes, Nat.mod_eq_of_lt (show _ < 256 ^ 8 from (s.nextCheckpoint k.id.toNat).isLt), BitVec.ofNat_toNat, BitVec.setWidth_eq]

theorem State.takenSlot_t (s : State) (k : Take) : (s.takenSlot k).t = k.t := by
  have h : ((s.takenSlot k).header.drop 16).take 8 = leBytes k.t.toNat 8 := rfl
  rw [CkSlot.t, h, leNat_leBytes, Nat.mod_eq_of_lt (show _ < 256 ^ 8 from k.t.isLt), BitVec.ofNat_toNat, BitVec.setWidth_eq]

theorem State.takenSlot_valid (s : State) (k : Take) : (s.takenSlot k).valid = true := by
  unfold CkSlot.valid
  rw [State.takenSlot_seq, State.takenSlot_t]
  exact decide_eq_true rfl

/-- A take that ends well: its slot is written under the number that follows. -/
theorem State.takeEnds_ok {s : State} {k : Take} (h : (s.takeEnds k).2 = 0) :
    (s.takeEnds k).1 = ((s.dropTake k).setCkSlot k.id.toNat (s.nextCheckpoint k.id.toNat) CkSlot.zero).setCkSlot k.id.toNat (s.nextCheckpoint k.id.toNat) (s.takenSlot k) := by
  unfold State.takeEnds at h ⊢
  dsimp only at h ⊢
  split at h
  · next c hc =>
    obtain ⟨p, -, hp⟩ := List.exists_of_findSome?_eq_some hc
    dsimp only at h
    subst h
    split at hp
    · cases hp
    · split at hp <;> cases hp
  · next hc =>
    split at h
    · cases h
    · next hr =>
      rw [if_neg hr]
      rfl

/-- A take whose cut a round has passed ends: it is gone, and its identifier's valid slot holds its pages and its T. -/
theorem checkpointTake_ends {s : State} {n : Nat} {q : DepotReq} {k : Take} (hq : s.depotQ[n]? = some q) (hk : s.takes.find? (fun y => y.req = q) = some k)
    (ht : k.t < s.lastM) (hs : q.irrev = true ∨ safe s.lastM s.lastSettled q.key.vrt = true) (he : (s.takeEnds k).2 = 0) (hw : ∀ p ∈ k.pages, s.walking p.1 = false)
    (hm : ∀ x, s.validSlot k.id.toNat = some x → x.seq ≠ BitVec.allOnes 64) :
    Happens (.checkpointTake n) s fun t => k ∉ t.takes ∧ ∃ x, t.validSlot k.id.toNat = some x ∧ x.t = k.t ∧ x.pages.map (fun p => p.1) = k.pages.map fun p => p.1 := by
  have hi : execCheckpointTake n s = (s.takeEnds k).1.checkAnswer q (s.takeEnds k).2 none := by
    unfold execCheckpointTake
    dsimp only
    rw [hq]
    dsimp only
    rw [hk]
    dsimp only
    have hany : (k.pages.any fun p => s.walking p.1) = false := List.any_eq_false.2 fun p hp => by simp [hw p hp]
    rw [if_neg]
    rw [hany]
    rintro (h | h | h)
    · simp [ht] at h
    · rcases hs with hs | hs <;> simp [hs] at h
    · cases h
  obtain ⟨t, e, ha, -⟩ := (s.takeEnds k).1.checkAnswer_next q (s.takeEnds k).2 none
  rw [State.takeEnds_ok he] at ha
  refine ⟨t, (exec_checkpointTake n s).trans (hi.trans e), ?_, s.takenSlot k, ?_, s.takenSlot_t k, ?_⟩
  · rw [ha.takes]
    intro h
    have h : k ∈ s.takes.filter (· ≠ k) := h
    simp at h
  · rw [ha.validSlot]
    have hv : ∀ u v : State, u.ckSlots k.id.toNat = v.ckSlots k.id.toNat → u.validSlot k.id.toNat = v.validSlot k.id.toNat := fun u v h => by
      unfold State.validSlot; rw [h]
    rw [hv _ _ (State.setCkSlot_setCkSlot_ckSlots ..)]
    exact State.validSlot_setCkSlot rfl hm (s.takenSlot_valid k) (s.takenSlot_seq k)
  · simp [State.takenSlot]

/-! ### A restore of one page (R265) -/

/-- A page of a checkpoint's slot written into a frame: its content, valid and changed. -/
def State.restorePage (s : State) (p f : Nat) (cells : List Host.Cell) : State :=
  let t := s.pageInto p f
  let b := t.base (homePage p)
  (t.setBase (homePage p) { b with dram := b.dram.setPage f cells }).setLeaf p { t.leaf p with dirty := true }

theorem cellAt_none {a : Nat} {l : List Host.Cell} (h : ∀ c ∈ l, c.1 ≠ a) : cellAt a l = none := by
  induction l with
  | nil => rfl
  | cons c l ih =>
    obtain ⟨k, v⟩ := c
    rw [cellAt, if_neg (h _ List.mem_cons_self)]
    exact ih fun c hc => h c (List.mem_cons_of_mem _ hc)

theorem fogByte_clear {a : Nat} {l : List Fog} (h : ∀ x ∈ l, ¬ (x.lo ≤ a ∧ a < x.hi)) : fogByte a l = 0 := by
  induction l with
  | nil => rfl
  | cons x l ih =>
    rw [fogByte, if_neg (h x List.mem_cons_self)]
    exact ih fun y hy => h y (List.mem_cons_of_mem _ hy)

/-- A byte of a range that has been cleared reads zero. -/
theorem Mem.byte_clear (m : Mem) {lo hi a : Nat} (h : lo ≤ a ∧ a < hi) : (m.clear lo hi).byte a = 0 := by
  have hc : cellAt a (m.clear lo hi).cells = none := cellAt_none fun c hc e => by
    have := (List.mem_filter.1 hc).2
    rw [e] at this
    simp [h] at this
  have hf : fogByte a (m.clear lo hi).fog = 0 := fogByte_clear fun x hx hin => by
    obtain ⟨y, -, hy⟩ := List.mem_flatMap.1 hx
    rcases List.mem_append.1 hy with hy | hy
    · split at hy
      · obtain rfl := List.mem_singleton.1 hy
        dsimp only at hin; omega
      · cases hy
    · split at hy
      · obtain rfl := List.mem_singleton.1 hy
        dsimp only at hin; omega
      · cases hy
  unfold Mem.byte
  rw [hc, hf]
  rfl

/-- Cells with rising addresses written one after another above an address. -/
theorem Mem.byte_foldl_set (lo : Nat) {l : List Host.Cell} (hl : Rising l) (m : Mem) (j : Nat) :
    (l.foldl (fun (m : Mem) c => m.set (lo + c.1) c.2) m).byte (lo + j) = (cellAt j l).getD (m.byte (lo + j)) := by
  induction l generalizing m with
  | nil => rfl
  | cons c l ih =>
    obtain ⟨k, v⟩ := c
    obtain ⟨h1, h2⟩ := rising_cons.1 hl
    rw [List.foldl_cons, ih h2, cellAt]
    by_cases e : k = j
    · subst e
      rw [if_pos rfl, cellAt_none fun c hc => Nat.ne_of_gt (h1 c hc)]
      exact Mem.byte_set_same ..
    · rw [if_neg e, Mem.byte_set_ne _ (by dsimp only; omega)]

/-- A frame filled with a page reads as the page. -/
theorem Mem.byte_setPage (m : Mem) (f : Nat) {cells : List Host.Cell} (hc : Mem.wf ⟨cells, []⟩) {j : Nat} (hj : j < 65536) :
    (m.setPage f cells).byte (f * 65536 + j) = Mem.byte ⟨cells, []⟩ j := by
  obtain ⟨hr, -⟩ := (Mem.wf_iff _).1 hc
  unfold Mem.setPage
  dsimp only
  rw [Mem.byte_foldl_set _ hr, Mem.byte_clear _ (by omega)]
  rfl

section
variable {s : State} {p : Nat}

/-- Notices have left for pagers: nothing is changed but what the homes have noticed and what they no longer hold for a page. -/
structure Told (s t : State) : Prop extends Quiet s t where
  chans : t.chans = s.chans

theorem Told.refl (s : State) : Told s s := ⟨.refl s, rfl⟩

theorem Told.trans {s t u : State} (h : Told s t) (g : Told t u) : Told s u := ⟨h.toQuiet.trans g.toQuiet, g.chans.trans h.chans⟩

theorem Told.faultNotice (s : State) (p : Nat) (tenant : BitVec 4) (b : Bool) : Told s (s.faultNotice p tenant b) := by
  unfold State.faultNotice
  dsimp only
  split
  · exact .refl s
  · refine ⟨Quiet.trans ?_ (.postMsg ..), rfl⟩
    exact .setBase _ _ rfl

theorem Told.foldl {α : Type} {f : State → α → State} (hf : ∀ t x, Told t (f t x)) (l : List α) (s : State) : Told s (l.foldl f s) := by
  induction l generalizing s with
  | nil => exact .refl s
  | cons x l ih => exact (hf s x).trans (ih _)

theorem Told.noFrame (s : State) (h : Nat) : Told s (s.noFrame h) := by
  unfold State.noFrame
  dsimp only
  split
  · exact .refl s
  · exact .foldl (fun t x => .faultNotice ..) _ s

/-- A page on which nothing waits: that it has become valid changes what its home has noticed. -/
theorem Told.unpark (h : ∀ y ∈ (s.base (homePage p)).parked, y.page ≠ p) : Told s (s.unpark p) := by
  unfold State.unpark
  dsimp only
  have none : ∀ d : Parked → Bool, ((s.base (homePage p)).parked.filter fun x => decide (x.page = p) && d x) = [] := fun d =>
    List.filter_eq_nil_iff.2 fun y hy => by simp [h y hy]
  rw [none]
  exact ⟨.setBase _ _ rfl, rfl⟩

theorem look_map {α β : Type} {f : α → α} {g : α → β} (hf : ∀ x, g (f x) = g x) (d : α) (k : Nat) (l : List (Nat × α)) :
    g (look d k (l.map fun c => (c.1, f c.2))) = g (look d k l) := by
  induction l with
  | nil => rfl
  | cons c l ih =>
    obtain ⟨j, x⟩ := c
    simp only [List.map_cons, look]
    split
    · exact hf x
    · exact ih

theorem State.dropLines_parked (s : State) (p : Nat) : ((s.dropLines p).base (homePage p)).parked = (s.base (homePage p)).parked := by
  unfold State.dropLines
  dsimp only
  rw [State.base_setBase]
  exact look_map (f := fun b : Base => { b with cache := b.cache.filter fun x => ! decide (x.line / 512 = p), badLines := b.badLines.filter fun l => ! decide (l / 512 = p) })
    (g := Base.parked) (fun _ => rfl) Base.reset (homePage p) s.bases

theorem State.restorePage_parked (s : State) (p f : Nat) (cells : List Host.Cell) : ((s.restorePage p f cells).base (homePage p)).parked = (s.base (homePage p)).parked := by
  unfold State.restorePage State.pageInto
  simp [State.setLeaf, State.base, State.setBase]

theorem State.restorePage_leaf (s : State) (p f : Nat) (cells : List Host.Cell) :
    (s.restorePage p f cells).leaf p = { s.leaf p with valid := true, depot := false, dirty := true, frame := BitVec.ofNat 20 f } := by
  unfold State.restorePage State.pageInto
  simp [State.setLeaf, State.leaf, State.setBase]

theorem State.restorePage_leaf_ne (s : State) {p j : Nat} (h : j ≠ p) (f : Nat) (cells : List Host.Cell) : (s.restorePage p f cells).leaf j = s.leaf j := by
  unfold State.restorePage State.pageInto
  simp [State.setLeaf, State.leaf, State.setBase, look_put_ne h]

theorem State.restorePage_dram (s : State) (p f : Nat) {cells : List Host.Cell} (hc : Mem.wf ⟨cells, []⟩) {j : Nat} (hj : j < 65536) :
    ((s.restorePage p f cells).base (homePage p)).dram.byte (f * 65536 + j) = Mem.byte ⟨cells, []⟩ j := by
  have h : ∃ m : Mem, ((s.restorePage p f cells).base (homePage p)).dram = m.setPage f cells :=
     ⟨((s.pageInto p f).base (homePage p)).dram, congrArg Base.dram (State.base_setBase (s.pageInto p f) (homePage p) _)⟩
  obtain ⟨m, h⟩ := h
  rw [h, Mem.byte_setPage m f hc hj]

theorem State.framesFor_valid (h : (s.leaf p).valid = true) : s.framesFor [p].eraseDups = true := by
  unfold State.framesFor
  simp [List.eraseDups_cons, h]

/-- A restore of a slot of one page that is in DRAM, on which nothing waits: the page has the slot's bytes, and nothing else has changed. -/
theorem checkpointRestore_page {n f : Nat} {r : DepotReq} {ch : DepotChan} {x : CkSlot} {b : Bool} {cells : List Host.Cell} (hs : s.served n .checkpoint = some (r, ch)) (hl : ch.live = true)
    (hz : r.word 3 / 65536 % 2 ^ 44 = 0) (hop : r.word 3 / 2 ^ 60 = 1) (hv : s.validSlot (r.word 3 % 65536) = some x) (hb : x.bad = false) (hx : x.pages = [(p, b, cells)])
    (ho : s.foreign r [p] = false) (hp : (s.leaf p).valid = true) (hq : s.quiet p = true) (hk : ∀ y ∈ (s.base (homePage p)).parked, y.page ≠ p)
    (hc : Mem.wf ⟨cells, []⟩) (hf : f = (s.leaf p).frame.toNat) :
    Happens (.checkpointRestore n) s fun t => CheckSent t ch 0 (fun _ => True) ∧ (t.leaf p).valid = true ∧ (t.leaf p).dirty = true ∧
      (∀ j < 65536, (t.base (homePage p)).dram.byte (f * 65536 + j) = Mem.byte ⟨cells, []⟩ j) ∧ (∀ j, j ≠ p → t.leaf j = s.leaf j) ∧ PadsKept s t ∧ RegsKept s t := by
  have hi : execCheckpointRestore n s = ((List.range 8).foldl State.noFrame (((s.dropLines p).restorePage p f cells).unpark p)).checkAnswer r 0 none := by
    unfold execCheckpointRestore
    dsimp only
    rw [hs]
    dsimp only
    rw [hop, hz, hv]
    dsimp only
    rw [hx, hb]
    simp only [List.map_cons, List.map_nil, ho, State.framesFor_valid hp, List.all_cons, List.all_nil, hq, List.foldl_cons, List.foldl_nil]
    rw [if_neg (by simp), if_neg (by simp), if_neg (by simp), if_neg (by simp), if_neg (by simp),
      show ((s.dropLines p).leaf p) = s.leaf p from rfl, if_pos hp, ← hf]
    rfl
  have hw : ∀ y ∈ (((s.dropLines p).restorePage p f cells).base (homePage p)).parked, y.page ≠ p := by
    rw [State.restorePage_parked, State.dropLines_parked]; exact hk
  have told := (Told.unpark hw).trans (.foldl Told.noFrame (List.range 8) _)
  have hcores : ((s.dropLines p).restorePage p f cells).cores = s.cores := rfl
  have hchans : ((s.dropLines p).restorePage p f cells).chans = s.chans := rfl
  have hleaf : ((s.dropLines p).restorePage p f cells).leaf p = _ := State.restorePage_leaf ..
  have hother : ∀ j, j ≠ p → ((s.dropLines p).restorePage p f cells).leaf j = s.leaf j := fun j hj => State.restorePage_leaf_ne _ hj f cells
  have hdram := fun j hj => State.restorePage_dram (s.dropLines p) p f hc (j := j) hj
  generalize (s.dropLines p).restorePage p f cells = u at hi told hcores hchans hleaf hother hdram
  generalize (List.range 8).foldl State.noFrame (u.unpark p) = v at hi told
  obtain ⟨t, e, ha, hm⟩ := v.checkAnswer_next r 0 none
  obtain ⟨-, hch, -⟩ := State.served_some hs
  have hchan : v.chan r.chan = some ch := by
    unfold State.chan at hch ⊢
    rw [told.chans, hchans, hch]
  have quiet : Quiet u t := told.toQuiet.trans ha.quiet
  obtain ⟨hd, -, -, hleaves, -⟩ := quiet.store
  have leaf : ∀ j, t.leaf j = u.leaf j := fun j => by unfold State.leaf; rw [hleaves]
  have core : ∀ c, u.core c = s.core c := fun c => by unfold State.core; rw [hcores]
  refine ⟨t, (exec_checkpointRestore n s).trans (hi.trans e), (hm ch hchan hl).imp fun _ _ => trivial, ?_, ?_, fun j hj => ?_, fun j hj => ?_, fun c => ?_, fun c x => ?_⟩
  · rw [leaf, hleaf]
  · rw [leaf, hleaf]
  · rw [hd, hdram j hj]
  · rw [leaf, hother j hj]
  · rw [← core c]; exact quiet.padsKept c
  · have h : ctxOn s c x = ctxOn u c x := by
      show (s.core c).ctxs[x.toNat] = (u.core c).ctxs[x.toNat]
      simp only [core]
    rw [h]; exact quiet.toStill.regsKept c x

end
end Sys2Proof.Machine
end

section
namespace Sys2Proof.Machine
open Sys2Proof.Safety

/-! ## The loader (R57, R211, R212) -/

theorem exec_codeUnload (n : Nat) (s : State) : exec (.codeUnload n) s = execCodeUnload n s := rfl
theorem exec_codeLoad (n : Nat) (s : State) : exec (.codeLoad n) s = execCodeLoad n s := rfl
theorem exec_codeScan (c : BitVec 12) (s : State) : exec (.codeScan c) s = execCodeScan c s := rfl

/-- The core that a request of the loader names. -/
def loaderCore (w1 : Nat) : CoreId := BitVec.ofNat 12 (w1 / 2 ^ 32 % 1024 * 4 + w1 / 2 ^ 42 % 4)

/-- An unload of an image from a core whose fields are sound. -/
def State.unloadFrom (s : State) (r : DepotReq) (c : CoreId) (num : BitVec 16) : Out :=
  let answer (s : State) (cause : BitVec 9) : Out := .next (s.depotReply r (loadReply num.toNat 0 cause))
  match (s.core c).images.find? fun i => i.num = num && i.tenant = r.actor.tenant with
  | none => answer s 0x1A5
  | some img =>
    if (s.core c).actors.any fun a => a.2.aid.tenant = r.actor.tenant && a.2.image = num then answer s 0x1A4
    else answer ((s.setCore c ((s.core c).unload img)).syncDir c) 0

theorem State.countScan_cores (s : State) (cause : BitVec 9) : (s.countScan cause).cores = s.cores := by
  unfold State.countScan
  split <;> rfl

theorem State.countScan_chans (s : State) (cause : BitVec 9) : (s.countScan cause).chans = s.chans := by
  unfold State.countScan
  split <;> rfl

theorem State.countScan_counted (s : State) {cause : BitVec 9} (h : (0x1E0 : BitVec 9) ≤ cause) : Counted s (s.countScan cause) 0x3078 := by
  unfold State.countScan
  rw [if_pos h]
  exact s.count_value _

section
variable {s : State} {n w1 : Nat} {r : DepotReq} {ch : DepotChan} {c : CoreId} {num : BitVec 16}

theorem execCodeUnload_served (hs : s.served n .loader = some (r, ch)) (hw : w1 = (r.words.getD 1 0).toNat) (hc : c = loaderCore w1) (hop : w1 / 2 ^ 62 = 1)
    (hz : w1 / 2 ^ 44 % 2 ^ 18 = 0) (ha : w1 % 65536 = 0) (h2 : r.words.getD 2 0 = 0) (h3 : r.words.getD 3 0 = 0) (hscan : (s.core c).scan = none) (hh : s.halted c = false) :
    execCodeUnload n s = s.unloadFrom r c (BitVec.ofNat 16 (w1 / 2 ^ 16)) := by
  unfold loaderCore at hc
  unfold execCodeUnload
  dsimp only
  rw [hs]
  dsimp only
  rw [← hw, hop, hz, ha, h2, h3, ← hc, hscan, hh]
  rfl

theorem State.unloadFrom_absent (h : ∀ i ∈ (s.core c).images, ¬ (i.num = num ∧ i.tenant = r.actor.tenant)) :
    s.unloadFrom r c num = .next (s.depotReply r (loadReply num.toNat 0 0x1A5)) := by
  have hf : ((s.core c).images.find? fun i => i.num = num && i.tenant = r.actor.tenant) = none :=
    List.find?_eq_none.2 fun i hi => by simpa using h i hi
  unfold State.unloadFrom
  rw [hf]

theorem State.unloadFrom_used {img : Image} (h : (s.core c).images.find? (fun i => i.num = num && i.tenant = r.actor.tenant) = some img)
    (hu : ∃ a ∈ (s.core c).actors, a.2.aid.tenant = r.actor.tenant ∧ a.2.image = num) : s.unloadFrom r c num = .next (s.depotReply r (loadReply num.toNat 0 0x1A4)) := by
  have hany : ((s.core c).actors.any fun a => a.2.aid.tenant = r.actor.tenant && a.2.image = num) = true := by
    obtain ⟨a, ha, h1, h2⟩ := hu
    exact List.any_eq_true.2 ⟨a, ha, by simp [h1, h2]⟩
  unfold State.unloadFrom
  rw [h]
  dsimp only
  rw [if_pos hany]

theorem State.unloadFrom_unused {img : Image} (h : (s.core c).images.find? (fun i => i.num = num && i.tenant = r.actor.tenant) = some img)
    (hu : ∀ a ∈ (s.core c).actors, ¬ (a.2.aid.tenant = r.actor.tenant ∧ a.2.image = num)) :
    s.unloadFrom r c num = .next (((s.setCore c ((s.core c).unload img)).syncDir c).depotReply r (loadReply num.toNat 0 0)) := by
  have hany : ((s.core c).actors.any fun a => a.2.aid.tenant = r.actor.tenant && a.2.image = num) = false :=
    List.any_eq_false.2 fun a ha => by simpa using hu a ha
  unfold State.unloadFrom
  rw [h]
  dsimp only
  rw [hany]
  rfl

/-- What the directory's counts brought up to date leave of a core. -/
theorem State.core_syncDir (s : State) (c : CoreId) : ∃ d i h, (s.syncDir c).core c = { s.core c with dir := d, itab := i, shapes := h } := by
  obtain ⟨d, i, h, e⟩ := s.syncDir_eq c
  exact ⟨d, i, h, by rw [e, State.core_setCore]⟩

/-- An answer of the loader with nothing else done but a rejection counted. -/
theorem loader_refuses {i : Instr} {u : State} {p : List Byte} (hs : s.served n .loader = some (r, ch)) (hl : ch.live = true) (hi : exec i s = .next (u.depotReply r p))
    (hu : u.chans = s.chans) (hk : u.cores = s.cores) : Happens i s fun t => AnswerSent t ch p ∧ t.cores = s.cores :=
  ⟨_, hi, State.served_sent hs hl hu p, (State.depotReply_answered ..).cores.trans hk⟩

/-- An image that no actor runs is unloaded: it is gone, with its instruction starts. -/
theorem codeUnload_ends {img : Image} (hs : s.served n .loader = some (r, ch)) (hl : ch.live = true)
    (hi : exec (.codeUnload n) s = .next (((s.setCore c ((s.core c).unload img)).syncDir c).depotReply r (loadReply num.toNat 0 0))) :
    Happens (.codeUnload n) s fun t => AnswerSent t ch (loadReply num.toNat 0 0) ∧ (t.core c).images = (s.core c).images.filter (· ≠ img) ∧
      (∀ p ∈ (t.core c).starts, p < img.base / 2 ∨ img.base / 2 + img.len / 2 ≤ p) ∧ WorkAt c s t := by
  have ha := State.depotReply_answered ((s.setCore c ((s.core c).unload img)).syncDir c) r (loadReply num.toNat 0 0)
  have hw : WorkAt c s ((s.setCore c ((s.core c).unload img)).syncDir c) := (WorkAt.setCore (k := (s.core c).unload img) rfl rfl rfl).trans .syncDir
  obtain ⟨d, i, h, hk⟩ := State.core_syncDir (s.setCore c ((s.core c).unload img)) c
  rw [State.core_setCore] at hk
  refine ⟨_, hi, State.served_sent (u := (s.setCore c ((s.core c).unload img)).syncDir c) hs hl rfl _, ?_, fun p hp => ?_, hw.trans (.answered ha)⟩
  · rw [ha.core, hk]; rfl
  · rw [ha.core, hk] at hp
    have := (List.mem_filter.1 hp).2
    simp only [Bool.not_eq_true', Bool.and_eq_false_iff, decide_eq_false_iff_not] at this
    omega

end

/-! ### A load (R211, R302) -/

section
variable {s : State} {n w0 w1 : Nat} {r : DepotReq} {ch : DepotChan} {c : CoreId} {d code : List Byte} {img : Image} {head : List Block × Nat}

/-- A load whose request is sound, whose descriptor, code and blocks can be read, and whose image has a place. -/
structure Loads (s : State) (n w0 w1 : Nat) (r : DepotReq) (ch : DepotChan) (c : CoreId) (d code : List Byte) (img : Image) (head : List Block × Nat) : Prop where
  served : s.served n .loader = some (r, ch)
  live : ch.live = true
  word0 : w0 = (r.words.getD 0 0).toNat
  word1 : w1 = (r.words.getD 1 0).toNat
  core : c = loaderCore w1
  op : w1 / 2 ^ 62 = 0
  zero : w1 / 2 ^ 44 % 2 ^ 18 = 0
  noNumber : w1 / 2 ^ 16 % 2 ^ 16 = 0
  even : w1 % 2 = 0
  aligned : w0 % 64 = 0
  word2 : r.words.getD 2 0 = 0
  word3 : r.words.getD 3 0 = 0
  scan : (s.core c).scan = none
  runs : s.halted c = false
  descriptor : s.engineRefused r.loc.core r.actor.tenant true w0 512 = none
  read : d = s.engineBytes w0 512
  image : img = readImage d (w1 % 65536)
  codeRead : s.engineRefused r.loc.core r.actor.tenant true (field d 16 8) img.len = none
  blocks : head = readBlocks (min (field d 480 8) 128) (s.engineBytes (field d 24 8) (min (field d 480 8) 128 * 1040))
  blocksRead : s.engineRefused r.loc.core r.actor.tenant false (field d 24 8) head.2 = none
  bytes : code = s.engineBytes (field d 16 8) img.len
  nonempty : img.len ≠ 0
  whole : img.len % 2 = 0
  place : (s.core c).placeRefused { img with tenant := r.actor.tenant } = none

/-- The loader's step comes down to the checks of the digest and of the descriptor. -/
theorem Loads.exec (h : Loads s n w0 w1 r ch c d code img head) : execCodeLoad n s =
    if sha256 (code ++ d.drop 64 ++ s.engineBytes (field d 24 8) head.2) ≠ (d.drop 32).take 32 then .next ((s.countScan 0x1E9).depotReply r (loadReply img.num.toNat 0 0x1E9))
    else if img.tenant ≠ r.actor.tenant then .next ((s.countScan 0x1EA).depotReply r (loadReply img.num.toNat 0 0x1EA))
    else if field d 6 2 ≠ 1 then .next ((s.countScan 0x1EB).depotReply r (loadReply img.num.toNat 0 0x1EB))
    else if ! descriptorOk d ∨ ! (img.data.all (dataOk img.zones)) then .next ((s.countScan 0x1EC).depotReply r (loadReply img.num.toNat 0 0x1EC))
    else .next (s.setCore c { (s.core c).writeCode (w1 % 65536) code with scan := some ⟨img, head.1, r⟩ }) := by
  obtain ⟨hs, hl, hw0, hw1, hc, hop, hz, hnum, heven, hal, h2, h3, hscan, hh, hd, hread, himg, hcr, hblocks, hbr, hbytes, hsome, hwhole, hplace⟩ := h
  unfold loaderCore at hc
  have heven' : w1 % 65536 % 2 = 0 := by omega
  have fields : ¬ (w1 / 2 ^ 62 ≠ 0 ∨ w1 / 2 ^ 44 % 2 ^ 18 ≠ 0 ∨ w1 / 2 ^ 16 % 2 ^ 16 ≠ 0 ∨ w1 % 65536 % 2 ≠ 0 ∨ w0 % 64 ≠ 0 ∨ r.words.getD 2 0 ≠ 0 ∨ r.words.getD 3 0 ≠ 0) := by
    simp only [hop, hz, hnum, heven', hal, h2, h3]
    decide
  unfold execCodeLoad
  dsimp only
  rw [hs]
  dsimp only
  rw [← hw0, ← hw1, if_neg (by omega), ← hc, if_neg fields, if_neg (by simp [hscan, hh]), hd]
  dsimp only
  rw [← hread, ← himg, hcr]
  dsimp only
  rw [← hblocks, hbr, ← hbytes]
  dsimp only
  rw [if_neg (by omega), hplace]

/-- A load whose digest is wrong is rejected. -/
theorem codeLoad_digest (h : Loads s n w0 w1 r ch c d code img head) (hne : sha256 (code ++ d.drop 64 ++ s.engineBytes (field d 24 8) head.2) ≠ (d.drop 32).take 32) :
    Happens (.codeLoad n) s fun t => AnswerSent t ch (loadReply img.num.toNat 0 0x1E9) ∧ t.cores = s.cores :=
  loader_refuses h.served h.live ((exec_codeLoad n s).trans (h.exec.trans (if_pos hne))) (s.countScan_chans _) (s.countScan_cores _)

/-- A load whose image is sound writes its code and starts its scan. -/
theorem codeLoad_starts (h : Loads s n w0 w1 r ch c d code img head) (heq : sha256 (code ++ d.drop 64 ++ s.engineBytes (field d 24 8) head.2) = (d.drop 32).take 32)
    (ht : img.tenant = r.actor.tenant) (hv : field d 6 2 = 1) (hd : descriptorOk d = true) (hr : ∀ x ∈ img.data, dataOk img.zones x = true) :
    Happens (.codeLoad n) s fun t => (t.core c).scan = some ⟨img, head.1, r⟩ ∧ (t.core c).images = (s.core c).images ∧ WorkAt c s t ∧
      (∀ j < code.length, some ((t.core c).code.byte (img.base + j)) = code[j]?) ∧ ∀ y, (y < img.base ∨ img.base + code.length ≤ y) → (t.core c).code.byte y = (s.core c).code.byte y := by
  have hall : img.data.all (dataOk img.zones) = true := List.all_eq_true.2 hr
  have hi := h.exec
  rw [if_neg (by simpa using heq), if_neg (by simpa using ht), if_neg (by simpa using hv), if_neg (by simp [hd, hall])] at hi
  have hb : img.base = w1 % 65536 := by rw [h.image]; rfl
  refine ⟨_, (exec_codeLoad n s).trans hi, ?_, ?_, .setCore rfl rfl rfl, fun j hj => ?_, fun y hy => ?_⟩
  · rw [State.core_setCore]
  · rw [State.core_setCore]; rfl
  · rw [State.core_setCore, hb]
    exact (congrArg some (Mem.byte_setBytes_in _ _ _ _ hj)).trans (List.getElem?_eq_getElem hj).symm
  · rw [State.core_setCore]
    rw [hb] at hy
    exact Mem.byte_setBytes_out _ _ _ _ hy

end

/-! ### A scan (R54, R57) -/

section
variable {k k' : Core} {t : BitVec 4}

/-- Blocks loaded change the directory, the itinerary table and the shapes. -/
theorem Core.loadBlock_tables {b : Block} (h : k.loadBlock t b = .ok k') : k' = { k with dir := k'.dir, itab := k'.itab, shapes := k'.shapes } := by
  unfold Core.loadBlock at h
  dsimp only at h
  repeat' split at h
  all_goals cases h
  all_goals rfl

theorem Core.loadBlocks_tables {l : List Block} (h : k.loadBlocks t l = .ok k') : k' = { k with dir := k'.dir, itab := k'.itab, shapes := k'.shapes } := by
  induction l generalizing k with
  | nil => cases h; rfl
  | cons b l ih =>
    unfold Core.loadBlocks at h
    split at h
    · next k1 h1 => rw [ih h, Core.loadBlock_tables h1]
    · cases h

/-- An accepted image changes the tables, the instruction starts and the list of images. -/
theorem Core.accept_rest {img : Image} {l : List Block} (h : k.accept img l = .ok k') :
    k' = { k with dir := k'.dir, itab := k'.itab, shapes := k'.shapes, starts := k'.starts, images := k'.images } := by
  unfold Core.accept at h
  dsimp only at h
  split at h
  · cases h
  · split at h
    · cases h
    · split at h
      · cases h
      · next k1 h1 =>
        cases h
        rw [Core.loadBlocks_tables h1]

end

section
variable {s : State} {c : BitVec 12} {x : Scan} {ch : DepotChan}

theorem execCodeScan_ok {k : Core} (hx : (s.core c).scan = some x) (hh : s.halted c = false) (hk : Core.accept { s.core c with scan := none } x.image x.blocks = .ok k) :
    execCodeScan c s = .next (((s.setCore c k).syncDir c).depotReply x.reply (loadReply x.image.num.toNat 0 0)) := by
  unfold execCodeScan
  dsimp only
  rw [hx]
  dsimp only
  rw [hh, hk]
  rfl

theorem execCodeScan_error {e : BitVec 9 × Nat} (hx : (s.core c).scan = some x) (hh : s.halted c = false) (hk : Core.accept { s.core c with scan := none } x.image x.blocks = .error e) :
    execCodeScan c s = .next (((s.setCore c { s.core c with scan := none }).countScan e.1).depotReply x.reply (loadReply x.image.num.toNat e.2 e.1)) := by
  unfold execCodeScan
  dsimp only
  rw [hx]
  dsimp only
  rw [hh, hk]
  rfl

/-- A scan that passes makes the image executable. -/
theorem codeScan_passes {k : Core} (hx : (s.core c).scan = some x) (hh : s.halted c = false) (hc : s.chan x.reply.chan = some ch) (hl : ch.live = true)
    (hk : Core.accept { s.core c with scan := none } x.image x.blocks = .ok k) :
    Happens (.codeScan c) s fun t => (t.core c).scan = none ∧ (t.core c).images = k.images ∧ (t.core c).starts = k.starts ∧
      AnswerSent t ch (loadReply x.image.num.toNat 0 0) ∧ WorkAt c s t := by
  have hrest := Core.accept_rest hk
  have ha := State.depotReply_answered ((s.setCore c k).syncDir c) x.reply (loadReply x.image.num.toNat 0 0)
  have hw : WorkAt c s ((s.setCore c k).syncDir c) := (WorkAt.setCore (by rw [hrest]) (by rw [hrest]) (by rw [hrest])).trans .syncDir
  obtain ⟨d, i, h, hcore⟩ := State.core_syncDir (s.setCore c k) c
  rw [State.core_setCore] at hcore
  refine ⟨_, (exec_codeScan c s).trans (execCodeScan_ok hx hh hk), ?_, ?_, ?_, State.depotReply_sent (s := (s.setCore c k).syncDir c) hc hl _, hw.trans (.answered ha)⟩
  · rw [ha.core, hcore, hrest]
  · rw [ha.core, hcore]
  · rw [ha.core, hcore]

/-- A scan that fails answers its cause, and a rejection is counted. -/
theorem codeScan_fails {e : BitVec 9 × Nat} (hx : (s.core c).scan = some x) (hh : s.halted c = false) (hc : s.chan x.reply.chan = some ch) (hl : ch.live = true)
    (hk : Core.accept { s.core c with scan := none } x.image x.blocks = .error e) :
    Happens (.codeScan c) s fun t => t.core c = { s.core c with scan := none } ∧ AnswerSent t ch (loadReply x.image.num.toNat e.2 e.1) ∧
      ((0x1E0 : BitVec 9) ≤ e.1 → Counted s t 0x3078) ∧ OtherCores s t c := by
  have hw : WorkAt c s (s.setCore c { s.core c with scan := none }) := .setCore rfl rfl rfl
  have hcore : (s.setCore c { s.core c with scan := none }).core c = _ := State.core_setCore ..
  have hm : (s.setCore c { s.core c with scan := none }).mgmt = s.mgmt := rfl
  have hch : (s.setCore c { s.core c with scan := none }).chan x.reply.chan = some ch := hc
  have hi := execCodeScan_error hx hh hk
  generalize s.setCore c { s.core c with scan := none } = u at hi hw hcore hm hch
  have ha := State.depotReply_answered (u.countScan e.1) x.reply (loadReply x.image.num.toNat e.2 e.1)
  have core : ∀ d, ((u.countScan e.1).depotReply x.reply (loadReply x.image.num.toNat e.2 e.1)).core d = u.core d := fun d => by
    unfold State.core
    rw [ha.cores, State.countScan_cores]
  refine ⟨_, (exec_codeScan c s).trans hi, ?_, State.depotReply_sent ?_ hl _, fun he => ?_, fun d hd => ?_⟩
  · rw [core, hcore]
  · unfold State.chan at hch ⊢
    rw [State.countScan_chans, hch]
  · have := u.countScan_counted he
    unfold Counted at this ⊢
    rw [ha.mgmt, this, hm]
  · rw [core, hw.other d hd]

end
end Sys2Proof.Machine
end

section
namespace Sys2Proof.Machine
open Sys2Proof.Safety

/-! ## Eviction (R258) -/

theorem exec_evictActor (n : Nat) (s : State) : exec (.evictActor n) s = execEvictActor n s := rfl
theorem exec_reloadActor (n : Nat) (s : State) : exec (.reloadActor n) s = execReloadActor n s := rfl

theorem withPages_served {name : String} {op : Nat → Bool} {n : Nat} {s : State} {k : DepotReq → DepotChan → Out} {r : DepotReq} {ch : DepotChan}
    (hs : s.served n .page = some (r, ch)) (ho : op r.page.op = true) (h5 : 5 ≤ r.page.op) : withPages name op n s k = k r ch := by
  unfold withPages
  rw [hs]
  exact if_pos ⟨ho, .inl h5⟩

/-- The save area of an actor that is evicted. -/
def State.areaOf (s : State) (k : BitVec 4) (toDepot : Bool) : Saved :=
  let a := s.actorAt k
  let c := s.hereCore
  { actor := a, pad := c.pad.cells.filter fun p => a.copied p.1, full := c.full.filter fun w => a.copied (8 * w),
    deferral := c.deferral.filter fun d => d.slot = k, antis := c.antis.filter fun y => y.1 = a.aid, last := ⟨s.here, k⟩,
    inDepot := toDepot, frames := if toDepot then 0 else 4, bad := false }

/-- The home base of an actor that is evicted, with its save area. -/
def State.baseWithArea (s : State) (k : BitVec 4) (toDepot : Bool) : Base :=
  let b := s.base (homeOf (s.actorAt k).aid)
  { b with saved := b.saved ++ [s.areaOf k toDepot], poolUsed := b.poolUsed + (if toDepot then 0 else 4) }

section
variable (u : State) (k : BitVec 4) (toDepot : Bool)

theorem State.evict_eq :
    u.evict k toDepot = ((u.setBase (homeOf (u.actorAt k).aid) (u.baseWithArea k toDepot)).setCore u.here ((u.core u.here).vacate k)).syncDir u.here := rfl

theorem State.evict_workAt : WorkAt u.here u (u.evict k toDepot) := by
  rw [State.evict_eq]
  have hb : WorkAt u.here u (u.setBase (homeOf (u.actorAt k).aid) (u.baseWithArea k toDepot)) := .of_cores rfl (Quiet.setBase u _ (k := u.baseWithArea k toDepot) rfl).store
  exact (hb.trans (.setCore (k := (u.core u.here).vacate k) rfl rfl rfl)).trans .syncDir

theorem State.evict_actors : ((u.evict k toDepot).core u.here).actors = drop k.toNat (u.core u.here).actors := by
  rw [State.evict_eq]
  obtain ⟨d, i, h, e⟩ := State.core_syncDir ((u.setBase (homeOf (u.actorAt k).aid) (u.baseWithArea k toDepot)).setCore u.here ((u.core u.here).vacate k)) u.here
  rw [e, State.core_setCore]
  rfl

theorem State.evict_base : (u.evict k toDepot).base (homeOf (u.actorAt k).aid) = u.baseWithArea k toDepot := by
  rw [State.evict_eq]
  exact State.base_setBase u _ _

variable {u k}

theorem State.evict_savedOf {who : AId} (ha : (u.actorAt k).aid = who) (hn : u.savedOf who = none) : (u.evict k toDepot).savedOf who = some (u.areaOf k toDepot) := by
  subst ha
  unfold State.savedOf at hn ⊢
  rw [State.evict_base]
  unfold State.baseWithArea
  dsimp only
  rw [List.find?_append, hn]
  simp [State.areaOf]

end

section
variable {s : State} {n : Nat} {r : DepotReq} {ch : DepotChan} {who : AId} {l : Loc} {toDepot : Bool} {st : BitVec 9}

theorem State.atOut_next {c : CoreId} {x : BitVec 2} {f : State → Out} {t : State} (h : f { s with here := c, cx := x } = .next t) :
    s.atOut c x f = .next { t with here := s.here, cx := s.cx } := by
  unfold State.atOut
  rw [h]

/-- What an eviction asks for: a still actor, a pool with room, no error in its zones, and no earlier operation on it or its core. -/
structure Evicts (s : State) (n : Nat) (r : DepotReq) (ch : DepotChan) (who : AId) (l : Loc) : Prop where
  served : s.served n .page = some (r, ch)
  live : ch.live = true
  sound : r.pageBad = false
  pager : s.fromPager r.actor = true
  whose : who = ⟨r.actor.tenant, BitVec.ofNat 24 (r.word 0)⟩
  op : r.page.op = 5
  at_ : s.locOf who = some l
  aid : (s.residentAt l).aid = who
  unsaved : s.savedOf who = none
  alive : (s.residentAt l).retired = false
  noReload : s.actorTaken n 6 who = false
  first : s.evictsFirst n l.core = false
  still : State.still { s with here := l.core, cx := 0 } l.slot = true
  running : (s.core l.core).stopped = false
  pool : (s.base (homeOf who)).poolTaken + 4 ≤ (s.base (homeOf who)).poolFrames.toNat
  logSound : (s.residentAt l).bad = []
  padSound : (s.core l.core).badPad = []

/-- An eviction saves the actor where its request asks for, unless the Depot has no room. -/
theorem Evicts.exec (h : Evicts s n r ch who l)
    (hroom : toDepot = false → st = 0 ∧ r.word 1 / 2 ^ 56 % 2 = 0 ∨ st = 0x1A7 ∧ r.word 1 / 2 ^ 56 % 2 = 1 ∧ depotSectors < s.sectorsUsed + areaSectors who)
    (hdepot : toDepot = true → st = 0 ∧ r.word 1 / 2 ^ 56 % 2 = 1 ∧ s.sectorsUsed + areaSectors who ≤ depotSectors) :
    execEvictActor n s = .next { (State.evict { s with here := l.core, cx := 0 } l.slot toDepot).depotReply r (pageReply st 0 0) with here := s.here, cx := s.cx } := by
  obtain ⟨hs, -, hbad, hp, hwho, hop, hl, -, -, hret, hre, hfirst, hstill, hstop, hpool, hlog, hpad⟩ := h
  unfold execEvictActor
  rw [withPages_served hs (by simp [hop]) (by omega)]
  dsimp only
  rw [← hwho, hbad, hp, hre, hl]
  dsimp only
  rw [hfirst]
  have ha : State.actorAt { s with here := l.core, cx := 0 } l.slot = s.residentAt l := rfl
  have hc : State.hereCore { s with here := l.core, cx := 0 } = s.core l.core := rfl
  have hb : State.base { s with here := l.core, cx := 0 } (homeOf who) = s.base (homeOf who) := rfl
  have hu : State.sectorsUsed { s with here := l.core, cx := 0 } = s.sectorsUsed := rfl
  refine (if_neg (by simp)).trans ((if_neg (by simp)).trans ((if_neg (by simp)).trans ((if_neg (by simp)).trans (State.atOut_next ?_))))
  generalize ({ s with here := l.core, cx := 0 } : State) = u at ha hc hb hu hstill ⊢
  generalize r.word 1 / 2 ^ 56 % 2 = bit at hroom hdepot ⊢
  rw [ha, hc, hb, hret, hstill, hstop, hlog, hpad, hu, if_neg (by simp), if_neg (by simp), if_neg (Nat.not_lt.2 hpool), if_neg (by simp)]
  cases toDepot with
  | false =>
    rcases hroom rfl with ⟨rfl, rfl⟩ | ⟨rfl, rfl, hfull⟩
    · rw [if_neg (by simp)]; rfl
    · rw [if_pos ⟨rfl, hfull⟩]
  | true =>
    obtain ⟨rfl, rfl, hfits⟩ := hdepot rfl
    rw [if_neg fun h => Nat.not_lt.2 hfits h.2]
    rfl

/-- What an eviction does. -/
theorem Evicts.happens (h : Evicts s n r ch who l)
    (hroom : toDepot = false → st = 0 ∧ r.word 1 / 2 ^ 56 % 2 = 0 ∨ st = 0x1A7 ∧ r.word 1 / 2 ^ 56 % 2 = 1 ∧ depotSectors < s.sectorsUsed + areaSectors who)
    (hdepot : toDepot = true → st = 0 ∧ r.word 1 / 2 ^ 56 % 2 = 1 ∧ s.sectorsUsed + areaSectors who ≤ depotSectors) :
    Happens (.evictActor n) s fun t => (∀ z ∈ (t.core l.core).actors, z.1 ≠ l.slot.toNat) ∧
      (∃ x, t.savedOf who = some x ∧ x.actor = s.residentAt l ∧ x.last = l ∧ x.bad = false ∧ x.inDepot = toDepot ∧
        (t.base (homeOf who)).poolUsed = (s.base (homeOf who)).poolUsed + (if toDepot then 0 else 4) ∧
        (∀ c ∈ x.pad, c ∈ (s.core l.core).pad.cells) ∧ ∀ c ∈ (s.core l.core).pad.cells, (s.residentAt l).copied c.1 = true → c ∈ x.pad) ∧
      AnswerSent t ch (pageReply st 0 0) ∧ WorkAt l.core s t := by
  have hi := (exec_evictActor n s).trans (h.exec hroom hdepot)
  have ha := State.depotReply_answered (State.evict { s with here := l.core, cx := 0 } l.slot toDepot) r (pageReply st 0 0)
  have hsent := State.served_sent (u := State.evict { s with here := l.core, cx := 0 } l.slot toDepot) h.served h.live rfl (pageReply st 0 0)
  have hw := State.evict_workAt { s with here := l.core, cx := 0 } l.slot toDepot
  have hactors := State.evict_actors { s with here := l.core, cx := 0 } l.slot toDepot
  have hbase := State.evict_base { s with here := l.core, cx := 0 } l.slot toDepot
  have hsaved := State.evict_savedOf (u := { s with here := l.core, cx := 0 }) (toDepot := toDepot) h.aid h.unsaved
  rw [show (State.actorAt { s with here := l.core, cx := 0 } l.slot).aid = who from h.aid] at hbase
  generalize State.evict { s with here := l.core, cx := 0 } l.slot toDepot = v at hi ha hsent hw hactors hbase hsaved
  generalize v.depotReply r (pageReply st 0 0) = t at hi ha hsent
  have hwork : WorkAt l.core s { t with here := s.here, cx := s.cx } := by
    obtain ⟨h1, h2, h3, h4, h5⟩ := hw.trans (.answered ha)
    exact ⟨h1, h2, h3, h4, h5⟩
  refine ⟨_, hi, fun z hz => ?_, ⟨_, (ha.savedOf who).trans hsaved, rfl, rfl, rfl, rfl, ?_, fun c hc => (List.mem_filter.1 hc).1, fun c hc hcp => List.mem_filter.2 ⟨hc, hcp⟩⟩, hsent, hwork⟩
  · have hz : z ∈ (t.core l.core).actors := hz
    rw [ha.core, hactors] at hz
    simpa [drop] using (List.mem_filter.1 hz).2
  · show (t.base (homeOf who)).poolUsed = _
    rw [ha.base, hbase]
    show (s.base (homeOf (s.residentAt l).aid)).poolUsed + _ = _
    rw [h.aid]

end
end Sys2Proof.Machine
end

section
namespace Sys2Proof.Machine
open Sys2Proof.Safety

/-! ## Reload (R259, R260) -/

/-- Every resident actor, every save area, what waits at the home bases, the channels of the Depot and the memories of the module are as they were. -/
structure ActorsKept (s t : State) : Prop where
  store : StoreKept s t
  chans : t.chans = s.chans
  saved : ∀ b, (t.base b).saved = (s.base b).saved
  waiting : ∀ b, (t.base b).waiting = (s.base b).waiting
  actor : ∀ l, t.residentAt l = s.residentAt l

namespace ActorsKept
variable {s t u : State}

theorem refl (s : State) : ActorsKept s s := ⟨storeKept_refl s, rfl, fun _ => rfl, fun _ => rfl, fun _ => rfl⟩

theorem trans (h : ActorsKept s t) (g : ActorsKept t u) : ActorsKept s u where
  store := storeKept_trans h.store g.store
  chans := g.chans.trans h.chans
  saved b := (g.saved b).trans (h.saved b)
  waiting b := (g.waiting b).trans (h.waiting b)
  actor l := (g.actor l).trans (h.actor l)

/-- The focus may move, and what the frame does not speak of may change. -/
theorem of_same (hc : t.cores = s.cores) (hb : t.bases = s.bases) (hm : t.hostMem = s.hostMem) (hd : t.depot = s.depot) (hl : t.leaves = s.leaves) (hp : t.caps = s.caps)
    (hh : t.chans = s.chans) : ActorsKept s t := by
  have base : ∀ b, t.base b = s.base b := fun b => by unfold State.base; rw [hb]
  refine ⟨⟨fun b => by rw [base], hm, hd, hl, hp⟩, hh, fun b => by rw [base], fun b => by rw [base], fun l => ?_⟩
  unfold State.residentAt State.core
  rw [hc]

theorem setCore {c : CoreId} {k : Core} (h : ∀ j, look Actor.zero j k.actors = look Actor.zero j (s.core c).actors) : ActorsKept s (s.setCore c k) := by
  refine ⟨storeKept_refl s, rfl, fun _ => rfl, fun _ => rfl, fun l => ?_⟩
  unfold State.residentAt
  by_cases e : l.core = c
  · rw [e, State.core_setCore, h]
  · rw [State.core_setCore_ne s e]

theorem setHere {k : Core} (h : k.actors = s.hereCore.actors) : ActorsKept s (s.setHere k) := setCore fun j => by rw [h]; rfl

theorem setBase {b : Nat} {k : Base} (hd : k.dram = (s.base b).dram) (hs : k.saved = (s.base b).saved) (hw : k.waiting = (s.base b).waiting) : ActorsKept s (s.setBase b k) := by
  refine ⟨(Quiet.setBase s b hd).store, rfl, fun c => ?_, fun c => ?_, fun _ => rfl⟩ <;>
  · by_cases e : c = b
    · subst e; rw [State.base_setBase]; assumption
    · rw [State.base_setBase_ne s e]

theorem post (s : State) (st : Nat) (v : Word) (p : Packet) : ActorsKept s (s.post st v p) := of_same rfl rfl rfl rfl rfl rfl rfl

theorem call (s : State) (k : BitVec 4) (key : Key) (q : Bool) : ActorsKept s (s.call k key q) := setHere rfl

theorem wakeHere (s : State) : ActorsKept s s.wakeHere := setHere rfl

theorem syncDir (s : State) (c : CoreId) : ActorsKept s (s.syncDir c) := by
  obtain ⟨d, i, h, e⟩ := s.syncDir_eq c
  rw [e]
  exact setCore fun _ => rfl

theorem foldl {α : Type} {f : State → α → State} (hf : ∀ t x, ActorsKept t (f t x)) (l : List α) (s : State) : ActorsKept s (l.foldl f s) := by
  induction l generalizing s with
  | nil => exact refl s
  | cons x l ih => exact (hf s x).trans (ih _)

theorem scatter (s : State) (k : BitVec 4) : ActorsKept s (s.scatter k) := by
  unfold State.scatter
  dsimp only
  refine (setHere ?_).trans (of_same rfl rfl rfl rfl rfl rfl rfl)
  generalize List.filter _ _ = l
  generalize s.hereCore = c
  induction l generalizing c with
  | nil => rfl
  | cons z l ih => exact ih _

theorem lateCalls (s : State) (k : BitVec 4) : ActorsKept s (s.lateCalls k) := by
  unfold State.lateCalls
  dsimp only
  refine (foldl (fun t h => ?_) _ s).trans (foldl (fun t q => ?_) _ _)
  · split
    · exact call ..
    · exact refl t
  · split
    · exact call ..
    · exact refl t

theorem settle {k : BitVec 4} (h : AtRest s (s.actorAt k)) : ActorsKept s (s.settle k) := by
  rw [State.settle_atRest h]
  refine ActorsKept.trans ?_ (setBase rfl rfl rfl)
  refine setCore fun j => ?_
  by_cases e : j = k.toNat
  · subst e; exact look_put_same ..
  · exact look_put_ne e ..

theorem postConns (s : State) (who : AId) : ActorsKept s (s.postConns who) := by
  unfold State.postConns
  dsimp only
  refine ActorsKept.trans ?_ (foldl (fun t c => post ..) _ _)
  exact setBase rfl rfl rfl

theorem memberMoved (s : State) (who : AId) (l : Loc) : ActorsKept s (s.memberMoved who l) := of_same rfl rfl rfl rfl rfl rfl rfl

end ActorsKept

/-- Endpoint after endpoint of an actor: what each leaves alone, all leave alone. -/
theorem foldl_aux {α : Type} {f : State × Actor → α → State × Actor} (hf : ∀ p e, ActorsKept p.1 (f p e).1 ∧ (f p e).2 = { p.2 with aux := (f p e).2.aux }) (l : List α)
    (p : State × Actor) : ActorsKept p.1 (l.foldl f p).1 ∧ (l.foldl f p).2 = { p.2 with aux := (l.foldl f p).2.aux } := by
  induction l generalizing p with
  | nil => exact ⟨.refl _, rfl⟩
  | cons e l ih =>
    obtain ⟨h1, h2⟩ := hf p e
    obtain ⟨g1, g2⟩ := ih (f p e)
    refine ⟨h1.trans g1, ?_⟩
    rw [List.foldl_cons, g2, h2]

/-- The peers of a moved actor are told, and it holds what comes directly: its endpoints' auxiliary records change, and messages leave. -/
theorem relocateAll_kept (l old : Loc) (s : State) (a : Actor) :
    ActorsKept s (relocateAll l old s a).1 ∧ (relocateAll l old s a).2 = { a with aux := (relocateAll l old s a).2.aux } := by
  unfold relocateAll
  refine foldl_aux ?_ _ (s, a)
  exact fun p e => ⟨.post .., rfl⟩

/-! ### What a reload leaves where (R259) -/

theorem ActorsKept.at {s v : State} {c : CoreId} {x : BitVec 2} {f : State → State} (h : ActorsKept v (f { s with here := c, cx := x })) : ActorsKept v (s.at c x f) :=
  h.trans (of_same rfl rfl rfl rfl rfl rfl rfl)

theorem foldl_here {α : Type} {f : State → α → State} (hf : ∀ t x, (f t x).here = t.here) (l : List α) (s : State) : (l.foldl f s).here = s.here := by
  induction l generalizing s with
  | nil => rfl
  | cons x l ih => exact (ih _).trans (hf s x)

theorem State.lateCalls_here (s : State) (k : BitVec 4) : (s.lateCalls k).here = s.here := by
  unfold State.lateCalls
  refine (foldl_here (fun t q => ?_) _ _).trans (foldl_here (fun t h => ?_) _ s) <;> split <;> rfl

/-- What is held for an actor called for and what waits for it taken in, where nothing waits. -/
theorem ActorsKept.taken {u : State} {k : BitVec 4} {l : Loc} (hl : l = ⟨u.here, k⟩) (hr : AtRest u (u.residentAt l)) :
    ActorsKept u (((u.scatter k).lateCalls k).settle k) ∧ (((u.scatter k).lateCalls k).settle k).actorAt k = u.residentAt l := by
  have h := (ActorsKept.scatter u k).trans (.lateCalls _ k)
  have ha : ((u.scatter k).lateCalls k).actorAt k = u.residentAt l := by
    rw [← h.actor l, hl]
    show State.residentAt _ ⟨((u.scatter k).lateCalls k).here, k⟩ = _
    rw [State.lateCalls_here]
    rfl
  have hrest : AtRest ((u.scatter k).lateCalls k) (((u.scatter k).lateCalls k).actorAt k) := by
    obtain ⟨h1, h2, h3⟩ := hr
    rw [ha]
    exact ⟨h1, by rw [h.waiting]; exact h2, h3⟩
  exact ⟨h.trans (.settle hrest), (State.settle_atRest_actorAt hrest).trans ha⟩

/-- An actor of a save area for which nothing waits: the reload takes it off its home base and puts it into its slot as it was, and the memories of the module stay. -/
theorem State.reload_kept {s : State} {x : Saved} {l : Loc} (hx : x.antis = []) (hp : x.actor.pending = none) (hr : AtRest s x.actor) :
    StoreKept s (s.reload x l) ∧ (s.reload x l).chans = s.chans ∧ (s.reload x l).savedOf x.actor.aid = none ∧
      ∃ aux, (s.reload x l).residentAt l = { x.actor with freedAt := s.time, aux := aux } := by
  unfold State.reload
  extract_lets who h b a0 a s1 k0 k p t
  obtain ⟨hp1, hp2⟩ : ActorsKept (s1.setCore l.core k) p.1 ∧ p.2 = { a with aux := p.2.aux } := relocateAll_kept l x.last (s1.setCore l.core k) a
  have hbase : s1.base h = { b with saved := b.saved.filter (fun z => z.actor.aid ≠ who), poolUsed := b.poolUsed - BitVec.ofNat 24 x.frames } := State.base_setBase ..
  have hstore : StoreKept s s1 := (Quiet.setBase s h (by rfl)).store
  obtain ⟨u, hu⟩ : ∃ u, u = State.setActorAt { p.1 with here := l.core, cx := 0 } l.slot p.2 := ⟨_, rfl⟩
  have hres : u.residentAt l = p.2 := by rw [hu]; exact State.actorAt_setActorAt_same _ l.slot p.2
  have hbases : u.bases = p.1.bases := by rw [hu]; rfl
  have base : ∀ c, u.base c = p.1.base c := fun c => by unfold State.base; rw [hbases]
  have hkept : StoreKept p.1 u := by rw [hu]; exact storeKept_refl _
  have hrest : AtRest u (u.residentAt l) := by
    obtain ⟨h1, h2, h3⟩ := hr
    rw [hres, hp2]
    refine ⟨h1, fun w hw => ?_, h3⟩
    rw [base, hp1.waiting] at hw
    have hw : w ∈ (s1.base h).waiting := hw
    rw [hbase] at hw
    exact h2 w hw
  obtain ⟨hk, hact⟩ := ActorsKept.taken (u := u) (k := l.slot) (l := l) (by rw [hu]; rfl) hrest
  have ht : ActorsKept u t := by
    refine ActorsKept.at ?_
    dsimp only
    rw [hx, List.foldl_nil, ← hu]
    refine ActorsKept.trans ?_ (.wakeHere _)
    split
    · next q _ hq _ =>
      rw [hact, hres, hp2] at hq
      exact absurd (hp.symm.trans hq) (by simp)
    · exact hk
  have hall := ht.trans ((((ActorsKept.memberMoved t who l).trans (.postConns _ who)).trans (.syncDir _ l.core)).trans (.syncDir _ x.last.core))
  refine ⟨storeKept_trans (storeKept_trans (storeKept_trans hstore hp1.store) hkept) hall.store, hall.chans.trans ?_, ?_, p.2.aux, (hall.actor l).trans (hres.trans hp2)⟩
  · rw [hu]; exact hp1.chans
  · unfold State.savedOf
    rw [hall.saved, base, hp1.saved]
    show (s1.base h).saved.find? _ = none
    rw [hbase]
    exact List.find?_eq_none.2 fun z hz => by simpa using (List.mem_filter.1 hz).2

end Sys2Proof.Machine
end

section
namespace Sys2Proof.Machine
open Sys2Proof.Safety

/-! ### A reload's request (R259) -/

/-- The state with an area paged in from the Depot to its home base. -/
def State.pagedIn (s : State) (who : AId) (x : Saved) : State :=
  let b := s.base (homeOf who)
  if x.inDepot then
    s.setBase (homeOf who) { b with poolUsed := b.poolUsed + 4, saved := b.saved.map fun z => if z.actor.aid = who then { x with inDepot := false, frames := 4 } else z }
  else s

section
variable (s : State) (who : AId) (x : Saved)

theorem State.pagedIn_cores : (s.pagedIn who x).cores = s.cores := by unfold State.pagedIn; dsimp only; split <;> rfl

theorem State.pagedIn_chans : (s.pagedIn who x).chans = s.chans := by unfold State.pagedIn; dsimp only; split <;> rfl

theorem State.pagedIn_quiet : Quiet s (s.pagedIn who x) := by
  unfold State.pagedIn
  dsimp only
  split
  · exact .setBase _ _ rfl
  · exact .refl s

theorem State.pagedIn_waiting (c : Nat) : ((s.pagedIn who x).base c).waiting = (s.base c).waiting := by
  unfold State.pagedIn
  dsimp only
  split
  · by_cases e : c = homeOf who
    · subst e; rw [State.base_setBase]
    · rw [State.base_setBase_ne s e]
  · rfl

end

/-- What a reload asks for: a sound save area with nothing waiting for its actor, and a running core with a free slot, its zones and its image. -/
structure Reloads (s : State) (n : Nat) (r : DepotReq) (ch : DepotChan) (who : AId) (x : Saved) (core : CoreId) (slot : Nat) : Prop where
  served : s.served n .page = some (r, ch)
  live : ch.live = true
  sound : r.pageBad = false
  pager : s.fromPager r.actor = true
  whose : who = ⟨r.actor.tenant, BitVec.ofNat 24 (r.word 0)⟩
  op : r.page.op = 6
  area : s.savedOf who = some x
  target : core = BitVec.ofNat 12 (r.word 2)
  runs : s.halted core = false
  noEviction : s.actorTaken n 5 who = false
  antis : x.antis = []
  pool : x.inDepot = false ∨ (s.base (homeOf who)).poolTaken + 4 ≤ (s.base (homeOf who)).poolFrames.toNat
  areaSound : x.bad = false
  fits : (s.core core).zonesFit x.actor.zones = true
  image : ∃ i ∈ (s.core core).images, i.tenant = who.tenant ∧ i.num = x.actor.image
  noTrap : x.actor.pending = none
  rest : AtRest s x.actor
  slot : (s.core core).freeSlots.head? = some slot

section
variable {s : State} {n slot : Nat} {r : DepotReq} {ch : DepotChan} {who : AId} {x : Saved} {core : CoreId}

theorem Reloads.exec (h : Reloads s n r ch who x core slot) :
    execReloadActor n s = .next (((s.pagedIn who x).reload { x with inDepot := false, frames := 4 } ⟨core, BitVec.ofNat 4 slot⟩).depotReply r
      (pageReply 0 0 ((Loc.peer ⟨core, BitVec.ofNat 4 slot⟩ 0).toNat * 2 ^ 13))) := by
  obtain ⟨hs, -, hbad, hp, hwho, hop, harea, hcore, hrun, hev, -, hpool, hxb, hfits, ⟨i, hi, hit, hin⟩, -, -, hslot⟩ := h
  have hc : (s.pagedIn who x).core core = s.core core := by unfold State.core; rw [State.pagedIn_cores]
  have hany : ((s.core core).images.any fun i => i.tenant = who.tenant && i.num = x.actor.image) = true := List.any_eq_true.2 ⟨i, hi, by simp [hit, hin]⟩
  have hroom : ¬ (x.inDepot = true ∧ (s.base (homeOf who)).poolFrames.toNat < (s.base (homeOf who)).poolTaken + 4) := by
    rintro ⟨g1, g2⟩
    rcases hpool with g | g
    · simp [g] at g1
    · omega
  unfold execReloadActor
  rw [withPages_served hs (by simp [hop]) (by omega)]
  dsimp only
  subst hwho hcore
  rw [hbad, hp, hev, harea]
  dsimp only at hany ⊢
  rw [hrun]
  refine (if_neg (by simp)).trans ((if_neg (by simp)).trans ((if_neg (by simp)).trans ((if_neg (by simp)).trans ((if_neg (by simp [hxb])).trans ((if_neg hroom).trans
    ((if_neg (by simp [hxb])).trans ?_))))))
  unfold State.pagedIn at hc ⊢
  dsimp only at hc ⊢
  rw [hc, hslot]
  dsimp only
  rw [hfits, hany]
  rfl

/-- What a reload does. -/
theorem Reloads.happens (h : Reloads s n r ch who x core slot) :
    Happens (.reloadActor n) s fun t => t.savedOf who = none ∧
      (t.residentAt ⟨core, BitVec.ofNat 4 slot⟩).aid = who ∧ (∀ e, (t.residentAt ⟨core, BitVec.ofNat 4 slot⟩).ep e = x.actor.ep e) ∧
      (t.residentAt ⟨core, BitVec.ofNat 4 slot⟩).log = x.actor.log ∧ AnswerSent t ch (pageReply 0 0 ((Loc.peer ⟨core, BitVec.ofNat 4 slot⟩ 0).toNat * 2 ^ 13)) ∧ StoreKept s t := by
  have haid : x.actor.aid = who := by simpa using List.find?_some h.area
  have hrest : AtRest (s.pagedIn who x) x.actor := by
    obtain ⟨h1, h2, h3⟩ := h.rest
    exact ⟨h1, by rw [State.pagedIn_waiting]; exact h2, h3⟩
  obtain ⟨hst, hch, hsv, aux, hres⟩ := State.reload_kept (s := s.pagedIn who x) (x := { x with inDepot := false, frames := 4 }) (l := ⟨core, BitVec.ofNat 4 slot⟩) h.antis h.noTrap hrest
  have hi := (exec_reloadActor n s).trans h.exec
  generalize State.reload _ _ _ = u at hi hst hch hsv hres
  have ha := State.depotReply_answered u r (pageReply 0 0 ((Loc.peer ⟨core, BitVec.ofNat 4 slot⟩ 0).toNat * 2 ^ 13))
  refine ⟨_, hi, ?_, ?_, fun e => ?_, ?_, State.served_sent h.served h.live (hch.trans (State.pagedIn_chans ..)) _,
    storeKept_trans (storeKept_trans (State.pagedIn_quiet ..).store hst) ha.quiet.store⟩
  · rw [ha.savedOf, ← haid]; exact hsv
  · rw [ha.residentAt, hres]; exact haid
  · rw [ha.residentAt, hres]; rfl
  · rw [ha.residentAt, hres]

end

/-! ## The obligation -/

/-- Settles O56: each service by the lemma of its part. -/
theorem depotServices : Obligations.DepotServices := by
  unfold Obligations.DepotServices
  refine ⟨fun s n r ch who replied hs hl hbad hp hwho hrep => ⟨?_, ?_⟩, ?_, ?_, ?_, ?_⟩
  · intro hop l u hloc hu haid hsv hret hre hfirst hstill hstop hpool hlog hpad toDepot st hroom hdepot
    subst hu
    obtain ⟨t, e, hact, hx, hsent, hw⟩ := Evicts.happens ⟨hs, hl, hbad, hp, hwho, hop, hloc, haid, hsv, hret, hre, hfirst, hstill, hstop, hpool, hlog, hpad⟩ hroom hdepot
    exact ⟨t, e, hact, hx, (hrep _ _ _).2 hsent, hw.padsKept, hw.regsKept, hw.store⟩
  · intro hop x core slot hx hcore hh hev hanti hpool hxb hfits himg hpend hrest hslot
    obtain ⟨t, e, h1, h2, h3, h4, hsent, hst⟩ := Reloads.happens ⟨hs, hl, hbad, hp, hwho, hop, hx, hcore, hh, hev, hanti, hpool, hxb, hfits, himg, hpend, hrest, hslot⟩
    exact ⟨t, e, h1, h2, h3, h4, (hrep _ _ _).2 hsent, hst⟩
  · intro s n q k hq hk ht hsafe he hw hm
    exact checkpointTake_ends hq hk ht hsafe he hw hm
  · intro s n r ch id replied hs hl hid hz hrep
    subst hid
    refine ⟨fun hop h1 h2 h3 => ⟨fun ht => ?_, fun ps k ht hlist hpages hown hk => ?_⟩, fun hop => ⟨fun hv => ?_, ?_⟩, fun hop => ?_⟩
    · have hi := execCheckpointTake_refused hs hop (State.takeOf_passed (State.takeOf_fields hop hz h1 h2 h3) ht)
      obtain ⟨t, e, hm, ha⟩ := checkAnswer_happens hs hl ((exec_checkpointTake n s).trans hi)
      exact ⟨t, e, (hrep _ _ _).2 (hm.imp fun _ _ => trivial), ha.takes, ha.quiet.store⟩
    · have hi := execCheckpointTake_taken hs hop (State.takeOf_ok (State.takeOf_fields hop hz h1 h2 h3) ht hlist hpages hown)
      rw [← hk] at hi
      exact ⟨_, (exec_checkpointTake n s).trans hi, rfl⟩
    · obtain ⟨t, e, hm, ha⟩ := checkpointRestore_none hs hl hz hop hv
      exact ⟨t, e, (hrep _ _ _).2 hm, ha.quiet.store⟩
    · intro x p b cells hv hxb hx hown hp hq hk hc _
      obtain ⟨t, e, hm, hkept⟩ := checkpointRestore_page hs hl hz hop hv hxb hx hown hp hq hk hc rfl
      exact ⟨t, e, (hrep _ _ _).2 hm, hkept⟩
    · obtain ⟨t, e, hm, ha⟩ := checkpointQuery_happens hs hl hz hop
      exact ⟨t, e, (hrep _ _ _).2 hm, ha.quiet.store, ha.quiet.padsKept, ha.quiet.regsKept⟩
  · intro s n w1 r ch c answered hs hl hw hc hz h2 h3 hscan hh hans
    refine ⟨fun hop hb num hnum => ?_, fun hop hz2 heven w0 d img code head hw0 hal hd hread himg hcr hhead hbr hcode hne hwhole hplace => ?_⟩
    · have hi := (exec_codeUnload n s).trans (execCodeUnload_served hs hw hc hop hz hb h2 h3 hscan hh)
      rw [← hnum] at hi
      refine ⟨fun hno => ?_, fun img himg => ⟨fun hu => ?_, fun hu => ?_⟩⟩
      · obtain ⟨t, e, hsent, hk⟩ := loader_refuses hs hl (hi.trans (State.unloadFrom_absent hno)) rfl rfl
        exact ⟨t, e, (hans _ _ _ _).2 hsent, hk⟩
      · obtain ⟨t, e, hsent, hk⟩ := loader_refuses hs hl (hi.trans (State.unloadFrom_used himg hu)) rfl rfl
        exact ⟨t, e, (hans _ _ _ _).2 hsent, hk⟩
      · obtain ⟨t, e, hsent, himgs, hstarts, hwork⟩ := codeUnload_ends hs hl (hi.trans (State.unloadFrom_unused himg hu))
        exact ⟨t, e, (hans _ _ _ _).2 hsent, himgs, hstarts, hwork.other, hwork.padsKept, hwork.regsKept, hwork.store⟩
    · have hload : Loads s n w0 w1 r ch c d code img head :=
        ⟨hs, hl, hw0, hw, hc, hop, hz, hz2, heven, hal, h2, h3, hscan, hh, hd, hread, himg, hcr, hhead, hbr, hcode, hne, hwhole, hplace⟩
      refine ⟨fun hdig => ?_, fun hdig htenant hver hok hdata => ?_⟩
      · obtain ⟨t, e, hsent, hk⟩ := codeLoad_digest hload hdig
        exact ⟨t, e, (hans _ _ _ _).2 hsent, hk⟩
      · obtain ⟨t, e, hsc, himgs, hwork, hcode⟩ := codeLoad_starts hload hdig htenant hver hok hdata
        exact ⟨t, e, hsc, himgs, hwork.other, hwork.padsKept, hwork.regsKept, hwork.store, hcode⟩
  · intro s c x ch answered hx hh hc hl hans
    refine ⟨fun k hk => ?_, fun e he => ?_⟩
    · obtain ⟨t, e, hsc, himgs, hstarts, hsent, hwork⟩ := codeScan_passes hx hh hc hl hk
      exact ⟨t, e, hsc, himgs, hstarts, (hans _ _ _).2 hsent, hwork.other, hwork.padsKept, hwork.regsKept, hwork.store⟩
    · obtain ⟨t, ex, hcore, hsent, hcount, hother⟩ := codeScan_fails hx hh hc hl he
      exact ⟨t, ex, hcore, (hans _ _ _).2 hsent, hcount, hother⟩

end Sys2Proof.Machine
end

section
/-! # The general registers (03_general_registers.md R65 to R90): the values that the integer instructions compute -/

namespace Sys2Proof.Machine

/-! ## Values of words (R72 to R77) -/

theorem amount_eq (x : Word) : amount x = x.toNat % 64 := BitVec.toNat_setWidth ..

theorem shiftLeft_eq_ofNat (x : Word) (n : Nat) : x <<< n = BitVec.ofNat 64 (x.toNat * 2 ^ n) :=
  BitVec.eq_of_toNat_eq (by rw [BitVec.toNat_shiftLeft, BitVec.toNat_ofNat, Nat.shiftLeft_eq])

theorem ushiftRight_eq_ofNat (x : Word) (n : Nat) : x >>> n = BitVec.ofNat 64 (x.toNat / 2 ^ n) := by
  refine BitVec.eq_of_toNat_eq ?_
  rw [BitVec.toNat_ushiftRight, BitVec.toNat_ofNat, Nat.shiftRight_eq_div_pow, Nat.mod_eq_of_lt]
  exact lt_of_le_of_lt (Nat.div_le_self ..) x.isLt

theorem sshiftRight_eq_ofInt (x : Word) (n : Nat) : x.sshiftRight n = BitVec.ofInt 64 (x.toInt / 2 ^ n) := by
  rw [← BitVec.ofInt_toInt (x := x.sshiftRight n), BitVec.toInt_sshiftRight, Int.shiftRight_eq_div_pow]
  norm_cast

theorem rotateLeft_amount (x y : Word) : x.rotateLeft (amount y) = x <<< (y.toNat % 64) ||| x >>> (64 - y.toNat % 64) := by
  rw [BitVec.rotateLeft_def, amount_eq, Nat.mod_mod]

theorem rotateRight_amount (x y : Word) : x.rotateRight (amount y) = x >>> (y.toNat % 64) ||| x <<< (64 - y.toNat % 64) := by
  rw [BitVec.rotateRight_def, amount_eq, Nat.mod_mod]

theorem add_eq_ofNat (x y : Word) : x + y = BitVec.ofNat 64 (x.toNat + y.toNat) := by simp [BitVec.ofNat_add]

theorem sub_eq_ofInt (x y : Word) : x - y = BitVec.ofInt 64 (x.toInt - y.toInt) := by
  rw [Int.sub_eq_add_neg, BitVec.ofInt_add, BitVec.ofInt_neg, BitVec.ofInt_toInt, BitVec.ofInt_toInt, BitVec.sub_eq_add_neg]

theorem flagWord_slt (x y : Word) : flagWord (x.slt y) = if x.toInt < y.toInt then 1 else 0 := by
  simp [flagWord, BitVec.slt_iff_toInt_lt]

theorem flagWord_ult (x y : Word) : flagWord (x.ult y) = if x.toNat < y.toNat then 1 else 0 := by
  simp [flagWord, BitVec.ult_iff_toNat_lt]

theorem flagWord_beq (x y : Word) : flagWord (x == y) = if x = y then 1 else 0 := by simp [flagWord]

theorem flagWord_bne (x y : Word) : flagWord (x != y) = if x = y then 0 else 1 := by simp [flagWord, ite_not]

/-! ### Products, quotients, extremes (R73, R74) -/

theorem mul_eq_ofNat (x y : Word) : x * y = BitVec.ofNat 64 (x.toNat * y.toNat) := by simp [BitVec.ofNat_mul]

theorem mulHigh_eq_ofInt (x y : Word) : mulHigh x y = BitVec.ofInt 64 (x.toInt * y.toInt / 2 ^ 64) := by
  have hp : x.signExtend 128 * y.signExtend 128 = BitVec.ofInt 128 (x.toInt * y.toInt) := by
    rw [BitVec.ofInt_mul]; rfl
  refine BitVec.eq_of_toNat_eq ?_
  rw [mulHigh, hp, BitVec.toNat_setWidth, BitVec.toNat_ushiftRight, Nat.shiftRight_eq_div_pow, BitVec.toNat_ofInt, BitVec.toNat_ofInt]
  generalize x.toInt * y.toInt = p
  omega

theorem mulHighN_eq_ofNat (x y : Word) : mulHighN x y = BitVec.ofNat 64 (x.toNat * y.toNat / 2 ^ 64) := by
  have hp : x.toNat * y.toNat < 2 ^ 64 * 2 ^ 64 := Nat.mul_lt_mul'' x.isLt y.isLt
  have hx : x.toNat % 2 ^ 128 = x.toNat := Nat.mod_eq_of_lt (by omega)
  have hy : y.toNat % 2 ^ 128 = y.toNat := Nat.mod_eq_of_lt (by omega)
  refine BitVec.eq_of_toNat_eq ?_
  rw [mulHighN, BitVec.toNat_setWidth, BitVec.toNat_ushiftRight, Nat.shiftRight_eq_div_pow, BitVec.toNat_mul, BitVec.toNat_setWidth,
    BitVec.toNat_setWidth, hx, hy, BitVec.toNat_ofNat, Nat.mod_eq_of_lt (lt_of_lt_of_eq hp (by decide))]

theorem sdiv_eq_ofInt (x y : Word) : x.sdiv y = BitVec.ofInt 64 (x.toInt.tdiv y.toInt) :=
  BitVec.toInt_inj.1 (by rw [BitVec.toInt_sdiv, BitVec.toInt_ofInt])

theorem srem_eq_ofInt (x y : Word) : x.srem y = BitVec.ofInt 64 (x.toInt - x.toInt.tdiv y.toInt * y.toInt) := by
  rw [Int.mul_comm, ← Int.tmod_def, ← BitVec.toInt_srem, BitVec.ofInt_toInt]

theorem udiv_eq_ofNat (x y : Word) : x / y = BitVec.ofNat 64 (x.toNat / y.toNat) := by
  rw [← BitVec.toNat_udiv, BitVec.ofNat_toNat, BitVec.setWidth_eq]

theorem umod_eq_ofNat (x y : Word) : x % y = BitVec.ofNat 64 (x.toNat % y.toNat) := by
  rw [← BitVec.toNat_umod, BitVec.ofNat_toNat, BitVec.setWidth_eq]

theorem minS_eq_ofInt (x y : Word) : minS x y = BitVec.ofInt 64 (min x.toInt y.toInt) := by
  unfold minS
  simp only [BitVec.sle_iff_toInt_le, min_def, apply_ite (BitVec.ofInt 64), BitVec.ofInt_toInt]

theorem maxS_eq_ofInt (x y : Word) : maxS x y = BitVec.ofInt 64 (max x.toInt y.toInt) := by
  unfold maxS
  simp only [BitVec.sle_iff_toInt_le, max_def, apply_ite (BitVec.ofInt 64), BitVec.ofInt_toInt]

theorem minN_eq_ofNat (x y : Word) : minN x y = BitVec.ofNat 64 (min x.toNat y.toNat) := by
  unfold minN
  simp only [BitVec.le_def, min_def, apply_ite (BitVec.ofNat 64), BitVec.ofNat_toNat, BitVec.setWidth_eq]

theorem maxN_eq_ofNat (x y : Word) : maxN x y = BitVec.ofNat 64 (max x.toNat y.toNat) := by
  unfold maxN
  simp only [BitVec.le_def, max_def, apply_ite (BitVec.ofNat 64), BitVec.ofNat_toNat, BitVec.setWidth_eq]

/-! ### Counts of bits, bytes in reverse order (R73) -/

/-- The zeros that lead among the low n bits: the one below them is set, where there is one. -/
theorem leadingZeros_spec (x : Word) (n : Nat) : leadingZeros x n ≤ n ∧ (∀ k, n - leadingZeros x n ≤ k → k < n → x.getLsbD k = false) ∧
    (leadingZeros x n < n → x.getLsbD (n - 1 - leadingZeros x n) = true) := by
  induction n with
  | zero => simp [leadingZeros]
  | succ n ih =>
    obtain ⟨hle, hzero, hone⟩ := ih
    unfold leadingZeros
    split
    · next h => exact ⟨by omega, by omega, fun _ => h⟩
    · next h =>
      refine ⟨by omega, fun k hk hkn => ?_, fun hlt => ?_⟩
      · rcases Nat.lt_succ_iff_lt_or_eq.1 hkn with hkn | rfl
        · exact hzero k (by omega) hkn
        · simpa using h
      · rw [show n + 1 - 1 - (leadingZeros x n + 1) = n - 1 - leadingZeros x n by omega]
        exact hone (by omega)

/-- The zeros that trail among the high n bits: the one above them is set, where there is one. -/
theorem trailingZeros_spec (x : Word) (n : Nat) (hn : n ≤ 64) : trailingZeros x n ≤ n ∧ (∀ k < trailingZeros x n, x.getLsbD (64 - n + k) = false) ∧
    (trailingZeros x n < n → x.getLsbD (64 - n + trailingZeros x n) = true) := by
  induction n with
  | zero => simp [trailingZeros]
  | succ n ih =>
    obtain ⟨hle, hzero, hone⟩ := ih (by omega)
    unfold trailingZeros
    split
    · next h => exact ⟨by omega, by omega, fun _ => by rwa [show 64 - (n + 1) + 0 = 63 - n by omega]⟩
    · next h =>
      refine ⟨by omega, fun k hk => ?_, fun hlt => ?_⟩
      · cases k with
        | zero => simpa [show 64 - (n + 1) = 63 - n by omega] using h
        | succ k => rw [show 64 - (n + 1) + (k + 1) = 64 - n + k by omega]; exact hzero k (by omega)
      · rw [show 64 - (n + 1) + (trailingZeros x n + 1) = 64 - n + trailingZeros x n by omega]
        exact hone (by omega)

theorem onesBelow_eq_countP (x : Word) (n : Nat) : onesBelow x n = (List.range n).countP fun k => x.getLsbD k := by
  induction n with
  | zero => rfl
  | succ n ih => rw [List.range_succ, List.countP_append, ← ih, List.countP_singleton]; rfl

theorem getLsbD_reverseBytes (x : Word) {k i : Nat} (hk : k < 8) (hi : i < 8) : (reverseBytes x).getLsbD (8 * k + i) = x.getLsbD (56 - 8 * k + i) := by
  unfold reverseBytes
  show BitVec.getLsbD (w := 8 + 8 + 8 + 8 + 8 + 8 + 8 + 8) _ _ = _
  simp only [BitVec.getLsbD_append, BitVec.getLsbD_extractLsb']
  have hbeyond : ∀ n, 8 ≤ n → ¬ i + n < 8 := fun n hn => by omega
  interval_cases k <;> simp [hi, hbeyond, Nat.add_comm _ i]

theorem reverseBytes_byte (x : Word) (k : Nat) (hk : k < 8) : (reverseBytes x).extractLsb' (8 * k) 8 = x.extractLsb' (56 - 8 * k) 8 :=
  BitVec.eq_of_getLsbD_eq fun i hi => by
    rw [BitVec.getLsbD_extractLsb', BitVec.getLsbD_extractLsb', getLsbD_reverseBytes x hk hi]

/-! ### Bit fields (R75) -/

theorem fieldPos_eq (x : Word) : fieldPos x = x.toNat % 64 := BitVec.toNat_setWidth ..

theorem fieldWidth_eq (x : Word) : fieldWidth x = x.toNat / 256 % 64 + 1 := by
  rw [fieldWidth, BitVec.toNat_setWidth, BitVec.toNat_ushiftRight, Nat.shiftRight_eq_div_pow]

theorem fieldWidth_bounds (x : Word) : 1 ≤ fieldWidth x ∧ fieldWidth x ≤ 64 := by rw [fieldWidth_eq]; omega

theorem getLsbD_signFrom (x : Word) {w k : Nat} (hw : 1 ≤ w ∧ w ≤ 64) (hk : k < 64) : (signFrom x w).getLsbD k = x.getLsbD (min k (w - 1)) := by
  rw [signFrom, BitVec.getLsbD_sshiftRight, decide_eq_false (by omega), Bool.not_false, Bool.true_and]
  split
  · rw [BitVec.getLsbD_shiftLeft, decide_eq_true (by omega), decide_eq_false (by omega), Bool.not_false, Bool.true_and, Bool.true_and]
    congr 1; omega
  · rw [BitVec.msb_eq_getLsbD_last, BitVec.getLsbD_shiftLeft, decide_eq_true (by omega), decide_eq_false (by omega), Bool.not_false, Bool.true_and,
      Bool.true_and]
    congr 1; omega

/-- The low w of 64 ones. -/
theorem getLsbD_onesTo {w : Nat} (hw : w ≤ 64) (k : Nat) : (BitVec.allOnes 64 >>> (64 - w)).getLsbD k = decide (k < w) := by
  rw [BitVec.getLsbD_ushiftRight, BitVec.getLsbD_allOnes]
  exact decide_eq_decide.2 (by omega)

theorem getLsbD_fieldN (x : Word) (pos : Nat) {w : Nat} (hw : w ≤ 64) (k : Nat) : (fieldN x pos w).getLsbD k = (decide (k < w) && x.getLsbD (pos + k)) := by
  rw [fieldN, lowBits, BitVec.getLsbD_and, getLsbD_onesTo hw, BitVec.getLsbD_ushiftRight, Bool.and_comm]

theorem getLsbD_insertField (x y : Word) (pos : Nat) {w k : Nat} (hw : w ≤ 64) (hk : k < 64) :
    (insertField x y pos w).getLsbD k = if pos ≤ k ∧ k < pos + w then y.getLsbD (k - pos) else x.getLsbD k := by
  have hmask : ((BitVec.allOnes 64 >>> (64 - w)) <<< pos).getLsbD k = decide (pos ≤ k ∧ k < pos + w) := by
    rw [BitVec.getLsbD_shiftLeft, getLsbD_onesTo hw, ← decide_not, ← Bool.decide_and, ← Bool.decide_and]
    exact decide_eq_decide.2 (by omega)
  rw [insertField, BitVec.getLsbD_or, BitVec.getLsbD_and, BitVec.getLsbD_and, BitVec.getLsbD_not, hmask, BitVec.getLsbD_shiftLeft]
  split
  · next h => simp [h, hk, Nat.not_lt.2 h.1]
  · next h => simp [h, hk]

theorem zext_eq_ofNat (x : Word) (n : Nat) : (x.setWidth n).setWidth 64 = BitVec.ofNat 64 (x.toNat % 2 ^ n) := by
  rw [← BitVec.toNat_setWidth, BitVec.ofNat_toNat]

/-! ### Conditions (R78) -/

theorem bne_eq_decide_ne (x y : Word) : (x != y) = decide (x ≠ y) := by rw [bne, beq_eq_decide, decide_not]

theorem not_decide_lt {α : Type} [LinearOrder α] (x y : α) : (! decide (x < y)) = decide (y ≤ x) := by rw [← decide_not, decide_eq_decide, not_lt]

/-! ### Immediates and targets (R44, R76, R77, R80) -/

theorem lui_eq_ofInt (l : BitVec 19) : immWord l <<< 13 = BitVec.ofInt 64 (l.toInt * 2 ^ 13) := by
  rw [BitVec.shiftLeft_eq_mul_twoPow, BitVec.ofInt_mul]; rfl

/-- Twice an offset in parcels, as a doubleword. -/
theorem immWord_parcels {n : Nat} (i : BitVec n) : immWord i <<< 1 = BitVec.ofInt 64 (2 * i.toInt) := by
  rw [BitVec.shiftLeft_eq_mul_twoPow, Int.mul_comm, BitVec.ofInt_mul]; rfl

theorem flagWord_slt_imm (x : Word) (i : BitVec 14) : flagWord (x.slt (immWord i)) = if x.toInt < i.toInt then 1 else 0 := by
  unfold flagWord immWord
  rw [BitVec.slt_eq_decide, BitVec.toInt_signExtend_of_le (by decide)]
  simp

theorem target_eq_ofInt {n : Nat} (pc : BitVec 16) (o : BitVec n) : target pc o = BitVec.ofInt 16 (pc.toNat + 2 * o.toInt) := by
  rw [target, BitVec.shiftLeft_eq_mul_twoPow, BitVec.ofInt_add, Int.mul_comm, BitVec.ofInt_mul, BitVec.ofInt_natCast, BitVec.ofNat_toNat, BitVec.setWidth_eq]
  rfl

theorem lpc_eq_ofInt (pc : BitVec 16) (l : BitVec 19) : pc.setWidth 64 + (immWord l <<< 1) = BitVec.ofInt 64 (pc.toNat + 2 * l.toInt) := by
  rw [immWord_parcels, BitVec.ofInt_add, BitVec.ofInt_natCast, BitVec.ofNat_toNat]

theorem jump_eq_ofInt (x : Word) (i : BitVec 14) : x + (immWord i <<< 1) = BitVec.ofInt 64 (x.toNat + 2 * i.toInt) := by
  rw [immWord_parcels, BitVec.ofInt_add, BitVec.ofInt_natCast, BitVec.ofNat_toNat, BitVec.setWidth_eq]

end Sys2Proof.Machine
end

section
namespace Sys2Proof.Machine
open Sys2Proof.Safety

/-! ## What an instruction that writes one register leaves (R65, R83) -/

theorem wroteG_goto (s : State) (d : BitVec 5) (v : Word) (pc : BitVec 16) : WroteG s d v pc ((s.setG d v).goto pc) := by
  refine ⟨?_, fun r => by rw [State.goto_g, State.g_setG]⟩
  rcases s.setG_eq d v with h | h <;> rw [h] <;> simp [State.goto]

theorem wroteG_advance (s : State) (d : BitVec 5) (v : Word) (n : Nat) : WroteG s d v (s.ctx.pc + BitVec.ofNat 16 n) ((s.setG d v).advance n) := by
  unfold State.advance
  rw [State.setG_ctx_pc]
  exact wroteG_goto ..

theorem computes_of_writeG {i : Instr} {n : Nat} {s : State} {d : BitVec 5} {v w : Word} (h : exec i s = writeG n d w s) (hv : w = v) :
    Computes i n s d v := by
  subst hv
  exact ⟨_, h, wroteG_advance ..⟩

/-! ## Divisions (R74) -/

theorem divide_computes {i : Instr} {k : DivKind} {s : State} {b a d : BitVec 5} {v : Word} (h : exec i s = divide k b a d s) (hb : s.g b ≠ 0)
    (hv : k.result (s.g a) (s.g b) = v) : Computes i 4 s d v :=
  computes_of_writeG (h.trans (if_neg hb)) hv

theorem divide_traps {i : Instr} {k : DivKind} {s : State} {b a d : BitVec 5} (h : exec i s = divide k b a d s) (hb : s.g b = 0) :
    Traps i s k.cause (s.g a) :=
  h.trans (if_pos hb)

/-! ## Control transfer (R78 to R81) -/

theorem continues_of_goto {i : Instr} {s : State} {pc : BitVec 16} (h : exec i s = .next (s.goto pc)) : Continues i s pc := ⟨_, h, rfl⟩

theorem branch_continues {i : Instr} {n k : Nat} {taken c : Bool} {o : BitVec k} {s : State} (h : exec i s = branch n taken o s) (hc : taken = c) :
    Continues i s (if c then BitVec.ofInt 16 (s.ctx.pc.toNat + 2 * o.toInt) else s.ctx.pc + BitVec.ofNat 16 n) := by
  subst hc
  rw [← target_eq_ofInt]
  unfold branch at h
  cases taken
  · exact continues_of_goto h
  · exact continues_of_goto h

theorem decBranch_wroteG {i : Instr} {n k : Nat} {o : BitVec k} {a d : BitVec 5} {s : State} (h : exec i s = decBranch n o a d s) :
    ∃ t, exec i s = .next t ∧
      WroteG s d (s.g a - 1) (if s.g a - 1 = 0 then s.ctx.pc + BitVec.ofNat 16 n else BitVec.ofInt 16 (s.ctx.pc.toNat + 2 * o.toInt)) t := by
  unfold decBranch at h
  dsimp only at h
  split at h
  · next hz =>
    rw [if_pos hz]
    exact ⟨_, h, wroteG_advance ..⟩
  · next hz =>
    rw [if_neg hz, ← target_eq_ofInt]
    exact ⟨_, h, wroteG_goto ..⟩

theorem legalTarget_iff (s : State) (x : Word) : s.legalTarget x = true ↔ LegalTarget s x := by
  unfold State.legalTarget LegalTarget
  cases s.image <;> simp [and_assoc]

theorem jumpLink_legal {n k : Nat} {o : BitVec k} {a d : BitVec 5} {s : State} {x : Word} (hx : s.g a + (immWord o <<< 1) = x) (h : LegalTarget s x) :
    jumpLink n o a d s = .next ((s.setG d ((s.ctx.pc + BitVec.ofNat 16 n).setWidth 64)).goto (x.setWidth 16)) := by
  subst hx
  exact if_pos ((legalTarget_iff ..).2 h)

theorem jumpLink_illegal {n k : Nat} {o : BitVec k} {a d : BitVec 5} {s : State} {x : Word} (hx : s.g a + (immWord o <<< 1) = x) (h : ¬ LegalTarget s x) :
    jumpLink n o a d s = raise 0x1A1 x s := by
  subst hx
  exact if_neg fun hl => h ((legalTarget_iff ..).1 hl)

theorem bitOf_eq (x y : Word) : bitOf x y = x.getLsbD (y.toNat % 64) := by rw [bitOf, amount_eq]

end Sys2Proof.Machine

open Sys2Proof Sys2Proof.Machine Sys2Proof.Safety

/-- Settles O11: each instruction writes one register, and each value by its law in plain arithmetic. -/
theorem integerMajor00 : Obligations.IntegerMajor00 := by
  unfold Obligations.IntegerMajor00
  rintro s b a d n rfl
  exact ⟨computes_of_writeG rfl (add_eq_ofNat ..), computes_of_writeG rfl (sub_eq_ofInt ..), computes_of_writeG rfl rfl, computes_of_writeG rfl rfl,
    computes_of_writeG rfl rfl, computes_of_writeG rfl rfl, computes_of_writeG rfl rfl,
    computes_of_writeG rfl (by rw [amount_eq, shiftLeft_eq_ofNat]), computes_of_writeG rfl (by rw [amount_eq, ushiftRight_eq_ofNat]),
    computes_of_writeG rfl (by rw [amount_eq, sshiftRight_eq_ofInt]), computes_of_writeG rfl (rotateLeft_amount ..),
    computes_of_writeG rfl (rotateRight_amount ..), computes_of_writeG rfl (flagWord_slt ..), computes_of_writeG rfl (flagWord_ult ..),
    computes_of_writeG rfl (flagWord_beq ..), computes_of_writeG rfl (flagWord_bne ..)⟩

/-- Settles O12: as major 0x00; a division by whether its divisor is zero, the counts of bits by their recursion over the bits. -/
theorem integerMajor01 : Obligations.IntegerMajor01 := by
  unfold Obligations.IntegerMajor01
  intro s c b a d
  obtain ⟨hclz, hclz0, hclz1⟩ := leadingZeros_spec (s.g a) 64
  obtain ⟨hctz, hctz0, hctz1⟩ := trailingZeros_spec (s.g a) 64 le_rfl
  refine ⟨computes_of_writeG rfl (mul_eq_ofNat ..), computes_of_writeG rfl (mulHigh_eq_ofInt ..), computes_of_writeG rfl (mulHighN_eq_ofNat ..),
    fun hb => ⟨divide_computes (k := .div) rfl hb (sdiv_eq_ofInt ..), divide_computes (k := .divn) rfl hb (udiv_eq_ofNat ..),
      divide_computes (k := .rem) rfl hb (srem_eq_ofInt ..), divide_computes (k := .remn) rfl hb (umod_eq_ofNat ..)⟩,
    fun hb => ⟨divide_traps (k := .div) rfl hb, divide_traps (k := .divn) rfl hb, divide_traps (k := .rem) rfl hb, divide_traps (k := .remn) rfl hb⟩,
    computes_of_writeG rfl (minS_eq_ofInt ..), computes_of_writeG rfl (maxS_eq_ofInt ..), computes_of_writeG rfl (minN_eq_ofNat ..),
    computes_of_writeG rfl (maxN_eq_ofNat ..), computes_of_writeG rfl (ite_not ..).symm,
    ⟨_, hclz, hclz0, fun h => ?_, computes_of_writeG rfl rfl⟩, ⟨_, hctz, fun k hk => ?_, fun h => ?_, computes_of_writeG rfl rfl⟩,
    computes_of_writeG rfl (by rw [onesBelow_eq_countP]), _, reverseBytes_byte _, computes_of_writeG rfl rfl⟩
  · exact hclz1 h
  · simpa using hctz0 k hk
  · simpa using hctz1 h

/-- Settles O13: the fields bit by bit, the extensions and shifts as arithmetic. -/
theorem integerMajor02 : Obligations.IntegerMajor02 := by
  unfold Obligations.IntegerMajor02
  rintro s c b a d i pos w rfl rfl
  have hw := fieldWidth_bounds (s.g b)
  rw [← fieldPos_eq, ← fieldWidth_eq]
  exact ⟨⟨_, fun k hk => by rw [getLsbD_signFrom _ hw hk, BitVec.getLsbD_ushiftRight], computes_of_writeG rfl rfl⟩,
    ⟨_, fun k _ => getLsbD_fieldN _ _ hw.2 k, computes_of_writeG rfl rfl⟩,
    ⟨_, fun k hk => getLsbD_insertField _ _ _ hw.2 hk, computes_of_writeG rfl rfl⟩,
    computes_of_writeG rfl rfl, computes_of_writeG rfl rfl, computes_of_writeG rfl rfl, computes_of_writeG rfl (zext_eq_ofNat ..),
    computes_of_writeG rfl (zext_eq_ofNat ..), computes_of_writeG rfl (zext_eq_ofNat ..), computes_of_writeG rfl (shiftLeft_eq_ofNat ..),
    computes_of_writeG rfl (ushiftRight_eq_ofNat ..), computes_of_writeG rfl (sshiftRight_eq_ofInt ..)⟩

/-- Settles O14: the immediates are sign-extended, and a compact form computes what its expansion does. -/
theorem immediatesAndCompact : Obligations.ImmediatesAndCompact := by
  unfold Obligations.ImmediatesAndCompact
  rintro s b a d i l j x rfl
  exact ⟨computes_of_writeG rfl rfl, computes_of_writeG rfl rfl, computes_of_writeG rfl rfl, computes_of_writeG rfl rfl,
    computes_of_writeG rfl (flagWord_slt_imm ..), computes_of_writeG rfl (lui_eq_ofInt ..), computes_of_writeG rfl (lpc_eq_ofInt ..),
    computes_of_writeG rfl rfl, computes_of_writeG rfl rfl, computes_of_writeG rfl rfl, computes_of_writeG rfl rfl, computes_of_writeG rfl rfl,
    computes_of_writeG rfl (BitVec.zero_or ..), computes_of_writeG rfl rfl, computes_of_writeG rfl (BitVec.zero_add ..),
    computes_of_writeG rfl (shiftLeft_eq_ofNat ..), computes_of_writeG rfl (ushiftRight_eq_ofNat ..), computes_of_writeG rfl (sshiftRight_eq_ofInt ..),
    computes_of_writeG rfl rfl, computes_of_writeG rfl rfl, computes_of_writeG rfl rfl⟩

/-- Settles O15: a branch by its condition, dbnz by the decremented value. -/
theorem branches : Obligations.Branches := by
  unfold Obligations.Branches
  intro s o j i k b a d go near tgt v htgt hgo hnear hv
  subst hv
  have far : ∀ {i : Instr} {taken c : Bool}, exec i s = branch 4 taken o s → taken = c → Continues i s (go o c) := fun h hc => by
    rw [hgo, htgt]; exact branch_continues h hc
  have close : ∀ {i : Instr} {taken c : Bool}, exec i s = branch 2 taken k s → taken = c → Continues i s (near c) := fun h hc => by
    rw [hnear, htgt]; exact branch_continues h hc
  have jump : ∀ {i : Instr} {n : Nat} {o : BitVec n}, exec i s = .next (s.goto (target s.ctx.pc o)) → Continues i s (tgt o.toInt) := fun h => by
    rw [htgt, ← target_eq_ofInt]; exact continues_of_goto h
  refine ⟨far rfl (beq_eq_decide ..), far rfl (bne_eq_decide_ne ..), far rfl rfl, far rfl (not_decide_lt ..), far rfl rfl, far rfl (not_decide_lt ..), far rfl (bitOf_eq ..),
    far rfl (by rw [bitOf_eq]), jump rfl, ⟨_, rfl, ?_⟩, ?_, close rfl (beq_eq_decide ..), close rfl (bne_eq_decide_ne ..), close rfl rfl,
    close rfl (not_decide_lt ..), jump rfl, ?_⟩
  · rw [htgt, ← target_eq_ofInt]; exact wroteG_goto ..
  · rw [htgt]; exact decBranch_wroteG rfl
  · rw [htgt]; exact decBranch_wroteG rfl

/-- Settles O16: the target is checked before anything is written. -/
theorem jumpAndLink : Obligations.JumpAndLink := by
  unfold Obligations.JumpAndLink
  intro s i a d x hx
  rw [← jump_eq_ofInt] at hx
  have hjr : s.g a + (immWord (0 : BitVec 14) <<< 1) = s.g a := by rw [jump_eq_ofInt]; simp
  exact ⟨fun h => ⟨_, jumpLink_legal hx.symm h, wroteG_goto ..⟩, fun h => jumpLink_illegal hx.symm h,
    fun h => continues_of_goto (jumpLink_legal hjr h), fun h => jumpLink_illegal hjr h⟩
end

section
/-! # The float registers (03_general_registers.md R83 to R89) -/

namespace Sys2Proof.Machine
open Sys2Proof.Safety

/-! ## What a scalar float instruction leaves (R83, R104) -/

/-- An f register written with flags merged, and the generator left at a value. -/
theorem computesF_of_next {i : Instr} {s : State} {d : BitVec 5} {v : Nat} {fl : Flags} {seed : BitVec 32}
    (h : exec i s = .next (s.setCtx
      { s.ctx with f := s.ctx.f.set d.toNat (BitVec.ofNat 32 v), fflags := s.ctx.fflags ||| fl, seed := seed, pc := s.ctx.pc + 4, retired := s.ctx.retired + 1 })) :
    ComputesF i s d v fl seed := by
  refine ⟨_, h, by rw [State.ctx_setCtx], fun r => ?_⟩
  simp only [State.f, State.ctx_setCtx, Vector.getElem_set, BitVec.toNat_inj, eq_comm]

theorem computesF_of_writeF {i : Instr} {s : State} {d : BitVec 5} {r : Rounded} {v : Nat} {fl : Flags} (h : exec i s = writeF d r s) (hr : r = (v, fl)) :
    ComputesF i s d v fl s.ctx.seed := by
  subst hr
  refine computesF_of_next (h.trans ?_)
  simp [writeF, State.setF, State.setFlags, State.advance, State.goto]

theorem computesF_of_roundInto {i : Instr} {s : State} {m : BitVec 3} {d : BitVec 5} {r : Rounded} {v : Nat} {fl : Flags}
    (h : exec i s = roundInto m d r s) (hr : r = (v, fl)) : ComputesF i s d v fl (if m = 5 then lfsrNext s.ctx.seed else s.ctx.seed) := by
  subst hr
  refine computesF_of_next (h.trans ?_)
  simp [roundInto, writeF, State.draw, State.setF, State.setFlags, State.advance, State.goto, drawn, lfsrSkip]

/-- A move into an f register raises no flag and draws nothing. -/
theorem computesF_of_setF {i : Instr} {s : State} {d : BitVec 5} {x : FWord} {v : Nat} (h : exec i s = .next ((s.setF d x).advance 4)) (hx : x = BitVec.ofNat 32 v) :
    ComputesF i s d v 0 s.ctx.seed := by
  subst hx
  refine computesF_of_next (h.trans ?_)
  simp [State.setF, State.advance, State.goto]

/-- A comparison or a conversion into a g register, with its flags and its draw. -/
theorem computesGF_of_next {i : Instr} {s u : State} {d : BitVec 5} {v : Word} {fl : Flags} {seed : BitVec 32} (h : exec i s = .next (((u.setG d v).setFlags fl).advance 4))
    (hu : u = s ∧ seed = s.ctx.seed ∨ u = s.setCtx { s.ctx with seed := seed }) : ComputesGF i s d v fl seed := by
  have hg : ∀ r, u.g r = s.g r := by rcases hu with ⟨rfl, -⟩ | rfl <;> simp [State.g]
  refine ⟨_, h, ?_, fun r => ?_⟩
  · rcases u.setG_eq d v with e | e <;> rw [e] <;> rcases hu with ⟨rfl, rfl⟩ | rfl <;> simp [State.setFlags, State.advance, State.goto]
  · rw [← hg, ← State.g_setG, State.advance_g]
    simp [State.g, State.setFlags]

theorem compareInto_computesGF {i : Instr} {s : State} {k : FCmp} {b a d : BitVec 5} {c : Bool} {fl : Flags} (h : exec i s = compareInto k b a d s)
    (hc : cmpF k (s.fv a) (s.fv b) = (c, fl)) : ComputesGF i s d (if c then 1 else 0) fl s.ctx.seed := by
  refine computesGF_of_next (h.trans ?_) (.inl ⟨rfl, rfl⟩)
  rw [compareInto, hc]
  rfl

theorem satInt_eq {lo hi : Int} (h : lo ≤ hi) (x : Int) : satInt x lo hi = max lo (min hi x) := by
  unfold satInt
  split
  · omega
  · split <;> omega

end Sys2Proof.Machine

open Sys2Proof Sys2Proof.Machine Sys2Proof.Safety

/-- Settles O17: each form is one rounding of its operands' result, with a draw in mode RS where it has a mode. -/
theorem floatArithmetic : Obligations.FloatArithmetic := by
  unfold Obligations.FloatArithmetic
  rintro s m c b a d x y z draw seed rfl rfl rfl rfl rfl
  refine ⟨fun r hr => computesF_of_roundInto rfl hr.symm, fun r hr => computesF_of_roundInto rfl hr.symm, fun r hr => computesF_of_roundInto rfl hr.symm,
    fun r hr => computesF_of_roundInto rfl hr.symm, fun r hr => computesF_of_roundInto rfl hr.symm, fun r hr => computesF_of_writeF rfl hr.symm,
    fun r hr => computesF_of_writeF rfl hr.symm, fun r hr => computesF_of_writeF rfl hr.symm, fun r hr => computesF_of_roundInto rfl hr.symm,
    fun r hr => computesF_of_roundInto rfl ?_, fun r hr => computesF_of_writeF rfl hr.symm, fun r hr => computesF_of_writeF rfl hr.symm⟩
  rw [satInt_eq (by decide)]
  exact hr.symm
end

section
namespace Sys2Proof.Machine
open Sys2Proof.Safety

/-! ## Extremes, signs and comparisons (R84, R85, R88) -/

theorem minmaxF_nan_left {F : FloatFmt} {mx : Bool} {a b : Nat} (ha : isNan (decodeF F a) = true) (hb : isNan (decodeF F b) = false) :
    minmaxF F mx a b = (b, if isSig (decodeF F a) then 16 else 0) := by
  have hs : isSig (decodeF F b) = false := by
    revert hb
    cases decodeF F b <;> simp [isNan, isSig]
  unfold minmaxF
  simp [ha, hb, hs, flagIf, flNV]

theorem minmaxF_nan_both {F : FloatFmt} {mx : Bool} {a b : Nat} (ha : isNan (decodeF F a) = true) (hb : isNan (decodeF F b) = true) :
    minmaxF F mx a b = (F.nan, if isSig (decodeF F a) || isSig (decodeF F b) then 16 else 0) := by
  unfold minmaxF
  simp [ha, hb, flagIf, flNV]

theorem cmpF_numbers {x y : FVal} (hx : isNan x = false) (hy : isNan y = false) (k : FCmp) :
    cmpF k x y = (match k with | .eq => eqF x y | .lt => ltF x y | .le => ltF x y || eqF x y, 0) := by
  unfold cmpF
  rw [hx, hy]
  cases k <;> rfl

theorem cmpF_nan {x y : FVal} (h : isNan x = true ∨ isNan y = true) (k : FCmp) :
    cmpF k x y = (false, if (match k with | .eq => isSig x || isSig y | _ => true) then 16 else 0) := by
  unfold cmpF
  rw [if_pos (by simpa using h)]
  cases k <;> rfl

/-! ### Bit [31] (R84) -/

theorem clearSign_eq (x : FWord) : x &&& 0x7FFFFFFF = BitVec.ofNat 32 (x.toNat % 2 ^ 31) := by
  refine BitVec.eq_of_toNat_eq ?_
  rw [BitVec.toNat_and, BitVec.toNat_ofNat, Nat.mod_eq_of_lt (by omega)]
  exact Nat.and_two_pow_sub_one_eq_mod x.toNat 31

theorem flipSign_eq (x : FWord) : x ^^^ 0x80000000 = BitVec.ofNat 32 ((x.toNat + 2 ^ 31) % 2 ^ 32) := by
  refine BitVec.eq_of_getLsbD_eq fun k hk => ?_
  rw [BitVec.getLsbD_ofNat, BitVec.getLsbD_xor, Nat.testBit_mod_two_pow, Nat.add_comm]
  rcases Nat.lt_succ_iff_lt_or_eq.1 hk with h | rfl
  · rw [Nat.testBit_two_pow_add_gt h, show (0x80000000 : FWord) = BitVec.twoPow 32 31 from rfl, BitVec.getLsbD_twoPow]
    simp [hk, BitVec.getLsbD, show ¬ 31 = k by omega]
  · rw [Nat.testBit_two_pow_add_eq, show (0x80000000 : FWord) = BitVec.twoPow 32 31 from rfl, BitVec.getLsbD_twoPow]
    simp [BitVec.getLsbD]

theorem takeSign_eq (x y : FWord) : (x &&& 0x7FFFFFFF) ||| (y &&& 0x80000000) = BitVec.ofNat 32 (x.toNat % 2 ^ 31 + y.toNat / 2 ^ 31 * 2 ^ 31) := by
  refine BitVec.eq_of_getLsbD_eq fun k hk => ?_
  rw [clearSign_eq, show (0x80000000 : FWord) = BitVec.twoPow 32 31 from rfl, BitVec.getLsbD_or, BitVec.getLsbD_and, BitVec.getLsbD_twoPow, BitVec.getLsbD_ofNat,
    BitVec.getLsbD_ofNat, Nat.add_comm, Nat.mul_comm, Nat.testBit_two_pow_mul_add _ (Nat.mod_lt _ (by decide)), Nat.testBit_mod_two_pow, Nat.testBit_div_two_pow]
  rcases Nat.lt_succ_iff_lt_or_eq.1 hk with h | rfl
  · simp [h, hk, show ¬ 31 = k by omega]
  · simp [BitVec.getLsbD]

/-- The class code of an f32: its sign in bit 7 beside its kind. -/
theorem classF_f32 (x : FWord) : classF f32 x.toNat = x.toNat / 2 ^ 31 * 128 +
    (match decodeF f32 x.toNat with | .fin _ n _ => if n = 0 then 0 else if n < 2 ^ 23 then 1 else 2 | .inf _ => 3 | .nan false => 4 | .nan true => 5) := by
  have hsign : (if x.toNat.testBit 31 then 0x80 else 0) = x.toNat / 2 ^ 31 * 128 := by
    have : x.toNat / 2 ^ 31 < 2 := by omega
    rw [Nat.testBit_eq_decide_div_mod_eq, Nat.mod_eq_of_lt this]
    interval_cases x.toNat / 2 ^ 31 <;> rfl
  unfold classF
  rw [show f32.ew + f32.fw = 31 from rfl, hsign]
  rcases decodeF f32 x.toNat with (_ | _) | _ | _ <;> rfl

end Sys2Proof.Machine

open Sys2Proof Sys2Proof.Machine Sys2Proof.Safety

/-- Settles O19: the extremes and comparisons by which operand is a NaN, the sign operations bit by bit. -/
theorem floatSelections : Obligations.FloatSelections := by
  unfold Obligations.FloatSelections
  rintro s b a d x y rfl rfl
  refine ⟨fun r hr => computesF_of_writeF rfl hr.symm, fun r hr => computesF_of_writeF rfl hr.symm,
    fun ha hb => ⟨computesF_of_writeF rfl (minmaxF_nan_left ha hb), computesF_of_writeF rfl (minmaxF_nan_left ha hb)⟩,
    fun ha hb => computesF_of_writeF rfl (minmaxF_nan_both ha hb), computesF_of_setF rfl (clearSign_eq _), computesF_of_setF rfl (flipSign_eq _),
    computesF_of_setF rfl (takeSign_eq ..), computesF_of_setF rfl ?_, computes_of_writeG rfl (BitVec.ofNat_toNat ..).symm,
    ⟨_, rfl, computes_of_writeG rfl (congrArg _ (classF_f32 _))⟩, fun ha hb => ⟨?_, ?_, ?_⟩, fun h => ⟨?_, ?_, ?_⟩⟩
  · rw [← BitVec.toNat_setWidth, BitVec.ofNat_toNat, BitVec.setWidth_eq]
  · exact compareInto_computesGF (k := .eq) rfl (cmpF_numbers ha hb .eq)
  · exact compareInto_computesGF (k := .lt) rfl (cmpF_numbers ha hb .lt)
  · exact compareInto_computesGF (k := .le) rfl (cmpF_numbers ha hb .le)
  · exact compareInto_computesGF (k := .eq) rfl (cmpF_nan h .eq)
  · exact compareInto_computesGF (k := .lt) rfl (cmpF_nan h .lt)
  · exact compareInto_computesGF (k := .le) rfl (cmpF_nan h .le)
end

section
namespace Sys2Proof.Machine
open Sys2Proof.Safety

/-! ## Values that an encoding holds exactly (R92, R95) -/

/-- The formats with infinities whose largest magnitude stands just below. -/
structure FloatFmt.Ieee (F : FloatFmt) : Prop where
  inf : F.inf = some (F.maxMag + 1)
  normal : 2 ^ F.fw ≤ F.maxMag
  fits : F.maxMag + 1 < 2 ^ (F.ew + F.fw)

theorem f32_ieee : f32.Ieee := ⟨rfl, by decide, by decide⟩
theorem bf16_ieee : bf16.Ieee := ⟨rfl, by decide, by decide⟩
theorem hf_ieee : hf.Ieee := ⟨rfl, by decide, by decide⟩

/-- A finite encoding: its sign and its magnitude, j units of the exponent above the lowest. -/
structure Encodes (F : FloatFmt) (bits : Nat) (s : Bool) (m : Nat) (e : Int) (j : Nat) : Prop where
  sign : bits.testBit (F.ew + F.fw) = s
  exp : e = 1 - F.bias - F.fw + j
  mag : bits % 2 ^ (F.ew + F.fw) = j * 2 ^ F.fw + m
  small : m < 2 ^ (F.fw + 1)
  lead : j = 0 ∨ 2 ^ F.fw ≤ m
  finite : j * 2 ^ F.fw + m ≤ F.maxMag

theorem decodeF_fin {F : FloatFmt} (hF : F.Ieee) {bits : Nat} {s : Bool} {m : Nat} {e : Int} (h : decodeF F bits = .fin s m e) : ∃ j, Encodes F bits s m e j := by
  unfold decodeF at h
  rw [hF.inf] at h
  dsimp only at h
  have hdiv := Nat.div_add_mod (bits % 2 ^ (F.ew + F.fw)) (2 ^ F.fw)
  have hlt := Nat.mod_lt (bits % 2 ^ (F.ew + F.fw)) (Nat.two_pow_pos F.fw)
  have hpow : 2 ^ (F.fw + 1) = 2 * 2 ^ F.fw := by rw [Nat.pow_succ, Nat.mul_comm]
  generalize bits % 2 ^ (F.ew + F.fw) / 2 ^ F.fw = q at h hdiv
  generalize bits % 2 ^ (F.ew + F.fw) % 2 ^ F.fw = r at h hdiv hlt
  split at h
  · cases h
  · split at h
    · cases h
    · next hninf hle =>
      split at h
      · next hq =>
        cases h
        subst hq
        exact ⟨0, rfl, by omega, by omega, by omega, .inl rfl, by omega⟩
      · next hq =>
        cases h
        obtain ⟨j, rfl⟩ : ∃ j, q = j + 1 := ⟨q - 1, by omega⟩
        have hj : 2 ^ F.fw * (j + 1) = j * 2 ^ F.fw + 2 ^ F.fw := by rw [Nat.mul_comm, Nat.succ_mul]
        exact ⟨j, rfl, by push_cast; ring, by omega, by omega, .inr (by omega), by omega⟩

theorem decodeF_inf {F : FloatFmt} (hF : F.Ieee) {bits : Nat} {s : Bool} (h : decodeF F bits = .inf s) :
    bits.testBit (F.ew + F.fw) = s ∧ bits % 2 ^ (F.ew + F.fw) = F.maxMag + 1 := by
  unfold decodeF at h
  rw [hF.inf] at h
  dsimp only at h
  split at h
  · next hm => cases h; exact ⟨rfl, hm⟩
  · split at h
    · cases h
    · split at h <;> cases h

theorem roundTo_zero (F : FloatFmt) (mode : BitVec 3) (draw : Nat) (s : Bool) (e : Int) : roundTo F mode draw s 0 e = (signed F s 0, 0) := rfl

theorem roundUnits_of_le {mode : BitVec 3} {s : Bool} {draw m : Nat} {e u : Int} (h : u ≤ e) : roundUnits mode s draw m e u = (m * 2 ^ (e - u).toNat, false) := if_pos h

/-- The unit in which a format rounds m × 2^e (R95). -/
def FloatFmt.unitOf (F : FloatFmt) (m : Nat) (e : Int) : Int :=
  min (max (e + Nat.log2 m - F.fw) (1 - F.bias - F.fw)) ((F.maxMag / 2 ^ F.fw : Nat) - F.bias - F.fw)

/-- A value that is a multiple of its unit is not rounded: no mode and no draw matters, and no flag is raised. -/
theorem roundTo_exact {F : FloatFmt} {mode : BitVec 3} {draw : Nat} {s : Bool} {m code : Nat} {e u : Int} (hm : m ≠ 0) (hu : F.unitOf m e = u) (hle : u ≤ e)
    (hc : (u + F.fw + F.bias - 1).toNat * 2 ^ F.fw + m * 2 ^ (e - u).toNat = code) (hmax : code ≤ F.maxMag) :
    roundTo F mode draw s m e = (signed F s code, 0) := by
  unfold roundTo
  rw [if_neg hm]
  unfold FloatFmt.unitOf at hu
  dsimp only
  rw [hu, roundUnits_of_le hle]
  dsimp only
  rw [hc, if_neg (Nat.not_lt.2 hmax)]
  simp [flagIf]

/-- A finite encoding's unit is its own exponent. -/
theorem Encodes.unitOf {F : FloatFmt} (hF : F.Ieee) {bits : Nat} {s : Bool} {m : Nat} {e : Int} {j : Nat} (h : Encodes F bits s m e j) (hm : m ≠ 0) :
    F.unitOf m e = e := by
  have hpos := Nat.two_pow_pos F.fw
  have hone : 1 ≤ F.maxMag / 2 ^ F.fw := (Nat.le_div_iff_mul_le hpos).2 (by have := hF.normal; omega)
  unfold FloatFmt.unitOf
  have hexp := h.exp
  rcases Nat.lt_or_ge m (2 ^ F.fw) with hlt | hge
  · have hlog : Nat.log2 m < F.fw := (Nat.log2_lt hm).2 hlt
    obtain rfl : j = 0 := h.lead.resolve_right (by omega)
    omega
  · have hlog : Nat.log2 m = F.fw := (Nat.log2_eq_iff hm).2 ⟨hge, h.small⟩
    have htop : j + 1 ≤ F.maxMag / 2 ^ F.fw := (Nat.le_div_iff_mul_le hpos).2 (by have := h.finite; rw [Nat.succ_mul]; omega)
    omega

theorem FloatFmt.two_pow_width (F : FloatFmt) : 2 ^ F.width = 2 * 2 ^ (F.ew + F.fw) := by
  rw [FloatFmt.width, Nat.add_assoc, Nat.add_comm, Nat.pow_succ, Nat.mul_comm]

theorem signed_testBit {F : FloatFmt} {bits : Nat} (h : bits < 2 ^ F.width) : signed F (bits.testBit (F.ew + F.fw)) (bits % 2 ^ (F.ew + F.fw)) = bits := by
  have hw := F.two_pow_width
  have hdiv := Nat.div_add_mod bits (2 ^ (F.ew + F.fw))
  have hq : bits / 2 ^ (F.ew + F.fw) < 2 := Nat.div_lt_of_lt_mul (by omega)
  rw [Nat.testBit_eq_decide_div_mod_eq, Nat.mod_eq_of_lt hq, signed]
  generalize bits / 2 ^ (F.ew + F.fw) = q at hdiv hq
  interval_cases q
  · simpa using hdiv
  · simpa using hdiv

/-- A finite encoding is the rounding of its own value, in every mode, with no flag. -/
theorem roundTo_decodeF {F : FloatFmt} (hF : F.Ieee) {bits : Nat} (hb : bits < 2 ^ F.width) {s : Bool} {m : Nat} {e : Int} (h : decodeF F bits = .fin s m e)
    (mode : BitVec 3) (draw : Nat) : roundTo F mode draw s m e = (bits, 0) := by
  obtain ⟨j, he⟩ := decodeF_fin hF h
  have hbits := signed_testBit hb
  rw [he.sign, he.mag] at hbits
  rcases Nat.eq_zero_or_pos m with rfl | hpos
  · obtain rfl : j = 0 := he.lead.resolve_right (by have := Nat.two_pow_pos F.fw; omega)
    rw [roundTo_zero, ← hbits, Nat.zero_mul]
  · have hm : m ≠ 0 := by omega
    have hcode : (e + F.fw + F.bias - 1).toNat * 2 ^ F.fw + m * 2 ^ (e - e).toNat = j * 2 ^ F.fw + m := by
      rw [show (e + F.fw + F.bias - 1).toNat = j by have := he.exp; omega]
      simp
    rw [roundTo_exact hm (he.unitOf hF hm) le_rfl hcode he.finite, hbits]

/-- A rounding is an encoding of the format. -/
theorem roundTo_lt {F : FloatFmt} (hF : F.Ieee) (mode : BitVec 3) (draw : Nat) (s : Bool) (m : Nat) (e : Int) : (roundTo F mode draw s m e).1 < 2 ^ F.width := by
  have hw := F.two_pow_width
  have hsigned : ∀ c ≤ F.maxMag + 1, signed F s c < 2 ^ F.width := fun c hc => by
    have := hF.fits
    unfold signed
    split <;> omega
  unfold roundTo
  split
  · exact hsigned 0 (Nat.zero_le _)
  · dsimp only
    split
    · rw [hF.inf]
      dsimp only
      split
      · exact hsigned _ le_rfl
      · exact hsigned _ (Nat.le_succ _)
    · next h => exact hsigned _ (by omega)

theorem convF_lt {F : FloatFmt} (hF : F.Ieee) (hn : F.nan < 2 ^ F.width) (mode : BitVec 3) (draw : Nat) (x : FVal) : (convF F mode draw x).1 < 2 ^ F.width := by
  have hw := F.two_pow_width
  have := hF.fits
  cases x with
  | nan q =>
    show (if F.nan = 0 then (0, flNV) else (F.nan, flagIf q flNV)).1 < _
    split
    · exact Nat.two_pow_pos _
    · exact hn
  | inf s =>
    simp only [convF, hF.inf, signed]
    split <;> omega
  | fin s m e => exact roundTo_lt hF mode draw s m e

end Sys2Proof.Machine
end

section
namespace Sys2Proof.Machine
open Sys2Proof.Safety

/-! ## Special results (R84, R95) -/

theorem addF_inf_opposite (m : BitVec 3) (draw : Nat) (u : Bool) : addF f32 m draw (.inf u) (.inf (! u)) = (0x7FC00000, 16) := by cases u <;> rfl

theorem divF_inf_inf (m : BitVec 3) (draw : Nat) (u v : Bool) : divF f32 m draw (.inf u) (.inf v) = (0x7FC00000, 16) := rfl

theorem mulF_zero_inf (m : BitVec 3) (draw : Nat) (u v : Bool) (e : Int) : mulF f32 m draw (.fin u 0 e) (.inf v) = (0x7FC00000, 16) := rfl

theorem divF_zero_zero (m : BitVec 3) (draw : Nat) (u v : Bool) (e f : Int) : divF f32 m draw (.fin u 0 e) (.fin v 0 f) = (0x7FC00000, 16) := rfl

theorem divF_by_zero (m : BitVec 3) (draw : Nat) (u v : Bool) {n : Nat} (hn : n ≠ 0) (e f : Int) :
    divF f32 m draw (.fin u n e) (.fin v 0 f) = (if u = v then 0x7F800000 else 0xFF800000, 8) := by
  simp only [divF, if_true, if_neg hn]
  cases u <;> cases v <;> simp [signed, f32, flDZ]

theorem sqrtF_negative (m : BitVec 3) (draw : Nat) {n : Nat} (hn : n ≠ 0) (e : Int) : sqrtF f32 m draw (.fin true n e) = (0x7FC00000, 16) := if_neg hn

theorem sqrtF_negative_zero (m : BitVec 3) (draw : Nat) (e : Int) : sqrtF f32 m draw (.fin true 0 e) = (0x80000000, 0) := rfl

/-- A value less itself is exactly zero, whose sign is the mode's. -/
theorem addF_negF_self (m : BitVec 3) (draw : Nat) (u : Bool) (n : Nat) (e : Int) :
    addF f32 m draw (.fin u n e) (negF (.fin u n e)) = (if m = 3 then 0x80000000 else 0, 0) := by
  have hx : addExact m u n e (! u) n e = (decide (m = 3), 0, e) := by
    unfold addExact toUnits
    cases u <;> simp
  show (match addExact m u n e (! u) n e with | (s, m', e') => roundTo f32 m draw s m' e') = _
  rw [hx]
  show (signed f32 (decide (m = 3)) 0, (0 : Flags)) = _
  by_cases hm : m = 3 <;> simp [hm, signed, f32]

theorem isSig_of_not_nan {x : FVal} (h : ∀ q, x ≠ .nan q) : isSig x = false := by
  cases x with
  | nan q => exact absurd rfl (h q)
  | inf s => rfl
  | fin s m e => rfl

theorem nanOf_f32 (q : Bool) : nanOf f32 q = (0x7FC00000, if q then 16 else 0) := rfl

theorem addF_nan (m : BitVec 3) (draw : Nat) (q : Bool) {y : FVal} (h : ∀ q', y ≠ .nan q') : addF f32 m draw (.nan q) y = (0x7FC00000, if q then 16 else 0) := by
  show nanOf f32 (q || isSig y) = _
  rw [isSig_of_not_nan h, Bool.or_false, nanOf_f32]

theorem mulF_nan (m : BitVec 3) (draw : Nat) (q : Bool) {y : FVal} (h : ∀ q', y ≠ .nan q') : mulF f32 m draw (.nan q) y = (0x7FC00000, if q then 16 else 0) := by
  show nanOf f32 (q || isSig y) = _
  rw [isSig_of_not_nan h, Bool.or_false, nanOf_f32]

end Sys2Proof.Machine

open Sys2Proof Sys2Proof.Machine Sys2Proof.Safety

/-- Settles O18: an encoding's own unit is its exponent, so it is not rounded; each special result by the operands' kinds. -/
theorem floatSpecials : Obligations.FloatSpecials := by
  unfold Obligations.FloatSpecials
  refine ⟨?exact, ?special⟩
  case exact =>
    rintro F mode draw bits u n e (rfl | rfl | rfl) hb h
    · exact roundTo_decodeF f32_ieee hb h mode draw
    · exact roundTo_decodeF bf16_ieee hb h mode draw
    · exact roundTo_decodeF hf_ieee hb h mode draw
  case special =>
    rintro s m b a d u n e seed rfl
    refine ⟨fun ha hb => computesF_of_roundInto rfl ?_, fun ha hb => ⟨computesF_of_roundInto rfl ?_, computesF_of_roundInto rfl ?_⟩,
      fun ha ⟨v, hb⟩ => computesF_of_roundInto rfl ?_, fun ha ⟨v, f, hb⟩ => computesF_of_roundInto rfl ?_, fun ha hn v f hb => computesF_of_roundInto rfl ?_,
      fun ha hn => computesF_of_roundInto rfl ?_, fun ha => computesF_of_roundInto rfl ?_, fun ha => computesF_of_roundInto rfl ?_,
      fun q ha hb => ⟨computesF_of_roundInto rfl ?_, computesF_of_roundInto rfl ?_⟩⟩
    · rw [ha, hb]; exact addF_inf_opposite ..
    · rw [ha, hb]; exact addF_inf_opposite ..
    · rw [ha, hb]; exact divF_inf_inf ..
    · rw [ha, hb]; exact mulF_zero_inf ..
    · rw [ha, hb]; exact divF_zero_zero ..
    · rw [ha, hb]; exact divF_by_zero _ _ _ _ hn ..
    · rw [ha]; exact sqrtF_negative _ _ hn _
    · rw [ha]; exact sqrtF_negative_zero ..
    · rw [ha]; exact addF_negF_self ..
    · rw [ha]; exact addF_nan _ _ _ hb
    · rw [ha]; exact mulF_nan _ _ _ hb
end

section
namespace Sys2Proof.Machine
open Sys2Proof.Safety

/-! ## Integer types of a conversion (R86, R87, R91) -/

theorem IntTy.read_signed {w : Nat} (hw : 0 < w) (n : Nat) : (IntTy.mk w true).read n = (BitVec.ofNat w n).toInt := by
  have hpow : 2 ^ w = 2 * 2 ^ (w - 1) := by rw [← Nat.pow_succ', Nat.succ_eq_add_one, Nat.sub_add_cancel hw]
  rw [BitVec.toInt_eq_toNat_cond, BitVec.toNat_ofNat]
  unfold IntTy.read
  dsimp only
  by_cases h : 2 ^ (w - 1) ≤ n % 2 ^ w
  · rw [if_pos ⟨rfl, h⟩, if_neg (by omega)]
  · rw [if_neg (fun hc => h hc.2), if_pos (by omega)]

theorem IntTy.read_unsigned (w n : Nat) : (IntTy.mk w false).read n = (BitVec.ofNat w n).toNat := by
  rw [BitVec.toNat_ofNat]
  rfl

theorem intTyOf_read (k : BitVec 2) (x : Word) : (intTyOf k).read x.toNat =
    if k = 0 then x.toInt else if k = 1 then (x.toNat : Int) else if k = 2 then (x.setWidth 32).toInt else ((x.setWidth 32).toNat : Int) := by
  obtain rfl | rfl | rfl | rfl : k = 0 ∨ k = 1 ∨ k = 2 ∨ k = 3 := by revert k; decide
  · exact (IntTy.read_signed (by decide) _).trans (by simp)
  · exact (IntTy.read_unsigned ..).trans (by simp)
  · exact (IntTy.read_signed (by decide) _).trans (by simp)
  · exact (IntTy.read_unsigned ..).trans (by simp)

theorem intTyOf_bounds (k : BitVec 2) : ((intTyOf k).lo, (intTyOf k).hi) =
    if k = 0 then (-(2 ^ 63 : Int), (2 ^ 63 : Int) - 1) else if k = 1 then (0, (2 ^ 64 : Int) - 1) else if k = 2 then (-(2 ^ 31 : Int), (2 ^ 31 : Int) - 1) else (0, (2 ^ 32 : Int) - 1) := by
  revert k; decide

theorem intTyOf_lo_le_hi (k : BitVec 2) : (intTyOf k).lo ≤ (intTyOf k).hi := by revert k; decide

/-- A conversion to an integer register: the value of the type, its flags, and a draw in mode RS. -/
theorem fcvtGF_computes {s : State} {m : BitVec 3} {k : BitVec 2} {a d : BitVec 5} {v : Int} {fl : Flags}
    (h : toIntF (intTyOf k) m (lfsrNext s.ctx.seed).toNat (s.fv a) = (v, fl)) :
    ComputesGF (.fcvtGF m k a d) s d (BitVec.ofInt 64 v) fl (if m = 5 then lfsrNext s.ctx.seed else s.ctx.seed) := by
  refine computesGF_of_next (u := s.draw m) ?_ (.inr rfl)
  show execFcvtGF m k a d s = _
  unfold execFcvtGF State.nextDraw
  rw [h]

/-- A finite value as the count of its rounding to an integer. -/
theorem toIntF_fin (t : IntTy) (m : BitVec 3) (draw : Nat) (u : Bool) (n : Nat) (e v : Int)
    (hv : v = if u then -((roundUnits m u draw n e 0).1 : Int) else (roundUnits m u draw n e 0).1) :
    toIntF t m draw (.fin u n e) = if v < t.lo ∨ v > t.hi then (satInt v t.lo t.hi, flNV) else (v, flagIf (roundUnits m u draw n e 0).2 flNX) := by
  subst hv
  rfl

/-- The value of a conversion that clamps below, clamps above, or fits. -/
theorem toIntF_fin_cases {t : IntTy} (ht : t.lo ≤ t.hi) (m : BitVec 3) (draw : Nat) (u : Bool) (n : Nat) (e v : Int)
    (hv : v = if u then -((roundUnits m u draw n e 0).1 : Int) else (roundUnits m u draw n e 0).1) :
    (v < t.lo → toIntF t m draw (.fin u n e) = (t.lo, 16)) ∧ (t.hi < v → toIntF t m draw (.fin u n e) = (t.hi, 16)) ∧
      (t.lo ≤ v → v ≤ t.hi → toIntF t m draw (.fin u n e) = (v, if (roundUnits m u draw n e 0).2 then 1 else 0)) := by
  rw [toIntF_fin t m draw u n e v hv]
  refine ⟨fun h => ?_, fun h => ?_, fun hlo hhi => ?_⟩
  · rw [if_pos (.inl h), satInt, if_pos h]; rfl
  · rw [if_pos (.inr h), satInt, if_neg (by omega), if_pos h]; rfl
  · rw [if_neg (by omega)]; rfl

/-! ## bf16 as f32 (R86) -/

/-- A number in bf16 is the f32 of the same bits above 16 zeros. -/
theorem convF_bf16 {y : Nat} (hy : y < 65536) (h : isNan (decodeF bf16 y) = false) : convF f32 0 0 (decodeF bf16 y) = (y * 65536, 0) := by
  have hy' : y < 2 ^ bf16.width := hy
  have hbits := signed_testBit hy'
  have hshift : ∀ (s : Bool) (c : Nat), signed f32 s (c * 65536) = signed bf16 s c * 65536 := fun s c => by
    cases s
    · rfl
    · show 2 ^ 31 + c * 65536 = (2 ^ 15 + c) * 65536
      omega
  cases hd : decodeF bf16 y with
  | nan q => rw [hd] at h; cases h
  | inf s =>
    obtain ⟨hsign, hmag⟩ := decodeF_inf bf16_ieee hd
    rw [hsign, hmag] at hbits
    change signed bf16 s 0x7F80 = y at hbits
    show (signed f32 s (0x7F80 * 65536), (0 : Flags)) = _
    rw [hshift, hbits]
  | fin s m e =>
    obtain ⟨j, he⟩ := decodeF_fin bf16_ieee hd
    rw [he.sign, he.mag] at hbits
    show roundTo f32 0 0 s m e = _
    have hexp : e = j - 133 := he.exp.trans (by simp only [bf16]; omega)
    have hsmall : m < 256 := he.small
    have hfin : j * 128 + m ≤ 0x7F7F := he.finite
    change signed bf16 s (j * 128 + m) = y at hbits
    rcases Nat.eq_zero_or_pos m with rfl | hpos
    · obtain rfl : j = 0 := he.lead.resolve_right (by simp [bf16])
      rw [roundTo_zero, ← hbits, ← hshift, Nat.zero_mul]
    · have hm : m ≠ 0 := by omega
      have hunit : f32.unitOf m e = e - 16 := by
        have hu : bf16.unitOf m e = e := he.unitOf bf16_ieee hm
        simp only [FloatFmt.unitOf, bf16, f32] at hu ⊢
        omega
      have hcode : (e - 16 + f32.fw + f32.bias - 1).toNat * 2 ^ f32.fw + m * 2 ^ (e - (e - 16)).toNat = (j * 128 + m) * 65536 := by
        rw [show (e - 16 + f32.fw + f32.bias - 1).toNat = j by simp only [f32]; omega, show (e - (e - 16)).toNat = 16 by omega,
          show 2 ^ f32.fw = 128 * 65536 from rfl]
        ring
      rw [roundTo_exact hm hunit (by omega) hcode (by simp only [f32]; omega), hshift, hbits]

theorem convF_nan {F : FloatFmt} (hF : F.nan ≠ 0) {x : FVal} (h : isNan x = true) (m : BitVec 3) (draw : Nat) : convF F m draw x = (F.nan, if isSig x then 16 else 0) := by
  cases x with
  | nan q => exact if_neg hF
  | inf s => cases h
  | fin s n e => cases h

end Sys2Proof.Machine

open Sys2Proof Sys2Proof.Machine Sys2Proof.Safety

/-- Settles O20: an integer is read by its type, a float is rounded and then clamped to it, and a narrower float keeps its value. -/
theorem floatConversions : Obligations.FloatConversions := by
  unfold Obligations.FloatConversions
  rintro s m k a d x draw seed lo hi rfl rfl rfl hty
  rw [← intTyOf_bounds k] at hty
  cases hty
  refine ⟨fun v hv r hr => ?_, fun q hx => ?_, fun u hx => ?_, fun u n e v hx hv => ?_, fun h hh => ⟨fun hn => ?_, fun hn => ?_⟩,
    fun r hr => computesF_of_writeF rfl hr.symm, fun r hr => ⟨?_, computesF_of_roundInto rfl hr.symm⟩, fun r hr => ⟨?_, computesF_of_roundInto rfl hr.symm⟩⟩
  · rw [← intTyOf_read k] at hv
    subst hv
    exact computesF_of_roundInto rfl hr.symm
  · exact fcvtGF_computes (v := 0) (by rw [hx]; rfl)
  · exact fcvtGF_computes (by rw [hx]; rfl)
  · obtain ⟨hlow, hhigh, hfits⟩ := toIntF_fin_cases (intTyOf_lo_le_hi k) m _ u n e v hv
    exact ⟨fun h => fcvtGF_computes (by rw [hx]; exact hlow h), fun h => fcvtGF_computes (by rw [hx]; exact hhigh h),
      fun h h' => fcvtGF_computes (by rw [hx]; exact hfits h h')⟩
  · subst hh
    exact computesF_of_writeF rfl (convF_bf16 (Nat.mod_lt _ (by decide)) hn)
  · subst hh
    exact computesF_of_writeF rfl (convF_nan (by decide) hn 0 0)
  · subst hr; exact convF_lt bf16_ieee (by decide) m _ _
  · subst hr; exact convF_lt hf_ieee (by decide) m _ _
end

section
/-! # Bit-granular access (09_local_memory.md R218, R220) and the bit-address registers (R68, R90) -/

namespace Sys2Proof.Machine
open Sys2Proof.Safety

/-! ## Numbers as bytes, bit by bit -/

theorem testBit_leNat (l : List Byte) {i j : Nat} (hi : i < l.length) (hj : j < 8) : (leNat l).testBit (8 * i + j) = l[i].getLsbD j := by
  induction l generalizing i with
  | nil => cases hi
  | cons x l ih =>
    have hx : x.toNat < 2 ^ 8 := x.isLt
    rw [leNat, Nat.add_comm, show 256 = 2 ^ 8 from rfl, Nat.testBit_two_pow_mul_add _ hx]
    cases i with
    | zero => rw [if_pos (by omega), Nat.mul_zero, Nat.zero_add]; rfl
    | succ i => rw [if_neg (by omega), show 8 * (i + 1) + j - 8 = 8 * i + j by omega]; exact ih (by simpa using hi)

theorem getElem_leBytes (x n i : Nat) (h : i < (leBytes x n).length) : (leBytes x n)[i] = BitVec.ofNat 8 (x / 256 ^ i) := by
  induction n generalizing x i with
  | zero => cases h
  | succ n ih =>
    cases i with
    | zero => simp [leBytes]
    | succ i =>
      have hl : i < (leBytes (x / 256) n).length := by simpa [leBytes] using h
      rw [show (leBytes x (n + 1))[i + 1] = (leBytes (x / 256) n)[i] from rfl, ih _ _ hl, Nat.div_div_eq_div_mul, ← Nat.pow_succ']

theorem getLsbD_getElem_leBytes (x n i : Nat) (h : i < (leBytes x n).length) {j : Nat} (hj : j < 8) : (leBytes x n)[i].getLsbD j = x.testBit (8 * i + j) := by
  rw [getElem_leBytes, BitVec.getLsbD_ofNat, decide_eq_true hj, Bool.true_and, show 256 = 2 ^ 8 from rfl, ← Nat.pow_mul, Nat.testBit_div_two_pow, Nat.add_comm]

/-- A number with k bits from bit lo on replaced by those of another. -/
theorem testBit_replaced (x y lo k i : Nat) :
    (x % 2 ^ lo + y % 2 ^ k * 2 ^ lo + x / 2 ^ (lo + k) * 2 ^ (lo + k)).testBit i = if lo ≤ i ∧ i < lo + k then y.testBit (i - lo) else x.testBit i := by
  have hlow : x % 2 ^ lo < 2 ^ lo := Nat.mod_lt _ (Nat.two_pow_pos _)
  have hmid : 2 ^ lo * (y % 2 ^ k) + x % 2 ^ lo < 2 ^ (lo + k) :=
    calc 2 ^ lo * (y % 2 ^ k) + x % 2 ^ lo < 2 ^ lo * (y % 2 ^ k + 1) := by rw [Nat.mul_succ]; omega
      _ ≤ 2 ^ lo * 2 ^ k := Nat.mul_le_mul_left _ (Nat.mod_lt _ (Nat.two_pow_pos _))
      _ = 2 ^ (lo + k) := (Nat.pow_add ..).symm
  rw [show x % 2 ^ lo + y % 2 ^ k * 2 ^ lo + x / 2 ^ (lo + k) * 2 ^ (lo + k) = 2 ^ (lo + k) * (x / 2 ^ (lo + k)) + (2 ^ lo * (y % 2 ^ k) + x % 2 ^ lo) by
    rw [Nat.mul_comm (y % 2 ^ k), Nat.mul_comm (x / 2 ^ (lo + k))]; omega]
  rw [Nat.testBit_two_pow_mul_add _ hmid, Nat.testBit_two_pow_mul_add _ hlow, Nat.testBit_mod_two_pow, Nat.testBit_mod_two_pow, Nat.testBit_div_two_pow]
  rcases Nat.lt_or_ge i lo with hi | hi
  · rw [if_pos (by omega), if_pos hi, if_neg (by omega), decide_eq_true hi, Bool.true_and]
  · rcases Nat.lt_or_ge i (lo + k) with hik | hik
    · rw [if_pos hik, if_neg (by omega), if_pos ⟨hi, hik⟩, decide_eq_true (by omega), Bool.true_and]
    · rw [if_neg (by omega), if_neg (by omega), Nat.sub_add_cancel hik]

/-! ## Bytes that an activation reads and may write (R204) -/

theorem State.readByte_writable {s : State} {x : Nat} (h : lineWritable s.actor s.ctx (x / 64) = true) : s.readByte x = s.hereCore.pad.byte x := by
  unfold State.readByte
  split
  · rw [if_neg (by simp [h])]
  · rfl

theorem State.readBytes_getElem {s : State} {a n i : Nat} (h : i < (s.readBytes a n).length) : (s.readBytes a n)[i] = s.readByte (a + i) := by
  induction n generalizing a i with
  | zero => cases h
  | succ n ih =>
    cases i with
    | zero => rfl
    | succ i =>
      rw [show (s.readBytes a (n + 1))[i + 1] = (s.readBytes (a + 1) n)[i]'(by simpa [State.readBytes] using h) from rfl, ih, Nat.add_assoc, Nat.add_comm 1]

theorem State.store_isSome {s : State} {a : Nat} {l : List Byte} (h : Saves s a l.length) : ∃ t, s.store s.ctx.slot a l = some t := by
  obtain ⟨u, hu⟩ := Option.isSome_iff_exists.1 h
  exact ⟨_, by unfold State.store; rw [hu]⟩

/-- What a store leaves of its core, of the module and of the contexts, whose own goes on as x. -/
theorem State.store_frame {s t : State} {k : BitVec 4} {a : Nat} {l : List Byte} (h : s.store k a l = some t) (x : Ctx) :
    CoreKept s (t.setCtx x) ∧ ElsewhereSame s (t.setCtx x) ∧ OnlyCtx s x (t.setCtx x) := by
  obtain ⟨hhere, hcx⟩ := State.store_here h
  have hrest := State.store_rest h
  refine ⟨?core, ?elsewhere, hhere, hcx, fun y => by rw [State.ctxAt_setCtx, hcx, State.store_ctxAt h]⟩
  case core =>
    refine ⟨fun w => ?_, ?_⟩
    · rw [← State.store_full h w, State.hereCore_setCtx]; rfl
    · obtain ⟨u, hu, rfl⟩ := State.store_eq h
      have hcore : u.hereCore = { s.hereCore with actors := u.hereCore.actors } := by unfold State.hereCore; rw [hu.here]; exact hu.core _
      rw [State.hereCore_setCtx, State.hereCore_setHere, hcore]
      exact ⟨rfl, rfl, rfl, rfl, rfl⟩
  case elsewhere =>
    refine ⟨fun c hc => ?_, fun b => ?_, ?_⟩
    · rw [← State.store_other h hc]
      exact State.core_setHere_ne t _ (hhere ▸ hc)
    · show (t.base b).dram = _
      rw [State.store_base h]
    · show t.hostMem = _ ∧ t.depot = _ ∧ t.flight = _ ∧ t.leaves = _ ∧ t.caps = _ ∧ t.groups = _ ∧ t.mgmt = _
      rw [hrest]
      exact ⟨rfl, rfl, rfl, rfl, rfl, rfl, rfl⟩

/-! ## The checks of a field (R218, R220) -/

section
variable {s : State} {w : Bool} {b k : Nat}

theorem bitSpan_end (hk : 0 < k) : b / 8 + bitSpan b k = (b + k - 1) / 8 + 1 := by unfold bitSpan; omega

theorem checkBits_beyond (h : 0x17FFFF < b + k - 1) : checkBits s.actor s.ctx w b k = some .window := if_pos h

theorem checkBits_passes (hb : b + k - 1 ≤ 0x17FFFF) (hz : s.actor.zonesBad = false)
    (hl : OnLines (b / 8) (bitSpan b k) fun l => (if w then lineWritable s.actor s.ctx else lineReadable s.actor) l = true) :
    checkBits s.actor s.ctx w b k = none := by
  unfold checkBits
  rw [if_neg (by omega), if_neg (by simp [hz])]
  exact if_pos (linesAll_of_onLines hl)

theorem checkBits_outside (hk : 0 < k) (hb : b + k - 1 ≤ 0x17FFFF) (hz : s.actor.zonesBad = false) {l : Nat} (hlo : b / 8 / 64 ≤ l) (hhi : l ≤ (b + k - 1) / 8 / 64)
    (hl : (if w then lineWritable s.actor s.ctx else lineReadable s.actor) l = false) : checkBits s.actor s.ctx w b k = some .zone := by
  have hend := bitSpan_end (b := b) hk
  unfold checkBits
  rw [if_neg (by omega), if_neg (by simp [hz]), if_neg]
  unfold linesAll
  show ¬ ((decide (bitSpan b k = 0) || List.all _ _) = true)
  rw [decide_eq_false (by omega), Bool.false_or, List.all_eq_true]
  intro hall
  have := hall l (List.mem_range'_1.2 ⟨hlo, by unfold bitSpan at hend; omega⟩)
  rw [hl] at this
  cases this

end

/-! ## The bit-address registers (R68, R90) -/

theorem State.b_setB (s : State) (d : BitVec 2) (v : FWord) (q : BitVec 2) : (s.setB d v).b q = if q = d then v else s.b q := by
  simp only [State.b, State.setB, State.ctx_setCtx, Vector.getElem_set, BitVec.toNat_inj, eq_comm]

/-- A bit-address register after an access of k bits: moved on where the instruction says so. -/
def bumped (n : BitVec 1) (b : FWord) (k : Nat) : FWord := if n = 1 then BitVec.ofNat 32 (b.toNat + k) else b

@[simp] theorem State.setG_b (s : State) (d : BitVec 5) (v : Word) (q : BitVec 2) : (s.setG d v).b q = s.b q := by simp [State.b]

@[simp] theorem State.advance_b (s : State) (n : Nat) (q : BitVec 2) : (s.advance n).b q = s.b q := by simp [State.b, State.advance, State.goto]

theorem State.bumpB_b (s : State) (n : BitVec 1) (r : BitVec 2) (k : Nat) (q : BitVec 2) :
    (s.bumpB n r (s.b r) k).b q = if q = r then bumped n (s.b r) k else s.b q := by
  unfold State.bumpB bumped
  split
  · rw [State.b_setB, BitVec.ofNat_add, BitVec.ofNat_toNat, BitVec.setWidth_eq]
  · split
    · next h => rw [h]
    · rfl

theorem State.bumpB_cases (s : State) (n : BitVec 1) (r : BitVec 2) (b : FWord) (k : Nat) :
    s.bumpB n r b k = s ∨ ∃ v, s.bumpB n r b k = s.setCtx { s.ctx with b := v } := by
  unfold State.bumpB
  split
  · exact .inr ⟨_, rfl⟩
  · exact .inl rfl

theorem State.bumpB_g (s : State) (n : BitVec 1) (r : BitVec 2) (b : FWord) (k : Nat) (q : BitVec 5) : (s.bumpB n r b k).g q = s.g q := by
  obtain h | ⟨v, h⟩ := s.bumpB_cases n r b k <;> rw [h]
  simp [State.g]

theorem State.setB_advance (s : State) (r : BitVec 2) (v : FWord) : (s.setB r v).advance 4 = s.setCtx
    { s.ctx with b := ((s.setB r v).advance 4).ctx.b, pc := s.ctx.pc + 4, retired := s.ctx.retired + 1 } := by simp [State.setB, State.advance, State.goto]

theorem State.bumpB_advance (s : State) (n : BitVec 1) (r : BitVec 2) (b : FWord) (k : Nat) : (s.bumpB n r b k).advance 4 = s.setCtx
    { s.ctx with b := ((s.bumpB n r b k).advance 4).ctx.b, pc := s.ctx.pc + 4, retired := s.ctx.retired + 1 } := by
  obtain h | ⟨v, h⟩ := s.bumpB_cases n r b k <;> rw [h] <;> simp [State.advance, State.goto]

/-- An instruction that writes a bit-address register, and after it g[d], changes no other part of the state. -/
theorem bumped_setG_advance (s : State) (n : BitVec 1) (r : BitVec 2) (b : FWord) (k : Nat) (d : BitVec 5) (v : Word) :
    ((s.bumpB n r b k).setG d v).advance 4 = s.setCtx
      { s.ctx with
        g := (((s.bumpB n r b k).setG d v).advance 4).ctx.g, b := (((s.bumpB n r b k).setG d v).advance 4).ctx.b, pc := s.ctx.pc + 4, retired := s.ctx.retired + 1 } := by
  obtain h | ⟨w, h⟩ := s.bumpB_cases n r b k <;> rw [h]
  · obtain h | h := s.setG_eq d v <;> rw [h] <;> simp [State.advance, State.goto]
  · obtain h | h := State.setG_eq (s.setCtx { s.ctx with b := w }) d v <;> rw [h] <;> simp [State.advance, State.goto]

/-- The low k bits sign-extended are those of a k-bit number. -/
theorem signFrom_eq_signExtend {k : Nat} (hk : 1 ≤ k ∧ k ≤ 64) (x : Nat) : signFrom (BitVec.ofNat 64 x) k = (BitVec.ofNat k x).signExtend 64 := by
  refine BitVec.eq_of_getLsbD_eq fun i hi => ?_
  rw [getLsbD_signFrom _ hk hi, BitVec.getLsbD_signExtend, BitVec.msb_eq_getLsbD_last, BitVec.getLsbD_ofNat, BitVec.getLsbD_ofNat, BitVec.getLsbD_ofNat,
    decide_eq_true hi, decide_eq_true (show min i (k - 1) < 64 by omega), decide_eq_true (show k - 1 < k by omega), Bool.true_and, Bool.true_and, Bool.true_and]
  split
  · next h => rw [decide_eq_true h, Bool.true_and, min_eq_left (by omega)]
  · rw [min_eq_right (by omega)]

theorem signFrom_eq {x k : Nat} (hk : 1 ≤ k ∧ k ≤ 64) (hx : x < 2 ^ k) :
    signFrom (BitVec.ofNat 64 x) k = if 2 ^ (k - 1) ≤ x then BitVec.ofInt 64 ((x : Int) - 2 ^ k) else BitVec.ofNat 64 x := by
  have hpow : 2 ^ k = 2 * 2 ^ (k - 1) := by rw [← Nat.pow_succ', Nat.succ_eq_add_one, Nat.sub_add_cancel hk.1]
  rw [signFrom_eq_signExtend hk, BitVec.signExtend, BitVec.toInt_eq_toNat_cond, BitVec.toNat_ofNat, Nat.mod_eq_of_lt hx]
  split
  · rw [if_neg (by omega), BitVec.ofInt_natCast]
  · rw [if_pos (by omega)]; norm_cast

/-! ## The accesses (R218) -/

section
variable {s : State} {sg n : BitVec 1} {w a d : BitVec 5} {k : Nat} {r : BitVec 2}

theorem ldbits_loads (hr : r = a.setWidth 2) (hk : k = w.toNat + 1) (hb : (s.b r).toNat + k - 1 ≤ 0x17FFFF) (hz : s.actor.zonesBad = false)
    (hl : OnLines ((s.b r).toNat / 8) (bitSpan (s.b r).toNat k) fun l => lineReadable s.actor l = true)
    (hs : Sound s ((s.b r).toNat / 8) (bitSpan (s.b r).toNat k)) : exec (.ldbits sg n w a d) s =
      .next (((s.bumpB n r (s.b r) k).setG d (if sg = 1 ∧ 2 ^ (k - 1) ≤ s.readField (s.b r).toNat k
        then BitVec.ofInt 64 ((s.readField (s.b r).toNat k : Int) - 2 ^ k) else BitVec.ofNat 64 (s.readField (s.b r).toNat k))).advance 4) := by
  subst hr hk
  show execLdbits sg n w a d s = _
  unfold execLdbits
  dsimp only
  rw [checkBits_passes (w := false) hb hz hl, badIn_of_sound hs]
  dsimp only
  have hlt : s.readField (s.b (a.setWidth 2)).toNat (w.toNat + 1) < 2 ^ (w.toNat + 1) := Nat.mod_lt _ (Nat.two_pow_pos _)
  rw [signFrom_eq (by omega) hlt, ← ite_and]

theorem ldbits_bad (hr : r = a.setWidth 2) (hk : k = w.toNat + 1) {e : Bad} (h : checkBits s.actor s.ctx false (s.b r).toNat k = some e) :
    exec (.ldbits sg n w a d) s = badAccess 0x058 e ((s.b r).setWidth 64) s := by
  subst hr hk
  show execLdbits sg n w a d s = _
  unfold execLdbits
  dsimp only
  rw [h]

theorem stbits_bad (hr : r = a.setWidth 2) (hk : k = w.toNat + 1) {e : Bad} (h : checkBits s.actor s.ctx true (s.b r).toNat k = some e) :
    exec (.stbits n w a d) s = badAccess 0x058 e ((s.b r).setWidth 64) s := by
  subst hr hk
  show execStbits n w a d s = _
  unfold execStbits
  dsimp only
  rw [h]

/-- The number in the bytes of a field's span, the field replaced (R218). -/
def replacedSpan (s : State) (b k : Nat) (v : Word) : Nat :=
  leNat (s.readBytes (b / 8) (bitSpan b k)) % 2 ^ (b % 8) + v.toNat % 2 ^ k * 2 ^ (b % 8) +
    leNat (s.readBytes (b / 8) (bitSpan b k)) / 2 ^ (b % 8 + k) * 2 ^ (b % 8 + k)

theorem stbits_stores (hr : r = a.setWidth 2) (hk : k = w.toNat + 1) (hb : (s.b r).toNat + k - 1 ≤ 0x17FFFF) (hz : s.actor.zonesBad = false)
    (hl : OnLines ((s.b r).toNat / 8) (bitSpan (s.b r).toNat k) fun l => lineWritable s.actor s.ctx l = true)
    (hs : Sound s ((s.b r).toNat / 8) (bitSpan (s.b r).toNat k)) {t : State}
    (ht : s.store s.ctx.slot ((s.b r).toNat / 8) (leBytes (replacedSpan s (s.b r).toNat k (s.g d)) (bitSpan (s.b r).toNat k)) = some t) :
    exec (.stbits n w a d) s = .next ((t.bumpB n r (s.b r) k).advance 4) := by
  subst hr hk
  show execStbits n w a d s = _
  unfold execStbits
  dsimp only
  rw [checkBits_passes (w := true) hb hz hl, badIn_of_sound hs]
  dsimp only
  unfold replacedSpan at ht
  rw [ht, orNoRoom_some]

/-- A bit of the scratchpad after its field has been replaced: bit q is bit q % 8 of byte q / 8. -/
theorem replacedSpan_bit {b : Nat} {v : Word} (hk : 0 < k) (hl : OnLines (b / 8) (bitSpan b k) fun l => lineWritable s.actor s.ctx l = true) {t : State}
    (ht : s.store s.ctx.slot (b / 8) (leBytes (replacedSpan s b k v) (bitSpan b k)) = some t) (q : Nat) : (t.hereCore.pad.byte (q / 8)).getLsbD (q % 8) =
      if b ≤ q ∧ q < b + k then v.getLsbD (q - b) else (s.hereCore.pad.byte (q / 8)).getLsbD (q % 8) := by
  obtain ⟨hin, hout⟩ := State.store_byte ht
  have hend := bitSpan_end (b := b) hk
  rw [leBytes_length] at hout
  by_cases hq : b / 8 ≤ q / 8 ∧ q / 8 < b / 8 + bitSpan b k
  · obtain ⟨i, hi⟩ := Nat.exists_eq_add_of_le hq.1
    have hlen : i < (leBytes (replacedSpan s b k v) (bitSpan b k)).length := by rw [leBytes_length]; omega
    have hread : i < (s.readBytes (b / 8) (bitSpan b k)).length := by rw [State.readBytes_length]; omega
    have hold : (leNat (s.readBytes (b / 8) (bitSpan b k))).testBit (8 * i + q % 8) = (s.hereCore.pad.byte (q / 8)).getLsbD (q % 8) := by
      rw [testBit_leNat _ hread (Nat.mod_lt _ (by decide)), State.readBytes_getElem, State.readByte_writable (hl _ (by omega) (by omega)), ← hi]
    rw [hi, hin i hlen, ← hi]
    rw [getLsbD_getElem_leBytes _ _ _ _ (Nat.mod_lt _ (by decide)), replacedSpan, testBit_replaced, hold]
    by_cases hf : b ≤ q ∧ q < b + k
    · rw [if_pos hf, if_pos (by omega), show 8 * i + q % 8 - b % 8 = q - b by omega]; rfl
    · rw [if_neg hf, if_neg (by omega)]
  · rw [hout _ (by omega), if_neg (by omega)]

end

end Sys2Proof.Machine

open Sys2Proof Sys2Proof.Machine Sys2Proof.Safety

/-- Settles O26: the checks pass or name their trap; a load reads the field, a store replaces it in the bytes of its span. -/
theorem bitAccess : Obligations.BitAccess := by
  unfold Obligations.BitAccess
  intro s sg n w a d b k r bump hr hb hk hbump
  subst hb
  have hpos : 0 < k := by omega
  have hbumped : bump = bumped n (s.b r) k := hbump
  subst hbumped
  refine ⟨?load, fun h => ⟨?_, ?_⟩, fun h hz l hlo hhi => ⟨fun hl => ?_, fun hl => ?_⟩, ?store, ?badd, ?bset, computes_of_writeG rfl (by rw [hr, BitVec.ofNat_toNat])⟩
  case load =>
    intro hb hz hl hs
    refine ⟨_, _, ldbits_loads hr hk hb hz hl hs, rfl, fun q => ?_, fun q => ?_, ?_⟩
    · rw [State.advance_g, State.g_setG, State.bumpB_g]
      rfl
    · rw [State.advance_b, State.setG_b, State.bumpB_b]
    · exact bumped_setG_advance ..
  case store =>
    intro hb hz hl hs hsave
    obtain ⟨t, ht⟩ := State.store_isSome (s := s) (l := leBytes (replacedSpan s (s.b r).toNat k (s.g d)) (bitSpan (s.b r).toNat k)) (by rw [leBytes_length]; exact hsave)
    have hcx := (State.store_here ht).2
    have hctx : t.ctx = s.ctx := by
      show t.ctxAt t.cx = s.ctxAt s.cx
      rw [hcx, State.store_ctxAt ht]
    have hgoes := t.bumpB_advance n r (s.b r) k
    rw [hctx] at hgoes
    have hbits : ∀ q, ((t.bumpB n r (s.b r) k).advance 4).b q = if q = r then bumped n (s.b r) k else s.b q := fun q => by
      have hsame : ∀ q, t.b q = s.b q := fun q => by unfold State.b; rw [hctx]
      rw [State.advance_b, ← hsame r, State.bumpB_b, hsame q]
    refine ⟨_, stbits_stores hr hk hb hz hl hs ht, ?_⟩
    generalize (t.bumpB n r (s.b r) k).advance 4 = u at hgoes hbits
    obtain ⟨hcore, helse, honly⟩ := State.store_frame ht { s.ctx with b := u.ctx.b, pc := s.ctx.pc + 4, retired := s.ctx.retired + 1 }
    rw [← hgoes] at hcore helse honly
    refine ⟨fun q => ?_, hbits, hcore, helse, honly⟩
    rw [hgoes, State.herePad_setCtx]
    exact replacedSpan_bit hpos hl ht q
  case badd =>
    refine ⟨_, rfl, State.setB_advance .., fun q => ?_⟩
    rw [State.advance_b, State.b_setB, BitVec.ofNat_add, BitVec.ofNat_toNat, BitVec.ofNat_toNat, BitVec.setWidth_eq]
    split
    · next h => rw [h]
    · rfl
  case bset =>
    refine ⟨_, rfl, State.setB_advance .., fun q => ?_⟩
    rw [State.advance_b, State.b_setB]
  · exact ldbits_bad hr hk (checkBits_beyond h)
  · exact stbits_bad hr hk (checkBits_beyond h)
  · exact ldbits_bad hr hk (checkBits_outside hpos h hz hlo hhi hl)
  · exact stbits_bad hr hk (checkBits_outside hpos h hz hlo hhi hl)
end

section
/-! # The vector engine's commands (05_vector_registers.md R112, R113) and the mask registers (R67, R117, R130) -/

namespace Sys2Proof.Machine
open Sys2Proof.Safety

/-! ## A command at issue (R112, R113) -/

theorem issueV_issuesV {i : Instr} {x : Word} {s : State} (h : exec i s = issueV { s.cmd i with x := x } s) : IssuesV s i x := by
  refine ⟨fun hroom => ?_, fun hfull => ⟨_, h.trans (if_pos hfull), rfl⟩⟩
  refine ⟨_, h.trans (if_neg (by omega)), ?_, ⟨rfl, rfl, fun y => ?_⟩, ?_⟩
  · unfold State.advance State.goto
    rw [State.vq_setCtx, State.hereCore_setHere]
  · have hq : Quiet s (s.setHere { s.hereCore with vq := s.hereCore.vq ++ [{ s.cmd i with x := x }] }) := .setHere s rfl rfl rfl
    unfold State.advance State.goto
    rw [State.ctxAt_setCtx, hq.ctx_eq, hq.ctxAt_eq]
    rfl
  · exact Within.kept (Within.trans (.setHere s (by rfl)) (.setCtx _ _))

/-! ## A command that the engine takes (R113) -/

/-- The state in which the engine runs a command that it has taken off its queue. -/
def State.taking (s : State) (rest : List Cmd) : State := s.setHere { s.hereCore with vq := rest }

theorem State.taking_quiet (s : State) (rest : List Cmd) : Quiet s (s.taking rest) := .setHere s rfl rfl rfl

theorem State.taking_ctx (s : State) (rest : List Cmd) : (s.taking rest).ctx = s.ctx := (s.taking_quiet rest).ctx_eq

/-- A context written back as it stands changes nothing there. -/
theorem State.taking_setCtx (s : State) (rest : List Cmd) : (s.taking rest).setCtx s.ctx = s.taking rest := by
  rw [State.setCtx_eq]
  unfold State.taking
  rw [State.hereCore_setHere, State.setHere_setHere]
  congr 1
  exact congrArg (fun c => { s.hereCore with vq := rest, ctxs := c }) (Vector.set_getElem_self _)

/-- What the engine leaves when its command has changed registers of its own context only. -/
theorem engineLeaves_of_setCtx (s : State) (rest : List Cmd) (x : Ctx) :
    EngineLeaves s x ((s.taking rest).setCtx x).wakeHere ∧ ((s.taking rest).setCtx x).wakeHere.hereCore.vq = rest := by
  have hw : Within s ((s.taking rest).setCtx x).wakeHere :=
    (Within.trans (.setHere s (by rfl)) (.setCtx _ x)).trans (.setHere _ (by rfl))
  refine ⟨⟨rfl, rfl, fun y => ?_, hw.kept⟩, ?_⟩
  · rw [State.wakeHere_ctxAt, State.ctxAt_setCtx, (s.taking_quiet rest).ctxAt_eq]
    rfl
  · unfold State.wakeHere
    rw [State.hereCore_setHere, State.vq_setCtx]
    unfold State.taking
    rw [State.hereCore_setHere]

theorem exec_vectorCommand {s : State} {k : Cmd} {rest : List Cmd} (hq : s.hereCore.vq = k :: rest) (hctx : k.ctx = s.cx) (hstop : s.hereCore.stopped = false) :
    exec (.vectorCommandExecution s.here) s = .next { (runVector k (s.taking rest)).wakeHere with here := s.here, cx := s.cx } := by
  show execVectorCommandExecution s.here s = _
  unfold execVectorCommandExecution
  rw [show (s.core s.here).vq = k :: rest from hq]
  dsimp only
  rw [show (s.core s.here).stopped = false from hstop, if_neg Bool.false_ne_true, hctx]
  rfl

/-- A command whose run writes x as its context: the engine takes it and leaves that context. -/
theorem takesV_of_setCtx {s : State} {i : Instr} {eff : Cmd → State → Prop} (x : Cmd → Ctx) (hphase : ∀ k, (x k).phase = s.ctx.phase)
    (hrun : ∀ k rest, k.ins = i → runVector k (s.taking rest) = (s.taking rest).setCtx (x k))
    (heff : ∀ k u, u.ctx = woken (x k) → EngineLeaves s (x k) u → eff k u) : TakesV s i eff := by
  intro k rest hq hins hctx hstop
  obtain ⟨hleaves, hrest⟩ := engineLeaves_of_setCtx s rest (x k)
  have hstep := exec_vectorCommand hq hctx hstop
  rw [hrun k rest hins] at hstep
  have hu : ((s.taking rest).setCtx (x k)).wakeHere.ctx = woken (x k) := (hleaves.2.2.1 s.cx).trans (by rw [if_pos rfl])
  exact ⟨((s.taking rest).setCtx (x k)).wakeHere, hstep, .inl ⟨by rw [hu]; exact hphase k, hrest⟩, heff k _ hu hleaves⟩

/-! ## Masks bit by bit (R67, R117) -/

theorem testBit_bitsOf (f : Nat → Bool) (n i : Nat) : (bitsOf f n).testBit i = (decide (i < n) && f i) := by
  have hlt : ∀ n, bitsOf f n < 2 ^ n := fun n => by
    induction n with
    | zero => exact Nat.one_pos
    | succ n ih =>
      rw [bitsOf, Nat.pow_succ]
      split <;> omega
  induction n with
  | zero => simp [bitsOf]
  | succ n ih =>
    have hsum : bitsOf f (n + 1) = 2 ^ n * (if f n then 1 else 0) + bitsOf f n := by rw [bitsOf]; split <;> omega
    rw [hsum, Nat.testBit_two_pow_mul_add _ (hlt n), ih]
    rcases Nat.lt_trichotomy i n with h | rfl | h
    · simp [h, Nat.lt_succ_of_lt h]
    · cases h : f i <;> simp
    · obtain ⟨j, rfl⟩ := Nat.exists_eq_add_of_lt h
      rw [if_neg (by omega), decide_eq_false (by omega), Bool.false_and, show n + j + 1 - n = j + 1 by omega]
      split <;> simp [Nat.testBit_succ]

theorem getLsbD_compareMask {s : State} {w : Nat} {p q : BitVec 3} {res : Nat → Bool} {b : Nat} (hb : b < 64) :
    (compareMask w p (s.p p) (s.p q) res).getLsbD b = compareBit s w p q res b := by
  unfold compareMask
  rw [BitVec.getLsbD_ofNat, testBit_bitsOf, decide_eq_true hb, Bool.true_and, Bool.true_and]
  rfl

/-- The flags of the positions that are active, merged one after another. -/
theorem getLsbD_mergedFlags (active : Nat → Bool) (g : Nat → Flags) (l : List Nat) (z : Flags) (b : Nat) :
    (l.foldl (fun fl i => if active i then fl ||| g i else fl) z).getLsbD b = true ↔ z.getLsbD b = true ∨ ∃ i ∈ l, active i = true ∧ (g i).getLsbD b = true := by
  induction l generalizing z with
  | nil => simp
  | cons i l ih =>
    rw [List.foldl_cons, ih]
    cases h : active i <;> simp [h, or_assoc]

/-! ## A mask register written -/

/-- The context with a mask register and flags written. -/
def Ctx.withMask (x : Ctx) (q : BitVec 3) (m : Word) (fl : Flags) : Ctx := { x with p := x.p.set q.toNat m, fflags := x.fflags ||| fl }

theorem maskWritten_of_withMask {s u : State} {q : BitVec 3} {m : Word} {fl : Flags} {f : Nat → Bool} (hm : ∀ b < 64, m.getLsbD b = f b)
    (hu : u.ctx = woken (s.ctx.withMask q m fl)) (hl : EngineLeaves s (s.ctx.withMask q m fl) u) : MaskWritten s q f u := by
  have hp : ∀ r, u.p r = if r = q then m else s.p r := fun r => by
    unfold State.p
    simp only [hu, woken, Ctx.withMask, Vector.getElem_set, BitVec.toNat_inj, eq_comm]
  refine ⟨fun b hb => by rw [hp, if_pos rfl, hm b hb], fun r hr => by rw [hp, if_neg hr], ?_⟩
  rw [hu]
  exact hl

/-- A command that writes a mask register and merges flags. -/
theorem takesV_of_withMask {s : State} {i : Instr} {q : BitVec 3} {m : Word} {fl : Flags} {f : Nat → Bool} (hm : ∀ b < 64, m.getLsbD b = f b)
    (hrun : ∀ k rest, k.ins = i → runVector k (s.taking rest) = (s.taking rest).setCtx (s.ctx.withMask q m fl)) :
    TakesV s i fun _ u => u.ctx.fflags = s.ctx.fflags ||| fl ∧ MaskWritten s q f u :=
  takesV_of_setCtx (fun _ => s.ctx.withMask q m fl) (fun _ => rfl) hrun fun _ _ hu hl => ⟨by rw [hu]; rfl, maskWritten_of_withMask hm hu hl⟩

theorem takesV_mono {s : State} {i : Instr} {p q : Cmd → State → Prop} (h : TakesV s i p) (hpq : ∀ k u, p k u → q k u) : TakesV s i q := fun k rest h1 h2 h3 h4 =>
  let ⟨u, hu, hq, hp⟩ := h k rest h1 h2 h3 h4
  ⟨u, hu, hq, hpq k u hp⟩

/-! ### The runs -/

section
variable {s t : State} (h : t.ctx = s.ctx)
include h

theorem setP_of_ctx (q : BitVec 3) (m : Word) : t.setP q m = t.setCtx (s.ctx.withMask q m 0) := by
  simp [State.setP, Ctx.withMask, h]

theorem p_of_ctx (r : BitVec 3) : t.p r = s.p r := by unfold State.p; rw [h]

theorem v_of_ctx (r : BitVec 4) : t.v r = s.v r := by unfold State.v; rw [h]

theorem runICmp_of_ctx (k : ICmp) (p : BitVec 3) (b a d : BitVec 4) (u : BitVec 2) : runICmp k p b a d u t =
    t.setCtx (s.ctx.withMask (d.setWidth 3)
      (compareMask (intWidth u) p (s.p p) (s.p (d.setWidth 3)) fun i => k.run (intWidth u) (elem (intWidth u) i (s.v a)) (elem (intWidth u) i (s.v b))) 0) := by
  unfold runICmp
  simp only [setP_of_ctx h, p_of_ctx h, v_of_ctx h]

theorem runFCmp_of_ctx (k : FCmp) (p : BitVec 3) (b a d u : BitVec 4) {r : Nat → Bool × Flags}
    (hr : ∀ j, r j = cmpF k (decodeF (floatTy u) (elem (floatTy u).width j (s.v a))) (decodeF (floatTy u) (elem (floatTy u).width j (s.v b)))) :
    runFCmp k p b a d u t = t.setCtx (s.ctx.withMask (d.setWidth 3) (compareMask (floatTy u).width p (s.p p) (s.p (d.setWidth 3)) fun i => (r i).1)
      ((List.range (lanes (floatTy u).width)).foldl (fun fl i => if activeAt p (s.p p) (floatTy u).width i then fl ||| (r i).2 else fl) 0)) := by
  unfold runFCmp
  simp only [setP_of_ctx h, p_of_ctx h, v_of_ctx h, ← hr]
  simp [State.setFlags, Ctx.withMask]

end

end Sys2Proof.Machine
end

section
namespace Sys2Proof.Machine
open Sys2Proof.Safety

/-! ### The commands (R117, R130) -/

theorem takesV_iCmp {s : State} {i : Instr} (k : ICmp) (p : BitVec 3) (b a d : BitVec 4) (u : BitVec 2) {f : Nat → Nat → Bool} (hf : ∀ x y, k.run (intWidth u) x y = f x y)
    (hrun : ∀ c t, c.ins = i → runVector c t = runICmp k p b a d u t) : TakesV s i fun _ t => t.ctx.fflags = s.ctx.fflags ∧
      MaskWritten s (d.setWidth 3) (compareBit s (intWidth u) p (d.setWidth 3) fun j => f (elem (intWidth u) j (s.v a)) (elem (intWidth u) j (s.v b))) t := by
  simp only [← hf]
  refine takesV_mono (takesV_of_withMask (fun b hb => getLsbD_compareMask hb) fun c rest hc => (hrun c _ hc).trans (runICmp_of_ctx (s.taking_ctx rest) ..)) ?_
  exact fun _ t ⟨hfl, hm⟩ => ⟨hfl.trans (by simp), hm⟩

theorem takesV_fCmp {s : State} {i : Instr} (k : FCmp) (p : BitVec 3) (b a d u : BitVec 4) {r : Nat → Bool × Flags}
    (hr : ∀ j, r j = cmpF k (decodeF (floatTy u) (elem (floatTy u).width j (s.v a))) (decodeF (floatTy u) (elem (floatTy u).width j (s.v b))))
    (hrun : ∀ c t, c.ins = i → runVector c t = runFCmp k p b a d u t) : TakesV s i fun _ t =>
      MaskWritten s (d.setWidth 3) (compareBit s (floatTy u).width p (d.setWidth 3) fun j => (r j).1) t ∧
        FlagsMerged s t (lanes (floatTy u).width) (activeAt p (s.p p) (floatTy u).width) fun j => (0, (r j).2) := by
  refine takesV_mono (takesV_of_withMask (fun b hb => getLsbD_compareMask hb) fun c rest hc => (hrun c _ hc).trans (runFCmp_of_ctx (s.taking_ctx rest) k p b a d u hr)) ?_
  refine fun _ t ⟨hfl, hm⟩ => ⟨hm, fun b => ?_⟩
  rw [hfl, BitVec.getLsbD_or, Bool.or_eq_true, getLsbD_mergedFlags]
  simp

/-- An operation on whole mask registers. -/
theorem takesV_maskOp {s : State} {i : Instr} (d : BitVec 4) {m : Word} {f : Nat → Bool} (hm : ∀ j < 64, m.getLsbD j = f j)
    (hrun : ∀ c t, c.ins = i → t.ctx = s.ctx → runVector c t = t.setP (d.setWidth 3) m) :
    TakesV s i fun _ u => u.ctx.fflags = s.ctx.fflags ∧ MaskWritten s (d.setWidth 3) f u := by
  refine takesV_mono (takesV_of_withMask hm fun c rest hc => (hrun c _ hc (s.taking_ctx rest)).trans (setP_of_ctx (s.taking_ctx rest) ..)) ?_
  exact fun _ t ⟨hfl, hm⟩ => ⟨hfl.trans (by simp), hm⟩

/-- A command that writes one g register. -/
theorem takesV_setG {s : State} {i : Instr} (d : BitVec 5) (v : Word) (hrun : ∀ c t, c.ins = i → t.ctx = s.ctx → runVector c t = t.setG d v) :
    TakesV s i fun _ u => EngineLeaves s { s.ctx with g := u.ctx.g } u ∧ ∀ r, u.g r = if r = d ∧ d ≠ 0 then v else s.g r := by
  have hx : (s.setG d v).ctx = { s.ctx with g := (s.setG d v).ctx.g } := by
    rcases s.setG_eq d v with h | h
    · rw [h]
    · rw [h, State.ctx_setCtx]
  refine takesV_of_setCtx (fun _ => (s.setG d v).ctx) (fun _ => State.setG_ctx_phase ..) (fun c rest hc => ?_) fun c u hu hl => ⟨?_, fun r => ?_⟩
  · rw [hrun c _ hc (s.taking_ctx rest)]
    unfold State.setG
    split
    · exact (s.taking_setCtx rest).symm
    · rw [State.ctx_setCtx, s.taking_ctx]
  · have hg : u.ctx.g = (s.setG d v).ctx.g := by rw [hu]; rfl
    rw [hg, ← hx]
    exact hl
  · rw [← State.g_setG]
    unfold State.g
    rw [hu]
    rfl

end Sys2Proof.Machine

open Sys2Proof Sys2Proof.Machine Sys2Proof.Safety

/-- Settles O43: each command enters the queue, and the engine writes one mask register, bit by bit, or one g register. -/
theorem masks : Obligations.Masks := by
  unfold Obligations.Masks
  rintro s p b a d t u2 g w F q x y - rfl rfl rfl rfl rfl
  refine ⟨?compare, ?fcompare, ?ops, issueV_issuesV rfl, ?_⟩
  case compare =>
    refine List.forall_mem_cons.2 ⟨⟨issueV_issuesV rfl, ?_⟩, List.forall_mem_cons.2 ⟨⟨issueV_issuesV rfl, ?_⟩, List.forall_mem_singleton.2 ⟨issueV_issuesV rfl, ?_⟩⟩⟩
    · exact takesV_iCmp .eq p b a d u2 (fun _ _ => rfl) fun c t hc => by unfold runVector; rw [hc]
    · exact takesV_iCmp .lt p b a d u2 (fun _ _ => rfl) fun c t hc => by unfold runVector; rw [hc]
    · exact takesV_iCmp .ltn p b a d u2 (fun _ _ => rfl) fun c t hc => by unfold runVector; rw [hc]
  case fcompare =>
    refine List.forall_mem_cons.2 ⟨fun r hr => ⟨issueV_issuesV rfl, ?_⟩,
      List.forall_mem_cons.2 ⟨fun r hr => ⟨issueV_issuesV rfl, ?_⟩, List.forall_mem_singleton.2 fun r hr => ⟨issueV_issuesV rfl, ?_⟩⟩⟩
    · exact takesV_fCmp .eq p b a d t hr fun c t hc => by unfold runVector; rw [hc]
    · exact takesV_fCmp .lt p b a d t hr fun c t hc => by unfold runVector; rw [hc]
    · exact takesV_fCmp .le p b a d t hr fun c t hc => by unfold runVector; rw [hc]
  case ops =>
    refine List.forall_mem_cons.2 ⟨⟨issueV_issuesV rfl, ?_⟩, List.forall_mem_cons.2 ⟨⟨issueV_issuesV rfl, ?_⟩, List.forall_mem_singleton.2 ⟨issueV_issuesV rfl, ?_⟩⟩⟩
    · exact takesV_maskOp d (fun j _ => BitVec.getLsbD_and) fun c t hc ht => by unfold runVector; rw [hc]; simp only [p_of_ctx ht]
    · exact takesV_maskOp d (fun j _ => BitVec.getLsbD_or) fun c t hc ht => by unfold runVector; rw [hc]; simp only [p_of_ctx ht]
    · exact takesV_maskOp d (fun j hj => by rw [BitVec.getLsbD_not, decide_eq_true hj, Bool.true_and]) fun c t hc ht => by
        unfold runVector; rw [hc]; simp only [p_of_ctx ht]
  · exact takesV_setG g _ fun c t hc ht => by unfold runVector; rw [hc]; simp only [p_of_ctx ht, onesBelow_eq_countP]
end

section
/-! # Lanes of the vector engine (05_vector_registers.md R110, R111, R118, R119) -/

namespace Sys2Proof.Machine
open Sys2Proof.Safety

/-! ## Elements of packed vectors (R110) -/

/-- Taking a number below 2^n first leaves the w bits from bit lo on as they are, where they lie below bit n. -/
theorem slice_mod_two_pow (x : Nat) {lo w n : Nat} (h : lo + w ≤ n) : x % 2 ^ n / 2 ^ lo % 2 ^ w = x / 2 ^ lo % 2 ^ w := by
  refine Nat.eq_of_testBit_eq fun i => ?_
  simp only [Nat.testBit_mod_two_pow, Nat.testBit_div_two_pow]
  by_cases hi : i < w
  · rw [decide_eq_true (show i + lo < n by omega), Bool.true_and]
  · rw [decide_eq_false hi, Bool.false_and, Bool.false_and]

theorem pack_div_mod (w : Nat) (l : List Nat) (i : Nat) : pack w l / 2 ^ (w * i) % 2 ^ w = l.getD i 0 % 2 ^ w := by
  have hpos : 0 < 2 ^ w := Nat.two_pow_pos w
  induction l generalizing i with
  | nil => simp [pack]
  | cons x l ih =>
    cases i with
    | zero => simp [pack]
    | succ i =>
      have hdiv : pack w (x :: l) / 2 ^ w = pack w l := by
        rw [pack, Nat.add_mul_div_left _ _ hpos, Nat.div_eq_of_lt (Nat.mod_lt _ hpos), Nat.zero_add]
      rw [Nat.mul_succ, Nat.add_comm, Nat.pow_add, ← Nat.div_div_eq_div_mul, hdiv, ih, List.getD_cons_succ]

theorem elem_ofNat_pack {w i n : Nat} (h : w * i + w ≤ n) (l : List Nat) : elem w i (BitVec.ofNat n (pack w l)) = l.getD i 0 % 2 ^ w := by
  unfold elem
  rw [BitVec.toNat_ofNat, slice_mod_two_pow _ h, pack_div_mod]

theorem elem_packV {w i : Nat} (hi : i < lanes w) (l : List Nat) : elem w i (packV w l) = l.getD i 0 % 2 ^ w :=
  elem_ofNat_pack (calc w * i + w = w * (i + 1) := rfl
    _ ≤ w * lanes w := Nat.mul_le_mul_left w hi
    _ ≤ 1024 := Nat.mul_div_le 1024 w) l

theorem elem_mod (w i : Nat) {n : Nat} (v : BitVec n) : elem w i v % 2 ^ w = elem w i v := Nat.mod_mod _ _

/-! ## A masked write (R111) -/

section
variable (w : Nat) (p : BitVec 3) (m : Word) (old : VWord) (f : Nat → Rounded)

theorem mapLanes_congr {f g : Nat → Rounded} (h : ∀ i < lanes w, f i = g i) : mapLanes w p m old f = mapLanes w p m old g := by
  have hmap : ((List.range (lanes w)).map fun i => if activeAt p m w i then f i else (elem w i old, 0)) =
      (List.range (lanes w)).map fun i => if activeAt p m w i then g i else (elem w i old, 0) :=
    List.map_congr_left fun i hi => by rw [h i (List.mem_range.1 hi)]
  unfold mapLanes
  rw [hmap]

theorem elem_mapLanes {i : Nat} (hi : i < lanes w) :
    elem w i (mapLanes w p m old f).1 = if activeAt p m w i then (f i).1 % 2 ^ w else elem w i old := by
  unfold mapLanes
  rw [elem_packV hi, List.map_map, List.getD_eq_getElem _ _ (by simpa using hi), List.getElem_map, List.getElem_range, Function.comp_apply]
  split
  · rfl
  · exact elem_mod ..

theorem mapLanes_flags (b : Nat) :
    (mapLanes w p m old f).2.getLsbD b = true ↔ ∃ i < lanes w, activeAt p m w i = true ∧ (f i).2.getLsbD b = true := by
  have hfold : (mapLanes w p m old f).2 = (List.range (lanes w)).foldl (fun fl i => if activeAt p m w i then fl ||| (f i).2 else fl) 0 := by
    show (List.map _ _).foldl _ 0 = _
    rw [List.foldl_map]
    congr 1
    funext fl i
    split <;> simp
  rw [hfold, getLsbD_mergedFlags]
  simp

end

/-! ## A vector register written -/

/-- The context with a vector register written and flags merged. -/
def Ctx.withVector (x : Ctx) (d : BitVec 4) (v : VWord) (fl : Flags) : Ctx := { x with v := x.v.set d.toNat v, fflags := x.fflags ||| fl }

theorem v_of_withVector {u : State} {x y : Ctx} {d : BitVec 4} {v : VWord} {fl : Flags} (hu : u.ctx = woken y) (hy : y.v = (x.withVector d v fl).v) (r : BitVec 4) :
    u.v r = if r = d then v else x.v[r.toNat] := by
  unfold State.v
  simp only [hu, woken, hy, Ctx.withVector, Vector.getElem_set, BitVec.toNat_inj, eq_comm]

/-- The context with the active lanes of a vector register written and the generator at `seed` (R111, R98). -/
def Ctx.withLanes (x : Ctx) (w : Nat) (p : BitVec 3) (d : BitVec 4) (f : Nat → Rounded) (seed : BitVec 32) : Ctx :=
  { x.withVector d (mapLanes w p x.p[p.toNat] x.v[d.toNat] f).1 (mapLanes w p x.p[p.toNat] x.v[d.toNat] f).2 with seed := seed }

section
variable {s u : State} {w : Nat} {p : BitVec 3} {d : BitVec 4} {f : Nat → Rounded} {seed : BitVec 32}

theorem lanesWritten_of_withLanes (hu : u.ctx = woken (s.ctx.withLanes w p d f seed)) (hl : EngineLeaves s (s.ctx.withLanes w p d f seed) u) :
    LanesWritten s w p d f seed u := by
  have hv := v_of_withVector (fl := (mapLanes w p s.ctx.p[p.toNat] s.ctx.v[d.toNat] f).2) hu rfl
  refine ⟨fun i hi => ?_, fun r hr => ?_, fun b => ?_, ?_⟩
  · rw [hv, if_pos rfl]
    exact elem_mapLanes w p _ _ f hi
  · rw [hv, if_neg hr]
    rfl
  · rw [hu]
    show (s.ctx.fflags ||| (mapLanes w p (s.p p) (s.v d) f).2).getLsbD b = true ↔ _
    rw [BitVec.getLsbD_or, Bool.or_eq_true, mapLanes_flags]
  · rw [hu]
    exact hl

theorem lanesTo_of_ctx {t : State} (h : t.ctx = s.ctx) : t.lanesTo w p d f = t.setCtx (s.ctx.withLanes w p d f s.ctx.seed) := by
  unfold State.lanesTo
  simp only [p_of_ctx h, v_of_ctx h]
  simp [State.setV, State.setFlags, Ctx.withLanes, Ctx.withVector, State.p, State.v, h]

theorem withLanes_congr {x : Ctx} {g : Nat → Rounded} (h : ∀ i < lanes w, f i = g i) : x.withLanes w p d f seed = x.withLanes w p d g seed := by
  unfold Ctx.withLanes
  rw [mapLanes_congr w p _ _ h]

/-- A command that writes the active lanes of a vector register. -/
theorem takesV_of_withLanes {i : Instr} {f : Cmd → Nat → Rounded} {seed : Cmd → BitVec 32}
    (hrun : ∀ c t, c.ins = i → t.ctx = s.ctx → runVector c t = t.setCtx (s.ctx.withLanes w p d (f c) (seed c))) :
    TakesV s i fun c u => LanesWritten s w p d (f c) (seed c) u :=
  takesV_of_setCtx (fun c => s.ctx.withLanes w p d (f c) (seed c)) (fun _ => rfl) (fun c rest hc => hrun c _ hc (s.taking_ctx rest))
    fun _ _ hu hl => lanesWritten_of_withLanes hu hl

end

/-! ## Draws of the stochastic generator (R96, R98) -/

theorem drawList_getD (m : BitVec 3) {n j : Nat} (h : j < n) (x : BitVec 32) :
    (drawList m n x).getD j 0 = if m = 5 then (lfsrSkip (j + 1) x).toNat else 0 := by
  induction n generalizing j x with
  | zero => cases h
  | succ n ih =>
    unfold drawList
    split
    · next hm =>
      cases j with
      | zero => rfl
      | succ j => rw [List.getD_cons_succ, ih (Nat.lt_of_succ_lt_succ h), if_pos hm]; rfl
    · rfl

/-! ## Floating lanes (R112, R118, R119) -/

/-- The rounding mode of an operation for a VRND of issue: one that does not round by it has none. -/
def FOp.modeOf (k : FOp) (m : BitVec 3) : BitVec 3 := if k.byMode then m else 0

theorem runFloat_of_ctx {s t : State} (h : t.ctx = s.ctx) (k : FOp) (F : FloatFmt) (m p : BitVec 3) (c b a d : BitVec 4) : runFloat k F m p c b a d t =
    t.setCtx (s.ctx.withLanes F.width p d
      (fun j => k.run F (k.modeOf m) (if k.modeOf m = 5 then (lfsrSkip (j + 1) s.ctx.seed).toNat else 0)
        (elem F.width j (s.v a)) (elem F.width j (s.v b)) (elem F.width j (s.v c)))
      (if k.modeOf m = 5 then lfsrSkip (lanes F.width) s.ctx.seed else s.ctx.seed)) := by
  unfold runFloat
  simp only [v_of_ctx h, lanesTo_of_ctx h, State.ctx_setCtx, State.setCtx_setCtx, h]
  show t.setCtx (s.ctx.withLanes F.width p d (fun j => k.run F (k.modeOf m) ((drawList (k.modeOf m) (lanes F.width) s.ctx.seed).getD j 0)
    (elem F.width j (s.v a)) (elem F.width j (s.v b)) (elem F.width j (s.v c))) (drawn (k.modeOf m) (lanes F.width) s.ctx.seed)) = _
  refine congrArg t.setCtx (withLanes_congr fun j hj => ?_)
  rw [drawList_getD _ hj]

section
variable {s : State} {i : Instr} {k : FOp} {F : FloatFmt} {p : BitVec 3} {c b a d : BitVec 4} {y z : Nat → Nat} {draw : BitVec 3 → Nat → Nat}
  (hissue : exec i s = issueV { s.cmd i with x := 0 } s) (hrun : ∀ (q : Cmd) (t : State), runVector { q with ins := i } t = runFloat k F q.mode p c b a d t)
  (hyz : ∀ m r j, k.run F m r (elem F.width j (s.v a)) (elem F.width j (s.v b)) (elem F.width j (s.v c)) = k.run F m r (elem F.width j (s.v a)) (y j) (z j))

include hrun hyz in
theorem takesV_float : TakesV s i fun q u => LanesWritten s F.width p d
    (fun j => k.run F (k.modeOf q.mode) (if k.modeOf q.mode = 5 then (lfsrSkip (j + 1) s.ctx.seed).toNat else 0) (elem F.width j (s.v a)) (y j) (z j))
    (if k.modeOf q.mode = 5 then lfsrSkip (lanes F.width) s.ctx.seed else s.ctx.seed) u :=
  takesV_of_withLanes fun q t hq ht => by
    have hrun := hrun q t
    rw [← hq, runFloat_of_ctx ht] at hrun
    simpa only [hyz] using hrun

include hissue hrun hyz

/-- An operation that rounds by the VRND of issue, with a draw for each lane (R98, R112). -/
theorem rounded_lanes (hk : k.byMode = true) (hdraw : ∀ m j, draw m j = if m = 5 then (lfsrSkip (j + 1) s.ctx.seed).toNat else 0) :
    IssuesV s i 0 ∧ TakesV s i fun q u => LanesWritten s F.width p d (fun j => k.run F q.mode (draw q.mode j) (elem F.width j (s.v a)) (y j) (z j))
      (if q.mode = 5 then lfsrSkip (lanes F.width) s.ctx.seed else s.ctx.seed) u := by
  have hmode : ∀ m, k.modeOf m = m := fun m => if_pos hk
  exact ⟨issueV_issuesV hissue, by simpa only [hmode, ← hdraw] using takesV_float hrun hyz⟩

/-- An operation that uses no mode: it draws nothing. -/
theorem modeless_lanes (hk : k.byMode = false) :
    IssuesV s i 0 ∧ TakesV s i fun _ u => LanesWritten s F.width p d (fun j => k.run F 0 0 (elem F.width j (s.v a)) (y j) (z j)) s.ctx.seed u := by
  have hmode : ∀ m, k.modeOf m = 0 := fun m => if_neg (by simp [hk])
  exact ⟨issueV_issuesV hissue, by simpa only [hmode, if_neg (show (0 : BitVec 3) ≠ 5 by decide)] using takesV_float hrun hyz⟩

end

end Sys2Proof.Machine

open Sys2Proof Sys2Proof.Machine Sys2Proof.Safety

/-- Settles O42: each command enters the queue, and the engine maps the operation over the lanes, with the generator's next draws where it rounds by VRND. -/
theorem floatLanes : Obligations.FloatLanes := by
  unfold Obligations.FloatLanes
  rintro s p c b a d t F w draw rfl rfl hdraw
  refine ⟨List.forall_mem_cons.2 ⟨?add, List.forall_mem_cons.2 ⟨?sub, List.forall_mem_cons.2 ⟨?mul, List.forall_mem_cons.2 ⟨?scale,
      List.forall_mem_cons.2 ⟨?fma, List.forall_mem_singleton.2 ?fms⟩⟩⟩⟩⟩, List.forall_mem_cons.2 ⟨?div, List.forall_mem_singleton.2 ?sqrt⟩,
    List.forall_mem_cons.2 ⟨?min, List.forall_mem_cons.2 ⟨?max, List.forall_mem_cons.2 ⟨?abs, List.forall_mem_cons.2 ⟨?neg, List.forall_mem_cons.2 ⟨?recip,
      List.forall_mem_cons.2 ⟨?rsq, List.forall_mem_cons.2 ⟨?exp2, List.forall_mem_singleton.2 ?cls⟩⟩⟩⟩⟩⟩⟩⟩
  case add | sub | mul | scale | fma | fms => exact rounded_lanes rfl (fun _ _ => rfl) (fun _ _ _ => rfl) rfl hdraw
  case div | sqrt => exact rounded_lanes (F := f32) rfl (fun _ _ => rfl) (fun _ _ _ => rfl) rfl hdraw
  case min | max | abs | neg | recip | rsq | exp2 | cls => exact modeless_lanes rfl (fun _ _ => rfl) (fun _ _ _ => rfl) rfl
end

section
/-! # Reductions and the best elements (04_number_formats.md R107, 05_vector_registers.md R128, R129) -/

namespace Sys2Proof.Machine
open Sys2Proof.Safety

/-! ## The order of values (R84) -/

/-- A finite value as a number. -/
def finValue (s : Bool) (m : Nat) (e : Int) : ℚ := (toUnits s m e e : ℚ) * 2 ^ e

theorem toUnits_value (s : Bool) (m : Nat) {e u : Int} (h : u ≤ e) : (toUnits s m e u : ℚ) * 2 ^ u = finValue s m e := by
  obtain ⟨n, rfl⟩ := Int.le.dest h
  have hpow : (2 : ℚ) ^ (u + n : Int) = 2 ^ n * 2 ^ u := by rw [zpow_add₀ two_ne_zero, zpow_natCast, mul_comm]
  unfold finValue toUnits
  rw [hpow, add_sub_cancel_left, sub_self]
  cases s <;> simp [mul_assoc]

/-- Where a value stands: NaN below all, then −∞, the finite values, +∞. -/
def FVal.level : FVal → ℤ ×ₗ ℚ
  | .nan _ => toLex (-2, 0)
  | .inf s => toLex (if s then -1 else 1, 0)
  | .fin s m e => toLex (0, finValue s m e)

theorem toUnits_lt_iff (s t : Bool) (m n : Nat) (e f : Int) :
    toUnits s m e (min e f) < toUnits t n f (min e f) ↔ finValue s m e < finValue t n f := by
  rw [← toUnits_value s m (min_le_left e f), ← toUnits_value t n (min_le_right e f), mul_lt_mul_iff_left₀ (by positivity), Int.cast_lt]

theorem toUnits_eq_iff (s t : Bool) (m n : Nat) (e f : Int) :
    toUnits s m e (min e f) = toUnits t n f (min e f) ↔ finValue s m e = finValue t n f := by
  rw [← toUnits_value s m (min_le_left e f), ← toUnits_value t n (min_le_right e f), mul_left_inj' (by positivity), Int.cast_inj]

theorem ltF_iff {x y : FVal} (hx : isNan x = false) : ltF x y = true ↔ x.level < y.level ∧ isNan y = false := by
  cases x with
  | nan => cases hx
  | inf a =>
    cases y with
    | nan => simp [ltF, isNan]
    | inf b => cases a <;> cases b <;> simp [ltF, isNan, FVal.level, Prod.Lex.toLex_lt_toLex]
    | fin => cases a <;> simp [ltF, isNan, FVal.level, Prod.Lex.toLex_lt_toLex]
  | fin s m e =>
    cases y with
    | nan => simp [ltF, isNan]
    | inf b => cases b <;> simp [ltF, isNan, FVal.level, Prod.Lex.toLex_lt_toLex]
    | fin => simp [ltF, isNan, FVal.level, Prod.Lex.toLex_lt_toLex, toUnits_lt_iff]

theorem eqF_iff {x y : FVal} (hx : isNan x = false) : eqF x y = true ↔ x.level = y.level := by
  cases x with
  | nan => cases hx
  | inf a =>
    cases y with
    | nan => cases a <;> simp [eqF, FVal.level]
    | inf b => cases a <;> cases b <;> simp [eqF, FVal.level]
    | fin => cases a <;> simp [eqF, FVal.level]
  | fin s m e =>
    cases y with
    | nan => simp [eqF, FVal.level]
    | inf b => cases b <;> simp [eqF, FVal.level]
    | fin => simp [eqF, FVal.level, toUnits_eq_iff]

theorem level_nan {x : FVal} (h : isNan x = true) : x.level = toLex (-2, 0) := by
  cases x with
  | nan => rfl
  | inf | fin => cases h

theorem nan_level_lt {x : FVal} (h : isNan x = false) : toLex (-2, 0) < x.level := by
  cases x with
  | nan => cases h
  | inf a => cases a <;> simp [FVal.level, Prod.Lex.toLex_lt_toLex]
  | fin => simp [FVal.level, Prod.Lex.toLex_lt_toLex]

/-! ## Candidates in rank order (R129) -/

/-- The rank of a candidate: the larger value first, NaNs last, equal values by index. -/
def rankOf (F : FloatFmt) (x : Nat × Nat) : (ℤ ×ₗ ℚ)ᵒᵈ ×ₗ ℕ := toLex (OrderDual.toDual (decodeF F x.1).level, x.2)

theorem ranksBefore_iff (F : FloatFmt) (x y : Nat × Nat) : ranksBefore F x y = true ↔ rankOf F x < rankOf F y := by
  have hlt : rankOf F x < rankOf F y ↔ (decodeF F y.1).level < (decodeF F x.1).level ∨ (decodeF F x.1).level = (decodeF F y.1).level ∧ x.2 < y.2 := by
    simp [rankOf, Prod.Lex.toLex_lt_toLex]
  unfold ranksBefore
  rw [hlt]
  cases hx : isNan (decodeF F x.1) <;> cases hy : isNan (decodeF F y.1)
  case false.false =>
    cases he : eqF (decodeF F x.1) (decodeF F y.1)
    · have hne : (decodeF F x.1).level ≠ (decodeF F y.1).level := fun h => by rw [(eqF_iff hx).2 h] at he; cases he
      simp [hx, hy, he, hne, ltF_iff hy]
    · simp [hx, hy, he, (eqF_iff hx).1 he]
  case false.true => simp [hx, hy, level_nan hy, nan_level_lt hx]
  case true.false => simp [hx, hy, level_nan hx, (nan_level_lt hy).not_gt, (nan_level_lt hy).ne]
  case true.true => simp [hx, hy, level_nan hx, level_nan hy]

theorem rankIn_perm (F : FloatFmt) (x : Nat × Nat) (l : List (Nat × Nat)) : (rankIn F x l).Perm (x :: l) := by
  induction l with
  | nil => rfl
  | cons y l ih =>
    unfold rankIn
    split
    · rfl
    · exact (ih.cons y).trans (.swap x y l)

theorem rankIn_sorted {F : FloatFmt} (x : Nat × Nat) {l : List (Nat × Nat)} (h : l.Pairwise fun y z => rankOf F y ≤ rankOf F z) :
    (rankIn F x l).Pairwise fun y z => rankOf F y ≤ rankOf F z := by
  induction h with
  | nil => exact List.pairwise_singleton ..
  | @cons y l hy hl ih =>
    unfold rankIn
    split
    · next hxy =>
      have hxy := ((ranksBefore_iff F x y).1 hxy).le
      exact .cons (List.forall_mem_cons.2 ⟨hxy, fun z hz => hxy.trans (hy z hz)⟩) (.cons hy hl)
    · next hxy =>
      have hyx : rankOf F y ≤ rankOf F x := not_lt.1 fun hlt => hxy ((ranksBefore_iff F x y).2 hlt)
      exact .cons (fun z hz => (List.mem_cons.1 ((rankIn_perm F x l).mem_iff.1 hz)).elim (fun e => e ▸ hyx) (hy z)) ih

theorem ranked_append_singleton (F : FloatFmt) (l : List (Nat × Nat)) (x : Nat × Nat) : ranked F (l ++ [x]) = rankIn F x (ranked F l) := by
  unfold ranked
  rw [List.foldl_append]
  rfl

theorem ranked_perm (F : FloatFmt) (l : List (Nat × Nat)) : (ranked F l).Perm l := by
  induction l using List.reverseRecOn with
  | nil => rfl
  | append_singleton l x ih =>
    rw [ranked_append_singleton]
    exact (rankIn_perm F x _).trans ((ih.cons x).trans (List.perm_append_singleton x l).symm)

theorem ranked_sorted (F : FloatFmt) (l : List (Nat × Nat)) : (ranked F l).Pairwise fun y z => rankOf F y ≤ rankOf F z := by
  induction l using List.reverseRecOn with
  | nil => exact .nil
  | append_singleton l x ih =>
    rw [ranked_append_singleton]
    exact rankIn_sorted x ih

theorem ranksBefore_eq_false {F : FloatFmt} {x y : Nat × Nat} (h : rankOf F x ≤ rankOf F y) : ranksBefore F y x = false :=
  Bool.eq_false_iff.2 fun hb => h.not_gt ((ranksBefore_iff F y x).1 hb)

/-! ## The commands (R128, R129) -/

/-- A command that writes vector registers and flags of its context. -/
theorem takesV_of_withVector {s : State} {i : Instr} {d : BitVec 4} {v : VWord} {fl : Flags}
    (hrun : ∀ (q : Cmd) (t : State), t.ctx = s.ctx → runVector { q with ins := i } t = t.setCtx (s.ctx.withVector d v fl)) :
    TakesV s i fun _ u => u.v d = v ∧ (∀ r, r ≠ d → u.v r = s.v r) ∧ EngineLeaves s { s.ctx with v := u.ctx.v, fflags := s.ctx.fflags ||| fl } u := by
  refine takesV_of_setCtx (fun _ => s.ctx.withVector d v fl) (fun _ => rfl) (fun q rest hq => ?_) fun q u hu hl => ?_
  · rw [← hrun q _ (s.taking_ctx rest), ← hq]
  · have hv := v_of_withVector hu rfl
    refine ⟨by rw [hv, if_pos rfl], fun r hr => by rw [hv, if_neg hr]; rfl, ?_⟩
    rw [hu]
    exact hl

theorem runReduce_of_ctx {s t : State} (h : t.ctx = s.ctx) (k : RedOp) (p : BitVec 3) (ty a d : BitVec 4) {r : Rounded}
    (hr : r = treeReduce (k.op (elemTy ty)) (Nat.log2 (lanes (elemTy ty).width))
      ((List.range (lanes (elemTy ty).width)).map fun j => if activeAt p (s.p p) (elemTy ty).width j then elem (elemTy ty).width j (s.v a) else k.identity (elemTy ty))) :
    runReduce k p ty a d t = t.setCtx (s.ctx.withVector d (BitVec.ofNat 1024 (r.1 % 2 ^ (elemTy ty).width)) r.2) := by
  unfold runReduce
  simp only [p_of_ctx h, v_of_ctx h, ← hr]
  simp [State.setV, State.setFlags, Ctx.withVector, h]

/-- A command that reduces a vector register. -/
theorem reduce_tree {s : State} {i : Instr} {k : RedOp} {p : BitVec 3} {ty a d : BitVec 4} {r : Rounded} (hissue : exec i s = issueV { s.cmd i with x := 0 } s)
    (hrun : ∀ (q : Cmd) (t : State), runVector { q with ins := i } t = runReduce k p ty a d t)
    (hr : r = treeReduce (k.op (elemTy ty)) (Nat.log2 (lanes (elemTy ty).width))
      ((List.range (lanes (elemTy ty).width)).map fun j => if activeAt p (s.p p) (elemTy ty).width j then elem (elemTy ty).width j (s.v a) else k.identity (elemTy ty))) :
    IssuesV s i 0 ∧ TakesV s i fun _ u => u.v d = BitVec.ofNat 1024 (r.1 % 2 ^ (elemTy ty).width) ∧ (∀ q, q ≠ d → u.v q = s.v q) ∧
      EngineLeaves s { s.ctx with v := u.ctx.v, fflags := s.ctx.fflags ||| r.2 } u :=
  ⟨issueV_issuesV hissue, takesV_of_withVector fun q t ht => (hrun q t).trans (runReduce_of_ctx ht k p ty a d hr)⟩

/-- The first k of a list, and z in the places after them up to n. -/
def bestOf {α : Type} (f : α → Nat) (z k n : Nat) (l : List α) : List Nat := (l.take k).map f ++ List.replicate (n - k) z

theorem getD_bestOf {α : Type} (f : α → Nat) (z : Nat) {l : List α} (y : α) {k n j : Nat} (hk : k ≤ l.length) (hj : j < n) :
    (bestOf f z k n l).getD j 0 = if j < k then f (l.getD j y) else z := by
  have hlen : ((l.take k).map f).length = k := by rw [List.length_map, List.length_take, Nat.min_eq_left hk]
  unfold bestOf
  split
  · next h => rw [List.getD_append _ _ _ _ (by omega), List.getD_eq_getElem _ _ (by omega), List.getD_eq_getElem _ _ (by omega), List.getElem_map, List.getElem_take]
  · next h => rw [List.getD_append_right _ _ _ _ (by omega), List.getD_eq_getElem _ _ (by rw [List.length_replicate]; omega), List.getElem_replicate]

/-- The vector registers with the values of the k best candidates in v[d] and their indices in v[d + 1] (R129). -/
def withBest (F : FloatFmt) (k : Nat) (d : BitVec 4) (cands : List (Nat × Nat)) (v : Vector VWord 16) : Vector VWord 16 :=
  (v.set d.toNat (packV F.width (bestOf Prod.fst (signed F true (F.inf.getD 0)) k (lanes F.width) (ranked F cands)))).set (d + 1).toNat
    (packV 32 (bestOf Prod.snd 0xFFFFFFFF k 32 (ranked F cands)))

theorem topkInto_of_ctx {s t : State} (h : t.ctx = s.ctx) (F : FloatFmt) (k : Nat) (d : BitVec 4) (cands : List (Nat × Nat)) :
    topkInto F k d cands t = t.setCtx { s.ctx with v := withBest F k d cands s.ctx.v } := by
  simp only [topkInto, State.setV, State.ctx_setCtx, State.setCtx_setCtx, h]
  rfl

theorem succ_ne_self (d : BitVec 4) : d + 1 ≠ d := by bv_omega

/-- A command that ranks candidates: the best, k + 1 of them, and the fill. -/
theorem topk_best {s : State} {i : Instr} {F : FloatFmt} {k z : Nat} {d : BitVec 4} {cands : List (Nat × Nat)} (hk : k < cands.length)
    (hz : signed F true (F.inf.getD 0) % 2 ^ F.width = z) (hissue : exec i s = issueV { s.cmd i with x := 0 } s)
    (hrun : ∀ (q : Cmd) (t : State), t.ctx = s.ctx → runVector { q with ins := i } t = topkInto F (k + 1) d cands t) :
    IssuesV s i 0 ∧ TakesV s i fun _ u =>
      (∀ j < lanes F.width, elem F.width j (u.v d) = if j ≤ k then ((ranked F cands).getD j (0, 0)).1 % 2 ^ F.width else z) ∧
      (∀ j < 32, elem 32 j (u.v (d + 1)) = if j ≤ k then ((ranked F cands).getD j (0, 0)).2 % 2 ^ 32 else 0xFFFFFFFF) ∧
      (∀ r, r ≠ d → r ≠ d + 1 → u.v r = s.v r) ∧ EngineLeaves s { s.ctx with v := u.ctx.v } u := by
  have hlen : k + 1 ≤ (ranked F cands).length := by rwa [(ranked_perm F cands).length_eq]
  refine ⟨issueV_issuesV hissue,
    takesV_of_setCtx (fun _ => { s.ctx with v := withBest F (k + 1) d cands s.ctx.v }) (fun _ => rfl) (fun q rest hq => ?_) fun q u hu hl => ?_⟩
  · rw [← topkInto_of_ctx (s.taking_ctx rest), ← hrun q _ (s.taking_ctx rest), ← hq]
  · have hv : ∀ r, u.v r = if r = d + 1 then packV 32 (bestOf Prod.snd 0xFFFFFFFF (k + 1) 32 (ranked F cands))
        else if r = d then packV F.width (bestOf Prod.fst (signed F true (F.inf.getD 0)) (k + 1) (lanes F.width) (ranked F cands)) else s.v r := fun r => by
      unfold State.v
      simp only [hu, woken, withBest, Vector.getElem_set, BitVec.toNat_inj, eq_comm]
    refine ⟨fun j hj => ?_, fun j hj => ?_, fun r hd hd1 => by rw [hv, if_neg hd1, if_neg hd], ?_⟩
    · rw [hv, if_neg (succ_ne_self d).symm, if_pos rfl, elem_packV hj, getD_bestOf _ _ (0, 0) hlen hj, apply_ite (· % 2 ^ F.width), hz]
      simp only [Nat.lt_succ_iff]
    · rw [hv, if_pos rfl, elem_packV hj, getD_bestOf _ _ (0, 0) hlen hj, apply_ite (· % 2 ^ 32)]
      simp only [Nat.lt_succ_iff]
      rfl
    · rw [hu]
      exact hl

theorem topkTy_fill (y : BitVec 1) : signed (topkTy y) true ((topkTy y).inf.getD 0) % 2 ^ (topkTy y).width = if y = 0 then 0xFF80 else 0xFF800000 := by
  unfold topkTy
  split <;> rfl

theorem le_lanes_topkTy (y : BitVec 1) : 32 ≤ lanes (topkTy y).width := by
  unfold topkTy
  split <;> decide

end Sys2Proof.Machine

open Sys2Proof Sys2Proof.Machine Sys2Proof.Safety

/-- Settles O45: a reduction writes the tree's result; a ranking is an insertion sort by value and index, of which the first k are written. -/
theorem reductions : Obligations.Reductions := by
  unfold Obligations.Reductions
  refine ⟨?reduce, fun _ _ _ _ _ => rfl, ?topk, fun F l _ => ⟨ranked_perm F l, (ranked_sorted F l).imp ranksBefore_eq_false⟩⟩
  case reduce =>
    rintro s p ty a d T w r rfl rfl hr
    exact List.forall_mem_cons.2 ⟨reduce_tree rfl (fun _ _ => rfl) (hr .sum), List.forall_mem_cons.2 ⟨reduce_tree rfl (fun _ _ => rfl) (hr .max),
      List.forall_mem_singleton.2 (reduce_tree rfl (fun _ _ => rfl) (hr .min))⟩⟩
  case topk =>
    rintro s k y b a d F w half rfl rfl hhalf
    have hk : k.toNat < 32 := k.isLt
    refine List.forall_mem_cons.2 ⟨topk_best ?_ (topkTy_fill y) rfl fun q t ht => ?_, List.forall_mem_singleton.2 (topk_best ?_ (topkTy_fill y) rfl fun q t ht => ?_)⟩
    · rw [List.length_map, List.length_range]
      exact hk.trans_le (le_lanes_topkTy y)
    · simp only [runVector, v_of_ctx ht, Nat.mod_add_mod]
      rfl
    · rw [hhalf, List.length_append, List.length_map, List.length_range]
      omega
    · simp only [runVector, v_of_ctx ht, hhalf]
      rfl
end

section
/-! # A matrix command beside a word in error of another tile (06_tile_registers.md R136, R142, R148) -/

namespace Sys2Proof.Machine

/-- A running context whose command is at the head of the queue: t0 is its accumulator, its operands lie in the scratchpad, its configuration has 17 rows,
which `cfgOk` takes from no program. The first word of t1 is in error. -/
def overlongMma : State :=
  State.reset.setCore 0 { Core.reset with
    ctxs := Core.reset.ctxs.set 0 { Ctx.reset with phase := .running }
    badTiles := [256]
    mq := [{ State.reset.cmd (.mmaI8 17 16 0) with cfg := 0x1100 }] }

/-- The cause of the trap in which an outcome leaves the context in focus. -/
def trapCause : Out → Option (BitVec 9)
  | .next t => match t.ctx.phase with
    | .trapping r _ _ => some r.cause
    | _ => none
  | _ => none

theorem trapCause_of_running {t : State} (h : t.ctx.phase = .running) : trapCause (.next t) = none := by simp only [trapCause, h]

/-- Seventeen rows of 128 bytes end beyond the accumulator's 2,048: the engine meets the word in error of the next tile. -/
theorem overlongMma_traps : trapCause (exec (.matrixCommandExecution overlongMma.here) overlongMma) = some 0x1C3 := by decide +kernel

theorem overlongMma_named_sound : ∀ x ∈ tilesNamed 0 16 17, ∀ y ∈ overlongMma.hereCore.badTiles, y / 256 ≠ x.toNat := by decide +kernel

end Sys2Proof.Machine

open Sys2Proof Sys2Proof.Machine Sys2Proof.Safety

/-- Refutes O48: its last clause asks for sound words in the named tiles only and leaves the command's configuration free. A command of 17 rows reads on into the
tile after its accumulator, where a word in error traps; the clause has the context go on. -/
theorem not_matrixMultiply : ¬ Obligations.MatrixMultiply := by
  unfold Obligations.MatrixMultiply
  intro h
  obtain ⟨-, -, -, htakes⟩ := h overlongMma 0 17 16 0 (.mmaI8 17 16 0) mmaI8Op _ 0 (by simp) rfl
  obtain ⟨u, hexec, -, -, -, -, -, -, -, hcx, hctx, -⟩ := htakes overlongMma_named_sound _ [] rfl rfl rfl rfl
  have hrunning : u.ctx.phase = .running := by
    have hfocus := hctx overlongMma.cx
    rw [if_pos rfl, ← hcx] at hfocus
    exact congrArg Ctx.phase hfocus
  have htraps := overlongMma_traps
  rw [hexec, trapCause_of_running hrunning] at htraps
  cases htraps
end

section
/-! # Integer lanes of the vector engine (05_vector_registers.md R115, R116) -/

namespace Sys2Proof.Machine
open Sys2Proof.Safety

/-! ## Lanes that differ above the element only (R110) -/

/-- Two results that leave the same element of w bits and the same flags. -/
def SameLane (w : Nat) (r q : Rounded) : Prop := r.1 % 2 ^ w = q.1 % 2 ^ w ∧ r.2 = q.2

theorem lanesWritten_congr {s u : State} {w : Nat} {p : BitVec 3} {d : BitVec 4} {f g : Nat → Rounded} {seed : BitVec 32}
    (hfg : ∀ j < lanes w, SameLane w (f j) (g j)) (h : LanesWritten s w p d f seed u) : LanesWritten s w p d g seed u := by
  obtain ⟨hlanes, hregs, hflags, hleaves⟩ := h
  refine ⟨fun j hj => ?_, hregs, fun b => (hflags b).trans (or_congr_right (exists_congr fun j => and_congr_right fun hj => ?_)), hleaves⟩
  · rw [hlanes j hj, (hfg j hj).1]
  · rw [(hfg j hj).2]

/-- A command that writes the active lanes of a vector register and draws nothing. -/
theorem takesV_lanesTo {s : State} {i : Instr} {w : Nat} {p : BitVec 3} {d : BitVec 4} {f g : Cmd → Nat → Rounded}
    (hrun : ∀ (c : Cmd) (t : State), t.ctx = s.ctx → runVector { c with ins := i } t = t.lanesTo w p d (f c)) (hfg : ∀ c, ∀ j < lanes w, SameLane w (f c j) (g c j)) :
    TakesV s i fun c u => LanesWritten s w p d (g c) s.ctx.seed u := by
  refine takesV_mono (takesV_of_withLanes (f := f) (seed := fun _ => s.ctx.seed) fun c t hc ht => ?_) fun c u => lanesWritten_congr (hfg c)
  rw [← lanesTo_of_ctx ht, ← hrun c t ht, ← hc]

/-- The engine of a core takes the oldest command with the focus on that core and on the command's context (R113). -/
theorem exec_vectorCommand_at {s : State} {c : CoreId} {k : Cmd} {rest : List Cmd} (hq : (s.core c).vq = k :: rest) (hstop : (s.core c).stopped = false) :
    exec (.vectorCommandExecution c) s = .next (s.at c k.ctx fun t => (runVector k (t.taking rest)).wakeHere) := by
  show execVectorCommandExecution c s = _
  unfold execVectorCommandExecution
  rw [hq]
  dsimp only
  rw [hstop, if_neg Bool.false_ne_true]
  rfl

/-! ## The operations (R115) -/

theorem int_lanes {s : State} {i : Instr} {k : IOp} {p : BitVec 3} {b a d : BitVec 4} {t : BitVec 2} {g : Nat → Rounded} (hissue : exec i s = issueV { s.cmd i with x := 0 } s)
    (hrun : ∀ (q : Cmd) (u : State), runVector { q with ins := i } u = runInt k p b a d t u)
    (hg : ∀ j, SameLane (intWidth t) (k.run (intWidth t) (elem (intWidth t) j (s.v a)) (elem (intWidth t) j (s.v b))) (g j)) :
    IssuesV s i 0 ∧ TakesV s i fun _ u => LanesWritten s (intWidth t) p d g s.ctx.seed u := by
  refine ⟨issueV_issuesV hissue, takesV_lanesTo (f := fun _ j => k.run (intWidth t) (elem (intWidth t) j (s.v a)) (elem (intWidth t) j (s.v b)))
    (fun q u hu => (hrun q u).trans ?_) fun _ j _ => hg j⟩
  unfold runInt
  simp only [v_of_ctx hu]

theorem wrapInt_natCast (w n : Nat) : wrapInt w n = n % 2 ^ w := by
  unfold wrapInt
  rw [← Int.natCast_emod, Int.toNat_natCast]

theorem sameLane_abs (w x y : Nat) : SameLane w (IOp.abs.run w x y) ((sx w x).natAbs, 0) :=
  ⟨(congrArg (· % 2 ^ w) (wrapInt_natCast ..)).trans (Nat.mod_mod ..), rfl⟩

/-- A saturated result is clamped to its type's bounds, with SA where it was beyond them. -/
theorem satTo_eq_clamped {t : IntTy} (h : t.lo ≤ t.hi) (x : Int) :
    satTo t x = (((max t.lo (min t.hi x)) % (2 ^ t.w : Nat)).toNat, if x < t.lo ∨ t.hi < x then 64 else 0) := by
  show (wrapInt t.w (satInt x t.lo t.hi), flagIf (x < t.lo || x > t.hi) flSA) = _
  rw [satInt_eq h]
  simp [wrapInt, flagIf, flSA]

theorem IntTy.lo_le_hi (w : Nat) (sg : Bool) : (IntTy.mk w sg).lo ≤ (IntTy.mk w sg).hi := by
  have hlow := Nat.one_le_two_pow (n := w - 1)
  have hall := Nat.one_le_two_pow (n := w)
  cases sg
  · show (0 : Int) ≤ (2 ^ w : Nat) - 1
    omega
  · show -((2 ^ (w - 1) : Nat) : Int) ≤ (2 ^ (w - 1) : Nat) - 1
    omega

theorem sameLane_satTo {clamp : Int → Int → Int → Rounded} {w : Nat} (sg : Bool)
    (h : ∀ x lo hi, clamp x lo hi = (((max lo (min hi x)) % (2 ^ w : Nat)).toNat, if x < lo ∨ hi < x then 64 else 0)) (x : Int) :
    SameLane w (satTo ⟨w, sg⟩ x) (clamp x (IntTy.mk w sg).lo (IntTy.mk w sg).hi) := by
  rw [satTo_eq_clamped (IntTy.lo_le_hi w sg), h]
  exact ⟨rfl, rfl⟩

end Sys2Proof.Machine

open Sys2Proof Sys2Proof.Machine Sys2Proof.Safety

/-- Settles O41: each command enters the queue, and the engine maps its operation over the lanes; the engine puts the focus on the command's own context. -/
theorem integerLanes : Obligations.IntegerLanes := by
  unfold Obligations.IntegerLanes
  refine ⟨?lanes, fun s c k rest hq hstop => ?focus⟩
  case lanes =>
    rintro s p c b a d t w clamp - rfl hclamp
    refine ⟨List.forall_mem_cons.2 ⟨?add, List.forall_mem_cons.2 ⟨?sub, List.forall_mem_cons.2 ⟨?mul, List.forall_mem_cons.2 ⟨?mulh, List.forall_mem_cons.2 ⟨?mulhn,
        List.forall_mem_cons.2 ⟨?min, List.forall_mem_cons.2 ⟨?max, List.forall_mem_cons.2 ⟨?minn, List.forall_mem_cons.2 ⟨?maxn, List.forall_mem_cons.2 ⟨?and,
        List.forall_mem_cons.2 ⟨?or, List.forall_mem_cons.2 ⟨?xor, List.forall_mem_cons.2 ⟨?sll, List.forall_mem_cons.2 ⟨?srl, List.forall_mem_cons.2 ⟨?sra,
        List.forall_mem_cons.2 ⟨?adds, List.forall_mem_cons.2 ⟨?addsn, List.forall_mem_cons.2 ⟨?subs, List.forall_mem_cons.2 ⟨?subsn, List.forall_mem_cons.2 ⟨?avg,
        List.forall_mem_singleton.2 ?abs⟩⟩⟩⟩⟩⟩⟩⟩⟩⟩⟩⟩⟩⟩⟩⟩⟩⟩⟩⟩, issueV_issuesV rfl, ?dot⟩
    case add | sub | mul | mulh | min | max | minn | maxn | and | or | xor | srl | sra | avg => exact int_lanes rfl (fun _ _ => rfl) fun _ => ⟨rfl, rfl⟩
    case mulhn | sll => exact int_lanes rfl (fun _ _ => rfl) fun _ => ⟨Nat.mod_mod .., rfl⟩
    case adds | subs => exact int_lanes rfl (fun _ _ => rfl) fun _ => sameLane_satTo true hclamp _
    case addsn | subsn => exact int_lanes rfl (fun _ _ => rfl) fun _ => sameLane_satTo false hclamp _
    case abs => exact int_lanes rfl (fun _ _ => rfl) fun _ => sameLane_abs ..
    case dot => exact takesV_lanesTo (fun _ _ ht => by simp only [runVector, v_of_ctx ht]; rfl) fun _ _ _ => ⟨rfl, rfl⟩
  case focus => exact ⟨_, exec_vectorCommand_at (s := { s with here := c, cx := k.ctx }) hq hstop, exec_vectorCommand_at hq hstop⟩
end

section
/-! # Moves between lanes and conversions of lanes (05_vector_registers.md R111, R123 to R127) -/

namespace Sys2Proof.Machine
open Sys2Proof.Safety

/-! ## A vector register written by a command -/

/-- A command that writes a vector register, merges flags and leaves the generator at a value. -/
theorem takesV_vector {s : State} {i : Instr} {d : BitVec 4} {v : Cmd → VWord} {fl : Cmd → Flags} {seed : Cmd → BitVec 32}
    (hrun : ∀ (q : Cmd) (t : State), t.ctx = s.ctx → runVector { q with ins := i } t = t.setCtx { s.ctx.withVector d (v q) (fl q) with seed := seed q }) :
    TakesV s i fun q u => u.v d = v q ∧ (∀ r, r ≠ d → u.v r = s.v r) ∧ u.ctx.fflags = s.ctx.fflags ||| fl q ∧
      EngineLeaves s { s.ctx with v := u.ctx.v, fflags := u.ctx.fflags, seed := seed q } u := by
  refine takesV_of_setCtx (fun q => { s.ctx.withVector d (v q) (fl q) with seed := seed q }) (fun _ => rfl) (fun q rest hq => ?_) fun q u hu hl => ?_
  · rw [← hrun q _ (s.taking_ctx rest), ← hq]
  · have hv := v_of_withVector (fl := fl q) hu rfl
    refine ⟨by rw [hv, if_pos rfl], fun r hr => by rw [hv, if_neg hr]; rfl, by rw [hu]; rfl, ?_⟩
    rw [hu]
    exact hl

theorem setV_of_ctx {s t : State} (h : t.ctx = s.ctx) (d : BitVec 4) (v : VWord) : t.setV d v = t.setCtx (s.ctx.withVector d v 0) := by
  simp [State.setV, Ctx.withVector, h]

/-- A command that writes a whole vector register with elements. -/
theorem takesV_setV {s : State} {i : Instr} {w : Nat} {d : BitVec 4} {l m : Cmd → List Nat}
    (hrun : ∀ (q : Cmd) (t : State), t.ctx = s.ctx → runVector { q with ins := i } t = t.setV d (packV w (l q)))
    (hl : ∀ q, ∀ j < lanes w, (l q).getD j 0 % 2 ^ w = (m q).getD j 0 % 2 ^ w) : TakesV s i fun q u => VectorWritten s w d (m q) u := by
  refine takesV_mono (takesV_vector (v := fun q => packV w (l q)) (fl := fun _ => 0) (seed := fun _ => s.ctx.seed)
    fun q t ht => (hrun q t ht).trans (setV_of_ctx ht ..)) fun q u ⟨hd, hregs, hfl, hleaves⟩ => ⟨fun j hj => ?_, hregs, ?_⟩
  · rw [hd, elem_packV hj, hl q j hj]
  · have hsame : u.ctx.fflags = s.ctx.fflags := hfl.trans (by simp)
    rw [hsame] at hleaves
    exact hleaves

/-! ## Elements put in, slid, compressed and expanded (R126, R127) -/

theorem elems_set (w n i x : Nat) (v : VWord) : (elems w n v).set i x = (List.range n).map fun j => if j = i then x else elem w j v := by
  refine List.ext_getElem (by simp [elems]) fun j hj hj' => ?_
  simp only [elems, List.getElem_set, List.getElem_map, List.getElem_range, eq_comm]

/-- The bytes of two registers, one behind the other, from byte k on. -/
theorem slid_eq (k : BitVec 7) (v u : VWord) : ((elems 8 128 v ++ elems 8 128 u).drop k.toNat).take 128 =
    (List.range 128).map fun j => if k.toNat + j < 128 then elem 8 (k.toNat + j) v else elem 8 (k.toNat + j - 128) u := by
  refine List.ext_getElem (by simp [elems]; omega) fun j hj hj' => ?_
  simp [elems, List.getElem_append]

theorem expanded_eq_map (w : Nat) (p : BitVec 3) (m : Word) (v : VWord) (n : Nat) : expanded w p m v (List.range n) 0 =
    (List.range n).map fun j => if activeAt p m w j then elem w ((List.range j).countP (activeAt p m w)) v else 0 := by
  have hfrom : ∀ n i, expanded w p m v (List.range' i n) ((List.range i).countP (activeAt p m w)) =
      (List.range' i n).map fun j => if activeAt p m w j then elem w ((List.range j).countP (activeAt p m w)) v else 0 := fun n => by
    induction n with
    | zero => exact fun _ => rfl
    | succ n ih =>
      intro i
      have hcount := ih (i + 1)
      rw [List.range_succ, List.countP_append, List.countP_singleton] at hcount
      rw [List.range'_succ, expanded, List.map_cons, ← hcount]
      cases activeAt p m w i <;> rfl
  rw [List.range_eq_range']
  exact hfrom n 0

/-! ## vcvt (R124) -/

/-- The flags of a list of results together. -/
def mergedFlags (l : List Rounded) : Flags := l.foldl (fun fl r => fl ||| r.2) 0

theorem lanes_anti {w v : Nat} (hw : 0 < w) (h : w ≤ v) : lanes v ≤ lanes w := Nat.div_le_div_left h hw

theorem elemTy_width_pos (c : BitVec 4) : 0 < (elemTy c).width := by revert c; decide

section
variable (s : State) (p : BitVec 3) (wide w : Nat) (d : BitVec 4) (f : Nat → Rounded)

/-- Position j of a conversion: zero beyond the positions of the wider width, the old element where the mask is off. -/
def cvtLane (j : Nat) : Rounded := if lanes wide ≤ j then (0, 0) else if activeAt p (s.p p) wide j then f j else (elem w j (s.v d), 0)

/-- The positions of a conversion. -/
def cvtLanes : List Rounded := (List.range (lanes w)).map (cvtLane s p wide w d f)

theorem elem_cvtLanes {j : Nat} (hj : j < lanes w) : elem w j (packV w ((cvtLanes s p wide w d f).map Prod.fst)) =
    if lanes wide ≤ j then 0 else if activeAt p (s.p p) wide j then (f j).1 % 2 ^ w else elem w j (s.v d) := by
  rw [elem_packV hj, cvtLanes, List.map_map, List.getD_eq_getElem _ _ (by simpa using hj), List.getElem_map, List.getElem_range, Function.comp_apply, cvtLane]
  split
  · exact Nat.zero_mod _
  · split
    · rfl
    · exact elem_mod ..

theorem cvtLane_flags (b j : Nat) :
    (cvtLane s p wide w d f j).2.getLsbD b = true ↔ j < lanes wide ∧ activeAt p (s.p p) wide j = true ∧ (f j).2.getLsbD b = true := by
  unfold cvtLane
  split
  · next h => simp [h]
  · next h => split <;> simp_all

/-- Only positions of the wider width raise flags. -/
theorem cvtLanes_flags (h : lanes wide ≤ lanes w) (b : Nat) : (mergedFlags (cvtLanes s p wide w d f)).getLsbD b = true ↔
    ∃ j < lanes wide, activeAt p (s.p p) wide j = true ∧ (f j).2.getLsbD b = true := by
  rw [mergedFlags, cvtLanes, List.foldl_map]
  refine (getLsbD_mergedFlags (fun _ => true) _ _ 0 b).trans ⟨?_, fun ⟨j, hj, hf⟩ => ?_⟩
  · rintro (hz | ⟨j, -, -, hf⟩)
    · simp at hz
    · exact ⟨j, (cvtLane_flags s p wide w d f b j).1 hf⟩
  · exact .inr ⟨j, List.mem_range.2 (hj.trans_le h), rfl, (cvtLane_flags s p wide w d f b j).2 ⟨hj, hf⟩⟩

end

section
variable {s : State} {p : BitVec 3} {ty st a d : BitVec 4} {T S : ElemTy} {wide : Nat} (hT : T = elemTy ty) (hS : S = elemTy st) (hwide : wide = max S.width T.width)
include hT hS hwide

theorem runVcvt_of_ctx {t : State} (h : t.ctx = s.ctx) (m : BitVec 3) {f : Nat → Rounded}
    (hf : ∀ j, f j = convElem S T m (if m = 5 then (lfsrSkip (j + 1) s.ctx.seed).toNat else 0) (elem S.width j (s.v a))) :
    runVcvt m p ty st a d t = t.setCtx
      { s.ctx.withVector d (packV T.width ((cvtLanes s p wide T.width d f).map Prod.fst)) (mergedFlags (cvtLanes s p wide T.width d f)) with
        seed := if m = 5 then lfsrSkip (lanes T.width) s.ctx.seed else s.ctx.seed } := by
  subst hT hS hwide
  have hlanes : ((List.range (lanes (elemTy ty).width)).map fun j => if j ≥ lanes (max (elemTy st).width (elemTy ty).width) then (0, 0)
      else if activeAt p (s.p p) (max (elemTy st).width (elemTy ty).width) j
        then convElem (elemTy st) (elemTy ty) m ((drawList m (lanes (elemTy ty).width) s.ctx.seed).getD j 0) (elem (elemTy st).width j (s.v a))
      else (elem (elemTy ty).width j (s.v d), 0)) = cvtLanes s p (max (elemTy st).width (elemTy ty).width) (elemTy ty).width d f :=
    List.map_congr_left fun j hj => by rw [drawList_getD m (List.mem_range.1 hj), ← hf]; rfl
  unfold runVcvt
  simp only [p_of_ctx h, v_of_ctx h, h, hlanes]
  simp [State.setV, State.setFlags, Ctx.withVector, mergedFlags, h, drawn]

theorem vcvt_takes {f : BitVec 3 → Nat → Rounded}
    (hf : ∀ m j, f m j = convElem S T m (if m = 5 then (lfsrSkip (j + 1) s.ctx.seed).toNat else 0) (elem S.width j (s.v a))) : TakesV s (.vcvt p ty st a d) fun k u =>
      (∀ j < lanes T.width, elem T.width j (u.v d) =
        if lanes wide ≤ j then 0 else if activeAt p (s.p p) wide j then (f k.mode j).1 % 2 ^ T.width else elem T.width j (s.v d)) ∧
      (∀ r, r ≠ d → u.v r = s.v r) ∧ FlagsMerged s u (lanes wide) (activeAt p (s.p p) wide) (f k.mode) ∧
      EngineLeaves s { s.ctx with v := u.ctx.v, fflags := u.ctx.fflags, seed := if k.mode = 5 then lfsrSkip (lanes T.width) s.ctx.seed else s.ctx.seed } u := by
  have hle : lanes wide ≤ lanes T.width := lanes_anti (hT ▸ elemTy_width_pos ty) (hwide ▸ le_max_right ..)
  refine takesV_mono (takesV_vector fun q t ht => runVcvt_of_ctx hT hS hwide ht q.mode (hf q.mode))
    fun q u ⟨hd, hregs, hfl, hleaves⟩ => ⟨fun j hj => ?_, hregs, fun b => ?_, hleaves⟩
  · rw [hd, elem_cvtLanes s p wide T.width d _ hj]
  · rw [hfl, BitVec.getLsbD_or, Bool.or_eq_true, cvtLanes_flags s p wide T.width d _ hle]

end

/-! ## vcvtsc (R102, R125) -/

theorem pack_lt (w : Nat) (l : List Nat) : pack w l < 2 ^ (w * l.length) := by
  induction l with
  | nil => exact Nat.one_pos
  | cons x l ih =>
    have hx : x % 2 ^ w < 2 ^ w := Nat.mod_lt _ (Nat.two_pow_pos w)
    rw [pack, List.length_cons, Nat.mul_succ, Nat.add_comm (w * l.length), Nat.pow_add]
    calc x % 2 ^ w + 2 ^ w * pack w l < 2 ^ w * (pack w l + 1) := by rw [Nat.mul_succ]; omega
      _ ≤ 2 ^ w * 2 ^ (w * l.length) := Nat.mul_le_mul_left _ ih

/-- Elements packed over the lowest of a register: those stand there, the others are kept. -/
theorem elem_over_kept {w k n : Nat} (hk : w * k + w ≤ n) (v : BitVec n) (l : List Nat) :
    elem w k (BitVec.ofNat n (v.toNat / 2 ^ (w * l.length) * 2 ^ (w * l.length) + pack w l)) = if k < l.length then l.getD k 0 % 2 ^ w else elem w k v := by
  have hbit : ∀ i < w, (v.toNat / 2 ^ (w * l.length) * 2 ^ (w * l.length) + pack w l).testBit (i + w * k) =
      (if k < l.length then pack w l else v.toNat).testBit (i + w * k) := fun i hi => by
    rw [Nat.mul_comm (_ / _), Nat.testBit_two_pow_mul_add _ (pack_lt w l)]
    by_cases h : k < l.length
    · have hle : w * k + w ≤ w * l.length := Nat.mul_le_mul_left w h
      rw [if_pos h, if_pos (by omega)]
    · have hle : w * l.length ≤ w * k := Nat.mul_le_mul_left w (Nat.le_of_not_lt h)
      rw [if_neg h, if_neg (by omega), Nat.testBit_div_two_pow, Nat.sub_add_cancel (by omega)]
  unfold elem
  rw [BitVec.toNat_ofNat, slice_mod_two_pow _ hk, ← pack_div_mod, ← apply_ite (fun x => x / 2 ^ (w * k) % 2 ^ w)]
  refine Nat.eq_of_testBit_eq fun i => ?_
  simp only [Nat.testBit_mod_two_pow, Nat.testBit_div_two_pow]
  by_cases hi : i < w
  · rw [hbit i hi]
  · rw [decide_eq_false hi, Bool.false_and, Bool.false_and]

section
variable {s : State} {F : FloatFmt} {val : Nat → FVal} {sc : Nat → Nat} {c a d : BitVec 4} (hval : ∀ j, val j = decodeF F (elem F.width j (s.v a)))
  (hsc : ∀ k, sc k = kc8Scale ((List.range 32).map fun j => val (32 * k + j)))

/-- The elements of a quantised register. -/
def quantised (n : Nat) (val : Nat → FVal) (sc : Nat → Nat) : List Rounded := (List.range n).map fun j => quantPow e4m3 ((sc (j / 32) : Int) - 127) (val j)

/-- A register with the scales of a quantised one in its lowest bytes. -/
def withScales (n : Nat) (sc : Nat → Nat) (v : VWord) : VWord :=
  BitVec.ofNat 1024 (v.toNat / 2 ^ (8 * (n / 32)) * 2 ^ (8 * (n / 32)) + pack 8 ((List.range (n / 32)).map sc))

theorem elem_withScales (n : Nat) (sc : Nat → Nat) (v : VWord) {k : Nat} (hk : k < 128) : elem 8 k (withScales n sc v) = if k < n / 32 then sc k % 256 else elem 8 k v := by
  have hover := elem_over_kept (w := 8) (k := k) (by omega) v ((List.range (n / 32)).map sc)
  rw [List.length_map, List.length_range] at hover
  refine hover.trans (ite_congr rfl (fun h => ?_) fun _ => rfl)
  rw [List.getD_eq_getElem _ _ (by simpa using h)]
  simp

/-- The context with n quantised values in v[d] and their scales in v[c]. -/
def Ctx.withQuantised (x : Ctx) (c d : BitVec 4) (n : Nat) (val : Nat → FVal) (sc : Nat → Nat) : Ctx :=
  { x with
    v := (x.v.set d.toNat (packV 8 ((quantised n val sc).map Prod.fst))).set c.toNat (withScales n sc x.v[c.toNat]),
    fflags := x.fflags ||| mergedFlags (quantised n val sc) }

include hval hsc in
theorem runQuant_of_ctx (hn : lanes F.width = 32 ∨ lanes F.width = 64) {t : State} (h : t.ctx = s.ctx) :
    runQuant F c a d t = t.setCtx (s.ctx.withQuantised c d (lanes F.width) val sc) := by
  have hvals : (elems F.width (lanes F.width) (s.v a)).map (decodeF F) = (List.range (lanes F.width)).map val := by
    rw [elems, List.map_map]
    exact List.map_congr_left fun j _ => (hval j).symm
  have hscales : ((List.range (lanes F.width / 32)).map fun b => kc8Scale ((((List.range (lanes F.width)).map val).drop (32 * b)).take 32)) =
      (List.range (lanes F.width / 32)).map sc := List.map_congr_left fun b hb => by
    have hblock : 32 * b + 32 ≤ lanes F.width := by have := List.mem_range.1 hb; omega
    rw [hsc]
    refine congrArg kc8Scale (List.ext_getElem (by simp; omega) fun j hj hj' => ?_)
    simp
  have hlanes : ((List.range (lanes F.width)).map fun i => quantPow e4m3 ((((List.range (lanes F.width / 32)).map sc).getD (i / 32) 0 : Int) - 127)
      (((List.range (lanes F.width)).map val).getD i (.fin false 0 0))) = quantised (lanes F.width) val sc := List.map_congr_left fun i hi => by
    have hi := List.mem_range.1 hi
    rw [List.getD_eq_getElem _ _ (by simp; omega), List.getD_eq_getElem _ _ (by simpa using hi)]
    simp
  unfold runQuant
  simp only [v_of_ctx h, hvals, hscales, hlanes]
  simp [State.setV, State.setFlags, Ctx.withQuantised, withScales, mergedFlags, State.v, h]

include hval hsc in
theorem quant_takes {i : Instr} (hrun : ∀ (q : Cmd) (t : State), runVector { q with ins := i } t = runQuant F c a d t) (hn : lanes F.width = 32 ∨ lanes F.width = 64) :
    TakesV s i fun _ u => EngineLeaves s { s.ctx with v := u.ctx.v, fflags := u.ctx.fflags } u ∧
      (c ≠ d → ∀ j < lanes F.width, elem 8 j (u.v d) = (quantPow e4m3 ((sc (j / 32) : Int) - 127) (val j)).1 % 256) ∧
      (∀ k < lanes F.width / 32, elem 8 k (u.v c) = sc k % 256) ∧ (c ≠ d → ∀ k, lanes F.width / 32 ≤ k → k < 128 → elem 8 k (u.v c) = elem 8 k (s.v c)) ∧
      ∀ r, r ≠ c → r ≠ d → u.v r = s.v r := by
  refine takesV_of_setCtx (fun _ => s.ctx.withQuantised c d (lanes F.width) val sc) (fun _ => rfl) (fun q rest hq => ?_) fun q u hu hl => ?_
  · rw [← runQuant_of_ctx hval hsc hn (s.taking_ctx rest), ← hrun q, ← hq]
  · have hv : ∀ r, u.v r = if r = c then withScales (lanes F.width) sc (s.v c)
        else if r = d then packV 8 ((quantised (lanes F.width) val sc).map Prod.fst) else s.v r := fun r => by
      unfold State.v
      simp only [hu, woken, Ctx.withQuantised, Vector.getElem_set, BitVec.toNat_inj, eq_comm]
    refine ⟨by rw [hu]; exact hl, fun hcd j hj => ?_, fun k hk => ?_, fun hcd k hk hk' => ?_, fun r hc hd => by rw [hv, if_neg hc, if_neg hd]⟩
    · rw [hv, if_neg (Ne.symm hcd), if_pos rfl, elem_packV (show j < 128 by omega), quantised, List.map_map, List.getD_eq_getElem _ _ (by simpa using hj)]
      simp
    · rw [hv, if_pos rfl, elem_withScales _ _ _ (by omega), if_pos hk]
    · rw [hv, if_pos rfl, elem_withScales _ _ _ hk', if_neg (by omega)]

/-- The elements of a register decoded by its scales. -/
def dequantised (F : FloatFmt) (scales v : VWord) : List Rounded := (List.range (lanes F.width)).map fun j => kc8Decode F (elem 8 (j / 32) scales) (elem 8 j v)

theorem runDequant_of_ctx {t : State} (h : t.ctx = s.ctx) : runDequant F c a d t = t.setCtx
    (s.ctx.withVector d (packV F.width ((dequantised F (s.v c) (s.v a)).map Prod.fst)) (mergedFlags (dequantised F (s.v c) (s.v a)))) := by
  unfold runDequant
  simp only [v_of_ctx h]
  simp [State.setV, State.setFlags, Ctx.withVector, mergedFlags, dequantised, h]

theorem dequant_takes {i : Instr} (hrun : ∀ (q : Cmd) (t : State), runVector { q with ins := i } t = runDequant F c a d t) : TakesV s i fun _ u =>
    EngineLeaves s { s.ctx with v := u.ctx.v, fflags := u.ctx.fflags } u ∧
    (∀ j < lanes F.width, elem F.width j (u.v d) = (kc8Decode F (elem 8 (j / 32) (s.v c)) (elem 8 j (s.v a))).1 % 2 ^ F.width) ∧ ∀ r, r ≠ d → u.v r = s.v r := by
  refine takesV_mono (takesV_vector (seed := fun _ => s.ctx.seed) fun q t ht => (hrun q t).trans (runDequant_of_ctx ht))
    fun q u ⟨hd, hregs, _, hleaves⟩ => ⟨hleaves, fun j hj => ?_, hregs⟩
  rw [hd, elem_packV hj, dequantised, List.getD_eq_getElem _ _ (by simpa using hj)]
  simp

end

end Sys2Proof.Machine

open Sys2Proof Sys2Proof.Machine Sys2Proof.Safety

/-- Settles O44: each command enters the queue, and the engine writes a vector register, or the g register that takes the lane. -/
theorem laneMoves : Obligations.LaneMoves := by
  unfold Obligations.LaneMoves
  rintro s p w3 c b a d st ty w2 im g n on - rfl hw3 hon
  obtain rfl : on = activeAt p (s.p p) (8 * 2 ^ w2.toNat) := funext hon
  have hwidth : widthOf w3 = 8 * 2 ^ w2.toNat := by rw [widthOf, hw3]
  refine ⟨?cvt, ?cvtsc, ⟨issueV_issuesV rfl, ?splat⟩, ⟨issueV_issuesV rfl, ?splatf⟩, ?ext, ?ins, ⟨issueV_issuesV rfl, ?perm⟩, ⟨issueV_issuesV rfl, ?slide⟩,
    ⟨issueV_issuesV rfl, ?compress⟩, ⟨issueV_issuesV rfl, ?expand⟩, issueV_issuesV rfl, ?merge⟩
  case cvt =>
    intro T S wide draw f hT hS hwide hdraw hf
    exact ⟨issueV_issuesV rfl, vcvt_takes hT hS hwide fun m j => by rw [hf, hdraw]⟩
  case cvtsc =>
    rintro F l val sc hst rfl rfl hval hsc
    refine ⟨issueV_issuesV rfl, ?_⟩
    obtain rfl | rfl | rfl | rfl : st = 0 ∨ st = 1 ∨ st = 2 ∨ st = 3 := by bv_omega
    · exact takesV_mono (quant_takes (c := c) (d := d) hval hsc (fun _ _ => rfl) (by decide)) fun _ u ⟨hl, hq⟩ => ⟨hl, fun _ => hq, fun h => absurd h (by decide)⟩
    · exact takesV_mono (dequant_takes (c := c) (d := d) fun _ _ => rfl) fun _ u ⟨hl, hq⟩ => ⟨hl, fun h => absurd h (by decide), fun _ => hq⟩
    · exact takesV_mono (quant_takes (c := c) (d := d) hval hsc (fun _ _ => rfl) (by decide)) fun _ u ⟨hl, hq⟩ => ⟨hl, fun _ => hq, fun h => absurd h (by decide)⟩
    · exact takesV_mono (dequant_takes (c := c) (d := d) fun _ _ => rfl) fun _ u ⟨hl, hq⟩ => ⟨hl, fun h => absurd h (by decide), fun _ => hq⟩
  case splat | splatf => exact takesV_lanesTo (f := fun k _ => (k.x.toNat % 2 ^ (8 * 2 ^ w2.toNat), 0)) (fun _ _ _ => by simp only [runVector, hwidth]) fun _ _ _ => ⟨Nat.mod_mod .., rfl⟩
  case ext =>
    intro x T hT
    exact ⟨issueV_issuesV rfl, takesV_setG g _ fun q t hq ht => by unfold runVector; rw [hq]; simp only [hT, v_of_ctx ht]⟩
  case ins =>
    refine fun _ => ⟨issueV_issuesV rfl, takesV_setV
      (l := fun k => (List.range (lanes (8 * 2 ^ w2.toNat))).map fun j => if j = im.toNat then k.x.toNat % 2 ^ (8 * 2 ^ w2.toNat) else elem (8 * 2 ^ w2.toNat) j (s.v d))
      (fun k t ht => ?_) fun k j hj => ?_⟩
    · simp only [runVector, hwidth, v_of_ctx ht, elems_set]
    · rw [List.getD_eq_getElem _ _ (by simpa using hj), List.getD_eq_getElem _ _ (by simpa using hj)]
      simp only [List.getElem_map, List.getElem_range]
      split
      · exact Nat.mod_mod ..
      · rfl
  case perm => exact takesV_lanesTo (fun _ _ ht => by simp only [runVector, v_of_ctx ht]; rfl) fun _ _ _ => ⟨rfl, rfl⟩
  case slide => exact takesV_setV (fun _ _ ht => by simp only [runVector, v_of_ctx ht, slid_eq]) fun _ _ _ => rfl
  case compress => exact takesV_setV (fun _ _ ht => by simp only [runVector, p_of_ctx ht, v_of_ctx ht]; rfl) fun _ _ _ => rfl
  case expand => exact takesV_setV (fun _ _ ht => by simp only [runVector, p_of_ctx ht, v_of_ctx ht, expanded_eq_map]; rfl) fun _ _ _ => rfl
  case merge => exact takesV_setV (fun _ _ ht => by simp only [runVector, p_of_ctx ht, v_of_ctx ht]; rfl) fun _ _ _ => rfl
end

section
/-! # Vector loads and stores at issue (05_vector_registers.md R131 to R134) -/

namespace Sys2Proof.Machine
open Sys2Proof.Safety

/-! ## The checks (R131, R132, R134) -/

section
variable {s : State} {write : Bool} {a : Word} {n al : Nat}

theorem checkLocal_misaligned (h : a.toNat % al ≠ 0) : checkLocal s.actor s.ctx write a n al = some .misaligned := if_pos h

theorem checkLocal_beyond (ha : a.toNat % al = 0) (h : 0x30000 < a.toNat + n) : checkLocal s.actor s.ctx write a n al = some .window := by
  unfold checkLocal
  rw [if_neg (by omega), if_pos h]

theorem checkLocal_passes (hz : s.actor.zonesBad = false) (ha : a.toNat % al = 0) (hn : a.toNat + n ≤ 0x30000)
    (hl : OnLines a.toNat n fun l => (if write then lineWritable s.actor s.ctx else lineReadable s.actor) l = true) : checkLocal s.actor s.ctx write a n al = none := by
  unfold checkLocal
  rw [if_neg (by omega), if_neg (by omega), if_neg (by simp [hz])]
  exact if_pos (linesAll_of_onLines hl)

theorem checkLocal_readable (h : Readable s a n al) : checkLocal s.actor s.ctx false a n al = none :=
  let ⟨hz, ha, hn, hl⟩ := h
  checkLocal_passes hz ha hn hl

theorem checkLocal_writable (h : Writable s a n al) : checkLocal s.actor s.ctx true a n al = none :=
  let ⟨hz, ha, hn, hl⟩ := h
  checkLocal_passes hz ha hn hl

end

theorem firstBad_eq_none {f : Nat → Option Bad} {l : List Nat} (h : ∀ j ∈ l, f j = none) : firstBad f l = none := by
  induction l with
  | nil => rfl
  | cons j l ih =>
    rw [firstBad, h j List.mem_cons_self]
    exact ih fun i hi => h i (List.mem_cons_of_mem _ hi)

/-! ## Addresses -/

theorem vecAddr_eq (s : State) (g : BitVec 5) (o : BitVec 4) : vecAddr s g o = BitVec.ofNat 64 ((s.g g).toNat + 128 * o.toNat) := by
  have ho : o.toNat < 16 := o.isLt
  refine BitVec.eq_of_toNat_eq ?_
  simp only [vecAddr, BitVec.toNat_add, BitVec.toNat_shiftLeft, BitVec.toNat_setWidth, BitVec.toNat_ofNat, Nat.shiftLeft_eq]
  omega

theorem gatherAddr_eq (base : Word) (w : Nat) (idx : VWord) (j : Nat) : gatherAddr base w idx j = BitVec.ofNat 64 (base.toNat + elem w j idx * (w / 8)) := by
  rw [gatherAddr, BitVec.ofNat_add, BitVec.ofNat_toNat, BitVec.setWidth_eq]

/-! ## 128 bytes (R131) -/

section
variable {s : State} {write : Bool} {cause : BitVec 9} {a : Word} {i : Instr} (h : exec i s = issueSpan write cause a i s)
include h

theorem span_issues (hc : checkLocal s.actor s.ctx write a 128 8 = none) : IssuesV s i a :=
  issueV_issuesV (h.trans (by rw [issueSpan, hc]))

theorem span_misaligned (ha : a.toNat % 8 ≠ 0) : Traps i s cause a := by
  show exec i s = _
  rw [h, issueSpan, checkLocal_misaligned ha]
  show raise cause (BitVec.ofNat 64 a.toNat) s = _
  rw [BitVec.ofNat_toNat, BitVec.setWidth_eq]
  rfl

/-- A range that ends beyond the window: the first byte beyond it is named (log 26). -/
theorem span_beyond (ha : a.toNat % 8 = 0) (hn : 0x30000 < a.toNat + 128) : Traps i s (cause + 1) (if a.toNat < 0x30000 then 0x30000 else a) := by
  have hfirst : BitVec.ofNat 64 (max a.toNat 0x30000) = if a.toNat < 0x30000 then 0x30000 else a := by
    split
    · rw [max_eq_right (by omega)]
      rfl
    · rw [max_eq_left (by omega), BitVec.ofNat_toNat, BitVec.setWidth_eq]
  show exec i s = _
  rw [h, issueSpan, checkLocal_beyond ha hn, ← hfirst]
  rfl

end

/-! ## Elements at indices (R132) -/

section
variable {s : State} {write : Bool} {cause : BitVec 9} {p : BitVec 3} {w : BitVec 2} {x : BitVec 4} {g : BitVec 5} {i : Instr}
  (h : exec i s = issueGather write cause p w x g i s)
include h

theorem gather_issues (ha : (s.g g).toNat % (widthOf w / 8) = 0)
    (hc : ∀ j ∈ (List.range (lanes (widthOf w))).filter (activeAt p (s.p p) (widthOf w)),
      checkLocal s.actor s.ctx write (gatherAddr (s.g g) (widthOf w) (s.v x) j) (widthOf w / 8) 1 = none) : IssuesV s i (s.g g) := by
  refine issueV_issuesV (h.trans ?_)
  have hpass : checkGather s.actor s.ctx write (s.g g) (widthOf w) p (s.p p) (s.v x) = none := by
    unfold checkGather
    rw [if_neg (by omega)]
    dsimp only
    rw [firstBad_eq_none hc]
  rw [issueGather, hpass]

theorem gather_misaligned (ha : (s.g g).toNat % (widthOf w / 8) ≠ 0) : Traps i s cause (s.g g) := by
  show exec i s = _
  rw [h, issueGather, checkGather, if_pos ha]
  rfl

end

/-! ## vldbits (R133) -/

theorem onlyCtx_ctx {s t : State} {x : Ctx} (h : OnlyCtx s x t) : t.ctx = x := by
  obtain ⟨-, hcx, hctx⟩ := h
  show t.ctxAt t.cx = x
  rw [hcx, hctx, if_pos rfl]

/-- A command issued from a state in which the context in focus stands as x. -/
theorem issueV_next {s r : State} {c : Cmd} {x : Ctx} (hw : Within s r) (hcx : r.cx = s.cx) (hctx : ∀ y, r.ctxAt y = if y = s.cx then x else s.ctxAt y)
    (hvq : r.hereCore.vq = s.hereCore.vq) (hroom : s.hereCore.vq.length < 2) : ∃ t, issueV c r = .next t ∧ t.hereCore.vq = s.hereCore.vq ++ [c] ∧
      OnlyCtx s { x with pc := x.pc + 4, retired := x.retired + 1 } t ∧ PadKept s t 0 0 ∧ ElsewhereSame s t := by
  have hq : Quiet r (r.setHere { r.hereCore with vq := r.hereCore.vq ++ [c] }) := .setHere r rfl rfl rfl
  have hx : (r.setHere { r.hereCore with vq := r.hereCore.vq ++ [c] }).ctx = x := by
    rw [hq.ctx_eq]
    show r.ctxAt r.cx = x
    rw [hcx, hctx, if_pos rfl]
  refine ⟨_, if_neg (by rw [hvq]; omega), ?_, ⟨hw.here, hcx, fun y => ?_⟩, ?_⟩
  · unfold State.advance State.goto
    rw [State.vq_setCtx, State.hereCore_setHere, ← hvq]
  · unfold State.advance State.goto
    rw [State.ctxAt_setCtx, hx, hq.ctxAt_eq, hctx]
    show (if y = r.cx then _ else _) = _
    rw [hcx]
    split <;> rfl
  · exact Within.kept (hw.trans (Within.trans (.setHere r (by rfl)) (.setCtx _ _)))

theorem State.bumpB_ctxAt (s : State) (n : BitVec 1) (r : BitVec 2) (b : FWord) (k : Nat) (y : BitVec 2) :
    (s.bumpB n r b k).ctxAt y = if y = s.cx then { s.ctx with b := (s.bumpB n r b k).ctx.b } else s.ctxAt y := by
  obtain h | ⟨v, h⟩ := s.bumpB_cases n r b k <;> rw [h]
  · split
    · next hy => rw [hy]; rfl
    · rfl
  · rw [State.ctxAt_setCtx, State.ctx_setCtx]

theorem State.bumpB_within (s : State) (n : BitVec 1) (r : BitVec 2) (b : FWord) (k : Nat) : Within s (s.bumpB n r b k) := by
  unfold State.bumpB
  split
  · exact .setCtx s _
  · exact (Logged.refl s).within

theorem State.bumpB_vq (s : State) (n : BitVec 1) (r : BitVec 2) (b : FWord) (k : Nat) : (s.bumpB n r b k).hereCore.vq = s.hereCore.vq := by
  obtain h | ⟨v, h⟩ := s.bumpB_cases n r b k <;> rw [h]
  rw [State.vq_setCtx]

theorem State.bumpB_cx (s : State) (n : BitVec 1) (r : BitVec 2) (b : FWord) (k : Nat) : (s.bumpB n r b k).cx = s.cx := by
  obtain h | ⟨v, h⟩ := s.bumpB_cases n r b k <;> rw [h]
  rfl

section
variable {s : State} {p : BitVec 3} {inc : BitVec 1} {m : BitVec 2} {f : BitVec 4} {b : BitVec 2} {d : BitVec 4} {k : Nat} (hk : k = f.toNat + 1)
include hk

theorem vldbits_beyond (h : 0x17FFFF < (s.b b).toNat + 64 * k - 1) : Traps (.vldbits p inc m f b d) s 0x059 ((s.b b).setWidth 64) := by
  subst hk
  show execVldbits p inc m f b d s = _
  unfold execVldbits
  dsimp only
  rw [checkBits_beyond h]
  rfl

theorem vldbits_issues (hb : (s.b b).toNat + 64 * k - 1 ≤ 0x17FFFF) (hz : s.actor.zonesBad = false)
    (hl : OnLines ((s.b b).toNat / 8) (bitSpan (s.b b).toNat (64 * k)) fun l => lineReadable s.actor l = true) (hroom : s.hereCore.vq.length < 2) :
    ∃ t, exec (.vldbits p inc m f b d) s = .next t ∧ t.hereCore.vq = s.hereCore.vq ++ [{ s.cmd (.vldbits p inc m f b d) with x := (s.b b).setWidth 64 }] ∧
      (∀ q, t.b q = if q = b ∧ inc = 1 then BitVec.ofNat 32 ((s.b b).toNat + 64 * k) else s.b q) ∧
      OnlyCtx s { s.ctx with b := t.ctx.b, pc := s.ctx.pc + 4, retired := s.ctx.retired + 1 } t ∧ PadKept s t 0 0 ∧ ElsewhereSame s t := by
  subst hk
  obtain ⟨t, ht, hvq, honly, hkept⟩ := issueV_next (c := { s.cmd (.vldbits p inc m f b d) with x := (s.b b).setWidth 64 })
    (s.bumpB_within inc b (s.b b) (64 * (f.toNat + 1))) (s.bumpB_cx ..) (fun y => s.bumpB_ctxAt _ _ _ _ y) (s.bumpB_vq ..) hroom
  have hb' : t.ctx.b = (s.bumpB inc b (s.b b) (64 * (f.toNat + 1))).ctx.b := by rw [onlyCtx_ctx honly]
  refine ⟨t, ?_, hvq, fun q => ?_, by rw [hb']; exact honly, hkept⟩
  · show execVldbits p inc m f b d s = _
    unfold execVldbits
    dsimp only
    rw [checkBits_passes (w := false) hb hz hl]
    dsimp only
    rw [if_neg (by omega), ht]
  · have hq : t.b q = (s.bumpB inc b (s.b b) (64 * (f.toNat + 1))).b q := by
      unfold State.b at hb' ⊢
      rw [hb']
    rw [hq, State.bumpB_b, ite_and]
    split
    · next h => rw [h]; rfl
    · rfl

end

end Sys2Proof.Machine
end

section
/-! # Vector loads and stores at the engine (05_vector_registers.md R113, R131 to R134) -/

namespace Sys2Proof.Machine
open Sys2Proof.Safety

/-! ## What the engine's state reads as (R202, R204) -/

@[simp] theorem State.taking_hereCore (s : State) (rest : List Cmd) : (s.taking rest).hereCore = { s.hereCore with vq := rest } := State.hereCore_setHere ..

@[simp] theorem State.taking_actorAt (s : State) (rest : List Cmd) (k : BitVec 4) : (s.taking rest).actorAt k = s.actorAt k := State.actorAt_setHere s (by rfl) k

theorem State.taking_actor (s : State) (rest : List Cmd) : (s.taking rest).actor = s.actor := by
  unfold State.actor
  rw [s.taking_ctx, s.taking_actorAt]

theorem State.taking_readBytes (s : State) (rest : List Cmd) (a n : Nat) : (s.taking rest).readBytes a n = s.readBytes a n := by
  have hbyte : ∀ x, (s.taking rest).readByte x = s.readByte x := fun x => by
    unfold State.readByte
    rw [s.taking_actor, s.taking_ctx, s.taking_hereCore]
    rfl
  induction n generalizing a with
  | zero => rfl
  | succ n ih => rw [State.readBytes, State.readBytes, hbyte, ih]

theorem State.taking_readElem (s : State) (rest : List Cmd) (a w : Nat) : (s.taking rest).readElem a w = leNat (s.readBytes a (w / 8)) :=
  congrArg leNat (s.taking_readBytes rest a (w / 8))

theorem State.taking_readField (s : State) (rest : List Cmd) (b n : Nat) : (s.taking rest).readField b n = s.readField b n := by
  unfold State.readField
  rw [s.taking_readBytes]

/-! ## What it saves does not depend on the queue (R206) -/

theorem State.taking_log (s : State) (rest : List Cmd) (k : BitVec 4) (r : LogRec) : (s.taking rest).log k r = (s.log k r).map (·.taking rest) := by
  unfold State.log
  rw [s.taking_actorAt, show (s.taking rest).spillRoom (s.actorAt k).aid = s.spillRoom (s.actorAt k).aid from rfl]
  cases (s.actorAt k).record r (s.spillRoom (s.actorAt k).aid) with
  | none => rfl
  | some a =>
    refine congrArg some ?_
    show ((s.taking rest).setHere { (s.taking rest).hereCore with actors := _ }).setBase _ _ = ((s.setHere { s.hereCore with actors := _ }).taking rest).setBase _ _
    unfold State.taking
    simp only [State.setHere_setHere, State.hereCore_setHere]
    rfl

theorem State.taking_saveLine (s : State) (rest : List Cmd) (k : BitVec 4) (l : Nat) : (s.taking rest).saveLine k l = (s.saveLine k l).map (·.taking rest) := by
  unfold State.saveLine
  simp only [State.taking_actorAt, State.taking_hereCore, State.taking_log]
  split
  · split
    · split <;> rfl
    · rfl
  · rfl

theorem State.taking_saveLines (rest : List Cmd) (k : BitVec 4) (l : List Nat) (s : State) : (s.taking rest).saveLines k l = (s.saveLines k l).map (·.taking rest) := by
  induction l generalizing s with
  | nil => rfl
  | cons n l ih =>
    rw [State.saveLines, State.saveLines, State.taking_saveLine]
    cases s.saveLine k n with
    | none => rfl
    | some t => exact ih t

/-! ## A command that traps at the engine (R113, R345) -/

theorem trapAt_leaves (s : State) (rest : List Cmd) (pc : BitVec 16) (cause : BitVec 9) (detail : Word) :
    ∃ r, (trapAt pc cause detail (s.taking rest)).wakeHere.ctx.phase = .trapping r none none ∧ r.cause = cause ∧ r.pc = pc ∧
      (trapAt pc cause detail (s.taking rest)).wakeHere.hereCore.vq = rest.filter fun k => k.ctx ≠ s.cx := by
  refine ⟨trapRecord { s.ctx with pc := pc } cause detail, ?_, rfl, rfl, ?_⟩
  · show ((trapAt pc cause detail (s.taking rest)).wakeHere.ctxAt s.cx).phase = _
    rw [State.wakeHere_ctxAt]
    show (trapWith none none cause detail ((s.taking rest).setCtx { (s.taking rest).ctx with pc := pc })).ctx.phase = _
    rw [trapWith_phase, State.ctx_setCtx, s.taking_ctx]
  · simp [trapAt, trapWith, State.wakeHere, Core.stopEngines, show (s.taking rest).cx = s.cx from rfl]

theorem engineLeaves_ctx {s u : State} {x : Ctx} (h : EngineLeaves s x u) : u.ctx = woken x := by
  obtain ⟨-, hcx, hctx, -⟩ := h
  show u.ctxAt u.cx = woken x
  rw [hcx, hctx, if_pos rfl]

/-- A command by what its run leaves, the focus staying on its context. -/
theorem takesV_of_run {s : State} {i : Instr} {eff : Cmd → State → Prop}
    (h : ∀ k rest, k.ins = i → ∃ t, runVector k (s.taking rest) = t ∧ t.here = s.here ∧ t.cx = s.cx ∧ QueueLeft s t.wakeHere rest t.wakeHere.hereCore.vq ∧ eff k t.wakeHere) :
    TakesV s i eff := by
  intro k rest hq hins hctx hstop
  obtain ⟨t, ht, hhere, hcx, hleft, heff⟩ := h k rest hins
  have hfocus : { t.wakeHere with here := s.here, cx := s.cx } = t.wakeHere := by rw [← hhere, ← hcx]; rfl
  have hstep := exec_vectorCommand hq hctx hstop
  rw [ht, hfocus] at hstep
  exact ⟨t.wakeHere, hstep, hleft, heff⟩

/-! ## Loads (R131 to R133) -/

section
variable {s : State} {i : Instr} {w : Nat} {p : BitVec 3} {d : BitVec 4} {addrs : Cmd → List (Nat × Nat)} {f : Cmd → Nat → Rounded} {lane : Cmd → State → Nat → Rounded}

theorem mem_wordsOf {a n v : Nat} (h : a ≤ 8 * v) (h' : 8 * v + 8 ≤ a + n) : v ∈ wordsOf a n := by
  unfold wordsOf
  rw [if_neg (by omega), List.mem_range'_1]
  omega

/-- The engine reads the words and writes the lanes, or traps on a word in error. -/
theorem takesV_load (hrun : ∀ k t, t.ctx = s.ctx → runVector { k with ins := i } t = t.readsOk k.pc (addrs k) fun u => u.lanesTo w p d (lane k u))
    (hlane : ∀ k rest, lane k (s.taking rest) = f k) : TakesV s i fun k u =>
      ((∀ r ∈ addrs k, Sound s r.1 r.2) → LanesWritten s w p d (f k) s.ctx.seed u) ∧
      ((∃ x ∈ addrs k, ∃ v ∈ s.hereCore.badPad, v ∈ wordsOf x.1 x.2) → ∃ r, u.ctx.phase = .trapping r none none ∧ r.cause = 0x1C1 ∧ r.pc = k.pc) := by
  refine takesV_of_run fun k rest hk => ?_
  have hrun : runVector k (s.taking rest) = (s.taking rest).readsOk k.pc (addrs k) fun u => u.lanesTo w p d (lane k u) := by rw [← hrun k _ (s.taking_ctx rest), ← hk]
  unfold State.readsOk at hrun
  cases hbad : (addrs k).findSome? fun x => (s.taking rest).hereCore.badIn x.1 x.2 with
  | some v =>
    rw [hbad] at hrun
    obtain ⟨r, hphase, hcause, hpc, hvq⟩ := trapAt_leaves s rest k.pc 0x1C1 (BitVec.ofNat 64 (8 * v))
    refine ⟨_, hrun, rfl, rfl, .inr ⟨⟨r, hphase⟩, hvq⟩, fun hsound => ?_, fun _ => ⟨r, hphase, hcause, hpc⟩⟩
    obtain ⟨x, hx, hv⟩ := List.exists_of_findSome?_eq_some hbad
    rw [State.taking_hereCore] at hv
    exact absurd (badIn_of_sound (hsound x hx)) (by rw [show s.hereCore.badIn x.1 x.2 = some v from hv]; simp)
  | none =>
    rw [hbad] at hrun
    dsimp only at hrun
    rw [hlane, lanesTo_of_ctx (s.taking_ctx rest)] at hrun
    obtain ⟨hleaves, hvq⟩ := engineLeaves_of_setCtx s rest (s.ctx.withLanes w p d (f k) s.ctx.seed)
    have hu := engineLeaves_ctx hleaves
    refine ⟨_, hrun, rfl, rfl, .inl ⟨?_, hvq⟩, fun _ => lanesWritten_of_withLanes hu hleaves, ?_⟩
    · exact (congrArg Ctx.phase hu).trans rfl
    · rintro ⟨x, hx, v, hv, hmem⟩
      have hnone := List.find?_eq_none.1 (List.findSome?_eq_none_iff.1 hbad x hx) v hmem
      simp [hv] at hnone

end

end Sys2Proof.Machine
end

section
/-! # Vector stores at the engine (05_vector_registers.md R131, R132, 09_local_memory.md R202, R206) -/

namespace Sys2Proof.Machine
open Sys2Proof.Safety

/-! ## Bytes put one after another -/

theorem Core.pokeAll_eq (ws : List (Nat × Byte)) (k : Core) : k.pokeAll ws = { k with pad := (k.pokeAll ws).pad } := by
  induction ws generalizing k with
  | nil => rfl
  | cons x ws ih => exact ih { k with pad := k.pad.set x.1 x.2 }

/-- A byte after bytes put one after another: the last of its own, or what stood there. -/
theorem Core.pokeAll_byte (ws : List (Nat × Byte)) (k : Core) (y : Nat) :
    (k.pokeAll ws).pad.byte y = ((ws.filter fun x => x.1 = y).getLast?.map Prod.snd).getD (k.pad.byte y) := by
  induction ws generalizing k with
  | nil => rfl
  | cons x ws ih =>
    obtain ⟨a, v⟩ := x
    rw [Core.pokeAll, ih]
    by_cases h : a = y
    · rw [List.filter_cons_of_pos (by simpa using h), List.getLast?_cons, h, Mem.byte_set_same]
      cases (ws.filter fun x => x.1 = y).getLast? <;> rfl
    · rw [List.filter_cons_of_neg (by simpa using h), Mem.byte_set_ne _ (Ne.symm h)]

/-! ## Frames -/

theorem elsewhereSame_trans {s t u : State} (hhere : t.here = s.here) (h : ElsewhereSame s t) (g : ElsewhereSame t u) : ElsewhereSame s u := by
  obtain ⟨hcores, hdram, hrest⟩ := h
  obtain ⟨gcores, gdram, grest⟩ := g
  refine ⟨fun c hc => (gcores c (hhere ▸ hc)).trans (hcores c hc), fun b => (gdram b).trans (hdram b), ?_⟩
  simp only [hrest, grest, and_self]

theorem elsewhereSame_setHere (s : State) (k : Core) : ElsewhereSame s (s.setHere k) :=
  ⟨fun _ hc => s.core_setHere_ne k hc, fun _ => rfl, rfl, rfl, rfl, rfl, rfl, rfl, rfl⟩

theorem Logged.hereCore {s t : State} (h : Logged s t) : t.hereCore = { s.hereCore with actors := t.hereCore.actors } := by
  unfold State.hereCore
  rw [h.here]
  exact h.core s.here

/-! ## A store that has room -/

/-- The logs take the kept lines of the bytes, and no word in error is written in part. -/
def StoreRoom (s : State) (ws : List (Nat × Byte)) : Prop :=
  (s.saveLines s.ctx.slot ((ws.map fun y => y.1 / 64).eraseDups)).isSome = true ∧ ∀ v ∈ s.hereCore.badPad, (∀ y ∈ ws, y.1 / 8 ≠ v) ∨ ∀ q < 8, ∃ y ∈ ws, y.1 = 8 * v + q

/-- The bytes stand in the scratchpad, a later one over an earlier one, and nothing else has changed; the contexts are woken. -/
def StoresAll (s : State) (ws : List (Nat × Byte)) (u : State) : Prop :=
  (∀ y, u.hereCore.pad.byte y = afterStores s ws y) ∧ (∀ v, u.hereCore.isFull v = s.hereCore.isFull v) ∧ ElsewhereSame s u ∧ ∀ y, u.ctxAt y = woken (s.ctxAt y)

/-- Whether bytes overwrite all of a word. -/
def wholly (ws : List (Nat × Byte)) (v : Nat) : Bool := (List.range 8).all fun i => ws.any fun x => x.1 = 8 * v + i

theorem wholly_of_storeRoom {s : State} {ws : List (Nat × Byte)} (h : StoreRoom s ws) {v : Nat} (hw : v ∈ wordsAt ws) (hv : v ∈ s.hereCore.badPad) : wholly ws v = true := by
  unfold wholly
  simp only [List.all_eq_true, List.any_eq_true, List.mem_range, decide_eq_true_eq]
  refine (h.2 v hv).resolve_left fun hnone => ?_
  obtain ⟨x, hx, rfl⟩ := List.mem_map.1 (List.mem_eraseDups.1 hw)
  exact hnone x hx rfl

/-- The scratchpad of the core in focus with bytes put into it, and fresh check bits where they overwrite a whole word. -/
def State.poked (t : State) (ws : List (Nat × Byte)) : State :=
  t.setHere { t.hereCore.pokeAll ws with badPad := (t.hereCore.pokeAll ws).badPad.filter fun w => ! ((wordsAt ws).contains w && wholly ws w) }

section
variable {s t : State} {rest : List Cmd} (h : Logged (s.taking rest) t) (ws : List (Nat × Byte))
include h

theorem poked_hereCore : ∃ b, (t.poked ws).hereCore =
    { s.hereCore with vq := rest, actors := t.hereCore.actors, pad := (t.hereCore.pokeAll ws).pad, badPad := b } := by
  have hcore := h.hereCore
  rw [State.taking_hereCore] at hcore
  refine ⟨(t.poked ws).hereCore.badPad, ?_⟩
  calc (t.poked ws).hereCore
    _ = { t.hereCore.pokeAll ws with badPad := (t.poked ws).hereCore.badPad } := by rw [State.poked, State.hereCore_setHere]
    _ = { t.hereCore with pad := (t.hereCore.pokeAll ws).pad, badPad := (t.poked ws).hereCore.badPad } :=
      congrArg (fun k : Core => { k with badPad := (t.poked ws).hereCore.badPad }) (Core.pokeAll_eq ws t.hereCore)
    _ = _ := congrArg (fun k : Core => { k with pad := (t.hereCore.pokeAll ws).pad, badPad := (t.poked ws).hereCore.badPad }) hcore

theorem poked_storesAll : StoresAll s ws (t.poked ws).wakeHere := by
  obtain ⟨b, hcore⟩ := poked_hereCore h ws
  have hpad : t.hereCore.pad = s.hereCore.pad := h.pad.trans (by rw [State.taking_hereCore])
  refine ⟨fun y => ?_, fun v => ?_, ?_, fun y => ?_⟩
  · rw [State.wakeHere_pad, hcore]
    show (t.hereCore.pokeAll ws).pad.byte y = _
    rw [Core.pokeAll_byte, hpad]
    rfl
  · rw [State.wakeHere, State.hereCore_setHere, hcore]
    rfl
  · exact elsewhereSame_trans (t := t) h.here (elsewhereSame_trans (t := s.taking rest) rfl (elsewhereSame_setHere s _) h.within.kept.2)
      (elsewhereSame_trans (t := t.poked ws) rfl (elsewhereSame_setHere t _) (elsewhereSame_setHere _ _))
  · have hctx : (t.poked ws).ctxAt y = s.ctxAt y := by
      show (t.poked ws).hereCore.ctxs[y.toNat] = _
      simp only [hcore]
      rfl
    rw [State.wakeHere_ctxAt, hctx]
    rfl

theorem poked_queueLeft : QueueLeft s (t.poked ws).wakeHere rest (t.poked ws).wakeHere.hereCore.vq := by
  obtain ⟨b, hcore⟩ := poked_hereCore h ws
  obtain ⟨-, -, -, hctx⟩ := poked_storesAll h ws
  have hcx : (t.poked ws).cx = s.cx := h.cx
  refine .inl ⟨?_, ?_⟩
  · show ((t.poked ws).wakeHere.ctxAt (t.poked ws).cx).phase = _
    rw [hcx, hctx]
    rfl
  · rw [State.wakeHere, State.hereCore_setHere, hcore]

end

/-- What a store can do: it traps for a word in error that it would write in part or for want of room in the logs, or the bytes stand. -/
theorem storeAll_cases (s : State) (pc : BitVec 16) (ws : List (Nat × Byte)) :
    (∃ cause detail, s.storeAll pc ws = trapAt pc cause detail s ∧
      ((∃ v ∈ wordsAt ws, v ∈ s.hereCore.badPad ∧ wholly ws v = false) ∨ s.saveLines s.ctx.slot ((ws.map fun x => x.1 / 64).eraseDups) = none)) ∨
    ∃ t, s.saveLines s.ctx.slot ((ws.map fun x => x.1 / 64).eraseDups) = some t ∧ s.storeAll pc ws = t.poked ws := by
  unfold State.storeAll
  dsimp only
  split
  · next v hv =>
    have hbad := List.find?_some hv
    rw [Bool.and_eq_true, List.contains_iff_mem, Bool.not_eq_true'] at hbad
    exact .inl ⟨_, _, rfl, .inl ⟨v, List.mem_of_find?_eq_some hv, hbad⟩⟩
  · split
    · next hsave => exact .inl ⟨_, _, rfl, .inr hsave⟩
    · next t hsave => exact .inr ⟨t, hsave, rfl⟩

/-- The engine stores the bytes of a command that has room for them. -/
theorem takesV_store {s : State} {i : Instr} {ws : Cmd → List (Nat × Byte)} (hrun : ∀ k t, t.ctx = s.ctx → runVector { k with ins := i } t = t.storeAll k.pc (ws k)) :
    TakesV s i fun k u => StoreRoom s (ws k) → StoresAll s (ws k) u := by
  refine takesV_of_run fun k rest hk => ?_
  have hrun : runVector k (s.taking rest) = (s.taking rest).storeAll k.pc (ws k) := by rw [← hrun k _ (s.taking_ctx rest), ← hk]
  obtain ⟨cause, detail, htrap, hwhy⟩ | ⟨t, hsave, hstore⟩ := storeAll_cases (s.taking rest) k.pc (ws k)
  · obtain ⟨r, hphase, -, -, hvq⟩ := trapAt_leaves s rest k.pc cause detail
    refine ⟨_, hrun.trans htrap, rfl, rfl, .inr ⟨⟨r, hphase⟩, hvq⟩, fun hroom => ?_⟩
    rw [State.taking_hereCore, s.taking_ctx, State.taking_saveLines, Option.map_eq_none_iff] at hwhy
    obtain ⟨v, hv, hbad, hpart⟩ | hsave := hwhy
    · rw [wholly_of_storeRoom hroom hv hbad] at hpart
      cases hpart
    · have hsome := hroom.1
      rw [hsave] at hsome
      cases hsome
  · have hlog := State.saveLines_logged hsave
    exact ⟨_, hrun.trans hstore, hlog.here, hlog.cx, poked_queueLeft hlog _, fun _ => poked_storesAll hlog _⟩

end Sys2Proof.Machine
end

section
/-! # The vector memory instructions (05_vector_registers.md R131 to R134) -/

namespace Sys2Proof.Machine
open Sys2Proof.Safety

/-! ## Their commands at the engine -/

section
variable (s : State) (p : BitVec 3) (w : BitVec 2) (g : BitVec 5) (d : BitVec 4)

theorem vld_takes (o : BitVec 4) : TakesV s (.vld p o w g d) fun k u =>
    ((∀ r ∈ [(k.x.toNat, 128)], Sound s r.1 r.2) →
      LanesWritten s (widthOf w) p d (fun j => (leNat (s.readBytes (k.x.toNat + j * (widthOf w / 8)) (widthOf w / 8)), 0)) s.ctx.seed u) ∧
    ((∃ x ∈ [(k.x.toNat, 128)], ∃ v ∈ s.hereCore.badPad, v ∈ wordsOf x.1 x.2) → ∃ r, u.ctx.phase = .trapping r none none ∧ r.cause = 0x1C1 ∧ r.pc = k.pc) :=
  takesV_load (addrs := fun k => [(k.x.toNat, 128)]) (lane := fun k t j => (t.readElem (k.x.toNat + j * (widthOf w / 8)) (widthOf w), 0)) (fun _ _ _ => rfl)
    fun k rest => by simp only [State.taking_readElem]

theorem vldx_takes (x : BitVec 4) : TakesV s (.vldx p w x g d) fun k u =>
    (∀ r ∈ ((List.range (lanes (widthOf w))).filter fun j => activeAt p (s.p p) (widthOf w) j).map fun j => ((gatherAddr k.x (widthOf w) (s.v x) j).toNat, widthOf w / 8),
      Sound s r.1 r.2) →
    LanesWritten s (widthOf w) p d (fun j => (leNat (s.readBytes (gatherAddr k.x (widthOf w) (s.v x) j).toNat (widthOf w / 8)), 0)) s.ctx.seed u :=
  takesV_mono (takesV_load (lane := fun k t j => (t.readElem (gatherAddr k.x (widthOf w) (t.v x) j).toNat (widthOf w), 0))
    (fun k t ht => by simp only [runVector, p_of_ctx ht, v_of_ctx ht]) fun k rest => by simp only [State.taking_readElem, v_of_ctx (s.taking_ctx rest)])
    fun _ _ ⟨hlanes, _⟩ => hlanes

theorem vst_takes (o : BitVec 4) : TakesV s (.vst p o w g d) fun k u =>
    ∀ ws, ws = ((List.range (lanes (widthOf w))).filter fun j => activeAt p (s.p p) (widthOf w) j).flatMap
        (fun j => elemBytes (s.v d) (widthOf w) j (k.x.toNat + j * (widthOf w / 8))) → StoreRoom s ws → StoresAll s ws u :=
  takesV_mono (takesV_store fun k t ht => by simp only [runVector, p_of_ctx ht, v_of_ctx ht]) fun _ _ h _ hws => hws ▸ h

theorem vstx_takes (x : BitVec 4) : TakesV s (.vstx p w x g d) fun k u =>
    ∀ ws, ws = ((List.range (lanes (widthOf w))).filter fun j => activeAt p (s.p p) (widthOf w) j).flatMap
        (fun j => elemBytes (s.v d) (widthOf w) j (gatherAddr k.x (widthOf w) (s.v x) j).toNat) → StoreRoom s ws → StoresAll s ws u :=
  takesV_mono (takesV_store fun k t ht => by simp only [runVector, p_of_ctx ht, v_of_ctx ht]) fun _ _ h _ hws => hws ▸ h

end

/-- What vldbits makes of a field of k bits (R133). -/
def bitsLane (m : BitVec 2) (k x : Nat) : Rounded :=
  if m = 0 then (x, 0) else if m = 1 then (wrapInt 16 (sx k x), 0) else convF (if m = 2 then bf16 else hf) 0 0 (decodeF e3m2 x)

theorem vldbits_takes (s : State) (p : BitVec 3) (inc : BitVec 1) (m : BitVec 2) (f : BitVec 4) (b : BitVec 2) (d : BitVec 4) {k : Nat} (hk : k = f.toNat + 1) :
    TakesV s (.vldbits p inc m f b d) fun y u => Sound s (y.x.toNat / 8) (bitSpan y.x.toNat (64 * k)) →
      LanesWritten s 16 p d (fun j => bitsLane m k (s.readField (y.x.toNat + j * k) k)) s.ctx.seed u := by
  subst hk
  refine takesV_mono (takesV_load (addrs := fun y => [(y.x.toNat / 8, bitSpan y.x.toNat (64 * (f.toNat + 1)))])
    (lane := fun y t j => bitsLane m (f.toNat + 1) (t.readField (y.x.toNat + j * (f.toNat + 1)) (f.toNat + 1))) (fun y t _ => ?_) fun y rest => ?_)
    fun y u ⟨hlanes, _⟩ hs => hlanes (List.forall_mem_singleton.2 hs)
  · have hconv : ∀ x, convF (if m = 2 then bf16 else hf) 0 0 x = if m = 2 then convF bf16 0 0 x else convF hf 0 0 x := fun x => apply_ite (fun F => convF F 0 0 x) ..
    simp only [runVector, bitsLane, hconv]
  · simp only [State.taking_readField]

end Sys2Proof.Machine

open Sys2Proof Sys2Proof.Machine Sys2Proof.Safety

/-- Settles O46: the checks at issue pass or name their trap; the engine reads what is sound and writes the lanes, or puts the bytes where the logs have room. -/
theorem vectorMemory : Obligations.VectorMemory := by
  unfold Obligations.VectorMemory
  rintro s p o x d w g n addr on reads stores room - rfl rfl rfl hreads hroom hstores
  obtain rfl : reads = fun l => ∀ r ∈ l, Sound s r.1 r.2 := funext fun l => propext (hreads l)
  obtain rfl : room = StoreRoom s := funext fun ws => propext (hroom ws)
  obtain rfl : stores = StoresAll s := funext fun ws => funext fun u => propext (hstores ws u)
  rw [← vecAddr_eq]
  refine ⟨fun h => span_issues rfl (checkLocal_readable h), fun h => span_issues rfl (checkLocal_writable h), fun h => ⟨span_misaligned rfl h, span_misaligned rfl h⟩,
    fun ha h => ⟨span_beyond (cause := 0x080) rfl ha h, span_beyond (cause := 0x088) rfl ha h⟩, takesV_mono (vld_takes s p w g d o) fun _ _ ⟨hlanes, _⟩ => hlanes,
    vst_takes s p w g d o, ?indexed, ?bad, ?bits⟩
  case indexed =>
    intro at_ hat
    obtain rfl : at_ = fun b => gatherAddr b (8 * 2 ^ w.toNat) (s.v x) := funext fun b => funext fun j => (hat b j).trans (gatherAddr_eq ..).symm
    exact ⟨fun ha h => gather_issues rfl ha fun j hj => checkLocal_readable (h j hj), fun ha h => gather_issues rfl ha fun j hj => checkLocal_writable (h j hj),
      fun h => ⟨gather_misaligned rfl h, gather_misaligned rfl h⟩, vldx_takes s p w g d x, vstx_takes s p w g d x⟩
  case bad => exact takesV_mono (vld_takes s p w g d o) fun _ _ ⟨_, htraps⟩ v hv hlo hhi => htraps ⟨_, List.mem_singleton_self _, v, hv, mem_wordsOf hlo hhi⟩
  case bits =>
    rintro inc m f b k span fld hk rfl hfld
    obtain rfl : fld = fun v j => s.readField (v.toNat + j * k) k := funext fun v => funext fun j => hfld v j
    refine ⟨fun hb hz hl hq => ?_, vldbits_beyond hk, vldbits_takes s p inc m f b d hk⟩
    obtain ⟨t, ht, hvq, hb, honly, hkept⟩ := vldbits_issues (p := p) (inc := inc) (m := m) (d := d) hk hb hz hl hq
    exact ⟨t, ht, ⟨_, hvq, rfl, rfl, rfl⟩, hb, honly, hkept⟩
end

section
/-! # The matrix queue and the checks of the tile instructions at issue (06_tile_registers.md R138, R139, R147 to R150, R155) -/

namespace Sys2Proof.Machine
open Sys2Proof.Safety

/-! ## A command at issue (R139) -/

/-- The instruction's command stands at the end of the matrix queue; no register but the PC and no memory has changed. -/
def IssuesM (s : State) (i : Instr) (k : Cmd) : Prop :=
  ∃ u, exec i s = .next u ∧ u.hereCore.mq = s.hereCore.mq ++ [k] ∧ OnlyCtx s { s.ctx with pc := s.ctx.pc + 4, retired := s.ctx.retired + 1 } u ∧
    PadKept s u 0 0 ∧ ElsewhereSame s u

/-- A command issued from a state that has the contexts and the matrix queue of s. -/
theorem issueM_next {s r : State} {k : Cmd} (hw : Within s r) (hcx : r.cx = s.cx) (hctx : ∀ y, r.ctxAt y = s.ctxAt y) (hmq : r.hereCore.mq = s.hereCore.mq)
    (hroom : s.hereCore.mq.length < 2) : ∃ u, issueM k r = .next u ∧ u.hereCore.mq = s.hereCore.mq ++ [k] ∧ u.hereCore.tiles = r.hereCore.tiles ∧
      OnlyCtx s { s.ctx with pc := s.ctx.pc + 4, retired := s.ctx.retired + 1 } u ∧ PadKept s u 0 0 ∧ ElsewhereSame s u := by
  have hq : Quiet r (r.setHere { r.hereCore with mq := r.hereCore.mq ++ [k] }) := .setHere r rfl rfl rfl
  have hx : r.ctx = s.ctx := by
    show r.ctxAt r.cx = s.ctxAt s.cx
    rw [hcx, hctx]
  refine ⟨_, if_neg (by rw [hmq]; omega), ?_, ?_, ⟨hw.here, hcx, fun y => ?_⟩, ?_⟩
  · rw [State.advance, State.goto, State.mq_setCtx, State.hereCore_setHere, ← hmq]
  · rw [State.advance, State.goto, State.tiles_setCtx, State.hereCore_setHere]
  · rw [State.advance, State.goto, State.ctxAt_setCtx, hq.ctx_eq, hx, hq.ctxAt_eq, hctx]
    show (if y = r.cx then _ else _) = _
    rw [hcx]
    rfl
  · exact Within.kept (hw.trans (Within.trans (.setHere r (by rfl)) (.setCtx _ _)))

/-- The same where only the logs have changed. -/
theorem issuesM_of_logged {s r : State} {i : Instr} {k : Cmd} (h : Logged s r) (hroom : s.hereCore.mq.length < 2) (hi : exec i s = issueM k r) : IssuesM s i k :=
  let ⟨u, hu, hmq, _, hleft⟩ := issueM_next (k := k) h.within h.cx h.ctxAt (by rw [h.hereCore]) hroom
  ⟨u, hi.trans hu, hmq, hleft⟩

theorem issuesM {s : State} {i : Instr} {k : Cmd} (hroom : s.hereCore.mq.length < 2) (hi : exec i s = issueM k s) : IssuesM s i k :=
  issuesM_of_logged (.refl s) hroom hi

/-! ## Holding (R138) -/

section
variable {s : State} {t : BitVec 3} {f : BitVec 13 → Out}

theorem onTile_held (h : s.holds t = true) : onTile t s f = f (s.hereCore.tile t).cfg := if_pos h

theorem onTile_unheld (h : s.holds t = false) : onTile t s f = tileTrap 0x060 t s := if_neg (by simp [h])

/-- The test of the order in which a context takes tiles. -/
theorem any_later_held_iff : ((List.range 8).any fun i => decide (t.toNat < i) && s.holds (BitVec.ofNat 3 i)) = true ↔ ∃ x : BitVec 3, t.toNat < x.toNat ∧ s.holds x = true := by
  simp only [List.any_eq_true, List.mem_range, Bool.and_eq_true, decide_eq_true_eq]
  constructor
  · rintro ⟨i, hi, hlt, hx⟩
    exact ⟨BitVec.ofNat 3 i, by rw [BitVec.toNat_ofNat]; omega, hx⟩
  · rintro ⟨x, hlt, hx⟩
    exact ⟨x.toNat, x.isLt, hlt, by rw [BitVec.ofNat_toNat, BitVec.setWidth_eq]; exact hx⟩

/-! ## tcfg (R138, R148) -/

theorem ctx_stall_setHere {k : Core} {w : Wait} (hk : k.ctxs = s.hereCore.ctxs) : ((s.setHere k).stall w).ctx = { s.ctx with wait := w } := by
  rw [State.stall, State.ctx_setCtx, (Calm.setHere s hk).ctx_eq]

variable {a : BitVec 5}

theorem tcfg_unordered (h : s.holds t = false) (hx : ∃ x : BitVec 3, t.toNat < x.toNat ∧ s.holds x = true) : Traps (.tcfg a t) s 0x061 (t.setWidth 64) :=
  if_pos ⟨h, any_later_held_iff.2 hx⟩

section
variable (hord : s.holds t = true ∨ ∀ x : BitVec 3, t.toNat < x.toNat → s.holds x = false)
include hord

theorem not_unordered : ¬ (s.holds t = false ∧ ((List.range 8).any fun i => decide (t.toNat < i) && s.holds (BitVec.ofNat 3 i)) = true) := by
  rintro ⟨hn, hlater⟩
  obtain ⟨x, hlt, hx⟩ := any_later_held_iff.1 hlater
  obtain h | h := hord
  · rw [h] at hn
    cases hn
  · rw [h x hlt] at hx
    cases hx

theorem tcfg_badConfiguration (h : cfgOk (s.g a) = false) : Traps (.tcfg a t) s 0x062 (t.setWidth 64) := by
  show execTcfg a t s = _
  unfold execTcfg
  dsimp only
  rw [if_neg (not_unordered hord), if_pos h]
  rfl

/-- A tile that the context holds, or that is free and unclaimed, is given its holder and configuration at issue; the command that clears it is queued. -/
theorem tcfg_takes (h : cfgOk (s.g a) = true) (hroom : s.hereCore.mq.length < 2)
    (hfree : s.holds t = true ∨ (s.hereCore.tile t).holder = none ∧ ∀ x ∈ s.hereCore.tileWait, x.2 ≠ t) :
    ∃ u k, exec (.tcfg a t) s = .next u ∧ u.hereCore.tiles = s.hereCore.tiles.set t.toNat ⟨(s.hereCore.tile t).data, some s.cx, (s.g a).setWidth 13⟩ ∧
      u.hereCore.mq = s.hereCore.mq ++ [k] ∧ k.ins = .tcfg a t ∧ OnlyCtx s { s.ctx with pc := s.ctx.pc + 4, retired := s.ctx.retired + 1 } u ∧ ElsewhereSame s u := by
  have hclaim : s.holds t = true ∨ (s.hereCore.tile t).holder = none ∧
      ((s.hereCore.tileWait.find? fun w => w.2 = t).map Prod.fst = none ∨ (s.hereCore.tileWait.find? fun w => w.2 = t).map Prod.fst = some s.cx) :=
    hfree.imp_right fun ⟨hnone, hwait⟩ => ⟨hnone, .inl (by rw [List.find?_eq_none.2 fun x hx => by simpa using hwait x hx]; rfl)⟩
  obtain ⟨u, hu, hmq, htiles, honly, -, hsame⟩ := issueM_next (k := { s.cmd (.tcfg a t) with cfg := (s.g a).setWidth 13 })
    (r := s.setHere { s.hereCore.setTile t { s.hereCore.tile t with holder := some s.cx, cfg := (s.g a).setWidth 13 } with
      tileWait := s.hereCore.tileWait.filter fun w => w.1 ≠ s.cx }) (.setHere s (by rfl)) rfl (fun y => State.ctxAt_setHere ..) (by rw [State.hereCore_setHere]; rfl) hroom
  refine ⟨u, _, ?_, by rw [htiles, State.hereCore_setHere]; rfl, hmq, rfl, honly, hsame⟩
  show execTcfg a t s = _
  unfold execTcfg
  dsimp only
  rw [if_neg (not_unordered hord), if_neg (by simp [h]), if_pos hclaim, if_neg (by omega)]
  exact hu

/-- A tile that another context holds is waited for. -/
theorem tcfg_waits (h : cfgOk (s.g a) = true) (hn : s.holds t = false) (hheld : (s.hereCore.tile t).holder ≠ none) :
    ∃ u, exec (.tcfg a t) s = .next u ∧ u.ctx = { s.ctx with wait := .tile t } ∧ u.hereCore.tiles = s.hereCore.tiles := by
  have hclaim : ¬ (s.holds t = true ∨ (s.hereCore.tile t).holder = none ∧
      ((s.hereCore.tileWait.find? fun w => w.2 = t).map Prod.fst = none ∨ (s.hereCore.tileWait.find? fun w => w.2 = t).map Prod.fst = some s.cx)) := by
    rintro (hmine | ⟨hnone, -⟩)
    · rw [hn] at hmine
      cases hmine
    · exact hheld hnone
  have hexec : exec (.tcfg a t) s = if s.hereCore.tileWait.contains (s.cx, t) then .next (s.stall (.tile t))
      else .next ((s.setHere { s.hereCore with tileWait := s.hereCore.tileWait ++ [(s.cx, t)] }).stall (.tile t)) := by
    show execTcfg a t s = _
    unfold execTcfg
    dsimp only
    rw [if_neg (not_unordered hord), if_neg (by simp [h]), if_neg hclaim]
  rw [hexec]
  split
  · exact ⟨_, rfl, by rw [State.stall, State.ctx_setCtx], by rw [State.stall, State.tiles_setCtx]⟩
  · exact ⟨_, rfl, ctx_stall_setHere rfl, by rw [State.stall, State.tiles_setCtx, State.hereCore_setHere]⟩

end

/-! ## Slices (R149, R155) -/

variable {b : BitVec 5}

theorem rowIndex_passes (h : s.holds t = true) (hb : (s.g b).toNat < 16) : rowIndex b t s f = f (s.hereCore.tile t).cfg := by
  rw [rowIndex, onTile_held h, if_pos hb]

theorem rowIndex_beyond (h : s.holds t = true) (hb : 16 ≤ (s.g b).toNat) : rowIndex b t s f = tileTrap 0x066 t s := by
  rw [rowIndex, onTile_held h, if_neg (by omega)]

theorem colIndex_passes (h : s.holds t = true) (hty : cfgType (s.hereCore.tile t).cfg ≠ 7) (hb : (s.g b).toNat < 1024 / tileWidth (cfgType (s.hereCore.tile t).cfg)) :
    colIndex b t s f = f (s.hereCore.tile t).cfg := by
  rw [colIndex, onTile_held h, if_neg hty, if_neg (by omega), if_neg hty]

theorem colIndex_beyond (h : s.holds t = true) (hty : cfgType (s.hereCore.tile t).cfg ≠ 7) (hb : 1024 / tileWidth (cfgType (s.hereCore.tile t).cfg) ≤ (s.g b).toNat) :
    colIndex b t s f = tileTrap 0x066 t s := by
  rw [colIndex, onTile_held h, if_neg hty, if_pos hb]

theorem colIndex_ternary (h : s.holds t = true) (hty : cfgType (s.hereCore.tile t).cfg = 7) (hb : (s.g b).toNat < 32) : colIndex b t s f = tileTrap 0x067 t s := by
  rw [colIndex, onTile_held h, if_pos hty, if_neg (by omega), if_pos hty]

/-! ## Whole tiles (R150) -/

theorem mem_linesOf {x n l : Nat} (h : l ∈ linesOf x n) : x / 64 ≤ l ∧ l ≤ (x + n - 1) / 64 := by
  unfold linesOf at h
  split at h
  · cases h
  · rw [List.mem_range'_1] at h
    omega

theorem footprintFail_none {x : Actor} {c : Ctx} {write : Bool} {runs : List (Nat × Nat)} (hz : x.zonesBad = false) (hwin : ∀ r ∈ runs, r.1 + r.2 ≤ 0x30000)
    (hl : ∀ r ∈ runs, OnLines r.1 r.2 fun l => (if write then lineWritable x c l else lineReadable x l) = true) : footprintFail x c write runs = none := by
  have hin : runs.filterMap outWindow = [] := List.filterMap_eq_nil_iff.2 fun r hr => if_neg (by have := hwin r hr; omega)
  have hzone : runs.filterMap (outZone x c write) = [] := List.filterMap_eq_nil_iff.2 fun r hr => by
    rw [outZone, List.find?_eq_none.2 fun l hmem => ?_]
    · rfl
    · obtain ⟨hlo, hhi⟩ := mem_linesOf hmem
      rw [hl r hr l hlo hhi]
      decide
  rw [footprintFail, hin, hzone, hz]
  rfl

theorem forall_mem_tileRows {p : Nat × Nat → Prop} {base pitch : Nat} : (∀ r ∈ tileRows base pitch, p r) ↔ ∀ r < 16, p (base + r * pitch, 128) := by
  simp [tileRows]

theorem pitchOf_eq {p : Nat} (hp : p = if b = 0 then 128 else (s.g b).toNat) (hlt : p < 65536) (hal : p % 8 = 0) : pitchOf b s = some p := by
  subst hp
  unfold pitchOf
  by_cases hb : b = 0
  · rw [if_pos hb, if_pos hb]
  · rw [if_neg hb] at hlt hal
    rw [if_neg hb, if_neg hb, if_pos ⟨hlt, hal⟩]

theorem tileMove_passes {write : Bool} {p : Nat} {g : BitVec 13 → Nat → Out} (h : s.holds t = true) (hp : pitchOf b s = some p) (hal : (s.g a).toNat % 8 = 0)
    (hwin : (s.g a).toNat + 15 * p + 128 ≤ 0x30000) (hz : s.actor.zonesBad = false)
    (hl : ∀ r < 16, OnLines ((s.g a).toNat + r * p) 128 fun l => (if write then lineWritable s.actor s.ctx l else lineReadable s.actor l) = true) :
    tileMove write b a t s g = g (s.hereCore.tile t).cfg p := by
  have hrows : ∀ r < 16, (s.g a).toNat + r * p + 128 ≤ 0x30000 := fun r hr => by
    have hle : r * p ≤ 15 * p := Nat.mul_le_mul_right p (by omega)
    omega
  rw [tileMove, onTile_held h, hp]
  dsimp only
  rw [if_neg (by omega), footprintFail_none hz (forall_mem_tileRows.2 hrows) (forall_mem_tileRows.2 hl)]

section
variable {p : Nat} (h : s.holds t = true) (hroom : s.hereCore.mq.length < 2) (hp : pitchOf b s = some p) (hal : (s.g a).toNat % 8 = 0)
  (hwin : (s.g a).toNat + 15 * p + 128 ≤ 0x30000) (hz : s.actor.zonesBad = false)
include h hroom hp hal hwin hz

theorem tload_issues (hl : ∀ r < 16, OnLines ((s.g a).toNat + r * p) 128 fun l => lineReadable s.actor l = true) (hs : ∀ r < 16, Sound s ((s.g a).toNat + r * p) 128) :
    IssuesM s (.tload b a t) { s.cmd (.tload b a t) with
      x := s.g a, cfg := (s.hereCore.tile t).cfg, opA := (List.range 16).flatMap fun r => s.readBytes ((s.g a).toNat + r * p) 128 } := by
  have hsound : s.hereCore.badRuns (tileRows (s.g a).toNat p) = none := List.findSome?_eq_none_iff.2 (forall_mem_tileRows.2 fun r hr => badIn_of_sound (hs r hr))
  have hread : s.readRuns (tileRows (s.g a).toNat p) = (List.range 16).flatMap fun r => s.readBytes ((s.g a).toNat + r * p) 128 := List.flatMap_map ..
  refine issuesM hroom ?_
  show execTload b a t s = _
  rw [execTload, tileMove_passes (write := false) h hp hal hwin hz hl]
  dsimp only
  rw [hsound, hread]

theorem tstore_issues (hl : ∀ r < 16, OnLines ((s.g a).toNat + r * p) 128 fun l => lineWritable s.actor s.ctx l = true)
    (hsave : (s.saveLines s.ctx.slot ((List.range 16).flatMap fun r => linesOf ((s.g a).toNat + r * p) 128)).isSome = true) :
    IssuesM s (.tstore b a t) { s.cmd (.tstore b a t) with x := s.g a, y := BitVec.ofNat 64 p, cfg := (s.hereCore.tile t).cfg } := by
  have hlines : ((tileRows (s.g a).toNat p).flatMap fun r => linesOf r.1 r.2) = (List.range 16).flatMap fun r => linesOf ((s.g a).toNat + r * p) 128 := List.flatMap_map ..
  obtain ⟨u, hu⟩ := Option.isSome_iff_exists.1 hsave
  refine issuesM_of_logged (State.saveLines_logged hu) hroom ?_
  show execTstore b a t s = _
  rw [execTstore, tileMove_passes (write := true) h hp hal hwin hz hl, if_neg (by omega), hlines, hu]
  rfl

end

end

/-! ## The instructions on a held tile (R147, R149, R150) -/

section
variable {s : State} {t : BitVec 3} {b a : BitVec 5} {v : BitVec 4}

theorem unheld_traps (h : s.holds t = false) :
    ∀ i ∈ [Instr.trel t, .tzero t, .tldrow b v t, .tldcol b v t, .tstrow b v t, .tstcol b v t, .tload b a t, .tstore b a t], Traps i s 0x060 (t.setWidth 64) := by
  intro i hi
  show exec i s = tileTrap 0x060 t s
  simp only [List.mem_cons, List.not_mem_nil, or_false] at hi
  obtain rfl | rfl | rfl | rfl | rfl | rfl | rfl | rfl := hi
  · show execTrel t s = _
    rw [execTrel, onTile_unheld h]
  · show execTzero t s = _
    rw [execTzero, onTile_unheld h]
  · show execTldrow b v t s = _
    rw [execTldrow, rowIndex, onTile_unheld h]
  · show execTldcol b v t s = _
    rw [execTldcol, colIndex, onTile_unheld h]
  · show execTstrow b v t s = _
    rw [execTstrow, rowIndex, onTile_unheld h]
  · show execTstcol b v t s = _
    rw [execTstcol, colIndex, onTile_unheld h]
  · show execTload b a t s = _
    rw [execTload, tileMove, onTile_unheld h]
  · show execTstore b a t s = _
    rw [execTstore, tileMove, onTile_unheld h]

section
variable (h : s.holds t = true)
include h

theorem tldrow_beyond (hb : 16 ≤ (s.g b).toNat) : Traps (.tldrow b v t) s 0x066 (t.setWidth 64) := by
  show execTldrow b v t s = tileTrap 0x066 t s
  rw [execTldrow, rowIndex_beyond h hb]

theorem tldcol_beyond (hty : cfgType (s.hereCore.tile t).cfg ≠ 7) (hb : 1024 / tileWidth (cfgType (s.hereCore.tile t).cfg) ≤ (s.g b).toNat) :
    Traps (.tldcol b v t) s 0x066 (t.setWidth 64) := by
  show execTldcol b v t s = tileTrap 0x066 t s
  rw [execTldcol, colIndex_beyond h hty hb]

theorem tstcol_ternary (hty : cfgType (s.hereCore.tile t).cfg = 7) (hb : (s.g b).toNat < 32) : Traps (.tstcol b v t) s 0x067 (t.setWidth 64) := by
  show execTstcol b v t s = tileTrap 0x067 t s
  rw [execTstcol, colIndex_ternary h hty hb]

variable (hroom : s.hereCore.mq.length < 2)
include hroom

theorem trel_issues : IssuesM s (.trel t) { s.cmd (.trel t) with cfg := (s.hereCore.tile t).cfg } := by
  refine issuesM hroom ?_
  show execTrel t s = _
  rw [execTrel, onTile_held h]

theorem tzero_issues : IssuesM s (.tzero t) { s.cmd (.tzero t) with cfg := (s.hereCore.tile t).cfg } := by
  refine issuesM hroom ?_
  show execTzero t s = _
  rw [execTzero, onTile_held h]

theorem rowMoves_issue (hb : (s.g b).toNat < 16) :
    IssuesM s (.tldrow b v t) { s.cmd (.tldrow b v t) with x := s.g b, vec := s.v v, cfg := (s.hereCore.tile t).cfg } ∧
      IssuesM s (.tstrow b v t) { s.cmd (.tstrow b v t) with x := s.g b, cfg := (s.hereCore.tile t).cfg } := by
  refine ⟨issuesM hroom ?_, issuesM hroom ?_⟩
  · show execTldrow b v t s = _
    rw [execTldrow, rowIndex_passes h hb]
  · show execTstrow b v t s = _
    rw [execTstrow, rowIndex_passes h hb]

theorem columnMoves_issue (hty : cfgType (s.hereCore.tile t).cfg ≠ 7) (hb : (s.g b).toNat < 1024 / tileWidth (cfgType (s.hereCore.tile t).cfg)) :
    IssuesM s (.tldcol b v t) { s.cmd (.tldcol b v t) with x := s.g b, vec := s.v v, cfg := (s.hereCore.tile t).cfg } ∧
      IssuesM s (.tstcol b v t) { s.cmd (.tstcol b v t) with x := s.g b, cfg := (s.hereCore.tile t).cfg } := by
  refine ⟨issuesM hroom ?_, issuesM hroom ?_⟩
  · show execTldcol b v t s = _
    rw [execTldcol, colIndex_passes h hty hb]
  · show execTstcol b v t s = _
    rw [execTstcol, colIndex_passes h hty hb]

end

end

/-! ## twait (R151) -/

theorem twait_continues {s : State} (h : ∀ k ∈ s.hereCore.mq, k.ctx ≠ s.cx) : Continues .twait s (s.ctx.pc + 4) :=
  ⟨_, if_neg (by simpa using h), rfl⟩

theorem twait_waits {s : State} (h : ∃ k ∈ s.hereCore.mq, k.ctx = s.cx) : exec .twait s = .next (s.setCtx { s.ctx with wait := .engine }) :=
  if_pos (by simpa using h)

end Sys2Proof.Machine
end

section
/-! # Tile registers at the matrix engine (06_tile_registers.md R135, R139 to R142, R147 to R150) -/

namespace Sys2Proof.Machine
open Sys2Proof.Safety

/-! ## A command that the engine takes (R139) -/

/-- The state in which the matrix engine runs a command that it has taken off its queue. -/
def State.takingM (s : State) (rest : List Cmd) : State := s.setHere { s.hereCore with mq := rest }

@[simp] theorem State.takingM_hereCore (s : State) (rest : List Cmd) : (s.takingM rest).hereCore = { s.hereCore with mq := rest } := State.hereCore_setHere ..

@[simp] theorem State.takingM_setHere (s : State) (rest : List Cmd) (k : Core) : (s.takingM rest).setHere k = s.setHere k := State.setHere_setHere ..

theorem State.takingM_ctx (s : State) (rest : List Cmd) : (s.takingM rest).ctx = s.ctx := by
  unfold State.takingM
  exact Calm.ctx_eq (.setHere s rfl)

theorem exec_matrixCommand {s : State} {k : Cmd} {rest : List Cmd} (hq : s.hereCore.mq = k :: rest) (hctx : k.ctx = s.cx) (hstop : s.hereCore.stopped = false) :
    exec (.matrixCommandExecution s.here) s = .next { (runMatrix k (s.takingM rest)).wakeHere with here := s.here, cx := s.cx } := by
  show execMatrixCommandExecution s.here s = _
  unfold execMatrixCommandExecution
  rw [show (s.core s.here).mq = k :: rest from hq]
  dsimp only
  rw [show (s.core s.here).stopped = false from hstop, if_neg Bool.false_ne_true, hctx]
  rfl

theorem takesM_mono {s : State} {i : Instr} {p q : Cmd → State → Prop} (h : TakesM s i p) (hpq : ∀ k u, p k u → q k u) : TakesM s i q := fun k rest h1 h2 h3 h4 =>
  let ⟨u, hu, hq, hp⟩ := h k rest h1 h2 h3 h4
  ⟨u, hu, hq, hpq k u hp⟩

theorem trapAt_phase (pc : BitVec 16) (cause : BitVec 9) (detail : Word) (t : State) : ∃ r, (trapAt pc cause detail t).wakeHere.ctx.phase = .trapping r none none := by
  refine ⟨trapRecord { t.ctx with pc := pc } cause detail, ?_⟩
  show ((trapAt pc cause detail t).wakeHere.ctxAt t.cx).phase = _
  rw [State.wakeHere_ctxAt]
  show (trapWith none none cause detail (t.setCtx { t.ctx with pc := pc })).ctx.phase = _
  rw [trapWith_phase, State.ctx_setCtx]

theorem trapAt_mq (pc : BitVec 16) (cause : BitVec 9) (detail : Word) (t : State) :
    (trapAt pc cause detail t).wakeHere.hereCore.mq = t.hereCore.mq.filter fun k => k.ctx ≠ t.cx := by
  rw [State.wakeHere, State.hereCore_setHere, trapAt, trapWith, State.mq_setCtx, State.wakeHere, State.hereCore_setHere, State.hereCore_setHere, State.hereCore_setCtx]
  rfl

/-- A command leaves the core in focus as K, or traps because its condition fails. -/
theorem takesM_of_core {s : State} {i : Instr} {p : Cmd → Prop} {q : Cmd → State → Prop}
    (h : ∀ k rest, (∃ K : Core, runMatrix { k with ins := i } (s.takingM rest) = s.setHere K ∧ K.mq = rest ∧ (K.ctxs[s.cx.toNat]).phase = s.ctx.phase ∧
        q k (s.setHere K).wakeHere) ∨
      ¬ p k ∧ runMatrix { k with ins := i } (s.takingM rest) = trapAt k.pc 0x1C3 0 (s.takingM rest)) : TakesM s i fun k u => p k → q k u := by
  intro k rest hq hins hctx hstop
  have hfocus : ∀ u : State, u.here = s.here → u.cx = s.cx → { u with here := s.here, cx := s.cx } = u := fun u hhere hcx => by rw [← hhere, ← hcx]
  have hstep := exec_matrixCommand hq hctx hstop
  have hk : { k with ins := i } = k := by rw [← hins]
  obtain ⟨K, hrun, hmq, hphase, heff⟩ | ⟨hp, hrun⟩ := h k rest
  · rw [← hk, hrun, hfocus (s.setHere K).wakeHere rfl rfl] at hstep
    refine ⟨(s.setHere K).wakeHere, hstep, .inl ⟨?_, ?_⟩, fun _ => heff⟩
    · show ((s.setHere K).wakeHere.ctxAt s.cx).phase = _
      rw [State.wakeHere_ctxAt, State.ctxAt_setHere]
      exact hphase
    · rw [State.wakeHere, State.hereCore_setHere, State.hereCore_setHere]
      exact hmq
  · rw [← hk, hrun, hfocus (trapAt k.pc 0x1C3 0 (s.takingM rest)).wakeHere rfl rfl] at hstep
    refine ⟨(trapAt k.pc 0x1C3 0 (s.takingM rest)).wakeHere, hstep, .inr ⟨trapAt_phase .., ?_⟩, fun h => absurd h hp⟩
    rw [trapAt_mq, State.takingM_hereCore]
    rfl

/-- What the engine leaves where K has the scratchpad of the core in focus and, of its contexts, at most the one in focus changed. -/
theorem engineLeaves_setHere {s : State} {K : Core} {x : Ctx} (hpad : K.pad = s.hereCore.pad) (hctxs : K.ctxs = s.hereCore.ctxs.set s.cx.toNat x) :
    EngineLeaves s x (s.setHere K).wakeHere := by
  refine ⟨rfl, rfl, fun y => ?_, Within.kept (Within.trans (.setHere s hpad) (.setHere _ (by rfl)))⟩
  rw [State.wakeHere_ctxAt, State.ctxAt_setHere]
  simp only [hctxs, Vector.getElem_set, BitVec.toNat_inj, eq_comm (a := s.cx)]
  rfl

/-! ## Tiles written (R135, R139) -/

theorem Core.tile_of_set {k m : Core} {t : BitVec 3} {x : Tile} (h : k.tiles = m.tiles.set t.toNat x) (y : BitVec 3) : k.tile y = if y = t then x else m.tile y := by
  unfold Core.tile
  simp only [h, Vector.getElem_set, BitVec.toNat_inj, eq_comm (a := t)]

/-- A command wrote one tile register and perhaps check bits of tile words. -/
def Retiled (s : State) (rest : List Cmd) (t : BitVec 3) (x : Tile) (u : State) : Prop :=
  ∃ bad, u = s.setHere { s.hereCore with mq := rest, tiles := s.hereCore.tiles.set t.toNat x, badTiles := bad }

/-- Of the core in focus only one tile register has changed; the contexts are woken. -/
def OnlyTile (s : State) (t : BitVec 3) (u : State) : Prop := (∀ x, x ≠ t → u.hereCore.tile x = s.hereCore.tile x) ∧ EngineLeaves s s.ctx u

theorem takesM_of_retiled {s : State} {i : Instr} {t : BitVec 3} {p : Cmd → Prop} {x : Cmd → Tile}
    (h : ∀ k rest, Retiled s rest t (x k) (runMatrix { k with ins := i } (s.takingM rest)) ∨
      ¬ p k ∧ runMatrix { k with ins := i } (s.takingM rest) = trapAt k.pc 0x1C3 0 (s.takingM rest)) :
    TakesM s i fun k u => p k → u.hereCore.tile t = x k ∧ OnlyTile s t u := by
  refine takesM_of_core fun k rest => (h k rest).imp_left ?_
  rintro ⟨bad, hrun⟩
  have htile : ∀ y, (s.setHere { s.hereCore with mq := rest, tiles := s.hereCore.tiles.set t.toNat (x k), badTiles := bad }).wakeHere.hereCore.tile y =
      if y = t then x k else s.hereCore.tile y := fun y => Core.tile_of_set (by rw [State.wakeHere, State.hereCore_setHere, State.hereCore_setHere]) y
  exact ⟨_, hrun, rfl, rfl, by rw [htile, if_pos rfl], fun y hy => by rw [htile, if_neg hy], engineLeaves_setHere rfl (Vector.set_getElem_self _).symm⟩

section
variable (s : State) (rest : List Cmd) (t : BitVec 3) (v : BitVec 16384)

theorem retiled_setTile : Retiled s rest t { s.hereCore.tile t with data := v } ((s.takingM rest).setTile t v) :=
  ⟨s.hereCore.badTiles, by simp only [State.setTile, State.takingM_hereCore, State.takingM_setHere]; rfl⟩

theorem retiled_freshTile_setTile (r : Nat × Nat) :
    Retiled s rest t { s.hereCore.tile t with data := v } (((s.takingM rest).setHere ((s.takingM rest).hereCore.freshTile t r)).setTile t v) :=
  ⟨_, by simp only [State.setTile, State.takingM_hereCore, State.takingM_setHere, State.hereCore_setHere, State.setHere_setHere]; rfl⟩

theorem retiled_renewTile : Retiled s rest t { s.hereCore.tile t with data := v } ((s.takingM rest).renewTile t v) :=
  ⟨_, by simp only [State.renewTile, State.setTile, State.takingM_hereCore, State.takingM_setHere, State.hereCore_setHere, State.setHere_setHere]; rfl⟩

end

/-- A released tile is cleared and has no holder. -/
theorem retiled_released {s u : State} (rest : List Cmd) {t : BitVec 3} {x : Tile} (h : Retiled s rest t x u) :
    Retiled s rest t { x with holder := none } ((s.takingM rest).setHere (u.hereCore.setTile t { u.hereCore.tile t with holder := none })) := by
  obtain ⟨bad, rfl⟩ := h
  have htile : Core.tile { s.hereCore with mq := rest, tiles := s.hereCore.tiles.set t.toNat x, badTiles := bad } t = x := (Core.tile_of_set rfl t).trans (if_pos rfl)
  refine ⟨bad, ?_⟩
  rw [State.hereCore_setHere, State.takingM_setHere, htile, Core.setTile]
  dsimp only
  rw [Vector.set_set]

/-! ## Elements of a tile (R149) -/

theorem elem_setElems {w n j : Nat} (hj : j < n) (hn : w * n ≤ 16384) (v : BitVec 16384) (f : Nat → Option Nat) :
    elem w j (setElems w n v f) = (f j).getD (elem w j v) % 2 ^ w := by
  have hle : w * j + w ≤ w * n := Nat.mul_le_mul_left w hj
  rw [setElems, elem_ofNat_pack (by omega), List.getD_eq_getElem _ _ (by simpa using hj)]
  simp

theorem toNat_ofNat_elem (w i : Nat) {n : Nat} (v : BitVec n) : (BitVec.ofNat w (elem w i v)).toNat = elem w i v := by
  rw [BitVec.toNat_ofNat, elem_mod]

theorem leNat_eq_pack (l : List Byte) : leNat l = pack 8 (l.map BitVec.toNat) := by
  induction l with
  | nil => rfl
  | cons b l ih =>
    have hb : b.toNat % 2 ^ 8 = b.toNat := Nat.mod_eq_of_lt b.isLt
    rw [leNat, ih, List.map_cons, pack, hb]
    rfl

theorem elem_ofNat_leNat {n j : Nat} (h : 8 * j + 8 ≤ n) (l : List Byte) : elem 8 j (BitVec.ofNat n (leNat l)) = (l.getD j 0).toNat := by
  have hget : (l.map BitVec.toNat).getD j 0 = (l.getD j 0).toNat := List.getD_map (d := 0) ..
  rw [leNat_eq_pack, elem_ofNat_pack h, hget]
  exact Nat.mod_eq_of_lt (l.getD j 0).isLt

/-- The data of a tile with a row replaced. -/
def withRow (x : BitVec 16384) (r : Nat) (y : VWord) : BitVec 16384 := setElems 1024 16 x fun i => if i = r then some y.toNat else none

/-- The data of a tile of elements of w bits with a column replaced by the first 16 elements of a vector register. -/
def withColumn (w : Nat) (x : BitVec 16384) (c : Nat) (y : VWord) : BitVec 16384 :=
  setElems w (16 * (1024 / w)) x fun i => if i % (1024 / w) = c then some (elem w (i / (1024 / w)) y) else none

/-- Column c of a tile of elements of w bits as a vector register. -/
def columnOf (w : Nat) (x : BitVec 16384) (c : Nat) : VWord := packV w ((List.range 16).map fun r => elem w (r * (1024 / w) + c) x)

theorem elem_withRow (x : BitVec 16384) (r : Nat) (y : VWord) {j : Nat} (hj : j < 16) : elem 1024 j (withRow x r y) = if j = r then y.toNat else elem 1024 j x := by
  rw [withRow, elem_setElems hj (by omega)]
  split
  · rw [Option.getD_some, BitVec.toNat_mod_cancel]
  · exact elem_mod ..

theorem elem_withColumn {w : Nat} (x : BitVec 16384) (c : Nat) (y : VWord) {j : Nat} (hj : j < 16 * (1024 / w)) :
    elem w j (withColumn w x c y) = if j % (1024 / w) = c then elem w (j / (1024 / w)) y else elem w j x := by
  have hall : w * (16 * (1024 / w)) ≤ 16384 := by
    have hle := Nat.mul_div_le 1024 w
    rw [Nat.mul_left_comm]
    omega
  rw [withColumn, elem_setElems hj hall]
  split <;> exact elem_mod ..

theorem elem_columnOf {w : Nat} (x : BitVec 16384) (c : Nat) {r : Nat} (hr : r < 1024 / w) :
    elem w r (columnOf w x c) = if r < 16 then elem w (r * (1024 / w) + c) x else 0 := by
  rw [columnOf, elem_packV hr]
  split
  · next h =>
    rw [List.getD_eq_getElem _ _ (by simpa using h), List.getElem_map, List.getElem_range]
    exact elem_mod ..
  · next h => rw [List.getD_eq_default _ _ (by simpa using h), Nat.zero_mod]

/-! ## A tile read (R136, R142) -/

theorem tileBad_of_sound {k : Core} {t : BitVec 3} {r : Nat × Nat} (hs : ∀ y ∈ k.badTiles, y / 256 ≠ t.toNat) (hr : r.1 + r.2 ≤ 2048) : k.tileBad t r = false := by
  refine List.any_eq_false.2 fun y hy => ?_
  have hne := hs y hy
  simp only [Bool.and_eq_true, decide_eq_true_eq]
  omega

/-- A tile without words in error is read, or a run goes beyond it. -/
theorem readTile_cases {s : State} {c : Cmd} {t : BitVec 3} {rs : List (Nat × Nat)} {f : Tile → State} (hs : ∀ y ∈ s.hereCore.badTiles, y / 256 ≠ t.toNat) :
    readTile c t rs s f = f (s.hereCore.tile t) ∨ (¬ ∀ r ∈ rs, r.1 + r.2 ≤ 2048) ∧ readTile c t rs s f = trapAt c.pc 0x1C3 0 s := by
  unfold readTile
  split
  · next hbad =>
    obtain ⟨r, hr, hrb⟩ := List.any_eq_true.1 hbad
    refine .inr ⟨fun hall => ?_, rfl⟩
    rw [tileBad_of_sound hs (hall r hr)] at hrb
    cases hrb
  · exact .inl rfl

theorem tileWidth_cases (ty : Nat) : tileWidth ty = 32 ∨ tileWidth ty = 16 ∨ tileWidth ty = 8 := by
  unfold tileWidth
  split
  · exact .inl rfl
  · split
    · exact .inr (.inl rfl)
    · exact .inr (.inr rfl)

theorem sixteen_le_columns (ty : Nat) : 16 ≤ 1024 / tileWidth ty := by
  obtain h | h | h := tileWidth_cases ty <;> rw [h] <;> decide

/-- The bytes of an element of a column lie in the tile. -/
theorem column_inside {ty x r : Nat} (hx : x < 1024 / tileWidth ty) (hr : r < 16) : 128 * r + x * tileWidth ty / 8 + tileWidth ty / 8 ≤ 2048 := by
  obtain h | h | h := tileWidth_cases ty <;> rw [h] at hx ⊢ <;> omega

/-- The runs of tile bytes that a column move reads. -/
def columnRuns (c : Cmd) : List (Nat × Nat) :=
  (List.range 16).map fun r => (128 * r + c.x.toNat * tileWidth (cfgType c.cfg) / 8, tileWidth (cfgType c.cfg) / 8)

theorem columnRuns_inside {c : Cmd} (hx : c.x.toNat < 1024 / tileWidth (cfgType c.cfg)) : ∀ r ∈ columnRuns c, r.1 + r.2 ≤ 2048 := by
  unfold columnRuns
  simp only [List.forall_mem_map, List.mem_range]
  exact fun r hr => column_inside hx hr

/-! ## A vector register written by a command (R149) -/

theorem takesM_of_setV {s : State} {i : Instr} {d : BitVec 4} {p : Cmd → Prop} {w : Cmd → VWord}
    (h : ∀ k rest, runMatrix { k with ins := i } (s.takingM rest) = (s.takingM rest).setV d (w k) ∨
      ¬ p k ∧ runMatrix { k with ins := i } (s.takingM rest) = trapAt k.pc 0x1C3 0 (s.takingM rest)) :
    TakesM s i fun k u => p k → u.v d = w k ∧ (∀ r, r ≠ d → u.v r = s.v r) ∧ EngineLeaves s { s.ctx with v := u.ctx.v } u ∧ u.hereCore.tiles = s.hereCore.tiles := by
  refine takesM_of_core fun k rest => (h k rest).imp_left fun hrun => ?_
  have hset : (s.takingM rest).setV d (w k) = s.setHere { s.hereCore with mq := rest, ctxs := s.hereCore.ctxs.set s.cx.toNat (s.ctx.withVector d (w k) 0) } := by
    rw [setV_of_ctx (s.takingM_ctx rest), State.setCtx_eq, State.takingM_hereCore, State.takingM_setHere]
    rfl
  have hleaves : EngineLeaves s (s.ctx.withVector d (w k) 0)
      (s.setHere { s.hereCore with mq := rest, ctxs := s.hereCore.ctxs.set s.cx.toNat (s.ctx.withVector d (w k) 0) }).wakeHere := engineLeaves_setHere rfl rfl
  have hctx := engineLeaves_ctx hleaves
  have hv := v_of_withVector (fl := 0) hctx rfl
  refine ⟨_, hrun.trans hset, rfl, by simp [Ctx.withVector], by rw [hv, if_pos rfl], fun r hr => by rw [hv, if_neg hr]; rfl, ?_, ?_⟩
  · rw [hctx]
    have hfl : s.ctx.withVector d (w k) 0 = { s.ctx with v := (woken (s.ctx.withVector d (w k) 0)).v } := by simp [Ctx.withVector, woken]
    rwa [← hfl]
  · rw [State.wakeHere, State.hereCore_setHere, State.hereCore_setHere]

/-! ## The commands -/

section
variable (s : State) (b a : BitVec 5) (v : BitVec 4) (t : BitVec 3)

theorem runMatrix_tldcol (k : Cmd) (u : State) : runMatrix { k with ins := .tldcol b v t } u =
    readTile k t (columnRuns k) u fun x => u.setTile t (withColumn (tileWidth (cfgType k.cfg)) x.data k.x.toNat k.vec) := rfl

theorem runMatrix_tstrow (k : Cmd) (u : State) : runMatrix { k with ins := .tstrow b v t } u =
    readTile k t [(128 * k.x.toNat, 128)] u fun x => u.setV v (BitVec.ofNat 1024 (elem 1024 k.x.toNat x.data)) := rfl

theorem runMatrix_tstcol (k : Cmd) (u : State) : runMatrix { k with ins := .tstcol b v t } u =
    readTile k t (columnRuns k) u fun x => u.setV v (columnOf (tileWidth (cfgType k.cfg)) x.data k.x.toNat) := rfl

theorem runMatrix_tstore (k : Cmd) (u : State) : runMatrix { k with ins := .tstore b a t } u =
    readTile k t [(0, 2048)] u fun x => u.setHere (storeRows x.data k.x.toNat k.y.toNat (List.range 16) u.hereCore) := rfl

theorem takesM_tile {i : Instr} {x : Cmd → Tile} (h : ∀ k rest, Retiled s rest t (x k) (runMatrix { k with ins := i } (s.takingM rest))) :
    TakesM s i fun k u => u.hereCore.tile t = x k ∧ OnlyTile s t u :=
  takesM_mono (takesM_of_retiled (p := fun _ => True) fun k rest => .inl (h k rest)) fun _ _ hall => hall trivial

theorem tcfg_clears : TakesM s (.tcfg a t) fun _ u => u.hereCore.tile t = { s.hereCore.tile t with data := 0 } ∧ OnlyTile s t u :=
  takesM_tile s t fun _ rest => retiled_renewTile s rest t 0

theorem tzero_clears : TakesM s (.tzero t) fun _ u => u.hereCore.tile t = { s.hereCore.tile t with data := 0 } ∧ OnlyTile s t u :=
  takesM_tile s t fun _ rest => retiled_renewTile s rest t 0

theorem trel_clears : TakesM s (.trel t) fun _ u => u.hereCore.tile t = { s.hereCore.tile t with data := 0, holder := none } ∧ OnlyTile s t u :=
  takesM_tile s t fun _ rest => retiled_released rest (retiled_renewTile s rest t 0)

theorem tload_writes : TakesM s (.tload b a t) fun k u => u.hereCore.tile t = { s.hereCore.tile t with data := BitVec.ofNat 16384 (leNat k.opA) } ∧ OnlyTile s t u :=
  takesM_tile s t fun _ rest => retiled_renewTile s rest t _

theorem tldrow_writes : TakesM s (.tldrow b v t) fun k u =>
    u.hereCore.tile t = { s.hereCore.tile t with data := withRow (s.hereCore.tile t).data k.x.toNat k.vec } ∧ OnlyTile s t u :=
  takesM_tile s t fun k rest => by
    have hdata : (((s.takingM rest).setHere ((s.takingM rest).hereCore.freshTile t (128 * k.x.toNat, 128))).hereCore.tile t).data = (s.hereCore.tile t).data := by
      rw [State.hereCore_setHere, State.takingM_hereCore]
      rfl
    rw [withRow, ← hdata]
    exact retiled_freshTile_setTile s rest t _ _

section
variable (hs : ∀ y ∈ s.hereCore.badTiles, y / 256 ≠ t.toNat)
include hs

/-- A command that reads a tile without words in error: it goes on with the tile, or its runs go beyond it. -/
theorem readTile_takingM_cases {c : Cmd} {rest : List Cmd} {rs : List (Nat × Nat)} {f : Tile → State} :
    readTile c t rs (s.takingM rest) f = f (s.hereCore.tile t) ∨
      (¬ ∀ r ∈ rs, r.1 + r.2 ≤ 2048) ∧ readTile c t rs (s.takingM rest) f = trapAt c.pc 0x1C3 0 (s.takingM rest) := by
  have hcases := readTile_cases (s := s.takingM rest) (c := c) (t := t) (rs := rs) (f := f) (by rwa [State.takingM_hereCore])
  rw [State.takingM_hereCore] at hcases
  exact hcases

theorem tldcol_writes : TakesM s (.tldcol b v t) fun k u => k.x.toNat < 1024 / tileWidth (cfgType k.cfg) →
    u.hereCore.tile t = { s.hereCore.tile t with data := withColumn (tileWidth (cfgType k.cfg)) (s.hereCore.tile t).data k.x.toNat k.vec } ∧ OnlyTile s t u :=
  takesM_of_retiled fun k rest => by
    rw [runMatrix_tldcol]
    refine (readTile_takingM_cases s t hs).imp (fun hread => ?_) fun ⟨hout, htrap⟩ => ⟨fun hx => hout (columnRuns_inside hx), htrap⟩
    rw [hread]
    exact retiled_setTile s rest t _

theorem tstrow_reads : TakesM s (.tstrow b v t) fun k u => k.x.toNat < 16 →
    u.v v = BitVec.ofNat 1024 (elem 1024 k.x.toNat (s.hereCore.tile t).data) ∧ (∀ r, r ≠ v → u.v r = s.v r) ∧ EngineLeaves s { s.ctx with v := u.ctx.v } u ∧
      u.hereCore.tiles = s.hereCore.tiles :=
  takesM_of_setV fun k rest => by
    rw [runMatrix_tstrow]
    exact (readTile_takingM_cases s t hs).imp_right fun ⟨hout, htrap⟩ => ⟨fun hx => hout (List.forall_mem_singleton.2 (by dsimp only; omega)), htrap⟩

theorem tstcol_reads : TakesM s (.tstcol b v t) fun k u => k.x.toNat < 1024 / tileWidth (cfgType k.cfg) →
    u.v v = columnOf (tileWidth (cfgType k.cfg)) (s.hereCore.tile t).data k.x.toNat ∧ (∀ r, r ≠ v → u.v r = s.v r) ∧ EngineLeaves s { s.ctx with v := u.ctx.v } u ∧
      u.hereCore.tiles = s.hereCore.tiles :=
  takesM_of_setV fun k rest => by
    rw [runMatrix_tstcol]
    exact (readTile_takingM_cases s t hs).imp_right fun ⟨hout, htrap⟩ => ⟨fun hx => hout (columnRuns_inside hx), htrap⟩

end

end

end Sys2Proof.Machine
end

section
/-! # A tile stored (06_tile_registers.md R141, R150) -/

namespace Sys2Proof.Machine
open Sys2Proof.Safety

/-! ## Full bits (R208) -/

theorem mem_insertNat {w x : Nat} {l : List Nat} (h : x = w ∨ x ∈ l) : x ∈ insertNat w l := by
  induction l with
  | nil => simpa [insertNat] using h
  | cons y l ih =>
    unfold insertNat
    split
    · exact List.mem_cons.2 h
    · split
      · next hy => exact h.elim (fun hx => by rw [hx, hy]; exact List.mem_cons_self) id
      · obtain hx | hx := h
        · exact List.mem_cons_of_mem _ (ih (.inl hx))
        · exact (List.mem_cons.1 hx).elim (fun he => he ▸ List.mem_cons_self) fun hm => List.mem_cons_of_mem _ (ih (.inr hm))

theorem Core.mem_full_fillWords {w : Nat} {l : List Nat} {k : Core} (h : w ∈ l ∨ w ∈ k.full) : w ∈ (k.fillWords true l).full := by
  induction l generalizing k with
  | nil => exact h.resolve_left (List.not_mem_nil)
  | cons x l ih =>
    rw [List.mem_cons, or_assoc] at h
    obtain h | h | h := h
    · exact ih (.inr (mem_insertNat (.inl h)))
    · exact ih (.inl h)
    · exact ih (.inr (mem_insertNat (.inr h)))

/-- Filling words changes full bits only. -/
theorem Core.fillWords_eq (v : Bool) (l : List Nat) (k : Core) : k.fillWords v l = { k with full := (k.fillWords v l).full, fullFog := (k.fillWords v l).fullFog } := by
  induction l generalizing k with
  | nil => rfl
  | cons w l ih => exact ih (k.setFull w v)

theorem div_mem_wordsOf {a n y : Nat} (h : a ≤ y) (h' : y < a + n) : y / 8 ∈ wordsOf a n := by
  unfold wordsOf
  rw [if_neg (by omega), List.mem_range'_1]
  omega

/-! ## Rows put one after another (R141, R150) -/

/-- The bytes of a row of a tile. -/
def rowBytes (x : BitVec 16384) (r : Nat) : List Byte := (List.range 128).map fun i => BitVec.ofNat 8 (elem 8 (128 * r + i) x)

@[simp] theorem rowBytes_length (x : BitVec 16384) (r : Nat) : (rowBytes x r).length = 128 := by simp [rowBytes]

theorem toNat_rowBytes_getElem (x : BitVec 16384) (r : Nat) {q : Nat} (hq : q < (rowBytes x r).length) : ((rowBytes x r)[q]).toNat = elem 8 (128 * r + q) x := by
  simp only [rowBytes, List.getElem_map, List.getElem_range]
  exact toNat_ofNat_elem ..

/-- A core with one row of a tile put into the scratchpad, its words full. -/
def Core.putRow (k : Core) (x : BitVec 16384) (base pitch r : Nat) : Core :=
  (k.writePad (base + r * pitch) (rowBytes x r)).fillWords true (wordsOf (base + r * pitch) 128)

section
variable (x : BitVec 16384) (base pitch : Nat)

theorem storeRows_cons (r : Nat) (l : List Nat) (k : Core) : storeRows x base pitch (r :: l) k = storeRows x base pitch l (k.putRow x base pitch r) := rfl

theorem Core.putRow_pad (k : Core) (r : Nat) : (k.putRow x base pitch r).pad = k.pad.setBytes (base + r * pitch) (rowBytes x r) := by
  rw [Core.putRow, Core.fillWords_eq]
  rfl

/-- Stored rows change bytes, check bits and full bits of the scratchpad only. -/
theorem storeRows_eq (l : List Nat) (k : Core) : storeRows x base pitch l k = { k with
    pad := (storeRows x base pitch l k).pad, badPad := (storeRows x base pitch l k).badPad, full := (storeRows x base pitch l k).full,
    fullFog := (storeRows x base pitch l k).fullFog } := by
  induction l generalizing k with
  | nil => rfl
  | cons r l ih =>
    rw [storeRows_cons]
    refine (ih (k.putRow x base pitch r)).trans ?_
    have hrow : k.putRow x base pitch r = { k with
        pad := (k.putRow x base pitch r).pad, badPad := (k.putRow x base pitch r).badPad, full := (k.putRow x base pitch r).full,
        fullFog := (k.putRow x base pitch r).fullFog } := by
      unfold Core.putRow
      rw [Core.fillWords_eq]
      rfl
    generalize storeRows x base pitch l (k.putRow x base pitch r) = m
    exact congrArg (fun c : Core => { c with pad := m.pad, badPad := m.badPad, full := m.full, fullFog := m.fullFog }) hrow

variable {x base pitch} {l : List Nat} {k : Core}

theorem storeRows_byte_outside {y : Nat} (h : ∀ r ∈ l, y < base + r * pitch ∨ base + r * pitch + 128 ≤ y) : (storeRows x base pitch l k).pad.byte y = k.pad.byte y := by
  induction l generalizing k with
  | nil => rfl
  | cons r l ih =>
    rw [storeRows_cons, ih fun r' hr' => h r' (List.mem_cons_of_mem _ hr'), Core.putRow_pad]
    exact Mem.byte_setBytes_out _ _ _ _ (by rw [rowBytes_length]; exact h r List.mem_cons_self)

theorem storeRows_full {w : Nat} (h : (∃ r ∈ l, w ∈ wordsOf (base + r * pitch) 128) ∨ w ∈ k.full) : w ∈ (storeRows x base pitch l k).full := by
  induction l generalizing k with
  | nil => exact h.resolve_left (by simp)
  | cons r l ih =>
    rw [storeRows_cons]
    obtain ⟨r', hr', hw⟩ | hw := h
    · obtain rfl | hr' := List.mem_cons.1 hr'
      · exact ih (.inr (Core.mem_full_fillWords (.inl hw)))
      · exact ih (.inl ⟨r', hr', hw⟩)
    · exact ih (.inr (Core.mem_full_fillWords (.inr hw)))

/-- Of rows put in rising order, a byte keeps the value of the last row that covers it. -/
theorem storeRows_byte_inside {r q : Nat} (hl : l.Pairwise (· < ·)) (hr : r ∈ l) (hq : q < 128)
    (hlast : ∀ r' ∈ l, r < r' → base + r * pitch + q < base + r' * pitch ∨ base + r' * pitch + 128 ≤ base + r * pitch + q) :
    ((storeRows x base pitch l k).pad.byte (base + r * pitch + q)).toNat = elem 8 (128 * r + q) x := by
  induction l generalizing k with
  | nil => cases hr
  | cons r' l ih =>
    obtain ⟨hlt, hl⟩ := List.pairwise_cons.1 hl
    rw [storeRows_cons]
    obtain rfl | hr := List.mem_cons.1 hr
    · rw [storeRows_byte_outside fun r' hr' => hlast r' (List.mem_cons_of_mem _ hr') (hlt r' hr'), Core.putRow_pad,
        Mem.byte_setBytes_in _ _ _ _ (by rwa [rowBytes_length])]
      exact toNat_rowBytes_getElem ..
    · exact ih hl hr fun r'' hr'' => hlast r'' (List.mem_cons_of_mem _ hr'')

end

/-! ## tstore -/

theorem setHere_wakeHere_elsewhere (s : State) (k : Core) : ElsewhereSame s (s.setHere k).wakeHere :=
  elsewhereSame_trans (t := s.setHere k) rfl (elsewhereSame_setHere s k) (elsewhereSame_setHere _ _)

/-- The scratchpad and the full bits of the core in focus are those of stored rows; tiles, contexts and the rest of the part are as they were, the contexts woken. -/
def RowsStored (s : State) (x : BitVec 16384) (base pitch : Nat) (u : State) : Prop :=
  (∃ k : Core, k.pad = s.hereCore.pad ∧ u.hereCore.pad = (storeRows x base pitch (List.range 16) k).pad ∧ u.hereCore.full = (storeRows x base pitch (List.range 16) k).full) ∧
    u.hereCore.tiles = s.hereCore.tiles ∧ (∀ y, u.ctxAt y = woken (s.ctxAt y)) ∧ ElsewhereSame s u

theorem tstore_stores (s : State) (b a : BitVec 5) (t : BitVec 3) (hs : ∀ y ∈ s.hereCore.badTiles, y / 256 ≠ t.toNat) :
    TakesM s (.tstore b a t) fun k u => RowsStored s (s.hereCore.tile t).data k.x.toNat k.y.toNat u := by
  refine takesM_mono (takesM_of_core (p := fun _ => True) (q := fun k => RowsStored s (s.hereCore.tile t).data k.x.toNat k.y.toNat) fun k rest => ?_) fun _ _ h => h trivial
  have hrun : runMatrix { k with ins := .tstore b a t } (s.takingM rest) =
      s.setHere (storeRows (s.hereCore.tile t).data k.x.toNat k.y.toNat (List.range 16) { s.hereCore with mq := rest }) := by
    have hin : ∀ r ∈ [(0, 2048)], r.1 + r.2 ≤ 2048 := by simp
    rw [runMatrix_tstore, (readTile_takingM_cases s t hs).resolve_right fun ⟨hout, _⟩ => hout hin, State.takingM_hereCore, State.takingM_setHere]
  have heq := storeRows_eq (s.hereCore.tile t).data k.x.toNat k.y.toNat (List.range 16) { s.hereCore with mq := rest }
  have hctxs : (storeRows (s.hereCore.tile t).data k.x.toNat k.y.toNat (List.range 16) { s.hereCore with mq := rest }).ctxs = s.hereCore.ctxs := by rw [heq]
  refine .inl ⟨_, hrun, by rw [heq], by simp only [hctxs]; rfl, ⟨{ s.hereCore with mq := rest }, rfl, ?_, ?_⟩, ?_, fun y => ?_, setHere_wakeHere_elsewhere ..⟩
  · rw [State.wakeHere_pad, State.hereCore_setHere]
  · rw [State.wakeHere, State.hereCore_setHere, State.hereCore_setHere]
  · rw [State.wakeHere, State.hereCore_setHere, State.hereCore_setHere, heq]
  · rw [State.wakeHere_ctxAt, State.ctxAt_setHere]
    simp only [hctxs]
    rfl

section
variable {s u : State} {x : BitVec 16384} {base pitch : Nat} (h : RowsStored s x base pitch u)
include h

theorem rowsStored_inside {r q : Nat} (hr : r < 16) (hq : q < 128)
    (hlast : ∀ r' q', r < r' → r' < 16 → q' < 128 → base + r' * pitch + q' ≠ base + r * pitch + q) :
    (u.hereCore.pad.byte (base + r * pitch + q)).toNat = elem 8 (128 * r + q) x ∧ u.hereCore.isFull ((base + r * pitch + q) / 8) = true := by
  obtain ⟨⟨k, -, hpad, hfull⟩, -⟩ := h
  have hmem : (base + r * pitch + q) / 8 ∈ u.hereCore.full := by
    rw [hfull]
    exact storeRows_full (.inl ⟨r, List.mem_range.2 hr, div_mem_wordsOf (by omega) (by omega)⟩)
  refine ⟨?_, by simp [Core.isFull, hmem]⟩
  rw [hpad]
  refine storeRows_byte_inside List.pairwise_lt_range (List.mem_range.2 hr) hq fun r' hr' hlt => ?_
  by_contra hcover
  rw [not_or, not_lt, not_le] at hcover
  exact hlast r' (base + r * pitch + q - (base + r' * pitch)) hlt (List.mem_range.1 hr') (by omega) (by omega)

theorem rowsStored_outside {y : Nat} (hy : ∀ r < 16, y < base + r * pitch ∨ base + r * pitch + 128 ≤ y) : u.hereCore.pad.byte y = s.hereCore.pad.byte y := by
  obtain ⟨⟨k, hk, hpad, -⟩, -⟩ := h
  rw [hpad, storeRows_byte_outside fun r hr => hy r (List.mem_range.1 hr), hk]

end

end Sys2Proof.Machine

open Sys2Proof Sys2Proof.Machine Sys2Proof.Safety

/-- Settles O47: the checks at issue pass or name their trap, the command enters the queue with what it reads, and the engine writes the one tile, vector register or
run of rows that it names. -/
theorem tileRegisters : Obligations.TileRegisters := by
  unfold Obligations.TileRegisters
  rintro s b a v t c n w issued data only rfl hw rfl hissued hdata honly
  obtain rfl : w = tileWidth (cfgType (s.hereCore.tile t).cfg) := hw
  obtain rfl : issued = IssuesM s := funext fun i => funext fun k => propext (hissued i k)
  obtain rfl : only = OnlyTile s t := funext fun u => propext (honly u)
  refine ⟨unheld_traps, tcfg_unordered, fun hord => ⟨tcfg_badConfiguration hord, fun hok hroom hfree => ?claims, fun hok hn hheld => ?waits⟩, fun h hroom => ?issues,
    takesM_mono (tcfg_clears s a t) ?cleared, takesM_mono (tzero_clears s t) ?cleared, takesM_mono (trel_clears s t) ?released,
    takesM_mono (tldrow_writes s b v t) ?row, takesM_mono (tload_writes s b a t) ?load, fun hs => ⟨takesM_mono (tldcol_writes s b v t hs) ?column,
      takesM_mono (tstrow_reads s b v t hs) ?rowOut, takesM_mono (tstcol_reads s b v t hs) ?columnOut, takesM_mono (tstore_stores s b a t hs) ?store⟩,
    twait_continues, fun h => ⟨_, twait_waits h, rfl⟩⟩
  case claims =>
    obtain ⟨u, k, hu, htiles, hrest⟩ := tcfg_takes hord hok hroom hfree
    have htile := Core.tile_of_set htiles
    exact ⟨u, k, hu, by rw [htile, if_pos rfl], fun x hx => by rw [htile, if_neg hx], hrest⟩
  case waits =>
    obtain ⟨u, hu, hctx, htiles⟩ := tcfg_waits hord hok hn hheld
    exact ⟨u, hu, hctx, fun x => by simp only [Core.tile, htiles]⟩
  case issues =>
    refine ⟨trel_issues h hroom, tzero_issues h hroom, rowMoves_issue h hroom, columnMoves_issue h hroom, tldrow_beyond h, fun hb hty => tldcol_beyond h hty hb,
      fun hb hty => tstcol_ternary h hty hb, fun p hp hlt hal hbase hwin => ?_⟩
    have hpitch := pitchOf_eq hp hlt hal
    exact ⟨fun hz hl => tload_issues h hroom hpitch hbase hwin hz (fun r hr => (hl r hr).1) fun r hr => (hl r hr).2,
      fun hz hl hsave => tstore_issues h hroom hpitch hbase hwin hz hl hsave⟩
  case cleared =>
    rintro k u ⟨htile, hu⟩
    exact ⟨by rw [htile], by rw [htile], hu⟩
  case released =>
    rintro k u ⟨htile, hu⟩
    exact ⟨by rw [htile], by rw [htile], hu⟩
  case row =>
    rintro k u ⟨htile, hu⟩ -
    exact ⟨fun j hj => by rw [hdata, hdata, htile]; exact elem_withRow _ _ _ hj, hu⟩
  case load =>
    rintro k u ⟨htile, hu⟩ -
    exact ⟨fun j hj => by rw [hdata, htile]; exact elem_ofNat_leNat (by omega) _, hu⟩
  case column =>
    intro k u hall hcfg hx
    rw [hcfg] at hall
    obtain ⟨htile, hu⟩ := hall hx
    exact ⟨fun j hj => by rw [hdata, hdata, htile]; exact elem_withColumn _ _ _ hj, hu⟩
  case rowOut =>
    intro k u hall hx
    obtain ⟨hv, hrest⟩ := hall hx
    exact ⟨by rw [hdata, hv, toNat_ofNat_elem], hrest⟩
  case columnOut =>
    intro k u hall hcfg hx
    rw [hcfg] at hall
    obtain ⟨hv, hrest⟩ := hall hx
    have hlong : 16 ≤ 1024 / tileWidth (cfgType (s.hereCore.tile t).cfg) := sixteen_le_columns _
    exact ⟨fun r hr => by rw [hdata, hv, elem_columnOf _ _ (by omega), if_pos hr], fun r hr hn => by rw [hv, elem_columnOf _ _ hn, if_neg (by omega)], hrest⟩
  case store =>
    intro k u h
    obtain ⟨-, htiles, hctx, hsame⟩ := id h
    exact ⟨fun r q hr hq hlast => hdata s 8 _ ▸ rowsStored_inside h hr hq hlast, fun y hy => rowsStored_outside h hy, htiles, hctx, hsame⟩
end
